-- ==== Sys2Proof/Word.lean ====
section
/-! DEFINITION. The word types of the module: bytes, the 8 B unit of single-copy atomicity (R78), command words (R86),
tile descriptors and frame headers (R94, R218). -/

namespace Sys2Proof

/-- One byte of memory. -/
abbrev Byte := BitVec 8

/-- A 32-bit scalar register, counter or lane (R68). -/
abbrev W32 := BitVec 32

/-- A 64-bit register, address or dictionary value. -/
abbrev W64 := BitVec 64

/-- A command word, tile descriptor or frame header is held as one number of its width (R86, R94, R218). -/
abbrev W128 := BitVec 128
abbrev W256 := BitVec 256
abbrev W512 := BitVec 512

/-- Bits [hi:lo] of a number, as the field tables of the manual name them (hi is the most significant bit). -/
def fieldOf (hi lo v : Nat) : Nat := v / 2 ^ lo % 2 ^ (hi + 1 - lo)

end Sys2Proof
end

