-- ==== Sys2Proof/Syntax.lean ====
section
/-! DEFINITION. The commands of the module: one constructor per row of spec/opcode_table.json, with the row's operands.
A command of a thread (R97–R102) names the thread slot: its 128-bit word is the one the slot's command pointer selects in the
active program bank (R87, R88), so the operands come from the program store. A row driven by time carries `at_`, the fabric time
(ns) at which it happens. A row of the dictionary carries the requester context `c` (R381). -/

namespace Sys2Proof

/-- A thread slot: logical cell 0–1,048,575 and thread number 0–3 (R26). -/
structure SlotId where
  cell : Nat
  thread : Nat
  deriving DecidableEq, Repr

/-- A requester context (R381): the BAR0 window, one host queue pair, one source node of the fabric path, or one source MAC
address of the field path. -/
inductive Ctx where
  | bar0
  | qp (q : Nat)
  | node (n : Nat)
  | field (mac : Nat)
  deriving DecidableEq, Repr

/-- The link header that precedes a frame (R343): sequence number, replay flag and channel. -/
structure LinkHeader where
  seq : Nat
  replay : Bool
  tc : Nat
  response : Bool
  sub : Nat
  deriving DecidableEq, Repr

/-- What one side of a link sends in training (R342, R347): node identifier, link number, whether it is a split half and which lanes it
works, the direction it has assigned to its link once its geometry is committed, the next sequence number it expects, and whether it
resumes a replay of frames it holds. -/
structure PartnerId where
  node : Nat
  link : Nat
  split : Bool
  upperHalf : Bool
  lanes : Byte
  committed : Bool
  assigned : Option (Nat × Bool)
  nextExpected : Nat
  replays : Bool
  deriving DecidableEq, Repr

/-- One laser unit as Scarab measures it in a bias adjustment (R350): the bias, per mille of beginning of life, that meets the
target, whether that bias meets it at all (light given, at most 160 %), and the hours lit. -/
structure LaserReading where
  wavelength : Nat
  unit : Nat
  bias : Nat
  meets : Bool
  hours : Nat
  deriving DecidableEq, Repr

/-- Why the host port is reset (R372). A link that went down has trained again at a speed, 1 for 2.5 GT/s to 5 for 32 GT/s, and a width
(R356, R376). -/
inductive HostResetCause where
  | flr
  | hotReset
  | linkDown (speed width : Nat)
  deriving DecidableEq, Repr

/-- What a host request names: BAR2 (R359), BAR0 (R358) or the configuration space (R356). -/
inductive HostTarget where
  | bar2
  | bar0
  | config
  deriving DecidableEq, Repr

/-- Where a host request begins: an offset in what it names. -/
structure HostOffset where
  target : HostTarget
  offset : Nat
  deriving DecidableEq, Repr

/-- The data of a host write, and whether it came poisoned (R371). -/
structure HostData where
  bytes : List Byte
  poisoned : Bool
  deriving DecidableEq, Repr

/-- How a read of host memory by the module fails (R368, R371). -/
inductive HostReadFailure where
  | timeout
  | unsupported
  | abort
  | poisoned
  deriving DecidableEq, Repr

/-- When a read of host memory by the module has failed, and how. -/
structure HostReadEnd where
  at_ : Nat
  how : HostReadFailure
  deriving DecidableEq, Repr

/-- What start-up finds (R439, R452, R463, R464): hives and engines that pass, links of the hives that train, physical combs that
fail their self-test, whether each firmware slot's public key and signature are good, and the digests measured. -/
structure SelfTest where
  hivesPass : Nat
  enginesPass : Nat
  combFailures : List (Nat × Nat)
  deriving DecidableEq, Repr

/-- What a scrub read finds in the word or codeword it reads (R460): clean, an error it corrects, or an error beyond correction. -/
inductive ScrubFinding where
  | clean
  | corrected
  | uncorrectable
  deriving DecidableEq, Repr

/-- The readings of one measurement tick of the island (R409–R412): resistances in ohm (none: open),
voltages in V, currents in mA, the ages in ns of the flow pulses since the last tick, newest first; and the pin conditions that R412 detects
directly. -/
structure FieldReadings where
  fieldVolts : Rat
  rtd1AC : Option Rat
  rtd1AB : Rat
  rtd1PinAbove5 : Bool
  rtd2AC : Option Rat
  rtd2AB : Rat
  rtd2PinAbove5 : Bool
  flowPulses : List Nat
  flowAbove20 : Bool
  leakOhm : Option Nat
  leakPinAbove5 : Bool
  valveMilliamp : Rat
  valveVolts : Rat
  valvePinAbove30 : Bool
  svcOverload : Bool
  t1sShort : Bool
  t1sAtSupply : Bool
  t1sOpen : Bool
  deriving DecidableEq, Repr

/-- The figures of a telemetry sample that the module measures (R468, code 0x0001), as their stored bit patterns. -/
structure SampleFigures where
  inputPower : W32
  hottest : BitVec 16
  slots : W32
  hbmMiB : W32
  opticalMiB : W32
  deriving DecidableEq, Repr

/-- The commands: one constructor per row of the opcode table. -/
inductive Instr where
  /-- NOP (R97). Control command that does nothing. -/
  | nop (s : SlotId)
  /-- SKIP (R103). Moves the command pointer forward by n+1 and may end the current loop iteration. -/
  | skip (s : SlotId)
  /-- LOOP (R104). Opens hardware loop N over the next L commands with a latched count. -/
  | loop (s : SlotId)
  /-- BREAK (R104). Leaves the innermost active loop. -/
  | break_ (s : SlotId)
  /-- HALT (R97). Ends the thread with the reason in its modifier and frees the slot. -/
  | halt (s : SlotId)
  /-- YIELD (R108). Lets every other ready thread of the cell issue once before this thread issues again. -/
  | yield (s : SlotId)
  /-- WAIT_SIGNAL (R108). WAIT kind 0b00 waits for the slot's signal count to reach at least 1. -/
  | waitSignal (s : SlotId)
  /-- WAIT_MEMORY (R108). WAIT kind 0b01 checks its address and waits for a 4 B word to meet a comparison. -/
  | waitMemory (s : SlotId)
  /-- WAIT_TIME (R108). WAIT kind 0b10 waits until fabric time reaches a value. -/
  | waitTime (s : SlotId)
  /-- SIGNAL_WAIT_END (R108). A waiting signal wait ends after a SIGNAL reaches its slot and decrements the count. -/
  | signalWaitEnd (s : SlotId)
  /-- MEMORY_WAIT_REREAD (R108). The cell re-reads a memory-wait word at an interval of at most 1 µs and ends the wait if it matches. -/
  | memoryWaitReread (s : SlotId)
  /-- TIME_WAIT_END (R108). A time wait ends when fabric time reaches its value. -/
  | timeWaitEnd (s : SlotId) (at_ : Nat)
  /-- WAIT_TIMEOUT (R108). A wait with a non-zero timeout ends when the timeout expires and writes 0 to its predicate. -/
  | waitTimeout (s : SlotId) (at_ : Nat)
  /-- SIGNAL (R108). Adds 1 to the signal count of a target thread slot on this module. -/
  | signal (s : SlotId)
  /-- FENCE (R80). Orders the thread's accesses at local or system scope. -/
  | fence (s : SlotId)
  /-- MOV (R98). Copies a value between registers, counters, predicates or an immediate. -/
  | mov (s : SlotId)
  /-- ADD (R98). 32-bit wrapping addition. -/
  | add (s : SlotId)
  /-- SUB (R98). 32-bit wrapping subtraction. -/
  | sub (s : SlotId)
  /-- MUL (R98). Low 32 bits of a 32-bit product. -/
  | mul (s : SlotId)
  /-- LOGIC (R98). Bitwise and, or, xor or and-not. -/
  | logic (s : SlotId)
  /-- SHIFT (R98). Left, logical right or arithmetic right shift. -/
  | shift (s : SlotId)
  /-- CMP (R106). Sets comparator flags and optionally a predicate from a mask. -/
  | cmp (s : SlotId)
  /-- PLOGIC (R98). Predicate logic. -/
  | plogic (s : SlotId)
  /-- NEXT (R107). Delivers the thread's next work item into c0. -/
  | next (s : SlotId)
  /-- DSET (R98). Writes one field of a tile descriptor. -/
  | dset (s : SlotId)
  /-- DOFF (R98). Copies a descriptor with an offset added to its base. -/
  | doff (s : SlotId)
  /-- LOAD (R99). Raw copy of a tile from global memory to the pad. -/
  | load (s : SlotId)
  /-- STORE (R99). Raw copy of a tile from the pad to global memory. -/
  | store (s : SlotId)
  /-- GATHER (R109). Gathers table rows by a 4-byte integer index tile. -/
  | gather (s : SlotId)
  /-- SCATTER (R109). Scatters rows into a table by an index tile. -/
  | scatter (s : SlotId)
  /-- LDR (R99). Loads a naturally aligned 4 B or 8 B word into a register. -/
  | ldr (s : SlotId)
  /-- STR (R99). Stores a naturally aligned 4 B or 8 B register value. -/
  | str (s : SlotId)
  /-- ATOM (R81). Atomic ADD, MAX, MIN or CAS at the owning memory controller, returning the old value. -/
  | atom (s : SlotId)
  /-- ALLOC (R210). Takes a buffer from a pool, falling back to larger pools, or returns 0. -/
  | alloc (s : SlotId)
  /-- FREE (R211). Returns a buffer to its pool after the ordered checks. -/
  | free (s : SlotId)
  /-- DLOAD (R99). Loads consecutive tile descriptors from memory. -/
  | dload (s : SlotId)
  /-- COPY (R99). Raw copy of a tile from memory to memory. -/
  | copy (s : SlotId)
  /-- MMA (R152). Dense tensor multiply-accumulate in the reference order, speculative if modifier [1] is set. -/
  | mma (s : SlotId)
  /-- MMA24 (R126). Tensor multiply with 2:4 structured weights as operand b. -/
  | mma24 (s : SlotId)
  /-- MMASA (R131). Tensor multiply with bitmap or index-list sparse activations as operand a. -/
  | mmasa (s : SlotId)
  /-- PREDICT (R136). Mantis scores a tile and writes a verdict mask that becomes the thread's current prediction. -/
  | predict (s : SlotId)
  /-- COMMIT (R142). Releases a held speculative tile, replaying it under VERIFIED when a sampled entry is active. -/
  | commit (s : SlotId)
  /-- PACK (R127). Converts a dense tile to a 2:4 tile and counts pruned non-zeros. -/
  | pack (s : SlotId)
  /-- VOP (R101). Lane-wise integer or logic operation on vector registers. -/
  | vop (s : SlotId)
  /-- VCMP (R106). Lane-wise compare writing a lane mask and optionally a predicate. -/
  | vcmp (s : SlotId)
  /-- VSEL (R101). Bitwise select between two vector registers by a mask register. -/
  | vsel (s : SlotId)
  /-- VSHUF (R101). Byte permutation of a vector register. -/
  | vshuf (s : SlotId)
  /-- VFMA (R101). Lane-wise fused multiply-add rounded once under RNE. -/
  | vfma (s : SlotId)
  /-- VSFU (R101). FP16 exp, log, reciprocal or rsqrt per lane. -/
  | vsfu (s : SlotId)
  /-- VCVT (R101). Converts block-free elements between formats in a vector register. -/
  | vcvt (s : SlotId)
  /-- TCVT (R183). Converts a tile, with block or tensor scaling, optional split and SR, contributing to its tensor record. -/
  | tcvt (s : SlotId)
  /-- TEW (R101). Element-wise tile add, sub, mul, fma, max or min. -/
  | tew (s : SlotId)
  /-- TRED (R157). Row reduction by the fixed binary tree. -/
  | tred (s : SlotId)
  /-- TTOPK (R110). Selects the k largest values of each row with their column indices. -/
  | ttopk (s : SlotId)
  /-- PUT (R102). Copies a local tile to a destination on any node. -/
  | put (s : SlotId)
  /-- GET (R102). Copies a tile from any node to a local destination. -/
  | get (s : SlotId)
  /-- SEND (R244). Sends one MESSAGE or STREAM frame from a header template and payload. -/
  | send (s : SlotId)
  /-- CPOST (R316). Posts a collective from a post record to the group's sequencer. -/
  | cpost (s : SlotId)
  /-- DISPATCH (R293). Sends one dispatch frame per token part to the context's stream engine. -/
  | dispatch (s : SlotId)
  /-- SATTACH (R274). Attaches a stream to a stream-engine program from an attach record. -/
  | sattach (s : SlotId)
  /-- SEED (R172). Sets the 64-bit seed of a tensor ID. -/
  | seed (s : SlotId)
  /-- STEP (R102). Advances the step counter if it equals the expected value, with its resets. -/
  | step (s : SlotId)
  /-- SCALE (R184). Returns a tensor record's scale code and reports a tile's amax. -/
  | scale (s : SlotId)
  /-- TIME (R102). Returns fabric time. -/
  | time (s : SlotId)
  /-- IDENT (R102). Returns an identity value chosen by selector. -/
  | ident (s : SlotId)
  /-- SPEC_MULTIPLY_ROOM_START (R140). A speculative multiply waiting for commit-buffer room starts once room is freed. -/
  | specMultiplyRoomStart (s : SlotId)
  /-- LAUNCH_PORT_POST (R75). A thread's 8 B store to offset 0x18 of its launch port posts a launch descriptor. -/
  | launchPortPost (s : SlotId) (data : W64)
  /-- THREAD_START (R72). An accepted launch starts its threads on a comb once the slots are free and the comb awake. -/
  | threadStart (launch comb : Nat)
  /-- LAUNCH_COMPLETE (R73). After the last thread halts and its writes are performed, the completion record is written. -/
  | launchComplete (launch : Nat)
  /-- COMB_GATE (R83). An idle comb power-gates after the idle time expires. -/
  | combGate (comb : Nat) (at_ : Nat)
  /-- COMB_FAILURE (R61). A physical comb fails, its threads halt with 0x3F and a move is scheduled. -/
  | combFailure (comb : Nat)
  /-- COMB_MOVE (R27). A drained logical comb's near store is copied to a spare and the map switched. -/
  | combMove (comb spare : Nat)
  /-- HIVE_FAILURE (R28). A hive fails and its ranges fault while the rest keep working. -/
  | hiveFailure (hive : Nat)
  /-- BANK_SWAP_REQUEST (R117). A write to 2020.01 requests a bank swap for a range of combs. -/
  | bankSwapRequest (c : Ctx) (v : W64)
  /-- BANK_SWAP (R117). A comb swaps its active bank after earlier accepted writes are performed. -/
  | bankSwap (comb : Nat)
  /-- DEBUG_PROGRAM_WRITE (R120). Service debug write of one command, marking an active bank altered. -/
  | debugProgramWrite (c : Ctx) (data : List Byte)
  /-- BAR2_READ (R359). Host read through the movable window to a global address. A host read of BAR0 (R358) or of the configuration space
  (R356), for which the table has no row, is this row with another target (log entry 9). -/
  | bar2Read (offset : HostOffset) (length : Nat)
  /-- BAR2_WRITE (R359). Host posted write through the movable window; likewise a host write of BAR0 or of the configuration space. -/
  | bar2Write (offset : HostOffset) (data : HostData)
  /-- BAR2_REMOTE_READ_TIMEOUT (R359). A remote BAR2 read unanswered for 5 ms completes with Completer Abort. -/
  | bar2RemoteReadTimeout (tag : Nat) (at_ : Nat)
  /-- WINDOW_BASE_WRITE (R360). Sets the BAR2 window base for later requests. -/
  | windowBaseWrite (v : W64)
  /-- QUEUE_PAIR_ENABLE (R362). Enabling a queue pair resets its indices and phase or faults on bad configuration. -/
  | queuePairEnable (q : Nat) (v : W512)
  /-- QUEUE_PAIR_DISABLE (R362). Clearing enable moves a queue pair to draining. -/
  | queuePairDisable (q : Nat)
  /-- QUEUE_PAIR_DRAINED (R362). A draining pair becomes disabled once its started entries complete. -/
  | queuePairDrained (q : Nat)
  /-- SQ_TAIL_DOORBELL (R363). Host writes a new SQ tail, starting entries or faulting the pair. -/
  | sqTailDoorbell (q : Nat) (v : W64)
  /-- CQ_HEAD_DOORBELL (R363). Host releases CQ entries below the new head. -/
  | cqHeadDoorbell (q : Nat) (v : W64)
  /-- SQ_NOP (R365). Queue entry that completes when read. -/
  | sqNop (q : Nat)
  /-- SQ_DMA_TO_MODULE (R366). DMA from host memory to a global address. -/
  | sqDmaToModule (q : Nat)
  /-- SQ_DMA_TO_HOST (R366). DMA from a global address to host memory. -/
  | sqDmaToHost (q : Nat)
  /-- SQ_LAUNCH (R365). Queue entry that posts a launch descriptor. -/
  | sqLaunch (q : Nat)
  /-- SQ_POST (R365). Queue entry that posts a collective. -/
  | sqPost (q : Nat)
  /-- SQ_DICTIONARY (R389). Queue entry that carries a dictionary message. -/
  | sqDictionary (q : Nat)
  /-- SQ_FREE (R365). Queue entry that frees a buffer. -/
  | sqFree (q : Nat)
  /-- SQ_ENTRY_COMPLETE (R367). A started entry completes and its CQ entry is written once a slot is released. -/
  | sqEntryComplete (q entry : Nat)
  /-- HOST_RECEIVE_FRAME (R369). A MESSAGE or MIRROR frame for a host queue pair is placed in a receive buffer with a CQ entry. -/
  | hostReceiveFrame (tc : Nat)
  /-- HOST_RECEIVE_TIMEOUT (R369). A lossless frame without buffer or CQ slot for 1 ms is discarded. -/
  | hostReceiveTimeout (tc : Nat) (at_ : Nat)
  /-- HOST_PORT_RESET (R372). FLR, hot reset or link-down resets the host port and its queue pairs. -/
  | hostPortReset (cause : HostResetCause)
  /-- PERST_ASSERT (R439). PERST# holds the host port, and optionally the module, in reset. -/
  | perstAssert
  /-- PCIE_L1_ENTRY (R373). The link enters L1 after 16 µs without TLPs. -/
  | pcieL1Entry (at_ : Nat)
  /-- DICT_READ (R382). READ item of a dictionary message. -/
  | dictRead (c : Ctx) (index subindex offset length : Nat)
  /-- DICT_WRITE (R382). WRITE item of a dictionary message. -/
  | dictWrite (c : Ctx) (index subindex offset : Nat) (data : List Byte)
  /-- DICT_DESCRIBE (R385). DESCRIBE item returning an entry's description. -/
  | dictDescribe (c : Ctx) (index subindex : Nat)
  /-- DICT_DESCRIBE_NEXT (R384). DESCRIBE NEXT item describing the next defined entry. -/
  | dictDescribeNext (c : Ctx) (index subindex : Nat)
  /-- DICT_WINDOW_GO (R388). A write of the request length to the BAR0 go register starts a message. -/
  | dictWindowGo (length : W32)
  /-- MANAGEMENT_FRAME (R390). A forwarded dictionary message is performed at the target in the source's fabric context. -/
  | managementFrame
  /-- MANAGEMENT_RESULT_FRAME (R390). A remote dictionary response is written back to the host. -/
  | managementResultFrame
  /-- DICT_REMOTE_TIMEOUT (R390). A forwarded message unanswered for 10 ms fails with status 0x04. -/
  | dictRemoteTimeout (tag : Nat) (at_ : Nat)
  /-- VDP_FRAME (R391). A field-network VDP request frame is checked and performed or answered from the kept response. -/
  | vdpFrame (mac : Nat) (payload : List Byte)
  /-- UNLOCK_CHALLENGE_READ (R393). Reading 1030.01 creates a fresh nonce challenge for the context. -/
  | unlockChallengeRead (c : Ctx)
  /-- UNLOCK_RESPONSE_WRITE (R393). A signed response raises the context's role if it verifies. -/
  | unlockResponseWrite (c : Ctx) (data : List Byte)
  /-- CHALLENGE_EXPIRY (R393). An unused challenge expires 60 s after it was read. -/
  | challengeExpiry (c : Ctx) (at_ : Nat)
  /-- LOCK_WRITE (R394). Writing 0x01 to 1030.04 returns the context to operator. -/
  | lockWrite (c : Ctx) (v : Byte)
  /-- ROLE_TIMEOUT (R394). A raised role lapses after 30 minutes without a request. -/
  | roleTimeout (c : Ctx) (at_ : Nat)
  /-- STORE_COMMIT (R396). Takes every RWS value in force into the other configuration slot. -/
  | storeCommit (c : Ctx)
  /-- STORE_COMMIT_DONE (R396). The commit's image is written and verified and the store status leaves busy. -/
  | storeCommitDone (verified : Bool)
  /-- STORE_REVERT (R396). Writes every RWS value in force with its stored value or default. -/
  | storeRevert (c : Ctx)
  /-- STORE_CLEAR (R396). Writes an empty image so the next reset loads defaults. -/
  | storeClear (c : Ctx)
  /-- REGISTER_WRITE (R382). A write to a dictionary entry that has no row of its own, including counter clears. -/
  | registerWrite (c : Ctx) (index subindex offset : Nat) (data : List Byte)
  /-- RECORD_BIND (R193). Binds a tensor record to a tensor ID or changes its mode bits. -/
  | recordBind (c : Ctx) (v : W64)
  /-- RECORD_UNBIND (R193). Returns a tensor record to all zero. -/
  | recordUnbind (c : Ctx) (v : W64)
  /-- RECORD_CLEAR_ALARMS (R193). Clears the alarm bits of a tensor record. -/
  | recordClearAlarms (c : Ctx) (v : W64)
  /-- SCALE_EXPORT (R187). Rolls and writes all tensor records to an image. -/
  | scaleExport (c : Ctx)
  /-- SCALE_IMPORT (R187). Checks an image and replaces all tensor records. -/
  | scaleImport (c : Ctx)
  /-- SCALE_TRANSFER_DONE (R187). An export or import finishes and reports its status. -/
  | scaleTransferDone
  /-- HBM_ROW_REPAIR (R201). Scarab copies a candidate row to a spare and remaps it. -/
  | hbmRowRepair (row : Nat)
  /-- POOL_RECORD_WRITE (R207). Configures, enables or disables a buffer pool. -/
  | poolRecordWrite (c : Ctx) (pool : Nat) (v : W256)
  /-- POOL_INIT_COMPLETE (R208). An initialising pool finishes writing its ring and bitmap and becomes enabled. -/
  | poolInitComplete (pool : Nat)
  /-- FRAME_HEADER_CONFIRM (R227). An arriving header is checked and the frame routed, queued, cut through or discarded. -/
  | frameHeaderConfirm (link : Nat) (lh : LinkHeader) (header : W256)
  /-- FRAME_TRAILER_ARRIVAL (R223). The trailer is checked and the frame confirmed, stomped or discarded. -/
  | frameTrailerArrival (link : Nat) (payload : List Byte) (trailer : W64) (codewordOk : Bool)
  /-- PUT_FRAME (R242). A PUT frame is written at the target and acknowledged. -/
  | putFrame (port tc : Nat)
  /-- GET_FRAME (R242). A GET frame is served with GET DATA frames. -/
  | getFrame (port tc : Nat)
  /-- GET_DATA_FRAME (R242). Returned data is written to the requester's return address. -/
  | getDataFrame (port tc : Nat)
  /-- ATOMIC_FRAME (R242). A remote atomic is performed at the target and its old value returned. -/
  | atomicFrame (port tc : Nat)
  /-- ATOMIC_RESULT_FRAME (R242). The old value of a remote atomic returns to the requester. -/
  | atomicResultFrame (port tc : Nat)
  /-- ACK_FRAME (R243). Returned tags mark PUTs as acknowledged. -/
  | ackFrame (port tc : Nat)
  /-- ACK_COALESCE_TIMEOUT (R243). A target sends its coalesced ACK once a tag has been held 1 µs. -/
  | ackCoalesceTimeout (node tc : Nat) (at_ : Nat)
  /-- ERROR_FRAME (R243). A failed remote request reaches its issuer as a remote fault. -/
  | errorFrame (port tc : Nat)
  /-- FREE_FRAME (R211). A remote FREE is checked at the owning module and answered. -/
  | freeFrame (port tc : Nat)
  /-- FREE_RESULT_FRAME (R242). The outcome of a remote FREE returns to the requester. -/
  | freeResultFrame (port tc : Nat)
  /-- GEOMETRY_COMMIT (R245). Applies torus dimensions, coordinates and link directions at once. -/
  | geometryCommit (c : Ctx) (v : Byte)
  /-- EGRESS_SELECT (R249). The egress scheduler picks the next frame by deficit round robin. -/
  | egressSelect (port : Nat)
  /-- SHAPER_TICK (R255). Shaper tokens accrue at their rate up to the burst. -/
  | shaperTick (port tc : Nat) (at_ : Nat)
  /-- CAPTURE_RING_ENABLE (R262). Enabling the capture ring sets P and C to 0. -/
  | captureRingEnable (c : Ctx) (v : Byte)
  /-- REORDER_TIMEOUT (R265). A held reorder frame is delivered alone after 10 µs. -/
  | reorderTimeout (port tc : Nat) (at_ : Nat)
  /-- INJECTION_UNLOCK_WRITE (R264). Writing the unlock restarts selection counts and releases held frames when cleared. -/
  | injectionUnlockWrite (c : Ctx) (v : Byte)
  /-- STREAM_FRAME (R277). A stream input chunk is accepted or refused and ready units run through the program. -/
  | streamFrame (port tc : Nat)
  /-- STREAM_SPILL_READBACK (R285). A spilled chunk is read back when its turn comes. -/
  | streamSpillReadback (handle : Nat)
  /-- STREAM_COMPLETE (R277). Once every output is acknowledged the completion record is written and resources freed. -/
  | streamComplete (handle : Nat)
  /-- STREAM_DETACH (R306). A write to 5800.09 ends a stream with status 0x02. -/
  | streamDetach (c : Ctx) (v : BitVec 16)
  /-- ENGINE_DISABLE (R271). A failing stream engine is disabled and its contexts move to its peer. -/
  | engineDisable (engine : Nat)
  /-- CONTEXT_RECORD_WRITE (R290). Enables, disables or configures a dispatch context. -/
  | contextRecordWrite (c : Ctx) (v : W512)
  /-- DISPATCH_TOKEN_FRAME (R295). A token's parts are counted against capacity and row copies sent. -/
  | dispatchTokenFrame (port tc : Nat)
  /-- HOLD_AREA_READBACK (R294). Parts of a later token are read back from the hold area in turn. -/
  | holdAreaReadback (context : Nat)
  /-- DISPATCH_ROW_COPY_FRAME (R297). The home memory agent writes a row copy and its tag. -/
  | dispatchRowCopyFrame (port tc : Nat)
  /-- DISPATCH_CLOSE_FRAME (R298). The home engine records a close and marks the expert ready when complete. -/
  | dispatchCloseFrame (port tc : Nat)
  /-- RETURN_DOORBELL_STORE (R300). A store of h to an expert's doorbell sends RETURN frames for new positions. -/
  | returnDoorbellStore (expert : Nat) (v : W64)
  /-- RETURN_FRAME (R302). A returned y row piece is staged and the token combined when complete. -/
  | returnFrame (port tc : Nat)
  /-- GROUP_DEFINE (R310). Defines a collective group and reserves its staging chunks. -/
  | groupDefine (c : Ctx) (v : W256)
  /-- GROUP_UNDEFINE (R310). Undefines a group and releases its reservation. -/
  | groupUndefine (c : Ctx) (v : W256)
  /-- COLLECTIVE_DATA_FRAME (R323). Collective data is added or written and forwarded along the ring. -/
  | collectiveDataFrame (port tc : Nat)
  /-- GRANT_FRAME (R327). A GRANT raises the sender's permitted staging chunks. -/
  | grantFrame (port tc : Nat)
  /-- COUNTS_FRAME (R320). All-to-all-v send counts are exchanged before data. -/
  | countsFrame (port tc : Nat)
  /-- BARRIER_FRAME (R320). A barrier control frame advances the barrier's reduce phase. -/
  | barrierFrame (port tc : Nat)
  /-- ABORT_FRAME (R331). An ABORT ends the matching collective and is forwarded once. -/
  | abortFrame (port tc : Nat)
  /-- GRANT_RESEND (R327). The latest GRANT is resent every 10 µs while a granted chunk stays empty. -/
  | grantResend (collective stream : Nat) (at_ : Nat)
  /-- COLLECTIVE_TIMEOUT (R330). A collective ends with status 0x04 when its timeout expires. -/
  | collectiveTimeout (collective : Nat) (at_ : Nat)
  /-- COLLECTIVE_ABORT_REQUEST (R330). A write to 5030.01 aborts a named active collective. -/
  | collectiveAbortRequest (c : Ctx) (v : W64)
  /-- PORT_ENABLE (R341). Setting a port's enable bit moves its links from disabled to dark. -/
  | portEnable (c : Ctx) (v : Byte)
  /-- PORT_DISABLE (R341). Clearing a port's enable bit disables its links. -/
  | portDisable (c : Ctx) (v : Byte)
  /-- PORT_SPLIT (R348). Changing the split bit retrains the port as one or two links. -/
  | portSplit (c : Ctx) (v : Byte)
  /-- LIGHT_DETECT (R341). Light on the required lanes moves a dark link to training. -/
  | lightDetect (link : Nat) (lanes : Byte)
  /-- TRAINING_LOCK (R342). A training link locks and, after identity checks, goes up or miswired. -/
  | trainingLock (link : Nat) (lanes : Byte) (partner : PartnerId)
  /-- TRAINING_TIMEOUT (R341). No lock within 100 ms returns the link to dark. -/
  | trainingTimeout (link : Nat) (at_ : Nat)
  /-- TRAINING_RETRY (R341). A new training attempt starts 100 ms after a failure. -/
  | trainingRetry (link : Nat) (at_ : Nat)
  /-- LANE_LOCK_LOSS (R349). A lane losing lock for 100 µs triggers a lane-set retrain or link loss. -/
  | laneLockLoss (link lane : Nat) (at_ : Nat)
  /-- LANE_RETRY (R349). A lost lane is retried once a second and rejoined after a second of lock. -/
  | laneRetry (link lane : Nat) (at_ : Nat)
  /-- LINK_LOSS (R346). A link is lost and its queued and held frames are moved. -/
  | linkLoss (link : Nat)
  /-- LINK_ACK_RECEIVE (R344). A cumulative ACK releases held frames. -/
  | linkAckReceive (link next_ : Nat)
  /-- LINK_NAK_RECEIVE (R346). A NAK starts a go-back-N replay. -/
  | linkNakReceive (link next_ : Nat)
  /-- LINK_CREDIT_RECEIVE (R345). A CREDIT word updates a channel's granted cells. -/
  | linkCreditReceive (link channel granted : Nat)
  /-- HANDOVER_RECEIVE (R347). A HANDOVER releases and requeues held frames of a lost link. -/
  | handoverReceive (link lost next_ : Nat)
  /-- NAK_RESEND_TIMER (R346). The receiver resends its NAK every 20 µs while awaiting replay. -/
  | nakResendTimer (link : Nat) (at_ : Nat)
  /-- ACK_TIMEOUT_REPLAY (R346). No ACK progress for 20 µs replays from the oldest held frame. -/
  | ackTimeoutReplay (link : Nat) (at_ : Nat)
  /-- HANDOVER_TIMEOUT (R347). Held frames are discarded 100 µs after link loss without HANDOVER. -/
  | handoverTimeout (link : Nat) (at_ : Nat)
  /-- CREDIT_REFRESH (R343). Each channel's CREDIT is sent at least every 10 µs. -/
  | creditRefresh (link : Nat) (at_ : Nat)
  /-- LASER_BIAS_ADJUST (R350). Every 100 ms Scarab sets laser bias and swaps or replaces worn or failed lasers. -/
  | laserBiasAdjust (bank : Nat) (readings : List LaserReading) (at_ : Nat)
  /-- FORCED_SWAP (R354). A service write to 6040.04 forces a laser swap. -/
  | forcedSwap (c : Ctx) (v : Byte)
  /-- RING_CALIBRATION (R351). Every 100 ms each ring's heater is recalibrated, a failing ring losing its lane. -/
  | ringCalibration (port lane : Nat) (transmit : Bool) (heater : Nat) (locks : Bool) (at_ : Nat)
  /-- INPUT_RISE (R425). Input rising through 44 V starts a cold reset. -/
  | inputRise
  /-- INPUT_LOW (R425). Input in 40–44 V sets the low flag and throttles to 30. -/
  | inputLow
  /-- INPUT_HIGH (R425). Input in 56–58 V sets the high flag. -/
  | inputHigh
  /-- INPUT_POWER_LOSS (R425). Input out of range for its time limit stops every host-side domain. -/
  | inputPowerLoss
  /-- EN_BREAK (R485). Breaking EN is treated as power loss. -/
  | enBreak
  /-- POWER_REQUEST_DORMANT (R427). 1020.01 := 0x01 moves ACTIVE to ENTERING and holds new work. -/
  | powerRequestDormant (c : Ctx)
  /-- POWER_REQUEST_ACTIVE (R427). 1020.01 := 0x00 cancels entry or starts the wake sequence. -/
  | powerRequestActive (c : Ctx)
  /-- QUIESCENCE_REACHED (R428). A quiescent host side in ENTERING runs the DORMANT entry sequence. -/
  | quiescenceReached
  /-- ENTRY_DRAIN_TIMEOUT (R429). Frames still buffered 2 ms into entry are discarded. -/
  | entryDrainTimeout (at_ : Nat)
  /-- WAKE_COMPLETE (R427). The wake sequence completes and held work is released. -/
  | wakeComplete (at_ : Nat)
  /-- THERMAL_LEVEL_STEP (R433). The thermal level falls every 100 µs when hot or rises every 1 ms when cool. -/
  | thermalLevelStep (temps : List Int) (at_ : Nat)
  /-- THERMAL_TRIP (R434). A die at 110 °C puts the host side into FAULT STOP. -/
  | thermalTrip (die : Nat) (temp : Int)
  /-- MODULE_FATAL (R462). A module-fatal error writes the fatal record and enters FAULT STOP. -/
  | moduleFatal (cause unit : Nat)
  /-- PLL_LOCK_LOSS (R431). A PLL losing lock in ACTIVE is a module-fatal error. -/
  | pllLockLoss (unit : Nat)
  /-- WARM_RESET (R436). 9010.01 := 0x01 or PERST# runs a warm reset. -/
  | warmReset (c : Ctx)
  /-- COLD_RESET_REQUEST (R435). 9010.01 := 0x02 by the service role runs a cold reset. -/
  | coldResetRequest (c : Ctx)
  /-- HIVE_RESET (R437). 9010.02 resets one hive, halting its threads with 0x3F. -/
  | hiveReset (c : Ctx) (v : Byte)
  /-- PORT_RESET (R437). 9010.03 resets one switch port. -/
  | portReset (c : Ctx) (v : Byte)
  /-- COMB_DRAIN (R438). 9010.04 with drain holds new launches on a comb range. -/
  | combDrain (c : Ctx) (v : W64)
  /-- COMB_RESTART (R438). 9010.04 with restart releases held launches. -/
  | combRestart (c : Ctx) (v : W64)
  /-- COMB_DRAINED (R438). A draining comb reports drained once all its slots are empty. -/
  | combDrained (comb : Nat)
  /-- STARTUP_COMPLETE (R439). Start-up steps complete and the host side becomes ACTIVE. -/
  | startupComplete (test : SelfTest)
  /-- ISLAND_RESET (R403). The island resets on power regain or firmware replacement. -/
  | islandReset
  /-- ISLAND_SOURCE_CHANGEOVER (R402). The island changes power source without reset. -/
  | islandSourceChangeover (fieldVolts : Rat)
  /-- MEASUREMENT_TICK (R412). Every 100 ms the island measures and tests its wiring. -/
  | measurementTick (m : FieldReadings) (at_ : Nat)
  /-- PI_TICK (R415). Every 500 ms in LOCAL the PI loop sets the valve demand. -/
  | piTick (at_ : Nat)
  /-- LEAK_CLEAR (R418). Writing 0x01 to 8020.0A clears the leak latch if the rope is dry. -/
  | leakClear (c : Ctx) (v : Byte)
  /-- SERVICE_OUTPUT_TEST (R411). Writing 0x01 to 8050.02 forces SVC_OUT on. -/
  | serviceOutputTest (c : Ctx) (v : Byte)
  /-- SERVICE_OUTPUT_TEST_END (R411). The forced SVC_OUT test ends after 5 s. -/
  | serviceOutputTestEnd (at_ : Nat)
  /-- SVC_OUT_RETRY (R412). An overloaded service output is retried after 1 s. -/
  | svcOutRetry (at_ : Nat)
  /-- FIELD_RESTART (R421). Restarts the field interface with its settings, dropping field contexts. -/
  | fieldRestart (c : Ctx) (v : Byte)
  /-- TIME_SYNC_LOST (R405). No time-sync message for 2 s marks island time unsynchronised. -/
  | timeSyncLost (at_ : Nat)
  /-- BARRIER_STATE_TIMER (R407). Periodic barrier state messages are sent every 100 ms or 1 s. -/
  | barrierStateTimer (at_ : Nat)
  /-- BARRIER_DICT_REQUEST (R407). A dictionary request crossing the barrier is performed on the other side. -/
  | barrierDictRequest (toIsland intact : Bool)
  /-- BARRIER_DICT_RESULT (R407). A dictionary result crossing the barrier is delivered to its requester. -/
  | barrierDictResult (toIsland intact : Bool)
  /-- TELEMETRY_PUSH_MSG (R407). The host side receives the island's measurements and diagnostics. -/
  | telemetryPushMsg (intact : Bool)
  /-- COOLING_STATE_MSG (R407). The host side receives mode, demand, leak and protection state. -/
  | coolingStateMsg (intact : Bool)
  /-- WAKE_MSG (R427). A wake message writes 0x00 to the power request. -/
  | wakeMsg (intact : Bool)
  /-- DORMANT_REQUEST_MSG (R427). A dormant request message writes 0x01 to the power request. -/
  | dormantRequestMsg (intact : Bool)
  /-- THROTTLE_MSG (R430). The throttle level from the island enters the clock level. -/
  | throttleMsg (intact : Bool)
  /-- THERMAL_TRIP_MSG (R420). The island logs a thermal trip and opens the valve fully. -/
  | thermalTripMsg (intact : Bool)
  /-- SERVICE_FLAG_MSG (R411). Service flag state crosses the barrier and drives SVC_OUT or B010. -/
  | serviceFlagMsg (toIsland intact : Bool)
  /-- TIME_SYNC_MSG (R405). The island takes fabric time and host state from the host side. -/
  | timeSyncMsg (intact : Bool)
  /-- ATTESTATION_REQUEST_MSG (R451). One side asks the other for its part of a quote. -/
  | attestationRequestMsg (toIsland intact : Bool)
  /-- ATTESTATION_QUOTE_MSG (R451). A quote part or signed quote crosses the barrier. -/
  | attestationQuoteMsg (toIsland intact : Bool)
  /-- FIRMWARE_IMAGE_BLOCK_MSG (R453). A block of an island firmware image is written to the island's inactive slot. -/
  | firmwareImageBlockMsg (intact : Bool)
  /-- MEASURE_BANK (R446). A write to A010.01 measures a program bank into slot 12+j. -/
  | measureBank (c : Ctx) (v : W32)
  /-- QUOTE_NONCE_WRITE (R451). Writing a nonce to A040.01 starts a quote. -/
  | quoteNonceWrite (c : Ctx) (nonce : List Byte)
  /-- ATTESTATION_HOST_TIMEOUT (R451). The island signs without the host part after 100 ms of silence. -/
  | attestationHostTimeout (at_ : Nat)
  /-- FW_STAGE (R453). Copies an image into a component's inactive slot and checks it. -/
  | fwStage (c : Ctx) (v : Byte)
  /-- FW_STAGE_DONE (R453). Staging finishes and reports its status. -/
  | fwStageDone
  /-- FW_ACTIVATE (R453). Marks the staged slot active for the component's next boot. -/
  | fwActivate (c : Ctx) (v : Byte)
  /-- FW_CONFIRM (R453). Raises the component's rollback floor to the running image. -/
  | fwConfirm (c : Ctx) (v : Byte)
  /-- HBM_SCRUB (R460). Scarab reads and checks HBM codewords within its budget. -/
  | hbmScrub (address : Nat) (found : ScrubFinding)
  /-- NEAR_STORE_SCRUB (R460). Scarab reads and checks near-store words. -/
  | nearStoreScrub (address : Nat) (found : ScrubFinding)
  /-- PROGRAM_STORE_SCRUB (R460). Scarab reads and checks both program banks of every comb. -/
  | programStoreScrub (address : Nat) (found : ScrubFinding)
  /-- TELEMETRY_SAMPLE (R471). A sample record is written every sample period. -/
  | telemetrySample (m : SampleFigures) (at_ : Nat)
  /-- TELEMETRY_RING_ENABLE (R469). Enabling the telemetry ring sets P and C to 0. -/
  | telemetryRingEnable (c : Ctx) (v : Byte)
  /-- SNAPSHOT_REQUEST (R473). A write to B050.01 schedules a snapshot and may multicast it. -/
  | snapshotRequest (c : Ctx) (t : W64)
  /-- SNAPSHOT_FRAME (R473). A received snapshot TIME frame schedules the same snapshot. -/
  | snapshotFrame
  /-- SNAPSHOT_TAKE (R474). At time T every counter is copied to its shadow. -/
  | snapshotTake (at_ : Nat)
  /-- DELAY_REQUEST_TIMER (R476). Every 1 ms a non-root module sends DELAY REQUEST to its parent. -/
  | delayRequestTimer (at_ : Nat)
  /-- DELAY_REQUEST_FRAME (R476). A parent answers a DELAY REQUEST with DELAY RESPONSE. -/
  | delayRequestFrame (t2 t3 : Nat)
  /-- DELAY_RESPONSE_FRAME (R476). A module computes offset and delay and steps, holds or steers its time. -/
  | delayResponseFrame (t4 : Nat)
  /-- SET_FABRIC_TIME (R476). The root steps its fabric time forward to a written value. -/
  | setFabricTime (c : Ctx) (t : W64)
  /-- PARENT_LOSS_TIMEOUT (R476). After 10 ms without a parent the module reads free-running. -/
  | parentLossTimeout (at_ : Nat)
  /-- ISLAND_POWER_LOSS (R403). Both island power sources become absent, losing the identity key, diagnostic log and island state. -/
  | islandPowerLoss
  /-- EN_MATE (R485). EN_L becomes joined to EN_RTN, letting the regulators start and start-up run. -/
  | enMate
  /-- PERST_DEASSERT (R439). PERST# is released and the held host port, or the warm reset held at step 4, continues start-up. -/
  | perstDeassert
  /-- INPUT_NORMAL (R425). Input returns into 44–56 V from the low or high band, clearing the flags of 9000.05 and the input throttle level. -/
  | inputNormal
  /-- HOST_READ_COMPLETION_TIMEOUT (R371). A module read of host memory without completion for 50 ms ends its entry with status 0x13 and reports Completion Timeout; one that completes UR, CA or poisoned ends it likewise (R368). -/
  | hostReadCompletionTimeout (q entry : Nat) (at_ : HostReadEnd)
  /-- POLICER_TOKEN_ACCRUAL (R256). An ingress policer bucket refills at its rate, letting credit be granted again to its lossless channels. -/
  | policerTokenAccrual (port tc : Nat) (at_ : Nat)
  /-- EVENT_VECTOR_DEFERRED (R470). The 10 µs hold-off ends and one event-vector message is sent for records performed since the last. -/
  | eventVectorDeferred (at_ : Nat)
  /-- TRIP_RESET_RELEASE (R434). A warm reset held after a thermal trip proceeds once every die reads 100 °C or less. -/
  | tripResetRelease
  /-- POWER_CAP_LEVEL_UPDATE (R430). The power-cap level changes as the Swarm's estimated power moves against the cap at 9020.01, changing the arithmetic clock. -/
  | powerCapLevelUpdate (level : Nat)
  deriving DecidableEq, Repr

end Sys2Proof
end

