-- ==== Sys2Proof/Decode.lean ====
section
/-! DEFINITION. The decoder of the opcode table's words. The table gives no row any bits: a command of this block is an event with
operands, not a word, so no word spells one. (The 128-bit words of the thread commands are read from the program store by the
meanings themselves; Machine/Operands.lean holds their fields.) -/

namespace Sys2Proof

/-- The command that a word spells by the table's bits: no row gives bits. -/
def decodeTableWord (_nbits _w : Nat) : Option Instr := none

end Sys2Proof
end

