-- ==== Sys2Proof/Machine/Maps.lean ====
section
/-! DEFINITION. Sparse plain-data maps: memory, register banks and tables are lists of key and value pairs with strictly rising keys
and no entry that equals what an unlisted key reads as, so that equal contents are equal data. -/

namespace Sys2Proof.Machine

/-- A sparse map from keys to values. -/
abbrev SMap (V : Type) := List (Nat × V)

/-- What key `k` reads as; an unlisted key reads as `d`. -/
def SMap.get {V : Type} (d : V) : SMap V → Nat → V
  | [], _ => d
  | (k', v) :: m, k => if k = k' then v else SMap.get d m k

/-- Remove key `k`. -/
def SMap.del {V : Type} (m : SMap V) (k : Nat) : SMap V := m.filter fun p => decide (p.1 ≠ k)

/-- Insert or replace key `k`. -/
def SMap.ins {V : Type} (v : V) : SMap V → Nat → SMap V
  | [], k => [(k, v)]
  | (k', v') :: m, k =>
    if k = k' then (k, v) :: m else if k < k' then (k, v) :: (k', v') :: m else (k', v') :: SMap.ins v m k

/-- Write key `k`: writing what an unlisted key reads as removes the entry. -/
def SMap.put {V : Type} [DecidableEq V] (d : V) (m : SMap V) (k : Nat) (v : V) : SMap V :=
  if v = d then SMap.del m k else SMap.ins v m k

/-- Every listed key is above `lo`, keys rise strictly, and no value equals `d`. -/
def SMap.above {V : Type} [DecidableEq V] (d : V) : Nat → SMap V → Bool
  | _, [] => true
  | lo, (k, v) :: m => decide (lo < k) && decide (v ≠ d) && SMap.above d k m

/-- The canonical form. -/
def SMap.wf {V : Type} [DecidableEq V] (d : V) : SMap V → Bool
  | [] => true
  | (k, v) :: m => decide (v ≠ d) && SMap.above d k m

/-- The canonical form of a memory whose unlisted bytes read as 0: addresses strictly rising, and no entry of value 0. -/
abbrev Memory.wf (m : SMap Byte) : Bool := SMap.wf 0 m

/-- Apply `f` to what key `k` reads as. -/
def SMap.modify {V : Type} [DecidableEq V] (d : V) (m : SMap V) (k : Nat) (f : V → V) : SMap V :=
  SMap.put d m k (f (SMap.get d m k))

/-- Drop every key of [lo, hi). -/
def SMap.clearRange {V : Type} (m : SMap V) (lo hi : Nat) : SMap V :=
  m.filter fun p => !(decide (lo ≤ p.1) && decide (p.1 < hi))

/-- Does any key of [lo, hi) carry a value that satisfies `p`? -/
def SMap.anyIn {V : Type} (m : SMap V) (lo hi : Nat) (p : V → Bool) : Bool :=
  m.any fun e => decide (lo ≤ e.1) && decide (e.1 < hi) && p e.2

end Sys2Proof.Machine
end

