-- ==== Sys2Proof/Machine/Bits.lean ====
section
/-! DEFINITION. Bit fields, byte order, saturating counts, and the published codes the manual names: Philox4x32-10 (R170),
CRC-16/IBM-3740 and CRC-32C (R219), SHA3-256, SHAKE128 and SHAKE256 (R396, R442, R443). -/

namespace Sys2Proof.Machine

open Sys2Proof

/-- Bit `i` of a number. -/
def bitOf (v i : Nat) : Bool := v / 2 ^ i % 2 = 1

/-- A number with `w` bits at `lo` replaced by `x`. -/
def setField (v lo w x : Nat) : Nat :=
  v - (v / 2 ^ lo % 2 ^ w) * 2 ^ lo + (x % 2 ^ w) * 2 ^ lo

/-- One bit as a number. -/
def b2n (b : Bool) : Nat := if b then 1 else 0

/-- The number that little-endian bytes hold. -/
def leNat : List Byte → Nat
  | [] => 0
  | b :: bs => b.toNat + 256 * leNat bs

/-- `n` little-endian bytes of a number. -/
def natLE : Nat → Nat → List Byte
  | 0, _ => []
  | n + 1, v => BitVec.ofNat 8 v :: natLE n (v / 256)

/-- `len` bytes of a byte list from `off`, with zeros beyond its end. -/
def slice (bs : List Byte) (off len : Nat) : List Byte :=
  let part := (bs.drop off).take len
  part ++ List.replicate (len - part.length) 0

/-- The little-endian number at `off` of `len` bytes. -/
def numAt (bs : List Byte) (off len : Nat) : Nat := leNat (slice bs off len)

/-- Zero bytes up to a multiple of `n`. -/
def padTo (n : Nat) (bs : List Byte) : List Byte :=
  bs ++ List.replicate ((n - bs.length % n) % n) 0

/-- The smallest multiple count: ceil(a ÷ b). -/
def ceilDiv (a b : Nat) : Nat := (a + b - 1) / b

/-- A kept count of `w` bits saturates (R11). -/
def satAdd (w a b : Nat) : Nat := min (a + b) (2 ^ w - 1)

/-- The signed value of the low `w` bits. -/
def toSigned (w v : Nat) : Int :=
  let u := v % 2 ^ w
  if u ≥ 2 ^ (w - 1) then (u : Int) - 2 ^ w else u

/-- An integer modulo 2^w. -/
def ofInt (w : Nat) (i : Int) : Nat := (i % (2 ^ w : Int)).toNat

/-- Replace element `i` of a list. -/
def setAt {α : Type} (l : List α) (i : Nat) (x : α) : List α := l.set i x

/-- Append to a log of the last `n` records, oldest first. -/
def logAppend {α : Type} (n : Nat) (l : List α) (x : α) : List α :=
  let l' := l ++ [x]
  l'.drop (l'.length - n)

/-! ## Philox4x32-10 (R170) -/

/-- One of the ten rounds on (x0, x1, x2, x3, k0, k1). -/
def philoxRound (x : W32 × W32 × W32 × W32 × W32 × W32) : W32 × W32 × W32 × W32 × W32 × W32 :=
  let (x0, x1, x2, x3, k0, k1) := x
  let p := 0xD2511F53 * x0.toNat
  let q := 0xCD9E8D57 * x2.toNat
  (BitVec.ofNat 32 (q / 2 ^ 32) ^^^ x1 ^^^ k0, BitVec.ofNat 32 q,
    BitVec.ofNat 32 (p / 2 ^ 32) ^^^ x3 ^^^ k1, BitVec.ofNat 32 p, k0 + 0x9E3779B9, k1 + 0xBB67AE85)

/-- `n` rounds. -/
def philoxRounds : Nat → W32 × W32 × W32 × W32 × W32 × W32 → W32 × W32 × W32 × W32 × W32 × W32
  | 0, x => x
  | n + 1, x => philoxRounds n (philoxRound x)

/-- The generator output r for the key (seed, step, tensor ID, element index). -/
def philox (seed step : Nat) (tensor element : Nat) : W32 :=
  (philoxRounds 10
    (BitVec.ofNat 32 element, BitVec.ofNat 32 (tensor % 65536 * 65536 + element / 2 ^ 32 % 65536),
      BitVec.ofNat 32 step, BitVec.ofNat 32 (step / 2 ^ 32), BitVec.ofNat 32 seed, BitVec.ofNat 32 (seed / 2 ^ 32))).1

/-! ## Cyclic codes (R219) -/

def crc16Bits : Nat → BitVec 16 → BitVec 16
  | 0, c => c
  | n + 1, c => crc16Bits n (if c.msb then (c <<< 1) ^^^ 0x1021 else c <<< 1)

/-- CRC-16/IBM-3740: polynomial 0x1021, initial 0xFFFF, not reflected. -/
def crc16 (bs : List Byte) : BitVec 16 :=
  bs.foldl (fun c b => crc16Bits 8 (c ^^^ (BitVec.zeroExtend 16 b <<< (8 : Nat)))) 0xFFFF

def crc32Bits : Nat → W32 → W32
  | 0, c => c
  | n + 1, c => crc32Bits n (if c.getLsbD 0 then (c >>> 1) ^^^ 0x82F63B78 else c >>> 1)

/-- CRC-32C (Castagnoli, RFC 3720): reflected, initial and final all ones. -/
def crc32c (bs : List Byte) : W32 :=
  (bs.foldl (fun c b => crc32Bits 8 (c ^^^ BitVec.zeroExtend 32 b)) 0xFFFFFFFF) ^^^ 0xFFFFFFFF

/-! ## SHA3-256 and SHAKE (published, FIPS 202) -/

/-- A step of the shift register of the round constants: x^8 + x^6 + x^5 + x^4 + 1 over GF(2). -/
def rcShift (v : Nat) : Nat := if v < 128 then 2 * v else (2 * v) ^^^ 0x171

/-- The constants of `n` rounds from register `v`: of seven steps, step j gives bit 2^j − 1. -/
def rcFrom : Nat → Nat → List W64
  | 0, _ => []
  | n + 1, v =>
    let r := (List.range 7).foldl (fun (r : Nat × Nat) j => (r.1 + r.2 % 2 * 2 ^ (2 ^ j - 1), rcShift r.2)) (0, v)
    BitVec.ofNat 64 r.1 :: rcFrom n r.2

/-- The rotations of the lanes x + 5y: the walk from lane (1, 0), from (x, y) to (y, 2x + 3y), gives its step t the triangular number
(t + 1)(t + 2) ÷ 2. -/
def rhoFrom : Nat → Nat → Nat → Nat → List Nat → List Nat
  | 0, _, _, _, r => r
  | n + 1, t, x, y, r => rhoFrom n (t + 1) y ((2 * x + 3 * y) % 5) (r.set (x + 5 * y) ((t + 1) * (t + 2) / 2 % 64))

def lane (a : List W64) (i : Nat) : W64 := a.getD i 0

/-- A lane by its coordinates, counted modulo 5. -/
def laneAt (a : List W64) (x y : Nat) : W64 := lane a (x % 5 + 5 * (y % 5))

/-- A state of 25 lanes given by what each coordinate holds. -/
def lanesBy (f : Nat → Nat → W64) : List W64 := (List.range 25).map fun i => f (i % 5) (i / 5)

/-- One round of Keccak-f[1600]: θ; ρ and π, by which lane (x, y) takes the place of the lane that comes to it; χ; ι. -/
def keccakRound (rho : List Nat) (a : List W64) (rc : W64) : List W64 :=
  let parity := (List.range 5).map fun x => (List.range 5).foldl (fun p y => p ^^^ laneAt a x y) 0
  let mixed := lanesBy fun x y => laneAt a x y ^^^ lane parity ((x + 4) % 5) ^^^ (lane parity ((x + 1) % 5)).rotateLeft 1
  let moved := lanesBy fun x y => (laneAt mixed (x + 3 * y) x).rotateLeft (rho.getD ((x + 3 * y) % 5 + 5 * x) 0)
  lanesBy fun x y =>
    let v := laneAt moved x y ^^^ (laneAt moved (x + 2) y &&& ~~~ laneAt moved (x + 1) y)
    if x + y = 0 then v ^^^ rc else v

def keccakF (a : List W64) : List W64 := (rcFrom 24 1).foldl (keccakRound (rhoFrom 24 0 1 0 (List.replicate 25 0))) a

/-- Absorb blocks of `rate` bytes; the fuel bounds their number. -/
def keccakAbsorb (rate : Nat) : Nat → List W64 → List Byte → List W64
  | 0, a, _ => a
  | n + 1, a, bs =>
    let blk := bs.take rate
    let a' := keccakF ((List.range 25).map fun i => if i < rate / 8 then lane a i ^^^ BitVec.ofNat 64 (numAt blk (8 * i) 8) else lane a i)
    if bs.length ≤ rate then a' else keccakAbsorb rate n a' (bs.drop rate)

/-- Squeeze `n` further blocks after the one that the state shows. -/
def keccakSqueeze (rate : Nat) : Nat → List W64 → List Byte
  | n, a =>
    let out := (List.range (rate / 8)).flatMap fun i => natLE 8 (lane a i).toNat
    match n with
    | 0 => out
    | n + 1 => out ++ keccakSqueeze rate n (keccakF a)

/-- `len` bytes of the sponge of a rate, whose padding begins with the byte `suffix` and ends in bit 7 of its last. -/
def sponge (rate suffix len : Nat) (bs : List Byte) : List Byte :=
  let r := bs.length % rate
  let padding : List Byte :=
    if r + 1 = rate then [BitVec.ofNat 8 (suffix + 128)] else BitVec.ofNat 8 suffix :: (List.replicate (rate - 2 - r) 0 ++ [0x80])
  (keccakSqueeze rate ((len - 1) / rate) (keccakAbsorb rate (bs.length / rate + 1) (List.replicate 25 0) (bs ++ padding))).take len

/-- SHA3-256 of a byte string. -/
def sha3 (bs : List Byte) : List Byte := sponge 136 6 32 bs

/-- SHAKE128 and SHAKE256 of a byte string, `len` bytes of output. -/
def shake128 (len : Nat) (bs : List Byte) : List Byte := sponge 168 0x1F len bs
def shake256 (len : Nat) (bs : List Byte) : List Byte := sponge 136 0x1F len bs

end Sys2Proof.Machine
end

