-- ==== Sys2Proof/Machine/Fp.lean ====
section
/-! DEFINITION. The number formats (R31–R40), exact values, rounding and overflow (R46–R49), conversions (R47, R48), FP32 arithmetic,
block sums (R152–R155) and the reduction tree (R157), and the special functions of VSFU (R101). -/

namespace Sys2Proof.Machine

open Sys2Proof

/-! ## Formats -/

/-- Where a floating-point format keeps its special codes (R35). -/
inductive Specials where
  | none
  | nanOnly
  | ieee
  deriving DecidableEq, Repr

/-- A floating-point format: exponent bits, fraction bits, bias (R35). -/
structure FFmt where
  exp : Nat
  man : Nat
  bias : Nat
  specials : Specials
  deriving DecidableEq, Repr

def FFmt.fp4 : FFmt := ⟨2, 1, 1, .none⟩
def FFmt.fp6 : FFmt := ⟨3, 2, 3, .none⟩
def FFmt.e4m3 : FFmt := ⟨4, 3, 7, .nanOnly⟩
def FFmt.e5m2 : FFmt := ⟨5, 2, 15, .ieee⟩
def FFmt.bf16 : FFmt := ⟨8, 7, 127, .ieee⟩
def FFmt.fp16 : FFmt := ⟨5, 10, 15, .ieee⟩
def FFmt.fp32 : FFmt := ⟨8, 23, 127, .ieee⟩
def FFmt.fp32x : FFmt := ⟨8, 39, 127, .ieee⟩

/-- The floating-point format of a code (R31). -/
def ffmtOf (code : Nat) : Option FFmt :=
  match code with
  | 0x1 => some .fp4
  | 0x2 => some .fp6
  | 0x4 => some .e4m3
  | 0x5 => some .e5m2
  | 0x8 => some .bf16
  | 0x9 => some .fp16
  | 0xA => some .fp32
  | 0xB => some .fp32x
  | _ => none

/-- Is a format code defined (R31, R32)? -/
def fmtLegal (code : Nat) : Bool :=
  code == 1 || code == 2 || (decide (4 ≤ code) && decide (code ≤ 0xB))

/-- The element width in bits (R31). -/
def fmtBits (code : Nat) : Nat :=
  match code with
  | 0x1 | 0x6 => 4
  | 0x2 => 6
  | 0x4 | 0x5 | 0x7 => 8
  | 0x8 | 0x9 => 16
  | 0xA => 32
  | 0xB => 48
  | _ => 8

def fmtIsInt (code : Nat) : Bool := code == 6 || code == 7

/-- Formats that may be block-scaled (R31). -/
def fmtScalable (code : Nat) : Bool := code == 1 || code == 2 || code == 4 || code == 5

/-! ## Exact values -/

/-- An exact value: NaN, an infinity, or (−1)^neg × m × 2^e. A zero keeps its sign. -/
inductive FVal where
  | nan
  | inf (neg : Bool)
  | num (neg : Bool) (m : Nat) (e : Int)
  deriving DecidableEq, Repr

def FVal.zero : FVal := .num false 0 0

/-- Decode a code of a format (R35). -/
def FFmt.decode (f : FFmt) (v : Nat) : FVal :=
  let neg := bitOf v (f.exp + f.man)
  let e := v / 2 ^ f.man % 2 ^ f.exp
  let m := v % 2 ^ f.man
  let top := decide (e = 2 ^ f.exp - 1)
  if top && f.specials == .ieee then (if m = 0 then .inf neg else .nan)
  else if top && f.specials == .nanOnly && decide (m = 2 ^ f.man - 1) then .nan
  else if e = 0 then .num neg m (1 - f.bias - f.man)
  else .num neg (2 ^ f.man + m) ((e : Int) - f.bias - f.man)

/-- The largest finite magnitude: significand and exponent (R35). -/
def FFmt.maxFinite (f : FFmt) : Nat × Int :=
  match f.specials with
  | .ieee => (2 ^ (f.man + 1) - 1, (2 ^ f.exp - 2 : Int) - f.bias - f.man)
  | .nanOnly => (2 ^ (f.man + 1) - 2, (2 ^ f.exp - 1 : Int) - f.bias - f.man)
  | .none => (2 ^ (f.man + 1) - 1, (2 ^ f.exp - 1 : Int) - f.bias - f.man)

/-- The code of the largest finite magnitude. -/
def FFmt.maxCode (f : FFmt) : Nat :=
  match f.specials with
  | .ieee => (2 ^ f.exp - 1) * 2 ^ f.man - 1
  | .nanOnly => 2 ^ (f.exp + f.man) - 2
  | .none => 2 ^ (f.exp + f.man) - 1

/-- The canonical quiet NaN (R36). -/
def FFmt.nanCode (f : FFmt) : Nat :=
  match f.specials with
  | .ieee => (2 ^ f.exp - 1) * 2 ^ f.man + 2 ^ (f.man - 1)
  | .nanOnly => 2 ^ (f.exp + f.man) - 1
  | .none => 0

/-- The sign bit of a code. -/
def FFmt.sign (f : FFmt) (neg : Bool) : Nat := if neg then 2 ^ (f.exp + f.man) else 0

/-- Infinity of a sign, for formats that have one. -/
def FFmt.infCode (f : FFmt) (neg : Bool) : Nat := f.sign neg + (2 ^ f.exp - 1) * 2 ^ f.man

/-! ## Rounding -/

/-- How a magnitude is rounded to the grid: to nearest even, up or down in magnitude, or stochastically with 16 bits (R46, R49). -/
inductive Rnd where
  | rne
  | down
  | up
  | sr (r : Nat)
  deriving DecidableEq, Repr

/-- Round the fraction a/b to an integer. -/
def roundFrac (mode : Rnd) (a b : Nat) : Nat :=
  let q := a / b
  let r := a % b
  match mode with
  | .rne => if 2 * r > b ∨ (2 * r = b ∧ q % 2 = 1) then q + 1 else q
  | .down => q
  | .up => if r > 0 then q + 1 else q
  | .sr x => if x < r * 65536 / b then q + 1 else q

/-- a × 2^k ÷ b as a fraction. -/
def scaleFrac (a b : Nat) (k : Int) : Nat × Nat :=
  if k ≥ 0 then (a * 2 ^ k.toNat, b) else (a, b * 2 ^ (-k).toNat)

/-- floor(log2 (a ÷ b × 2^e)) for a, b > 0. -/
def floorLog (a b : Nat) (e : Int) : Int :=
  let k : Int := (Nat.log2 a : Int) - Nat.log2 b
  let s := scaleFrac a b (-k)
  (if s.1 < s.2 then k - 1 else k) + e

/-- Round the magnitude a/b × 2^e > 0 to `man` fraction bits with exponents unbounded above: the significand and its exponent. -/
def FFmt.roundMag (f : FFmt) (mode : Rnd) (a b : Nat) (e : Int) : Nat × Int :=
  let qe : Int := max (1 - f.bias - f.man) (floorLog a b e - f.man)
  let s := scaleFrac a b (e - qe)
  (roundFrac mode s.1 s.2, qe)

/-- m × 2^e ≤ n × 2^g. -/
def dyadicLe (m : Nat) (e : Int) (n : Nat) (g : Int) : Bool :=
  if e ≥ g then decide (m * 2 ^ (e - g).toNat ≤ n) else decide (m ≤ n * 2 ^ (g - e).toNat)

/-- Does a magnitude exceed the largest finite value? -/
def FFmt.tooBig (f : FFmt) (m : Nat) (e : Int) : Bool := !dyadicLe m e f.maxFinite.1 f.maxFinite.2

/-- The code of a representable magnitude q × 2^e, with e at or above the subnormal exponent. -/
def FFmt.pack (f : FFmt) (q : Nat) (e : Int) : Nat :=
  if q = 0 then 0
  else
    let l := Nat.log2 q
    if l ≥ f.man then
      -- normal: significand q / 2^(l − man), exponent field e + l + bias
      (e + l + f.bias).toNat * 2 ^ f.man + (q / 2 ^ (l - f.man) - 2 ^ f.man)
    else q * 2 ^ (e - (1 - f.bias - f.man)).toNat

/-- The result of a conversion: its code and the counts it adds (R50). -/
structure Conv where
  bits : Nat
  sat : Nat := 0
  crush : Nat := 0
  invalid : Nat := 0
  infs : Nat := 0
  wide : Bool := false
  deriving DecidableEq, Repr

/-- What a format does on overflow: saturate, deliver and count Inf (E5M2, FP16 in mode 1), or deliver Inf and set the wide-overflow
flag (BF16, FP32, FP32X) (R46). -/
inductive Overflow where
  | saturate
  | infinity
  | wide
  deriving DecidableEq, Repr

/-- Deliver an overflow. -/
def FFmt.overflow (f : FFmt) (o : Overflow) (neg : Bool) : Conv :=
  match o with
  | .saturate => { bits := f.sign neg + f.maxCode, sat := 1 }
  | .infinity => { bits := f.infCode neg, infs := 1 }
  | .wide => { bits := f.infCode neg, wide := true }

/-- Round a finite non-zero magnitude a/b × 2^e of a sign into the format. -/
def FFmt.roundTo (f : FFmt) (o : Overflow) (mode : Rnd) (neg : Bool) (a b : Nat) (e : Int) : Conv :=
  let r := f.roundMag mode a b e
  if f.tooBig r.1 r.2 then f.overflow o neg else { bits := f.sign neg + f.pack r.1 r.2 }

/-- Round an exact value under a mode; NaN and Inf as IEEE 754 gives them (for arithmetic results, R39). -/
def FFmt.round (f : FFmt) (o : Overflow) (mode : Rnd) (x : FVal) : Conv :=
  match x with
  | .nan => { bits := f.nanCode }
  | .inf neg => { bits := f.infCode neg }
  | .num neg m e => if m = 0 then { bits := f.sign neg } else f.roundTo o mode neg m 1 e

/-- Convert a value (R46–R49): arithmetic rounding, with the special inputs of R47 and crushes counted (R48). -/
def FFmt.convert (f : FFmt) (o : Overflow) (mode : Rnd) (x : FVal) : Conv :=
  match x with
  | .nan => if f.specials = .none then { bits := 0, invalid := 1 } else { bits := f.nanCode }
  | .inf neg => if o = .saturate then { bits := f.sign neg + f.maxCode, sat := 1 } else { bits := f.infCode neg }
  | .num neg m e =>
    if m = 0 then { bits := f.sign neg }
    else
      let c := f.roundTo o mode neg m 1 e
      if c.bits % 2 ^ (f.exp + f.man) = 0 then { c with crush := 1 } else c

/-- Convert a value to an integer of `w` bits (R46–R48). -/
def convertInt (w : Nat) (signed : Bool) (mode : Rnd) (x : FVal) : Conv :=
  let hi : Int := if signed then 2 ^ (w - 1) - 1 else 2 ^ w - 1
  let lo : Int := if signed then -(2 ^ (w - 1)) else 0
  match x with
  | .nan => { bits := 0, invalid := 1 }
  | .inf neg => { bits := ofInt w (if neg then lo else hi), sat := 1 }
  | .num neg m e =>
    if m = 0 then { bits := 0 }
    else
      let s := scaleFrac m 1 e
      let q := roundFrac mode s.1 s.2
      let v : Int := if neg then -(q : Int) else q
      if v > hi then { bits := ofInt w hi, sat := 1 }
      else if v < lo then { bits := ofInt w lo, sat := 1 }
      else { bits := ofInt w v, crush := b2n (decide (q = 0)) }

/-- The exact value of an integer. -/
def FVal.ofInt (i : Int) : FVal := .num (decide (i < 0)) i.natAbs 0

/-- Decode an element of a format code. -/
def decodeElem (code : Nat) (signed : Bool) (v : Nat) : FVal :=
  match ffmtOf code with
  | some f => f.decode v
  | none => if signed then FVal.ofInt (toSigned (fmtBits code) v) else FVal.ofInt (v % 2 ^ fmtBits code : Nat)

/-- The overflow behaviour of a format code under the modes 3000.02 and 3000.03 (R46). -/
def overflowOf (code : Nat) (e5m2Inf fp16Inf : Bool) : Overflow :=
  match code with
  | 0x5 => if e5m2Inf then .infinity else .saturate
  | 0x9 => if fp16Inf then .infinity else .saturate
  | 0x8 | 0xA | 0xB => .wide
  | _ => .saturate

/-- Convert a value into a format code. -/
def convertElem (code : Nat) (signed e5m2Inf fp16Inf : Bool) (mode : Rnd) (x : FVal) : Conv :=
  match ffmtOf code with
  | some f => f.convert (overflowOf code e5m2Inf fp16Inf) mode x
  | none => convertInt (fmtBits code) signed mode x

/-! ## Exact arithmetic -/

/-- A signed exact sum: integer × 2^e. -/
abbrev Dyadic' := Int × Int

def signedOf (neg : Bool) (m : Nat) : Int := if neg then -(m : Int) else m

/-- Add two signed dyadics exactly. -/
def dyAdd (a b : Dyadic') : Dyadic' :=
  if a.2 ≤ b.2 then (a.1 + b.1 * 2 ^ (b.2 - a.2).toNat, a.2) else (a.1 * 2 ^ (a.2 - b.2).toNat + b.1, b.2)

/-- Exact product with IEEE 754 specials. -/
def FVal.mul : FVal → FVal → FVal
  | .nan, _ => .nan
  | _, .nan => .nan
  | .inf s, .inf t => .inf (s != t)
  | .inf s, .num t m _ => if m = 0 then .nan else .inf (s != t)
  | .num s m _, .inf t => if m = 0 then .nan else .inf (s != t)
  | .num s m e, .num t n g => .num (s != t) (m * n) (e + g)

/-- Exact sum with IEEE 754 specials; a zero sum of opposite signs is +0, or −0 when rounding toward −∞. -/
def FVal.add (towardNeg : Bool) : FVal → FVal → FVal
  | .nan, _ => .nan
  | _, .nan => .nan
  | .inf s, .inf t => if s = t then .inf s else .nan
  | .inf s, .num _ _ _ => .inf s
  | .num _ _ _, .inf t => .inf t
  | .num s m e, .num t n g =>
    let d := dyAdd (signedOf s m, e) (signedOf t n, g)
    if d.1 = 0 then (if m = 0 ∧ n = 0 ∧ s = t then .num s 0 0 else .num towardNeg 0 0)
    else .num (decide (d.1 < 0)) d.1.natAbs d.2

def FVal.neg : FVal → FVal
  | .nan => .nan
  | .inf s => .inf (!s)
  | .num s m e => .num (!s) m e

def FVal.abs : FVal → FVal
  | .nan => .nan
  | .inf _ => .inf false
  | .num _ m e => .num false m e

def FVal.isZero : FVal → Bool
  | .num _ m _ => m == 0
  | _ => false

def FVal.isFinite : FVal → Bool
  | .num _ _ _ => true
  | _ => false

/-- Multiply by 2^k. -/
def FVal.scale (x : FVal) (k : Int) : FVal :=
  match x with
  | .num s m e => .num s m (e + k)
  | y => y

/-- x < y over numbers; false when either is NaN. -/
def FVal.lt : FVal → FVal → Bool
  | .nan, _ => false
  | _, .nan => false
  | .inf s, .inf t => s && !t
  | .inf s, .num _ _ _ => s
  | .num _ _ _, .inf t => !t
  | .num s m e, .num t n g => decide ((dyAdd (signedOf s m, e) (-(signedOf t n), g)).1 < 0)

/-- x = y over numbers, −0 equal to +0. -/
def FVal.eq : FVal → FVal → Bool
  | .nan, _ => false
  | _, .nan => false
  | .inf s, .inf t => s == t
  | .inf _, .num _ _ _ => false
  | .num _ _ _, .inf _ => false
  | .num s m e, .num t n g => decide ((dyAdd (signedOf s m, e) (-(signedOf t n), g)).1 = 0)

/-! ## FP32 results -/

/-- A directed rounding to FP32: toward +∞ or −∞ of the signed value, with IEEE 754 overflow. -/
def roundDir (up : Bool) (x : FVal) : FVal :=
  match x with
  | .num neg m e =>
    if m = 0 then x
    else
      let mode := if up != neg then Rnd.up else Rnd.down
      let r := FFmt.fp32.roundMag mode m 1 e
      if FFmt.fp32.tooBig r.1 r.2 then
        (if up != neg then .inf neg else .num neg FFmt.fp32.maxFinite.1 FFmt.fp32.maxFinite.2)
      else .num neg r.1 r.2
  | y => y

/-- The FP32 value of 32 bits. -/
def f32Val (w : W32) : FVal := FFmt.fp32.decode w.toNat

/-- Round an exact value to FP32 under RNE: the word, and whether a finite value overflowed. -/
def f32Round (x : FVal) : W32 × Bool :=
  let c := FFmt.fp32.round .wide .rne x
  (BitVec.ofNat 32 c.bits, c.wide)

/-- FP32 addition under RNE: the result, and whether it overflowed from finite inputs. -/
def f32Add (a b : W32) : W32 × Bool := f32Round (FVal.add false (f32Val a) (f32Val b))

/-- FP32 fused multiply-add under RNE. -/
def f32Fma (a b c : FVal) : W32 × Bool := f32Round (FVal.add false (FVal.mul a b) c)

/-- The exact sum of a block's performed products (R154): an exact zero is +0 unless every performed product is −0. -/
def blockExact (ps : List FVal) : FVal :=
  if ps.any (· == .nan) then .nan
  else
    let pinf := ps.any (· == .inf false)
    let ninf := ps.any (· == .inf true)
    if pinf && ninf then .nan
    else if pinf then .inf false
    else if ninf then .inf true
    else
      let d := ps.foldl (fun (d : Dyadic') p =>
        match p with
        | .num s m e => if m = 0 then d else if d.1 = 0 then (signedOf s m, e) else dyAdd d (signedOf s m, e)
        | _ => d) (0, 0)
      if d.1 = 0 then
        let allNeg := !ps.isEmpty && ps.all fun p =>
          match p with
          | .num s m _ => s && m == 0
          | _ => false
        .num allNeg 0 0
      else .num (decide (d.1 < 0)) d.1.natAbs d.2

/-- The tensor-multiply sum of R152 over blocks of performed products: the accumulator and whether it met a wide overflow. -/
def refSum (start : W32) (blocks : List (List FVal)) : W32 × Bool :=
  blocks.foldl (fun (r : W32 × Bool) ps =>
    let b := f32Round (blockExact ps)
    let a := f32Add r.1 b.1
    (a.1, r.2 || b.2 || a.2)) (start, false)

/-- The same sum with every rounding directed (R135). -/
def dirSum (up : Bool) (blocks : List (List FVal)) : FVal :=
  blocks.foldl (fun acc ps => roundDir up (FVal.add (!up) acc (roundDir up (blockExact ps)))) FVal.zero

/-- The integer sum of R155: the accumulator, and whether it clamped. -/
def intSum (start : W32) (blocks : List Int) : W32 × Bool :=
  blocks.foldl (fun (r : W32 × Bool) b =>
    if r.2 then r
    else
      let v := toSigned 32 r.1.toNat + b
      if v > 2147483647 then (BitVec.ofNat 32 2147483647, true)
      else if v < -2147483648 then (BitVec.ofNat 32 2147483648, true)
      else (BitVec.ofNat 32 (ofInt 32 v), false)) (start, false)

/-- One level of the tree of R157. -/
def treeLevel {α : Type} (f : α → α → α) : List α → List α
  | a :: b :: l => f a b :: treeLevel f l
  | l => l

/-- The tree, with fuel for its levels. -/
def treeReduce {α : Type} (f : α → α → α) : Nat → List α → Option α
  | _, [] => none
  | _, [a] => some a
  | 0, a :: _ => some a
  | n + 1, l => treeReduce f n (treeLevel f l)

/-- The larger or smaller of two values under R157 and TEW: NaN gives NaN, and +0 is greater than −0. -/
def FVal.pick (wantMax : Bool) (x y : FVal) : FVal :=
  if x = .nan ∨ y = .nan then .nan
  else if x.isZero && y.isZero then
    match x, y with
    | .num s _ _, .num t _ _ => .num (if wantMax then s && t else s || t) 0 0
    | _, _ => x
  else if FVal.lt x y then (if wantMax then y else x) else if wantMax then x else y

/-! ## VSFU (R101) -/

/-- Fixed-point working precision. -/
def sfuBits : Nat := 192

/-- 2 × atanh(a/b) × 2^P for 0 ≤ a/b ≤ 1/3, by its series; `n` terms. -/
def atanhSeries : Nat → Nat → Nat → Nat → Nat → Nat
  | 0, _, _, _, _ => 0
  | n + 1, t, a, b, k => 2 * t / k + atanhSeries n (t * a * a / (b * b)) a b (k + 2)

def atanh2 (a b : Nat) : Nat := atanhSeries 80 (2 ^ sfuBits * a / b) a b 1

/-- ln 2 × 2^P. -/
def ln2Fix : Nat := atanh2 1 3

/-- exp(r ÷ 2^P) × 2^P for 0 ≤ r ÷ 2^P < 1, by its series. -/
def expSeries : Nat → Nat → Nat → Nat → Nat
  | 0, _, _, _ => 0
  | n + 1, t, r, k => t + expSeries n (t * r / 2 ^ sfuBits / k) r (k + 1)

/-- exp of a finite value: significand and exponent close enough to round. -/
def expVal (neg : Bool) (m : Nat) (e : Int) : FVal :=
  let s := scaleFrac m 1 (e + sfuBits)
  let x := s.1 / s.2
  -- exp(x) = 2^k exp(r) with 0 ≤ r < ln 2
  let k := x / ln2Fix
  let r := x % ln2Fix
  if neg then
    (if r = 0 then .num false (2 ^ sfuBits) (-(k : Int) - sfuBits)
     else .num false (expSeries 64 (2 ^ sfuBits) (ln2Fix - r) 1) (-(k : Int) - 1 - sfuBits))
  else .num false (expSeries 64 (2 ^ sfuBits) r 1) ((k : Int) - sfuBits)

/-- log of a positive finite value. -/
def logVal (m : Nat) (e : Int) : FVal :=
  let l := Nat.log2 m
  -- m = 2^l × u with 1 ≤ u < 2; log u = 2 atanh((u − 1)/(u + 1))
  let u := atanh2 (m - 2 ^ l) (m + 2 ^ l)
  let v : Int := (e + l) * ln2Fix + u
  if v = 0 then .num false 0 0 else .num (decide (v < 0)) v.natAbs (-(sfuBits : Int))

/-- The integer square root of v, bit by bit from bit `n`. -/
def isqrtBits (v : Nat) : Nat → Nat → Nat
  | 0, r => r
  | n + 1, r => let c := r + 2 ^ n; isqrtBits v n (if c * c ≤ v then c else r)

/-- 1 ÷ √(m × 2^e), with a sticky bit below its working precision. -/
def rsqrtVal (m : Nat) (e : Int) : FVal :=
  let (m, e) := if e % 2 = 0 then (m, e) else (2 * m, e - 1)
  let v := 2 ^ (2 * sfuBits) / m
  let r := isqrtBits v (sfuBits + 1) 0
  let exact := decide (r * r * m = 2 ^ (2 * sfuBits))
  .num false (2 * r + b2n (!exact)) (-(sfuBits : Int) - 1 - e / 2)

/-- One lane of VSFU: FP16 in, FP16 out. -/
def sfuLane (op : Nat) (v : Nat) : Nat :=
  let f := FFmt.fp16
  let out (x : FVal) : Nat := (f.round .wide .rne x).bits
  match op, f.decode v with
  | _, .nan => f.nanCode
  | 0, .inf neg => if neg then 0 else f.infCode false
  | 0, .num neg m e => if m = 0 then 0x3C00 else out (expVal neg m e)
  | 1, .inf neg => if neg then f.nanCode else f.infCode false
  | 1, .num neg m e => if m = 0 then f.infCode true else if neg then f.nanCode else out (logVal m e)
  | 2, .inf neg => f.sign neg
  | 2, .num neg m e => if m = 0 then f.infCode neg else (f.roundTo .wide .rne neg 1 m (-e)).bits
  | _, .inf neg => if neg then f.nanCode else 0
  | _, .num neg m e => if m = 0 then f.infCode neg else if neg then f.nanCode else out (rsqrtVal m e)

/-! ## Packing (R33, R34) -/

/-- Element `i` of packed bytes, `w` bits wide. -/
def elemAt (w : Nat) (bs : List Byte) (i : Nat) : Nat :=
  if w = 8 then (bs.getD i 0).toNat
  else
    let bit := w * i
    let n := numAt bs (bit / 8) ((w + 7) / 8 + 1)
    n / 2 ^ (bit % 8) % 2 ^ w

/-- Pack element codes of `w` bits. -/
def packElems (w : Nat) (es : List Nat) : List Byte :=
  let total := es.foldr (fun e acc => acc * 2 ^ w + e % 2 ^ w) 0
  natLE (ceilDiv (w * es.length) 8) total

end Sys2Proof.Machine
end

