-- ==== Sys2Proof/Machine/DictTable.lean ====
section
/-! DEFINITION. The object dictionary's entries, one row per entry of the tables of the spec (R85, R122, R149, R175, R195, R215, R247,
R269, R308, R336, R354, R376, R401, R424, R441, R457, R480, and R25, R50). A value is held as one number, little-endian (R378). -/

namespace Sys2Proof.Machine

/-- The types of R378. -/
inductive DType where
  | bool | u8 | u16 | u32 | u64 | i16 | i32 | f32 | str | blob | time64
  deriving DecidableEq, Repr

/-- The type code of R378. -/
def DType.code : DType → Nat
  | .bool => 1 | .u8 => 2 | .u16 => 3 | .u32 => 4 | .u64 => 5 | .i16 => 6 | .i32 => 7 | .f32 => 8 | .str => 9 | .blob => 10
  | .time64 => 11

/-- The access classes of R379. -/
inductive Access where
  | ro | rw | wo | rws
  deriving DecidableEq, Repr

/-- The access-class code of R385. -/
def Access.code : Access → Nat
  | .ro => 1 | .rw => 2 | .wo => 3 | .rws => 4

/-- An entry: its name (index × 256 + subindex), type, class, size in bytes (for STR the largest length), default, paths ([0] H, [1] F,
[2] W), role needed for writing (0 operator, 1 service), whether it is a selector or a counter (R381, R472), and the selector that
chooses its unit, or 0. -/
structure DictEntry where
  key : Nat
  type : DType
  access : Access
  size : Nat
  dflt : Nat
  paths : Nat
  role : Nat
  selector : Bool
  counter : Bool
  unitOf : Nat
  deriving DecidableEq, Repr

def dictTable0 : List DictEntry := [
  ⟨0x100001, .str, .ro, 32, 0, 7, 0, false, false, 0⟩,
  ⟨0x100002, .u64, .ro, 8, 0, 7, 0, false, false, 0⟩,
  ⟨0x100003, .str, .ro, 16, 0, 7, 0, false, false, 0⟩,
  ⟨0x100004, .u16, .ro, 2, 0, 7, 0, false, false, 0⟩,
  ⟨0x100005, .u32, .ro, 4, 0x10000, 7, 0, false, false, 0⟩,
  ⟨0x101001, .bool, .rws, 1, 0, 3, 0, false, false, 0⟩,
  ⟨0x101002, .u8, .rws, 1, 3, 3, 0, false, false, 0⟩,
  ⟨0x101003, .u32, .ro, 4, 8, 7, 0, false, false, 0⟩,
  ⟨0x102001, .u8, .rw, 1, 0, 7, 0, false, false, 0⟩,
  ⟨0x102002, .u8, .ro, 1, 1, 7, 0, false, false, 0⟩,
  ⟨0x102101, .u32, .ro, 4, 0, 7, 0, false, false, 0⟩,
  ⟨0x102102, .u32, .ro, 4, 0, 7, 0, false, false, 0⟩,
  ⟨0x103001, .blob, .ro, 48, 0, 7, 0, false, false, 0⟩,
  ⟨0x103002, .blob, .wo, 2432, 0, 7, 0, false, false, 0⟩,
  ⟨0x103003, .u8, .ro, 1, 0, 7, 0, false, false, 0⟩,
  ⟨0x103004, .u8, .wo, 1, 0, 7, 0, false, false, 0⟩,
  ⟨0x103101, .blob, .rws, 1312, 0, 3, 0, false, false, 0⟩,
  ⟨0x103102, .blob, .ro, 32, 0, 7, 0, false, false, 0⟩,
  ⟨0x103103, .u64, .rw, 8, 0, 7, 0, false, true, 0⟩,
  ⟨0x104001, .u64, .rw, 8, 0, 7, 0, false, true, 0⟩,
  ⟨0x104002, .u64, .rw, 8, 0, 7, 0, false, true, 0⟩,
  ⟨0x104003, .u64, .rw, 8, 0, 7, 0, false, true, 0⟩,
  ⟨0x104004, .u16, .ro, 2, 0, 7, 0, false, false, 0⟩,
  ⟨0x105001, .u8, .wo, 1, 0, 7, 0, false, false, 0⟩,
  ⟨0x105002, .u8, .ro, 1, 0, 7, 0, false, false, 0⟩,
  ⟨0x105003, .u64, .ro, 8, 0, 7, 0, false, false, 0⟩,
  ⟨0x105004, .u8, .ro, 1, 0, 7, 0, false, false, 0⟩,
  ⟨0x105005, .u32, .ro, 4, 0, 7, 0, false, false, 0⟩,
  ⟨0x106001, .u64, .rw, 8, 0, 7, 0, false, true, 0⟩,
  ⟨0x106002, .u64, .rw, 8, 0, 7, 0, false, true, 0⟩,
  ⟨0x200001, .u16, .ro, 2, 0xffff, 7, 0, false, false, 0⟩,
  ⟨0x201001, .bool, .rws, 1, 1, 3, 0, false, false, 0⟩,
  ⟨0x201002, .u64, .rw, 8, 0, 7, 0, false, true, 0⟩,
  ⟨0x201003, .u64, .rw, 8, 0, 7, 0, false, true, 0⟩,
  ⟨0x201004, .u64, .rw, 8, 0, 7, 0, false, true, 0⟩,
  ⟨0x201005, .u64, .rw, 8, 0, 7, 0, false, true, 0⟩,
  ⟨0x202001, .u64, .wo, 8, 0, 3, 0, false, false, 0⟩,
  ⟨0x202002, .blob, .ro, 2048, 0, 7, 0, false, false, 0⟩,
  ⟨0x202003, .u64, .rw, 8, 0, 7, 0, false, true, 0⟩,
  ⟨0x202004, .u64, .rw, 8, 0, 7, 0, false, true, 0⟩]

def dictTable1 : List DictEntry := [
  ⟨0x202005, .blob, .wo, 32, 0, 3, 1, false, false, 0⟩,
  ⟨0x202006, .u64, .rw, 8, 0, 7, 0, false, true, 0⟩,
  ⟨0x203001, .u16, .rw, 2, 0, 3, 0, false, false, 0⟩,
  ⟨0x204001, .u32, .rws, 4, 0x64, 3, 0, false, false, 0⟩,
  ⟨0x204002, .bool, .rws, 1, 1, 3, 0, false, false, 0⟩,
  ⟨0x204003, .u64, .rw, 8, 0, 7, 0, false, true, 0⟩,
  ⟨0x205001, .blob, .ro, 2048, 0, 7, 0, false, false, 0⟩,
  ⟨0x205002, .u64, .rw, 8, 0, 7, 0, false, true, 0⟩,
  ⟨0x206001, .u64, .rw, 8, 0, 7, 0, false, true, 0⟩,
  ⟨0x206002, .u64, .rw, 8, 0, 7, 0, false, true, 0⟩,
  ⟨0x207001, .u64, .rw, 8, 0, 7, 0, false, true, 0⟩,
  ⟨0x207002, .u64, .rw, 8, 0, 7, 0, false, true, 0⟩,
  ⟨0x207003, .u64, .rw, 8, 0, 7, 0, false, true, 0⟩,
  ⟨0x207004, .u64, .rw, 8, 0, 7, 0, false, true, 0⟩,
  ⟨0x208001, .u8, .rws, 1, 0, 3, 0, false, false, 0⟩,
  ⟨0x208002, .u8, .rws, 1, 4, 3, 0, false, false, 0⟩,
  ⟨0x208003, .u16, .rws, 2, 0, 3, 0, false, false, 0⟩,
  ⟨0x208004, .bool, .rws, 1, 1, 3, 0, false, false, 0⟩,
  ⟨0x208005, .u64, .rw, 8, 0, 7, 0, false, true, 0⟩,
  ⟨0x208101, .u64, .rw, 8, 0, 7, 0, false, true, 0⟩,
  ⟨0x208102, .u64, .rw, 8, 0, 7, 0, false, true, 0⟩,
  ⟨0x208103, .u64, .rw, 8, 0, 7, 0, false, true, 0⟩,
  ⟨0x208104, .u64, .rw, 8, 0, 7, 0, false, true, 0⟩,
  ⟨0x208105, .u64, .rw, 8, 0, 7, 0, false, true, 0⟩,
  ⟨0x208106, .u64, .rw, 8, 0, 7, 0, false, true, 0⟩,
  ⟨0x208107, .u64, .rw, 8, 0, 7, 0, false, true, 0⟩,
  ⟨0x208108, .u64, .rw, 8, 0, 7, 0, false, true, 0⟩,
  ⟨0x208109, .u64, .rw, 8, 0, 7, 0, false, true, 0⟩,
  ⟨0x20810A, .f32, .ro, 4, 0, 7, 0, false, false, 0⟩,
  ⟨0x20810B, .u64, .rw, 8, 0, 7, 0, false, true, 0⟩,
  ⟨0x300001, .u8, .rws, 1, 0, 3, 0, false, false, 0⟩,
  ⟨0x300002, .bool, .rws, 1, 0, 3, 0, false, false, 0⟩,
  ⟨0x300003, .bool, .rws, 1, 0, 3, 0, false, false, 0⟩,
  ⟨0x300101, .u64, .rw, 8, 0, 7, 0, false, true, 0⟩,
  ⟨0x300102, .u64, .rw, 8, 0, 7, 0, false, true, 0⟩,
  ⟨0x300103, .u64, .rw, 8, 0, 7, 0, false, true, 0⟩,
  ⟨0x300104, .u64, .rw, 8, 0, 7, 0, false, true, 0⟩,
  ⟨0x300105, .bool, .rw, 1, 0, 7, 0, false, false, 0⟩,
  ⟨0x300106, .u64, .rw, 8, 0, 7, 0, false, true, 0⟩,
  ⟨0x301001, .u64, .rw, 8, 0, 7, 0, false, false, 0⟩]

def dictTable2 : List DictEntry := [
  ⟨0x301002, .blob, .rw, 524288, 0, 3, 0, false, false, 0⟩,
  ⟨0x302001, .u8, .rws, 1, 1, 3, 0, false, false, 0⟩,
  ⟨0x302003, .u64, .ro, 8, 0, 7, 0, false, false, 0⟩,
  ⟨0x302004, .u64, .rw, 8, 0, 7, 0, false, true, 0⟩,
  ⟨0x302005, .u64, .rw, 8, 0, 7, 0, false, true, 0⟩,
  ⟨0x303001, .u64, .wo, 8, 0, 3, 0, false, false, 0⟩,
  ⟨0x303002, .u16, .rw, 2, 0, 7, 0, true, false, 0⟩,
  ⟨0x303003, .blob, .ro, 128, 0, 7, 0, false, false, 0x303002⟩,
  ⟨0x303301, .u64, .rw, 8, 0, 3, 0, false, false, 0⟩,
  ⟨0x303302, .u8, .wo, 1, 0, 3, 0, false, false, 0⟩,
  ⟨0x303303, .u8, .ro, 1, 0, 7, 0, false, false, 0⟩,
  ⟨0x304001, .bool, .rws, 1, 0, 3, 0, false, false, 0⟩,
  ⟨0x304002, .u8, .rws, 1, 0xa, 3, 0, false, false, 0⟩,
  ⟨0x304003, .u8, .rws, 1, 0xd, 3, 0, false, false, 0⟩,
  ⟨0x304004, .blob, .rw, 128, 0, 7, 0, false, true, 0⟩,
  ⟨0x304005, .u64, .rw, 8, 0, 7, 0, false, true, 0⟩,
  ⟨0x305001, .u32, .rws, 4, 0x100, 3, 0, false, false, 0⟩,
  ⟨0x305002, .u16, .rws, 2, 0x8000, 3, 0, false, false, 0⟩,
  ⟨0x305003, .u64, .rw, 8, 0, 7, 0, false, true, 0⟩,
  ⟨0x400001, .bool, .rws, 1, 1, 3, 0, false, false, 0⟩,
  ⟨0x401001, .u16, .rws, 2, 0x40, 3, 0, false, false, 0⟩,
  ⟨0x401002, .u16, .rws, 2, 0x40, 3, 0, false, false, 0⟩,
  ⟨0x401003, .u16, .rws, 2, 0x40, 3, 0, false, false, 0⟩,
  ⟨0x401004, .u16, .rws, 2, 0x40, 3, 0, false, false, 0⟩,
  ⟨0x401005, .u16, .rws, 2, 0x40, 3, 0, false, false, 0⟩,
  ⟨0x401006, .u16, .rws, 2, 0x40, 3, 0, false, false, 0⟩,
  ⟨0x401007, .u16, .rws, 2, 0x40, 3, 0, false, false, 0⟩,
  ⟨0x401008, .u16, .rws, 2, 0x40, 3, 0, false, false, 0⟩,
  ⟨0x401101, .i16, .rws, 2, 0, 3, 0, false, false, 0⟩,
  ⟨0x401102, .i16, .rws, 2, 0, 3, 0, false, false, 0⟩,
  ⟨0x401103, .i16, .rws, 2, 0, 3, 0, false, false, 0⟩,
  ⟨0x401104, .i16, .rws, 2, 0, 3, 0, false, false, 0⟩,
  ⟨0x401105, .i16, .rws, 2, 0, 3, 0, false, false, 0⟩,
  ⟨0x401106, .i16, .rws, 2, 0, 3, 0, false, false, 0⟩,
  ⟨0x401107, .i16, .rws, 2, 0, 3, 0, false, false, 0⟩,
  ⟨0x401108, .i16, .rws, 2, 0, 3, 0, false, false, 0⟩,
  ⟨0x402001, .bool, .rws, 1, 0, 3, 0, false, false, 0⟩,
  ⟨0x402002, .bool, .rws, 1, 1, 3, 0, false, false, 0⟩,
  ⟨0x403001, .u32, .ro, 4, 0, 7, 0, false, false, 0⟩,
  ⟨0x403002, .u32, .ro, 4, 0, 7, 0, false, false, 0⟩]

def dictTable3 : List DictEntry := [
  ⟨0x404001, .u16, .rw, 2, 0, 3, 0, true, false, 0⟩,
  ⟨0x404002, .blob, .rw, 16, 0, 3, 0, false, false, 0x404001⟩,
  ⟨0x405001, .u8, .rws, 1, 1, 3, 0, false, false, 0⟩,
  ⟨0x405002, .u32, .rws, 4, 0, 3, 0, false, false, 0⟩,
  ⟨0x406001, .blob, .ro, 2048, 0, 7, 0, false, false, 0⟩,
  ⟨0x406002, .u64, .rw, 8, 0, 7, 0, false, true, 0⟩,
  ⟨0x406003, .blob, .rw, 128, 0, 7, 0, false, true, 0⟩,
  ⟨0x406004, .u64, .rw, 8, 0, 7, 0, false, true, 0⟩,
  ⟨0x406005, .u64, .rw, 8, 0, 7, 0, false, true, 0⟩,
  ⟨0x406006, .u64, .rw, 8, 0, 7, 0, false, true, 0⟩,
  ⟨0x410001, .u8, .rw, 1, 0, 3, 0, true, false, 0⟩,
  ⟨0x410002, .blob, .rws, 32, 0x80000001000000020000000400000004000000040000000400000002000, 3, 0, false, false, 0x410001⟩,
  ⟨0x410101, .u8, .rw, 1, 0, 3, 0, true, false, 0⟩,
  ⟨0x410102, .u32, .rws, 4, 0x4000, 3, 0, false, false, 0x410101⟩,
  ⟨0x411001, .u8, .rws, 1, 0x14, 3, 0, false, false, 0⟩,
  ⟨0x412001, .u8, .rw, 1, 0, 3, 0, true, false, 0⟩,
  ⟨0x412002, .blob, .rws, 64, 0, 3, 0, false, false, 0x412001⟩,
  ⟨0x413001, .u8, .rw, 1, 0, 3, 0, true, false, 0⟩,
  ⟨0x413002, .blob, .rws, 64, 0, 3, 0, false, false, 0x413001⟩,
  ⟨0x414001, .blob, .ro, 64, 0, 7, 0, false, false, 0x410001⟩,
  ⟨0x414002, .u64, .rw, 8, 0, 7, 0, false, true, 0⟩,
  ⟨0x420001, .u8, .rw, 1, 0, 3, 0, true, false, 0⟩,
  ⟨0x420002, .u64, .rw, 8, 0, 3, 0, false, false, 0x420001⟩,
  ⟨0x420003, .blob, .rw, 32, 0, 3, 0, false, false, 0x420001⟩,
  ⟨0x420004, .blob, .rw, 32, 0, 3, 0, false, false, 0x420001⟩,
  ⟨0x420005, .u32, .rw, 4, 0x1000, 3, 0, false, false, 0x420001⟩,
  ⟨0x420006, .u64, .rw, 8, 0, 7, 0, false, true, 0x420001⟩,
  ⟨0x420007, .u64, .rw, 8, 0, 7, 0, false, true, 0x420001⟩,
  ⟨0x430001, .u64, .rw, 8, 0, 3, 0, false, false, 0⟩,
  ⟨0x430002, .u8, .rw, 1, 0, 3, 0, false, false, 0⟩,
  ⟨0x430003, .u32, .ro, 4, 0, 7, 0, false, false, 0⟩,
  ⟨0x430004, .u32, .rw, 4, 0, 3, 0, false, false, 0⟩,
  ⟨0x430005, .u64, .rw, 8, 0, 7, 0, false, true, 0⟩,
  ⟨0x430006, .u32, .rw, 4, 0, 3, 0, false, false, 0⟩,
  ⟨0x500001, .u8, .rw, 1, 0, 3, 0, true, false, 0⟩,
  ⟨0x500002, .blob, .rw, 32, 0, 3, 0, false, false, 0x500001⟩,
  ⟨0x500003, .blob, .ro, 16, 0, 7, 0, false, false, 0x500001⟩,
  ⟨0x501001, .u8, .rws, 1, 4, 3, 0, false, false, 0⟩,
  ⟨0x501002, .u32, .ro, 4, 0, 7, 0, false, false, 0⟩,
  ⟨0x502001, .u64, .rw, 8, 0, 7, 0, false, true, 0⟩]

def dictTable4 : List DictEntry := [
  ⟨0x502002, .u64, .rw, 8, 0, 7, 0, false, true, 0⟩,
  ⟨0x502003, .u64, .rw, 8, 0, 7, 0, false, true, 0⟩,
  ⟨0x502004, .u64, .rw, 8, 0, 7, 0, false, true, 0⟩,
  ⟨0x502005, .u64, .rw, 8, 0, 7, 0, false, true, 0⟩,
  ⟨0x502006, .u64, .rw, 8, 0, 7, 0, false, true, 0⟩,
  ⟨0x503001, .u64, .wo, 8, 0, 3, 0, false, false, 0⟩,
  ⟨0x504001, .u8, .rw, 1, 0, 3, 0, true, false, 0⟩,
  ⟨0x504002, .blob, .rw, 32, 0, 3, 1, false, false, 0x504001⟩,
  ⟨0x580001, .u32, .ro, 4, 0xffffffff, 7, 0, false, false, 0⟩,
  ⟨0x580002, .bool, .rws, 1, 1, 3, 0, false, false, 0⟩,
  ⟨0x580003, .u64, .rw, 8, 0, 7, 0, false, true, 0⟩,
  ⟨0x580004, .u64, .rw, 8, 0, 7, 0, false, true, 0⟩,
  ⟨0x580005, .u64, .rw, 8, 0, 7, 0, false, true, 0⟩,
  ⟨0x580006, .u64, .rw, 8, 0, 7, 0, false, true, 0⟩,
  ⟨0x580007, .u64, .rw, 8, 0, 7, 0, false, true, 0⟩,
  ⟨0x580008, .u64, .rw, 8, 0, 7, 0, false, true, 0⟩,
  ⟨0x580009, .u16, .wo, 2, 0, 3, 0, false, false, 0⟩,
  ⟨0x580101, .blob, .ro, 128, 0, 7, 0, false, false, 0⟩,
  ⟨0x581001, .u16, .rw, 2, 0, 3, 0, true, false, 0⟩,
  ⟨0x581002, .blob, .rw, 64, 0, 3, 0, false, false, 0x581001⟩,
  ⟨0x581003, .u8, .ro, 1, 0, 7, 0, false, false, 0x581001⟩,
  ⟨0x581004, .blob, .rw, 64, 0, 7, 0, false, true, 0x581001⟩,
  ⟨0x582001, .u16, .rw, 2, 0, 3, 0, true, false, 0⟩,
  ⟨0x582002, .blob, .rw, 64, 0, 3, 0, false, false, 0x582001⟩,
  ⟨0x582003, .blob, .ro, 16, 0, 7, 0, false, false, 0x582001⟩,
  ⟨0x600001, .u32, .ro, 4, 0, 7, 0, false, false, 0⟩,
  ⟨0x601001, .u32, .ro, 4, 0, 7, 0, false, false, 0⟩,
  ⟨0x601002, .u32, .rws, 4, 0, 3, 0, false, false, 0⟩,
  ⟨0x601003, .u32, .rws, 4, 0, 3, 0, false, false, 0⟩,
  ⟨0x601004, .blob, .rws, 64, 0, 3, 0, false, false, 0⟩,
  ⟨0x601005, .u8, .wo, 1, 0, 3, 0, false, false, 0⟩,
  ⟨0x602001, .u8, .rw, 1, 0, 3, 0, true, false, 0⟩,
  ⟨0x602002, .u8, .rws, 1, 1, 3, 0, false, false, 0x602001⟩,
  ⟨0x602003, .blob, .ro, 32, 0, 7, 0, false, false, 0x602001⟩,
  ⟨0x603001, .blob, .rw, 256, 0, 7, 0, false, true, 0x602001⟩,
  ⟨0x603002, .blob, .ro, 64, 0, 7, 0, false, false, 0x602001⟩,
  ⟨0x604001, .u8, .rw, 1, 0, 3, 0, true, false, 0⟩,
  ⟨0x604002, .blob, .ro, 128, 0, 7, 0, false, false, 0x604001⟩,
  ⟨0x604003, .bool, .rws, 1, 0, 3, 0, false, false, 0x604001⟩,
  ⟨0x604004, .u8, .wo, 1, 0, 3, 1, false, false, 0x604001⟩]

def dictTable5 : List DictEntry := [
  ⟨0x604005, .u64, .rw, 8, 0, 7, 0, false, true, 0⟩,
  ⟨0x604006, .u64, .rw, 8, 0, 7, 0, false, true, 0⟩,
  ⟨0x700001, .u8, .rws, 1, 0, 3, 0, false, false, 0⟩,
  ⟨0x700002, .u8, .ro, 1, 0, 7, 0, false, false, 0⟩,
  ⟨0x701001, .u64, .rw, 8, 0, 7, 0, false, true, 0⟩,
  ⟨0x701002, .u64, .rw, 8, 0, 7, 0, false, true, 0⟩,
  ⟨0x701003, .blob, .ro, 2048, 0, 7, 0, false, false, 0⟩,
  ⟨0x701004, .u64, .rw, 8, 0, 7, 0, false, true, 0⟩,
  ⟨0x701005, .u64, .rw, 8, 0, 7, 0, false, true, 0⟩,
  ⟨0x702001, .u8, .ro, 1, 0x64, 7, 0, false, false, 0⟩,
  ⟨0x702002, .u64, .rw, 8, 0, 7, 0, false, true, 0⟩,
  ⟨0x702003, .u8, .rws, 1, 3, 3, 0, false, false, 0⟩,
  ⟨0x702004, .u32, .ro, 4, 0, 7, 0, false, false, 0⟩,
  ⟨0x710001, .blob, .rw, 32, 0, 3, 0, false, false, 0⟩,
  ⟨0x710002, .u8, .ro, 1, 0, 7, 0, false, false, 0⟩,
  ⟨0x710003, .u32, .ro, 4, 0, 7, 0, false, false, 0⟩,
  ⟨0x710004, .u64, .rw, 8, 0, 7, 0, false, true, 0⟩,
  ⟨0x710005, .u64, .rw, 8, 0, 7, 0, false, true, 0⟩,
  ⟨0x710006, .u64, .rw, 8, 0, 7, 0, false, true, 0⟩,
  ⟨0x710007, .u64, .rw, 8, 0, 7, 0, false, true, 0⟩,
  ⟨0x720001, .blob, .ro, 2048, 0, 7, 0, false, false, 0⟩,
  ⟨0x720002, .u64, .rw, 8, 0, 7, 0, false, true, 0⟩,
  ⟨0x800001, .u8, .ro, 1, 0, 7, 0, false, false, 0⟩,
  ⟨0x800002, .u32, .ro, 4, 0, 7, 0, false, false, 0⟩,
  ⟨0x800003, .u64, .rw, 8, 0, 7, 0, false, true, 0⟩,
  ⟨0x801001, .u64, .rws, 8, 0, 7, 0, false, false, 0⟩,
  ⟨0x801002, .u8, .rws, 1, 0xff, 7, 0, false, false, 0⟩,
  ⟨0x801003, .u8, .rws, 1, 8, 7, 0, false, false, 0⟩,
  ⟨0x801004, .u8, .rws, 1, 0x20, 7, 0, false, false, 0⟩,
  ⟨0x801005, .u64, .rw, 8, 0, 7, 0, false, true, 0⟩,
  ⟨0x801006, .u64, .rw, 8, 0, 7, 0, false, true, 0⟩,
  ⟨0x801101, .u8, .wo, 1, 0, 7, 0, false, false, 0⟩,
  ⟨0x801102, .bool, .rws, 1, 0, 7, 0, false, false, 0⟩,
  ⟨0x802001, .u8, .rws, 1, 1, 7, 0, false, false, 0⟩,
  ⟨0x802002, .f32, .rws, 4, 0x42200000, 7, 0, false, false, 0⟩,
  ⟨0x802003, .f32, .rws, 4, 0x41000000, 7, 0, false, false, 0⟩,
  ⟨0x802004, .f32, .rws, 4, 0x41f00000, 7, 0, false, false, 0⟩,
  ⟨0x802005, .f32, .rws, 4, 0x42c80000, 7, 0, false, false, 0⟩,
  ⟨0x802006, .bool, .rws, 1, 1, 7, 0, false, false, 0⟩,
  ⟨0x802007, .f32, .rws, 4, 0x425c0000, 7, 0, false, false, 0⟩]

def dictTable6 : List DictEntry := [
  ⟨0x802008, .f32, .rws, 4, 0x40c00000, 7, 0, false, false, 0⟩,
  ⟨0x802009, .f32, .rws, 4, 0x43e10000, 7, 0, false, false, 0⟩,
  ⟨0x80200A, .u8, .wo, 1, 0, 7, 0, false, false, 0⟩,
  ⟨0x80200B, .u8, .ro, 1, 0, 7, 0, false, false, 0⟩,
  ⟨0x803001, .blob, .ro, 32, 0, 7, 0, false, false, 0⟩,
  ⟨0x803002, .blob, .ro, 1024, 0, 7, 0, false, false, 0⟩,
  ⟨0x804001, .f32, .ro, 4, 0x7fc00000, 7, 0, false, false, 0⟩,
  ⟨0x804002, .f32, .ro, 4, 0x7fc00000, 7, 0, false, false, 0⟩,
  ⟨0x804003, .f32, .ro, 4, 0, 7, 0, false, false, 0⟩,
  ⟨0x804004, .f32, .ro, 4, 0x42c80000, 7, 0, false, false, 0⟩,
  ⟨0x804005, .f32, .ro, 4, 0, 7, 0, false, false, 0⟩,
  ⟨0x804006, .u32, .ro, 4, 0, 7, 0, false, false, 0⟩,
  ⟨0x804007, .f32, .ro, 4, 0, 7, 0, false, false, 0⟩,
  ⟨0x805001, .bool, .rws, 1, 0, 7, 0, false, false, 0⟩,
  ⟨0x805002, .u8, .wo, 1, 0, 7, 0, false, false, 0⟩,
  ⟨0x900001, .f32, .ro, 4, 0, 7, 0, false, false, 0⟩,
  ⟨0x900002, .f32, .ro, 4, 0, 7, 0, false, false, 0⟩,
  ⟨0x900003, .f32, .ro, 4, 0, 7, 0, false, false, 0⟩,
  ⟨0x900004, .u64, .ro, 8, 0, 7, 0, false, false, 0⟩,
  ⟨0x900005, .u8, .ro, 1, 0, 7, 0, false, false, 0⟩,
  ⟨0x901001, .u8, .wo, 1, 0, 7, 0, false, false, 0⟩,
  ⟨0x901002, .u8, .wo, 1, 0, 3, 0, false, false, 0⟩,
  ⟨0x901003, .u8, .wo, 1, 0, 3, 0, false, false, 0⟩,
  ⟨0x901004, .u64, .rw, 8, 0, 3, 0, false, false, 0⟩,
  ⟨0x901005, .bool, .rws, 1, 0, 3, 0, false, false, 0⟩,
  ⟨0x901006, .u8, .ro, 1, 0, 7, 0, false, false, 0⟩,
  ⟨0x901007, .blob, .ro, 16, 0, 7, 0, false, false, 0⟩,
  ⟨0x902001, .u16, .rws, 2, 0xf3c, 3, 0, false, false, 0⟩,
  ⟨0x902002, .u8, .ro, 1, 0x64, 7, 0, false, false, 0⟩,
  ⟨0x902003, .u32, .ro, 4, 0xa8c, 7, 0, false, false, 0⟩,
  ⟨0x903001, .blob, .ro, 52, 0, 7, 0, false, false, 0⟩,
  ⟨0x903002, .u64, .rw, 8, 0, 7, 0, false, true, 0⟩,
  ⟨0x903003, .u32, .ro, 4, 0, 7, 0, false, false, 0⟩,
  ⟨0x904001, .blob, .ro, 16, 0, 7, 0, false, false, 0⟩,
  ⟨0x904002, .u32, .rws, 4, 0, 3, 0, false, false, 0⟩,
  ⟨0x904003, .time64, .ro, 8, 0, 7, 0, false, false, 0⟩,
  ⟨0x904004, .time64, .wo, 8, 0, 3, 0, false, false, 0⟩,
  ⟨0xA00001, .u32, .ro, 4, 0, 7, 0, false, false, 0⟩,
  ⟨0xA00002, .blob, .ro, 256, 0, 7, 0, false, false, 0⟩,
  ⟨0xA00003, .blob, .ro, 512, 0, 3, 0, false, false, 0⟩]

def dictTable7 : List DictEntry := [
  ⟨0xA00004, .blob, .ro, 32, 0, 7, 0, false, false, 0⟩,
  ⟨0xA00005, .u8, .ro, 1, 0, 7, 0, false, false, 0⟩,
  ⟨0xA01001, .u32, .wo, 4, 0, 3, 0, false, false, 0⟩,
  ⟨0xA01002, .blob, .ro, 32, 0, 7, 0, false, false, 0⟩,
  ⟨0xA02001, .u64, .rw, 8, 0, 3, 0, false, false, 0⟩,
  ⟨0xA02002, .u8, .wo, 1, 0, 3, 0, false, false, 0⟩,
  ⟨0xA02003, .u8, .ro, 1, 0, 7, 0, false, false, 0⟩,
  ⟨0xA02004, .u32, .rw, 4, 0, 7, 0, false, true, 0⟩,
  ⟨0xA03001, .blob, .ro, 4, 0, 7, 0, false, false, 0⟩,
  ⟨0xA04001, .blob, .wo, 32, 0, 7, 0, false, false, 0⟩,
  ⟨0xA04002, .blob, .ro, 3444, 0, 7, 0, false, false, 0⟩,
  ⟨0xA05001, .blob, .ro, 4096, 0, 7, 0, false, false, 0⟩,
  ⟨0xA05002, .blob, .ro, 1312, 0, 7, 0, false, false, 0⟩,
  ⟨0xB00001, .blob, .ro, 32, 0, 7, 0, false, false, 0⟩,
  ⟨0xB00002, .u16, .ro, 2, 0, 7, 0, false, false, 0⟩,
  ⟨0xB00101, .u8, .rw, 1, 0, 3, 0, true, false, 0⟩,
  ⟨0xB00102, .blob, .ro, 2048, 0, 7, 0, false, false, 0xb00101⟩,
  ⟨0xB00103, .blob, .ro, 136, 0, 7, 0, false, false, 0xb00101⟩,
  ⟨0xB00104, .blob, .ro, 32, 0, 7, 0, false, false, 0⟩,
  ⟨0xB01000, .u32, .ro, 4, 0, 7, 0, false, false, 0⟩,
  ⟨0xB02001, .blob, .ro, 32, 0, 7, 0, false, false, 0⟩,
  ⟨0xB02002, .u64, .rw, 8, 0, 7, 0, false, true, 0⟩,
  ⟨0xB02003, .u64, .rw, 8, 0, 7, 0, false, true, 0⟩,
  ⟨0xB03001, .blob, .rw, 32, 0xfffffffffffffffffffffffffffffffffffffffffffffffffffffffffffffffd, 3, 0, false, false, 0⟩,
  ⟨0xB03002, .blob, .ro, 4096, 0, 7, 0, false, false, 0⟩,
  ⟨0xB03003, .u64, .rw, 8, 0, 7, 0, false, true, 0⟩,
  ⟨0xB04001, .u64, .rw, 8, 0, 3, 0, false, false, 0⟩,
  ⟨0xB04002, .u8, .rw, 1, 0, 3, 0, false, false, 0⟩,
  ⟨0xB04003, .u32, .ro, 4, 0, 7, 0, false, false, 0⟩,
  ⟨0xB04004, .u32, .rw, 4, 0, 3, 0, false, false, 0⟩,
  ⟨0xB04005, .u32, .rws, 4, 0x3e8, 3, 0, false, false, 0⟩,
  ⟨0xB04006, .u64, .rw, 8, 0, 7, 0, false, true, 0⟩,
  ⟨0xB05001, .time64, .wo, 8, 0, 7, 0, false, false, 0⟩,
  ⟨0xB05002, .u32, .ro, 4, 0, 7, 0, false, false, 0⟩,
  ⟨0xB05003, .u8, .ro, 1, 0, 7, 0, false, false, 0⟩,
  ⟨0xB05004, .time64, .ro, 8, 0, 7, 0, false, false, 0⟩,
  ⟨0xB05005, .u16, .rw, 2, 0xffff, 3, 0, false, false, 0⟩,
  ⟨0xB05006, .u64, .rw, 8, 0, 7, 0, false, true, 0⟩,
  ⟨0xC00001, .bool, .rw, 1, 0, 3, 1, false, false, 0⟩,
  ⟨0xC00002, .u64, .rw, 8, 0, 3, 1, false, false, 0⟩]

def dictTable8 : List DictEntry := [
  ⟨0xC01001, .u16, .rw, 2, 0, 3, 0, true, false, 0⟩,
  ⟨0xC01002, .u64, .rw, 8, 0, 3, 1, false, false, 0xc01001⟩,
  ⟨0xC02001, .u64, .rw, 8, 0, 7, 0, false, true, 0⟩,
  ⟨0xC02002, .u64, .rw, 8, 0, 7, 0, false, true, 0⟩,
  ⟨0xC02003, .u64, .rw, 8, 0, 7, 0, false, true, 0⟩]

/-- Every entry, in increasing name. -/
def dictTable : List DictEntry :=
  dictTable0 ++ dictTable1 ++ dictTable2 ++ dictTable3 ++ dictTable4 ++ dictTable5 ++ dictTable6 ++ dictTable7 ++ dictTable8

end Sys2Proof.Machine
end

