-- ==== Sys2Proof/Config.lean ====
section
/-! DEFINITION. What an implementation fixes, and the free values: every value the manual leaves undefined, timing-sensitive or
outside its text is an opaque constant without a body, so no proof can rest on a particular one. -/

namespace Sys2Proof.Config

/-- FREE. Byte `i` of the `n`-th undefined content the machine has left behind (R10): log entry 4. -/
opaque freeByte (n i : Nat) : Byte

/-- FREE. The `n`-th choice the manual leaves to timing, for instance which free buffer an ALLOC receives (R169, R209): log entry 2. -/
opaque freeNat (n : Nat) : Nat

/-- FREE. Pad byte `off` of logical cell `cell` since its contents were last lost, generation `gen` (R63, R83): log entry 4. -/
opaque padByte (gen cell off : Nat) : Byte

/-- FREE. A byte of the 32 B nonce of the `n`-th challenge (R393, "a fresh 32 B random nonce"): log entry 13. -/
opaque nonceByte (n i : Nat) : Byte

/-- FREE. The start-up state of the reserved SRAM region at boot `boot`, the helper data in island flash, and the response that they correct
to (R442: neither the region nor the code is given): log entry 13. -/
opaque sramState (boot : Nat) : List Byte
opaque helperData : List Byte
opaque correctResponse (sram helper : List Byte) : List Byte

/-- FREE. Byte `i` of the 32 B of randomness of the `n`-th signature (FIPS 204; R448 names none): log entry 13. -/
opaque signRandom (n i : Nat) : Byte

/-- FREE. The certificate issued at manufacture (R442, up to 4,096 B), and the public key it certifies: log entry 13. -/
opaque certificate : List Byte
opaque certificateKey : List Byte

/-- FREE. Byte `i` of the digest of boot ROM `rom` (0 island, 1 west hub, 2 east hub; R444), and the version of the island and hub
ROMs (R448): log entry 13. -/
opaque romDigestByte (rom i : Nat) : Byte
opaque romVersion (rom : Nat) : W32

/-- FREE. Byte `i` of the image in firmware slot `slot` of component `component` at manufacture: log entry 13. -/
opaque factoryImage (component slot : Nat) : List Byte

/-- FREE. The bytes of a configuration image of a generation and its values (R396: the layout is not given), and of part `k` of a host
bundle: hub, Scarab, link and optics firmware (R444: where they lie in the bundle is not given): log entry 13. -/
opaque configImage (generation : Nat) (values : List (Nat × Nat)) : List Byte
opaque bundlePart (bundle : List Byte) (k : Nat) : List Byte

/-- FREE. Identity values set at manufacture (R493): vendor key digest, PCI IDs, serial number, revision, MAC address: log entry 14. -/
opaque vendorKeyDigestByte (i : Nat) : Byte
opaque pciVendorId : BitVec 16
opaque pciDeviceId : BitVec 16
opaque serialByte (i : Nat) : Byte
opaque hardwareRevision : BitVec 16
opaque fieldMacDefault : BitVec 48

/-- FREE. The wear of the most-worn sector, in per cent, after a number of images written (1050.04): log entry 14. -/
opaque storeWear (images : Nat) : Nat

/-- FREE. The choices that give the comb map of manufacture of hive `h` (R26: "the map need not be the identity"): which of the combs
not yet taken holds logical comb `i`, counted modulo their number: log entry 7. -/
opaque combChoice (h i : Nat) : Nat

/-- FREE. The spare rows present at manufacture beyond the first (R201: 7020.01 is a percentage of them, so there is one at least), and
the HBM row that holds a codeword (R196: hidden from software): log entry 7. -/
opaque spareRowsBeyondOne : Nat
opaque rowOf (codeword : Nat) : Nat

/-- The spare rows present at manufacture. -/
def spareRowsAtManufacture : Nat := spareRowsBeyondOne + 1

/-- Where a stored word lies: in a pad (address: cell × 8,192 + offset), in memory (a local address), or in the scratch of an engine (engine
× 4 MiB + offset). -/
inductive UpsetPlace where
  | pad
  | memory
  | scratch
  deriving DecidableEq, Repr

/-- An error that arises in a stored word (R67, R114, R200, R270), and whether the code corrects it. -/
structure Upset where
  place : UpsetPlace
  address : Nat
  corrected : Bool
  deriving DecidableEq, Repr

/-- FREE. The error, if any, that arises in the memories at the `n`-th draw: log entry 42. -/
opaque upset (n : Nat) : Option Upset

/-- FREE. The first codeword of an HBM row (R468, code 0x0011: the rows are hidden from software): log entry 7. -/
opaque rowFirst (row : Nat) : Nat

/-- FREE. Clocks a gather stage stalled in the `n`-th sparse multiply (R131; timing): log entry 2. -/
opaque gatherStalls (n : Nat) : Nat

/-- FREE. Codewords corrected within the `n`-th frame that arrives on a link (R340, R354): log entry 12. -/
opaque codewordsCorrected (n : Nat) : Nat

/-- FREE. Readings the manual gives no value for: input voltage, current and power, energy (R441), Scarab's share (B000.02),
received optical power (6030.02): log entry 12. -/
opaque reading (which n : Nat) : Nat

end Sys2Proof.Config
end

