-- ==== Sys2Proof/Machine/MlDsa.lean ====
section
/-! DEFINITION. ML-DSA-44 in pure mode with an empty context, as FIPS 204 defines it (R393, R442, R448, R452): key generation, signing and
verification. Coefficients are numbers below q, and a polynomial is the list of its 256. -/

namespace Sys2Proof.Machine

open Sys2Proof

/-! ## Parameters -/

def mldsaQ : Nat := 8380417
/-- 2^d, d = 13: what the public key drops of a coefficient. -/
def mldsaD : Nat := 8192
def mldsaGamma1 : Nat := 131072
def mldsaGamma2 : Nat := 95232
def mldsaTau : Nat := 39
def mldsaBeta : Nat := 78
def mldsaOmega : Nat := 80
/-- Both dimensions of the matrix, k and l. -/
def mldsaK : Nat := 4
/-- Attempts at one signature: the least bound that FIPS 204 allows. -/
def mldsaAttempts : Nat := 814

abbrev Poly := List Nat

/-! ## Arithmetic modulo q -/

def qAdd (a b : Nat) : Nat := (a + b) % mldsaQ
def qSub (a b : Nat) : Nat := (a + mldsaQ - b) % mldsaQ
def qMul (a b : Nat) : Nat := a * b % mldsaQ
def qPow (a n : Nat) : Nat := (List.range n).foldl (fun p _ => qMul p a) 1

/-- The representative of least absolute value, and that absolute value. -/
def qSigned (a : Nat) : Int := if a ≤ mldsaQ / 2 then a else (a : Int) - mldsaQ
def qAbs (a : Nat) : Nat := (qSigned a).natAbs
/-- A coefficient from an integer. -/
def qOf (i : Int) : Nat := (i % (mldsaQ : Int)).toNat

def polyAdd (a b : Poly) : Poly := List.zipWith qAdd a b
def polySub (a b : Poly) : Poly := List.zipWith qSub a b
def polyMul (a b : Poly) : Poly := List.zipWith qMul a b
def polyZero : Poly := List.replicate 256 0

/-- The value of a polynomial at `x`. -/
def polyAt (p : Poly) (x : Nat) : Nat := p.foldr (fun c acc => (acc * x + c) % mldsaQ) 0

/-- The eight bits of `i` in reverse order. -/
def bitRev8 (i : Nat) : Nat := ((List.range 8).map fun b => b2n (bitOf i b) * 2 ^ (7 - b)).sum

/-- The points at which NTT evaluates: odd powers of 1753, a 512th root of unity. -/
def nttPoints : List Nat := (List.range 256).map fun i => qPow 1753 (2 * bitRev8 i + 1)
def ntt (p : Poly) : Poly := nttPoints.map (polyAt p)

/-- For coefficient j of the inverse: 256⁻¹ × 1753^−j, and the point 1753^−2j. -/
def nttBack : List (Nat × Nat) := (List.range 256).map fun j => (qMul 8347681 (qPow 1753 (512 - j)), qPow 1753 (512 - 2 * j))

/-- The inverse: with the values put in order, w_m = p(1753^(2m + 1)), coefficient j is 256⁻¹ × Σ w_m × 1753^−(2m + 1)j. -/
def nttInverse (v : Poly) : Poly :=
  let w := (List.range 256).map fun i => v.getD (bitRev8 i) 0
  nttBack.map fun b => qMul b.1 (polyAt w b.2)

/-! ## Vectors and the matrix, in NTT form -/

def dotHat (row v : List Poly) : Poly := (List.zipWith polyMul row v).foldl polyAdd polyZero
def matVec (a : List (List Poly)) (v : List Poly) : List Poly := a.map fun row => nttInverse (dotHat row v)

/-! ## Packing -/

/-- Values of `w` bits each, the first in the lowest bits. -/
def packBits (w : Nat) (vs : List Nat) : List Byte := natLE (vs.length * w / 8) (vs.foldr (fun v acc => v % 2 ^ w + 2 ^ w * acc) 0)
def unpackBits (w n : Nat) (bs : List Byte) : List Nat :=
  let v := leNat bs
  (List.range n).map fun i => v / 2 ^ (w * i) % 2 ^ w

/-! ## Sampling -/

/-- Coefficients from groups of three bytes, those at or above q left out. -/
def rejectNtt : List Byte → List Nat
  | a :: b :: c :: bs =>
    let z := a.toNat + 256 * b.toNat + 65536 * (c.toNat % 128)
    if z < mldsaQ then z :: rejectNtt bs else rejectNtt bs
  | _ => []

/-- Entry (r, s) of the matrix: 1,008 B of SHAKE128 give 256 coefficients but for one case in more than 2^256. -/
def expandA (rho : List Byte) : List (List Poly) :=
  (List.range mldsaK).map fun r => (List.range mldsaK).map fun s =>
    (rejectNtt (shake128 1008 (rho ++ natLE 1 s ++ natLE 1 r))).take 256

/-- A secret polynomial, coefficients −2 to 2, from half bytes below 15. -/
def boundedPoly (seed : List Byte) (r : Nat) : Poly :=
  let halves := (shake256 544 (seed ++ natLE 2 r)).flatMap fun b => [b.toNat % 16, b.toNat / 16]
  ((halves.filter fun z => decide (z < 15)).map fun z => qSub 2 (z % 5)).take 256

/-- A masking vector: coefficients γ1 less 18 bits. -/
def expandMask (seed : List Byte) (kappa : Nat) : List Poly :=
  (List.range mldsaK).map fun r =>
    (unpackBits 18 256 (shake256 576 (seed ++ natLE 2 (kappa + r)))).map fun v => qSub mldsaGamma1 v

/-- The challenge from a stream of bytes: for i from 217 to 255 the first byte that is at most i says which place it changes with. -/
def ballFrom (signs : Nat) : List Nat → List Byte → Poly → Poly
  | [], _, c => c
  | _, [], c => c
  | i :: is, b :: bs, c =>
    if b.toNat ≤ i then
      let sign := if bitOf signs (i + mldsaTau - 256) then mldsaQ - 1 else 1
      ballFrom signs is bs ((c.set i (c.getD b.toNat 0)).set b.toNat sign)
    else ballFrom signs (i :: is) bs c
termination_by structural _ bs _ => bs

def sampleInBall (seed : List Byte) : Poly :=
  let bs := shake256 272 seed
  ballFrom (leNat (bs.take 8)) ((List.range 256).drop (256 - mldsaTau)) (bs.drop 8) polyZero

/-! ## Rounding -/

/-- Power2Round: the high part and the low one, in (−2^12, 2^12]. -/
def power2Round (r : Nat) : Nat × Int :=
  let r0 : Int := if r % mldsaD ≤ mldsaD / 2 then r % mldsaD else (r % mldsaD : Int) - mldsaD
  ((((r : Int) - r0) / mldsaD).toNat, r0)

/-- Decompose: the high part below 44 and the low one. -/
def decompose (r : Nat) : Nat × Int :=
  let m := 2 * mldsaGamma2
  let r0 : Int := if r % m ≤ mldsaGamma2 then r % m else (r % m : Int) - m
  if (r : Int) - r0 = mldsaQ - 1 then (0, r0 - 1) else ((((r : Int) - r0) / m).toNat, r0)

def highBits (r : Nat) : Nat := (decompose r).1
def lowBits (r : Nat) : Int := (decompose r).2

/-- UseHint. -/
def useHint (h : Bool) (r : Nat) : Nat :=
  let d := decompose r
  if !h then d.1 else if 0 < d.2 then (d.1 + 1) % 44 else (d.1 + 43) % 44

/-- Is every coefficient of a vector below a bound in absolute value? -/
def normBelow (n : Nat) (v : List Poly) : Bool := v.all fun p => p.all fun a => decide (qAbs a < n)

def w1Encode (w1 : List Poly) : List Byte := w1.flatMap (packBits 6)

/-! ## Hints -/

/-- The places of the hints, polynomial by polynomial, in ω bytes, and after each polynomial how many there have been. -/
def hintPack (h : List (List Bool)) : List Byte :=
  let places := h.map fun p => (List.range 256).filter fun i => p.getD i false
  let flat := places.flatten
  (flat ++ List.replicate (mldsaOmega - flat.length) 0).map (BitVec.ofNat 8)
    ++ (List.range mldsaK).map fun i => BitVec.ofNat 8 ((places.take (i + 1)).map List.length).sum

/-- Do numbers rise strictly? -/
def rising : List Nat → Bool
  | a :: b :: l => decide (a < b) && rising (b :: l)
  | _ => true

/-- The hints of 84 bytes; none where they are malformed. -/
def hintUnpack (y : List Byte) : Option (List (List Bool)) :=
  let v := y.map BitVec.toNat
  let stop (i : Nat) : Nat := if i = 0 then 0 else v.getD (mldsaOmega + i - 1) 0
  let part (i : Nat) : List Nat := (v.take (stop (i + 1))).drop (stop i)
  let good := (List.range mldsaK).all fun i => decide (stop i ≤ stop (i + 1)) && decide (stop (i + 1) ≤ mldsaOmega) && rising (part i)
  let rest := ((v.take mldsaOmega).drop (stop mldsaK)).all fun x => decide (x = 0)
  if good && rest then some ((List.range mldsaK).map fun i => (List.range 256).map fun j => (part i).contains j) else none

/-! ## Keys -/

/-- A private key: ρ, K, tr, s1, s2 and t0; the public one is ρ and t1. -/
structure MldsaKey where
  rho : List Byte
  k : List Byte
  tr : List Byte
  s1 : List Poly
  s2 : List Poly
  t0 : List Poly
  publicKey : List Byte
  deriving DecidableEq, Repr

/-- Key generation from a 32 B seed. -/
def mldsaKeyGen (seed : List Byte) : MldsaKey :=
  let h := shake256 128 (seed ++ [4, 4])
  let rho := slice h 0 32
  let s1 := (List.range mldsaK).map (boundedPoly (slice h 32 64))
  let s2 := (List.range mldsaK).map fun r => boundedPoly (slice h 32 64) (r + mldsaK)
  let t := List.zipWith polyAdd (matVec (expandA rho) (s1.map ntt)) s2
  let pk := rho ++ t.flatMap fun p => packBits 10 (p.map fun r => (power2Round r).1)
  { rho := rho, k := slice h 96 32, tr := shake256 64 pk, s1 := s1, s2 := s2, t0 := t.map fun p => p.map fun r => qOf (power2Round r).2, publicKey := pk }

/-! ## Signing -/

/-- What is hashed with a key's hash in pure mode with an empty context. -/
def mldsaMu (tr message : List Byte) : List Byte := shake256 64 (tr ++ [0, 0] ++ message)

/-- One attempt: the challenge hash, z and the hints; none: rejected. -/
def MldsaKey.attempt (key : MldsaKey) (a : List (List Poly)) (mu seed : List Byte) (kappa : Nat) : Option (List Byte) :=
  let y := expandMask seed kappa
  let w := matVec a (y.map ntt)
  let ct := shake256 32 (mu ++ w1Encode (w.map fun p => p.map highBits))
  let c := ntt (sampleInBall ct)
  let times (v : List Poly) : List Poly := v.map fun p => nttInverse (polyMul c (ntt p))
  let z := List.zipWith polyAdd y (times key.s1)
  let r := List.zipWith polySub w (times key.s2)
  if !(normBelow (mldsaGamma1 - mldsaBeta) z && r.all fun p => p.all fun x => decide ((lowBits x).natAbs < mldsaGamma2 - mldsaBeta)) then none
  else
    let ct0 := times key.t0
    let h := List.zipWith (List.zipWith fun x e => highBits (qAdd x e) != highBits x) r ct0
    if !(normBelow mldsaGamma2 ct0 && decide ((h.map fun p => p.count true).sum ≤ mldsaOmega)) then none
    else some (ct ++ (z.flatMap fun p => packBits 18 (p.map fun x => qSub mldsaGamma1 x)) ++ hintPack h)

/-- The first attempt that is not rejected; after the last there is no signature. -/
def MldsaKey.attempts (key : MldsaKey) (a : List (List Poly)) (mu seed : List Byte) : Nat → Nat → List Byte
  | 0, _ => List.replicate 2420 0
  | n + 1, kappa =>
    match key.attempt a mu seed kappa with
    | some sig => sig
    | none => key.attempts a mu seed n (kappa + mldsaK)

/-- The signature of a message with 32 B of randomness. -/
def mldsaSign (key : MldsaKey) (message random : List Byte) : List Byte :=
  let mu := mldsaMu key.tr message
  key.attempts (expandA key.rho) mu (shake256 64 (key.k ++ random ++ mu)) mldsaAttempts 0

/-! ## Verification -/

/-- Does a signature of 2,420 B verify under a public key of 1,312 B? -/
def mldsaVerify (publicKey message signature : List Byte) : Bool :=
  let ct := slice signature 0 32
  let z := (List.range mldsaK).map fun i => (unpackBits 18 256 (slice signature (32 + 576 * i) 576)).map fun v => qSub mldsaGamma1 v
  match hintUnpack (slice signature 2336 84) with
  | none => false
  | some h =>
    let t1 := (List.range mldsaK).map fun i => (unpackBits 10 256 (slice publicKey (32 + 320 * i) 320)).map fun v => v * mldsaD
    let mu := mldsaMu (shake256 64 publicKey) message
    let c := ntt (sampleInBall ct)
    let az := (expandA (slice publicKey 0 32)).map fun row => dotHat row (z.map ntt)
    let w := List.zipWith (fun x t => nttInverse (polySub x (polyMul c (ntt t)))) az t1
    let w1 := List.zipWith (List.zipWith useHint) h w
    normBelow (mldsaGamma1 - mldsaBeta) z && shake256 32 (mu ++ w1Encode w1) == ct

end Sys2Proof.Machine
end

