-- ==== Sys2Proof/Machine/Boot.lean ====
section
/-! DEFINITION. Measured start: the extend rule and the boot chains (R443, R444), firmware images and their slots (R452), and the state of the
trust chapter. -/

namespace Sys2Proof.Machine

open Sys2Proof

/-- The MAC address chosen at manufacture: locally administered, unicast (R401, R493). -/
def fieldMac : Nat := setField Config.fieldMacDefault.toNat 40 2 2

/-! ## Firmware images (R452) -/

/-- A firmware slot (R452): its image and whether its key, signature, component and length have been found good. -/
structure FirmwareSlot where
  image : List Byte
  valid : Bool
  deriving DecidableEq, Repr

/-- A component's firmware: two slots, which is active for the next boot, which runs (none: its boot ROM stays in recovery), and whether the
inactive one holds a staged image. -/
structure Component where
  slots : Vector FirmwareSlot 2
  active : Nat
  running : Option Nat
  staged : Bool
  deriving DecidableEq, Repr

/-- Header fields of an image: component, version, security version and body length. -/
def imageComponent (bs : List Byte) : Nat := numAt bs 4 1
def imageVersion (bs : List Byte) : Nat := numAt bs 8 4
def imageSecurity (bs : List Byte) : Nat := numAt bs 12 2
def imageBody (bs : List Byte) : Nat := numAt bs 16 4

/-- Header, public key, body and signature. -/
def imageLength (bs : List Byte) : Nat := 64 + 1312 + imageBody bs + 2420

/-- The bytes of a slot of a component: 4 MiB for the bundle, 64 KiB for island firmware. -/
def slotBytes (component : Nat) : Nat := if component = 1 then 4194304 else 65536

/-- Is an image laid out for its component's slot? -/
def imageShape (component : Nat) (bs : List Byte) : Bool :=
  slice bs 0 4 == [0x4C, 0x57, 0x58, 0x46] && imageComponent bs == component && bs.length == imageLength bs
    && decide (imageLength bs ≤ slotBytes component)

/-- Do its key and signature verify? -/
def imageSigned (bs : List Byte) : Bool :=
  let key := slice bs 64 1312
  let n := imageBody bs
  sha3 key == (List.range 32).map Config.vendorKeyDigestByte
    && mldsaVerify key (slice bs 0 64 ++ slice bs 1376 n) (slice bs (1376 + n) 2420)

def Component.slot (c : Component) (i : Nat) : FirmwareSlot := c.slots.getD i ⟨[], false⟩

/-- May a boot ROM boot slot `i` under a rollback floor? -/
def Component.bootable (c : Component) (floor i : Nat) : Bool :=
  (c.slot i).valid && decide (floor ≤ imageSecurity (c.slot i).image)

/-- Boot: the active slot if it is valid, else the other; true when it fell back. -/
def Component.boot (c : Component) (floor : Nat) : Bool × Component :=
  let o := 1 - c.active
  if c.bootable floor c.active then (false, { c with running := some c.active, staged := c.staged })
  else if c.bootable floor o then (true, { c with running := some o, active := o, staged := false })
  else (false, { c with running := none })

/-- The image that runs. -/
def Component.image (c : Component) : List Byte :=
  match c.running with
  | some i => (c.slot i).image
  | none => []

/-! ## Slots (R443) -/

/-- A 32 B digest as a number. -/
def slotOf (bs : List Byte) : W256 := BitVec.ofNat 256 (leNat bs)

/-- The extend rule: new := SHA3-256(old ‖ d). -/
def extendSlot (old : W256) (d : List Byte) : W256 := slotOf (sha3 (natLE 32 old.toNat ++ d))

/-- The digest of a boot ROM: 0 island, 1 west hub, 2 east hub. -/
def romDigest (rom : Nat) : List Byte := (List.range 32).map (Config.romDigestByte rom)

/-- A bank record (R448, bytes 896–927), and the banks measured into its slot, which are watched (R447). -/
structure BankRecord where
  comb : Nat := 0
  bankB : Bool := false
  measured : Bool := false
  changed : Bool := false
  altered : Bool := false
  measurements : Nat := 0
  watched : List (Nat × Bool) := []
  deriving DecidableEq, Repr

/-- A measurement that is unfinished (R446): its record, its digest, and whether its bank has been written since the request. -/
structure Measuring where
  slot : Nat
  comb : Nat
  bankB : Bool
  digest : List Byte
  changed : Bool := false
  altered : Bool := false
  deriving DecidableEq, Repr

/-- Slots, boot counter, bank records, firmware and floors (host bundle, island firmware), a stage in progress (component and image), and a
measurement in progress. -/
structure Trust where
  islandSlots : Vector W256 8
  hostSlots : Vector W256 16
  boots : Nat
  islandBoot : Nat
  banks : Vector BankRecord 4
  host : Component
  island : Component
  floors : Nat × Nat
  staging : Option (Nat × List Byte)
  nextQuote : Nat
  measuring : Option Measuring := none
  deriving DecidableEq, Repr

/-! ## The boot chains (R444, R450) -/

/-- The digest of a configuration image: what R444 extends into island slot 2. -/
def configDigest (image : Option (Nat × List (Nat × Nat))) : List Byte :=
  match image with
  | some (g, vs) => sha3 (Config.configImage g vs)
  | none => List.replicate 32 0

/-- Extend an island slot. -/
def Trust.extendIsland (t : Trust) (i : Nat) (d : List Byte) : Trust :=
  { t with islandSlots := t.islandSlots.setIfInBounds i (extendSlot (t.islandSlots.getD i 0) d) }

def Trust.extendHost (t : Trust) (i : Nat) (d : List Byte) : Trust :=
  { t with hostSlots := t.hostSlots.setIfInBounds i (extendSlot (t.hostSlots.getD i 0) d) }

/-- The identity key derived at an island reset (R442): the SRAM's response, corrected, hashed to a seed, and the key pair of that seed. -/
def identityPair (boot : Nat) : MldsaKey := mldsaKeyGen (shake256 32 (Config.correctResponse (Config.sramState boot) Config.helperData))
def identityKey (boot : Nat) : List Byte := (identityPair boot).publicKey

/-- A measurement is finished: the slot is extended and its record follows. Marks stand (R447). -/
def Trust.measured (t : Trust) (m : Measuring) : Trust :=
  let t := { t.extendHost (12 + m.slot) m.digest with measuring := none }
  let r := t.banks.getD m.slot {}
  let r := { r with
    comb := m.comb, bankB := m.bankB, measured := true, changed := r.changed || m.changed, altered := r.altered || m.altered
    measurements := satAdd 32 r.measurements 1, watched := (m.comb, m.bankB) :: r.watched }
  { t with banks := t.banks.setIfInBounds m.slot r }

/-- The measurement in progress, if any, is finished. -/
def Trust.finishMeasure (t : Trust) : Trust :=
  match t.measuring with
  | some m => t.measured m
  | none => t

/-- A bank is written: the slots it was measured into are marked (R447). -/
def Trust.markBank (t : Trust) (n : Nat) (b altered : Bool) : Trust :=
  { t with
    banks := t.banks.map fun r => if r.watched.contains (n, b) then { r with changed := true, altered := r.altered || altered } else r
    measuring := t.measuring.map fun m => if m.comb = n ∧ m.bankB = b then { m with changed := true, altered := m.altered || altered } else m }

/-- The island's boot chain: its slots are measured anew; true when it fell back to the other slot. In recovery only slot 0 is recorded. -/
def Trust.bootIsland (t : Trust) (config : Option (Nat × List (Nat × Nat))) : Bool × Trust :=
  let b := t.island.boot t.floors.2
  let t := { t with boots := satAdd 32 t.boots 1, islandBoot := t.boots + 1, island := b.2, islandSlots := Vector.replicate 8 0 }
  let t := t.extendIsland 0 (romDigest 0)
  if b.2.running.isNone then (b.1, t)
  else
    let t := t.extendIsland 1 (sha3 b.2.image)
    (b.1, (t.extendIsland 2 (configDigest config)).extendIsland 3 (sha3 (identityKey t.islandBoot)))

/-- The parts of a host bundle that R444 measures: hub, Scarab, link and optics firmware. -/
def bundlePart (bs : List Byte) (k : Nat) : List Byte := Config.bundlePart bs k

/-- The host side's boot chain; bank records are forgotten (R447). -/
def Trust.bootHost (t : Trust) : Bool × Trust :=
  let b := t.host.boot t.floors.1
  let t := { t with
    boots := satAdd 32 t.boots 1, host := b.2, hostSlots := Vector.replicate 16 0, banks := Vector.replicate 4 {}
    measuring := none }
  let t := (t.extendHost 0 (romDigest 1)).extendHost 0 (romDigest 2)
  if b.2.running.isNone then (b.1, t)
  else
    let t := t.extendHost 1 (sha3 b.2.image)
    (b.1, (List.range 3).foldl (fun (t : Trust) k => t.extendHost (2 + k) (sha3 (bundlePart b.2.image k))) t)

/-- The firmware at manufacture: slot 0 valid and active (log entry 13). -/
def Component.factory (c : Nat) : Component :=
  { slots := #v[⟨Config.factoryImage c 0, true⟩, ⟨Config.factoryImage c 1, false⟩], active := 0, running := some 0, staged := false }

/-- A new module's trust state before its first start. -/
def Trust.factory : Trust :=
  { islandSlots := Vector.replicate 8 0, hostSlots := Vector.replicate 16 0, boots := 0, islandBoot := 0, banks := Vector.replicate 4 {}
    host := Component.factory 1, island := Component.factory 2, floors := (0, 0), staging := none, nextQuote := 0 }

/-- After the first start of the island, whose store holds an image without values, and of the host side, for which it is loaded again. -/
def Trust.atStart : Trust := (Trust.factory.bootIsland (some (0, []))).2.bootHost.2.extendIsland 2 (configDigest (some (0, [])))

end Sys2Proof.Machine
end

