-- ==== Sys2Proof/Machine/State.lean ====
section
/-! DEFINITION. The state of the module: every register, memory, queue and mode the manual names, as plain data; the reasons a
step can stop; and the state after a cold reset. INVENTORY.md lists the fields with their rules and reset values. -/

namespace Sys2Proof.Machine

open Sys2Proof

/-- Why a step stops with a fault. The module has an outcome of its own for every access and error (R25, R461), so no meaning
raises this: it stands for a fault the manual does not describe (safe). -/
inductive Fault where
  | undescribed
  deriving DecidableEq, Repr

/-- Why a step has no meaning. -/
inductive Refusal where
  /-- The command has no meaning in this model yet; raised by the dispatch alone (safe). -/
  | notModelled (mnemonic : String)
  deriving DecidableEq, Repr

/-- The grade of the part (R2). No command changes it. -/
inductive Grade where
  | full
  | reduced
  deriving DecidableEq, Repr

/-! ## The Swarm -/

/-- The comparator state (R106): exactly one flag is set after a CMP, none at thread start (R68). -/
inductive CmpFlag where
  | clear
  | lt
  | eq
  | gt
  deriving DecidableEq, Repr

/-- A hardware loop counter (R104, R105). -/
structure LoopCtr where
  preset : W32 := 0
  remaining : W32 := 0
  first : Nat := 0
  last : Nat := 0
  active : Bool := false
  deriving DecidableEq, Repr

/-- What a WAIT waits for (R108). -/
inductive WaitFor where
  | signal
  | memory (address : Nat) (b : W32) (mask : Nat) (signed : Bool)
  | time (t : Nat)
  deriving DecidableEq, Repr

structure Wait where
  what : WaitFor
  issued : Nat
  timeout : Nat
  pred : Nat
  deriving DecidableEq, Repr

/-- What a thread slot is doing. `remote` waits for the replies to the requests of its command; `room` waits for commit-buffer
room (R140). -/
inductive SlotStatus where
  | empty
  | ready
  | waiting (w : Wait)
  | remote
  | room
  deriving DecidableEq, Repr

/-- A prediction or the verdicts of a held tile (R136, R138): codes 0–3, row-major. -/
structure Prediction where
  rows : Nat
  cols : Nat
  verdicts : List Nat
  policy : Nat
  deriving DecidableEq, Repr

/-- The projection and norm Mantis keeps for a thread (R139), with their directed forms (R135), as FP32 words, row-major. -/
structure KeptProjection where
  a : W256
  b : W256
  z : List W32
  zDown : List W32
  zUp : List W32
  norm : List W32
  normUp : List W32
  deriving DecidableEq, Repr

/-- One multiply of a chain (R140). -/
structure ChainLink where
  opcode : Nat
  a : W256
  b : W256
  deriving DecidableEq, Repr

/-- One accumulator entry of a multiply: its 4 B value, whether it set the wide-overflow flag and whether it clamped (R55, R154). -/
structure AccEntry where
  value : W32
  wide : Bool
  clamped : Bool
  deriving DecidableEq, Repr

/-- A held tile (R140), with the counts held for it (R145): the conflicts and dropped indices of its chain, and per entry the
number of clamps and whether a wide overflow arose. `initial` is the pad value each entry started from. -/
structure HeldTile where
  dest : W256
  verdicts : Prediction
  initial : List W32
  acc : List W32
  clamps : List Nat
  wide : List Bool
  conflicts : Nat
  dropped : Nat
  chain : List ChainLink
  deriving DecidableEq, Repr

/-- What a command latches when it issues (R51, R138, R171, R179, R183, R185): step, epoch, rounding and overflow modes, head-room, the
seed of its destination's tensor ID, that tensor's scale code where its record is bound, scaled and primed, and the Mantis settings
2080.01–2080.04. -/
structure Latch where
  step : Nat := 0
  epoch : Nat := 0
  rounding : Nat := 0
  e5m2Inf : Bool := false
  fp16Inf : Bool := false
  headroom : Nat := 0
  seed : Nat := 0
  code : Option Nat := none
  policy : Nat := 0
  sample : Nat := 0
  threshold : Nat := 0
  permitted : Bool := true
  deriving DecidableEq, Repr

/-- The architectural state of a thread slot (R68) and what the module tracks for it. `cur` is the word of a command in progress, and
the bank it came from (R117: a command in progress completes unchanged), `latch` what it latched at issue; `fetched` holds bytes read
from other nodes for it, and `room` the bytes of the commit buffer granted to the multiply it has in progress (R140). -/
structure Slot where
  status : SlotStatus := .empty
  sregs : Vector W32 16 := Vector.replicate 16 0
  vregs : Vector W64 8 := Vector.replicate 8 0
  cregs : Vector W32 4 := Vector.replicate 4 0
  cmp : Vector CmpFlag 2 := Vector.replicate 2 .clear
  preds : Vector Bool 8 := Vector.replicate 8 false
  loops : Vector LoopCtr 2 := Vector.replicate 2 {}
  nest : List Nat := []
  descs : Vector W256 32 := Vector.replicate 32 0
  ptr : Nat := 0
  signals : Nat := 0
  launch : Nat := 0
  index : Nat := 0
  namedBank : Nat := 0
  run : Option Nat := none
  item : Option Nat := none
  yieldTo : List Nat := []
  prediction : Option Prediction := none
  kept : Option KeptProjection := none
  held : Option HeldTile := none
  fetched : SMap (Option Byte) := []
  cur : Option (Nat × Bool) := none
  latch : Latch := {}
  room : Nat := 0
  deriving DecidableEq, Repr

/-- A comb: the bank its threads fetch from (true: B), swaps requested and not yet performed, writes held for the bank that
becomes inactive (R117), the altered marks of its banks (R120), gating (R83), drain, its report and a move awaited (R438, R27). -/
structure Comb where
  bankB : Bool := false
  swaps : Nat := 0
  heldWrites : List (Nat × List Byte) := []
  alteredA : Bool := false
  alteredB : Bool := false
  gated : Bool := false
  idleSince : Nat := 0
  draining : Bool := false
  drained : Bool := false
  movePending : Bool := false
  deriving DecidableEq, Repr

/-- Who posted a launch. -/
inductive LaunchSource where
  | thread (s : SlotId)
  | entry (q e : Nat)
  deriving DecidableEq, Repr

/-- An accepted launch (R69–R77). `runs` holds, per comb of a dynamic launch, the interval of its queue not yet taken. -/
structure Launch where
  id : Nat
  desc : W256
  dynamic : Bool
  held : Bool
  started : List Nat
  live : Nat
  lost : Nat
  abnormal : Nat
  source : LaunchSource
  runs : SMap (Nat × Nat)
  deriving DecidableEq, Repr

/-- The Swarm. `padPoison` and `padSoft` hold the pad words with an error that the code does not correct, and that it corrects (R114);
`resetAt` is when the last cold or warm reset took place, since when a comb with no entry has been idle (R83). -/
structure Swarm where
  slots : SMap Slot := []
  combs : SMap Comb := []
  launches : List Launch := []
  nextLaunch : Nat := 0
  ports : SMap (BitVec 192) := []
  pads : SMap (Option Byte) := []
  padGen : SMap Nat := []
  padPoison : SMap Bool := []
  padSoft : SMap Bool := []
  roomQueue : SMap (List Nat) := []
  haltLog : List W256 := []
  combMap : SMap (Option Nat) := []
  failedCombs : SMap Bool := []
  hives : BitVec 16 := BitVec.allOnes 16
  hiveFailedBySpare : BitVec 16 := 0
  drainRange : Nat × Nat := (0, 0)
  multiplies : Nat := 0
  resetAt : Nat := 0
  deriving DecidableEq, Repr

/-! ## Memory and pools -/

/-- A buffer pool (R206–R212): its record, state code of 7100.02, free count, whether the low-water condition holds, the free indices in
its on-chip cache, and where in the ring its next entry lies and how many it holds (R209). Ring and bitmap lie in HBM (R206). -/
structure Pool where
  record : W256 := 0
  state : Nat := 0
  free : Nat := 0
  low : Bool := false
  cache : List Nat := []
  ringHead : Nat := 0
  ringHeld : Nat := 0
  deriving DecidableEq, Repr

/-- Memory: the bytes stored; the words and codewords with an error that their code does not correct (`poison`) and that it corrects
(`soft`) (R67, R200); repair of HBM rows, with the remaps not yet permanent (R201); the logs; the pools. -/
structure MemSys where
  bytes : SMap Byte := []
  poison : SMap Bool := []
  soft : SMap Bool := []
  hubLocal : Nat := 0
  rowCorrections : SMap Nat := []
  candidates : SMap Bool := []
  rowsRepaired : Nat := 0
  remapped : SMap Bool := []
  remappedForGood : SMap Bool := []
  log : List W256 := []
  pools : SMap Pool := []
  rejections : List W256 := []
  deriving DecidableEq, Repr

/-! ## Training numerics -/

/-- A tensor record (R188), with the head-room latched at its last roll (R181). -/
structure TensorRecord where
  tensor : Nat := 0
  format : Nat := 0
  scaled : Bool := false
  watchZero : Bool := false
  watchStall : Bool := false
  shadow : Bool := false
  primed : Bool := false
  zeroAlarm : Bool := false
  stallAlarm : Bool := false
  bound : Bool := false
  historyCount : Nat := 0
  historyHead : Nat := 0
  scale : Nat := 0
  reported : Bool := false
  epoch : Nat := 0
  amax : W32 := 0
  saturationsNow : Nat := 0
  updates : Nat := 0
  stalled : Nat := 0
  zeroRun : Nat := 0
  stallRun : Nat := 0
  saturations : Nat := 0
  crushes : Nat := 0
  prune : Nat := 0
  prepasses : Nat := 0
  shadows : Nat := 0
  history : Vector W32 16 := Vector.replicate 16 0
  headroom : Nat := 0
  deriving DecidableEq, Repr

/-- A transfer of tensor records in progress (R187). -/
structure ScaleTransfer where
  isExport : Bool
  address : Nat
  result : Nat
  deriving DecidableEq, Repr

structure Numerics where
  seeds : SMap W64 := []
  records : SMap TensorRecord := []
  transfer : Option ScaleTransfer := none
  deriving DecidableEq, Repr

/-! ## The switch core -/

/-- A frame as the switch stores it (R218, R224): header and payload. -/
structure Frame where
  header : W256
  payload : List Byte
  deriving DecidableEq, Repr

/-- A frame on an egress queue: the port it entered by, the port it is bound for (beyond the bridge where its queue is a bridge
queue), the number of the stored frame its copies share (R241), whether its trailer is confirmed or it is void (R235), and whether it must
be stored whole: it came by replay, or was selected for mirroring (R234). -/
structure Queued where
  frame : Frame
  ingress : Nat
  final : Nat
  store : Nat
  confirmed : Bool
  void : Bool
  stored : Bool
  deriving DecidableEq, Repr

/-- What the checks of R227 make of a header: the ports the frame's copies leave by (endpoint ports, and links each with the sub-channel
of R231), or the reason for which it is discarded. A multicast copy never returns on the link it came by (R240). -/
inductive Route where
  | discard (reason : Nat)
  | local_ (port : Nat)
  | link (l : Nat) (sub : Nat)
  | copies (local_ : Option Nat) (links : List (Nat × Nat))
  deriving DecidableEq, Repr

/-- A frame whose header has arrived on a link and whose trailer is due. `accepted` says whether the link receiver takes it (R346);
`verdict` is the discard reason met, or 0; `route` what the header confirmation latched (R227, R232); `egress` the port it is bound for;
`cut` whether it is being cut through (R234); `sessions` the mirror sessions it matched on ingress (R259); `at_` when its header was
confirmed. -/
structure Arriving where
  lh : LinkHeader
  header : W256
  accepted : Bool
  verdict : Nat
  route : Route
  egress : Option Nat
  cut : Bool
  sessions : List Nat
  at_ : Nat
  deriving DecidableEq, Repr

/-- A confirmed frame delivered to an endpoint of this module and not yet consumed; `waiting`: the host had no buffer or slot for it, and
it holds back the host port's credit (R369). -/
structure Delivered where
  port : Nat
  frame : Frame
  ingress : Nat
  store : Nat
  since : Nat
  waiting : Bool := false
  deriving DecidableEq, Repr

/-- A stored frame (R241): the copies that still need it, the ingress channel (port × 32 + channel) its cells are charged to, and how many
of them are charged to that channel's guarantee and to the shared pool (R237, R238). -/
structure Stored where
  copies : Nat := 0
  channel : Nat := 0
  own : Nat := 0
  shared : Nat := 0
  deriving DecidableEq, Repr

/-- Whose request a tag names (R242). -/
inductive TagOwner where
  | threadGet (s : SlotId)
  | threadGetTo (s : SlotId) (pad : Bool)
  | threadPut (s : SlotId)
  | threadAtom (s : SlotId)
  | threadFree (s : SlotId)
  | dma (q e : Nat)
  | bar2Read
  | bar2Write
  | entryFree (q e : Nat)
  | stream (handle : Nat)
  | record (kind : Nat)
  deriving DecidableEq, Repr

/-- An outstanding request (R242): owner, launch whose completion waits for it (R73), frame kind, TC, the addresses at the target and
here, and its byte count; for BAR2 reads the time the request arrived. -/
structure Tag where
  owner : TagOwner
  launch : Option Nat
  kind : Nat
  tc : Nat
  node : Nat
  remote : Nat
  here : Option Nat
  count : Nat
  arrived : Nat
  deriving DecidableEq, Repr

/-- ACK tags held for one source node and TC (R243). -/
structure AckSet where
  node : Nat
  tc : Nat
  endpoint : Nat
  source : Nat
  tags : List Nat
  since : Nat
  deriving DecidableEq, Repr

/-- The scheduler of one egress port (R249, R250), with the overhead its visit in progress counts by (R252). `lastFifo` 3
says that none of a TC's FIFOs has sent: request 0 comes first (R250 does not say; DESIGN CHOICE, log entry 25). -/
structure Drr where
  pos : Nat := 0
  visiting : Bool := false
  overhead : Nat := 0
  deficits : Vector Nat 8 := Vector.replicate 8 0
  lastFifo : Vector Nat 8 := Vector.replicate 8 3
  deriving DecidableEq, Repr

/-- A group stage of one (link, TC) (R254). -/
structure GroupStage where
  pos : Nat := 0
  visiting : Bool := false
  overhead : Nat := 0
  deficits : SMap Nat := []
  queues : SMap (List Queued) := []
  deriving DecidableEq, Repr

/-- A token bucket: tokens in units of 1/8,000 byte, so that a rate of one Mb/s accrues one unit each ns, and when they were last
brought up to date (R255–R257). -/
structure Bucket where
  tokens : Int
  updated : Nat
  deriving DecidableEq, Repr

/-- A mirror session (R258–R261). -/
structure Mirror where
  control : W64 := 0
  value : W256 := 0
  mask : W256 := 0
  allowance : Nat := 4096
  made : Nat := 0
  dropped : Nat := 0
  heldCells : Nat := 0
  deriving DecidableEq, Repr

/-- The switch core. `charges` holds the guaranteed cells charged per ingress channel and `shared` the shared cells per (ingress port,
TC) (R237, R238); `modes` says of a (link, TC) that holds frames whether it is best-effort (R239); `entering` holds the frames built at a
port of this module that wait for credit or their policer there, sets of copies of one payload together (R237, R241, R256), and `copies`
the MIRROR copies that wait for room (R261). -/
structure Switch where
  dims : W32 := 0
  coords : W32 := 0
  dirs : BitVec 512 := 0
  groups : SMap (BitVec 128) := []
  queues : SMap (List Queued) := []
  stages : SMap GroupStage := []
  arriving : SMap (Option Arriving) := []
  busy : SMap (Option Queued) := []
  rx : List Delivered := []
  refs : SMap Stored := []
  nextStore : Nat := 0
  charges : SMap Nat := []
  shared : SMap Nat := []
  tags : SMap (Option Tag) := []
  nextTag : Nat := 0
  acks : List AckSet := []
  discards : List W256 := []
  drr : SMap Drr := []
  shapers : SMap (Option Bucket) := []
  policers : SMap (Option Bucket) := []
  sentByTc : SMap Nat := []
  mirrors : SMap Mirror := []
  rules : SMap W64 := []
  seen : SMap Nat := []
  reorder : List Delivered := []
  modes : SMap Bool := []
  entering : List (Nat × List Frame) := []
  copies : List Queued := []
  deriving DecidableEq, Repr

/-! ## Stream engines and dispatch -/

/-- A chunk of a stream that has been confirmed (R276, R281, R285). -/
structure Chunk where
  rank : Nat
  offset : Nat
  header : W256
  bytes : List Byte
  spilled : Bool
  deriving DecidableEq, Repr

/-- A pair of a collecting stage with its rank and position (R278, R288), and the conversion events of its bytes, which count when it is
sent (R50); `lost`: its bytes were uncorrectable (R275). -/
structure Pair where
  key : W32
  value : W32
  rank : Nat
  pos : Nat
  crushes : Nat := 0
  wide : Bool := false
  lost : Bool := false
  deriving DecidableEq, Repr

/-- An attached stream (R274–R289); its program lies in consecutive slots from `slot`. `lostSums` are the offsets whose running sum a word
of scratch has lost, and `soft` the words of its scratch with an error that their code corrects (R270). -/
structure Stream where
  handle : Nat
  record : W512
  slot : Nat
  program : List W64
  fast : Bool
  chunks : List Chunk
  arrived : List (Nat × Nat)
  units : Nat
  heads : List Nat
  sums : SMap (List W32)
  window : List Pair
  out : Nat
  refused : Nat
  dataError : Bool
  ended : Bool
  lostSums : List Nat := []
  soft : Nat := 0
  deriving DecidableEq, Repr

/-- A part of a dispatched token that is confirmed and not yet counted (R294). -/
structure Part where
  token : Nat
  part : Nat
  payload : List Byte
  inHold : Bool
  deriving DecidableEq, Repr

/-- A dispatch context (R290–R305). `kept` holds the weight of each kept slot, by token × 8 + slot. -/
structure DispatchContext where
  record : W512 := 0
  engine : Nat := 0
  state : Nat := 0
  rearm : Bool := false
  next : Nat := 0
  used : SMap Nat := []
  kept : SMap (Option W32) := []
  parts : List Part := []
  returned : List (Nat × Nat × Nat) := []
  combined : Nat := 0
  receipts : Nat := 0
  droppedTokens : Nat := 0
  dataError : Bool := false
  counts : Vector Nat 8 := Vector.replicate 8 0
  deriving DecidableEq, Repr

/-- The home state of an expert (R298, R300): closes as (source rank, used, P). `past`: STEP has advanced since its counts began. -/
structure ExpertHome where
  state : Nat := 0
  past : Bool := false
  engine : Nat := 0
  closes : List (Nat × Nat × Nat) := []
  parts : Nat := 0
  mark : Nat := 0
  sent : Nat := 0
  deriving DecidableEq, Repr

structure Engines where
  working : W32 := BitVec.allOnes 32
  streams : List Stream := []
  contexts : SMap DispatchContext := []
  experts : SMap W512 := []
  homes : SMap ExpertHome := []
  deriving DecidableEq, Repr

/-! ## Collectives -/

/-- A collective group (R309–R312): record, last posted sequence, reserved staging chunks. -/
structure Group where
  record : W256 := 0
  lastSeq : Nat := 0
  reserved : List Nat := []
  pool : Nat := 0
  deriving DecidableEq, Repr

/-- One stream of a collective (R327): axis, phase (0 reduce, 1 gather, 2 exchange) and direction. On the receiving side, chunks granted,
when the latest grant was sent, the buffers taken by ALLOC, and the bytes received of each chunk begun; on the sending side, chunks
granted by the neighbour, the transfer (of an exchange, the chunk) and byte offset to be sent next, chunks begun, frames sent, and for an
exchange the chunks that wait to be sent, by key; `places` the buffer that each begun chunk fills, until it is freed. -/
structure CollStream where
  axis : Nat
  phase : Nat
  negative : Bool
  given : Nat := 0
  grantedAt : Nat := 0
  extra : List Nat := []
  chunks : SMap Nat := []
  places : SMap (Option Nat) := []
  got : Nat := 0
  transfer : Nat := 0
  offset : Nat := 0
  begun : Nat := 0
  frames : Nat := 0
  queue : List Nat := []
  deriving DecidableEq, Repr

/-- An active collective (R313–R333). By axis and granule of 32 elements, `arrived` says where a received partial sum is staged that is not
yet added, and `parts` holds the sums formed here; `results` holds the results known here, by granule: an empty list stands for values that
lie in the output. `counts` holds the send counts known, by source and destination; `staged`, for each frame of an exchange that came, the
local address it waits at, or none once it is sent or written; `placed` the bytes of an exchange written to the output; `reported` says
that the completion record has been written while frames for peers remain. -/
structure Collective where
  id : Nat
  group : Nat
  generation : Nat
  sequence : Nat
  hub : Nat
  record : W512
  entry : Option (Nat × Nat)
  started : Nat
  fp16Inf : Bool
  streams : List CollStream
  arrived : SMap (Option Nat) := []
  parts : SMap (Option (List W32)) := []
  results : SMap (Option (List W32)) := []
  counts : SMap (Option Nat) := []
  staged : SMap (Option (Option Nat)) := []
  placed : Nat := 0
  reported : Bool := false
  deriving DecidableEq, Repr

/-- A control or abort frame for a collective not yet posted (R327). -/
structure PendingControl where
  hub : Nat
  abort : Bool
  frame : Frame
  deriving DecidableEq, Repr

/-- Groups, active collectives, records kept for collectives not yet posted, direct channels; `left` holds the ABORT frames that left,
with their links, as the last warm reset took the links down (R332). -/
structure Collectives where
  groups : SMap Group := []
  active : List Collective := []
  nextId : Nat := 0
  pending : List PendingControl := []
  channels : SMap W256 := []
  left : List (Nat × Frame) := []
  deriving DecidableEq, Repr

/-! ## Optics and links -/

/-- A frame sent on a link and not acknowledged (R344, R346); `corrupt`: its last transmission bore an injected CRC error (R265). -/
structure HeldFrame where
  seq : Nat
  queued : Queued
  sends : Nat
  corrupt : Bool := false
  deriving DecidableEq, Repr

/-- A link (R341–R349). Credits are kept per channel 0–31 (TC × 4 + class × 2 + sub-channel), cumulative. `sent` is what this side last
sent of itself in training (R342), and `leftAt` when the link last left up with frames held (R347). -/
structure Link where
  state : Nat := 0
  lanes : Byte := 0
  lostLanes : Byte := 0
  partner : Option PartnerId := none
  sent : Option PartnerId := none
  changed : Nat := 0
  failedAt : Option Nat := none
  retrain : Bool := false
  nextSeq : Nat := 0
  held : List HeldFrame := []
  replayFrom : Option Nat := none
  expected : Nat := 0
  awaiting : Bool := false
  nakAt : Nat := 0
  ackAt : Nat := 0
  granted : SMap Nat := []
  charged : SMap Nat := []
  given : SMap Nat := []
  arrived : SMap Nat := []
  creditAt : Nat := 0
  handover : Bool := false
  leftAt : Nat := 0
  words : List (Nat × Nat × Nat) := []
  deriving DecidableEq, Repr

/-- A laser unit (R350, R355), and whether it met the power target when last measured. -/
structure Laser where
  state : Nat
  bias : Nat
  hours : Nat
  meets : Bool := true
  deriving DecidableEq, Repr

structure Optics where
  links : SMap Link := []
  lasers : SMap (Option Laser) := []
  heaters : SMap Nat := []
  failedRings : SMap Bool := []
  lastBias : SMap Nat := []
  lastRing : SMap Nat := []
  swapsHeld : List (Nat × Nat) := []
  deriving DecidableEq, Repr

/-! ## The host interface -/

/-- A started submission entry (R365): its 64 bytes, and once it has ended its status and detail. `left` is what a DMA has still to
move. -/
structure Entry where
  id : Nat
  bytes : List Byte
  left : Nat
  result : Option (Nat × Nat)
  deriving DecidableEq, Repr

/-- A queue pair (R361–R367): `tail` is the CQ tail, `cqUsed` the CQ entries written and not released, `latched` an SQ tail written in
DORMANT (R373). -/
structure QueuePair where
  config : W512 := 0
  state : Nat := 0
  fault : Nat := 0
  head : Nat := 0
  tail : Nat := 0
  phase : Bool := true
  sqTail : Nat := 0
  cqHead : Nat := 0
  cqUsed : Nat := 0
  latched : Option Nat := none
  entries : List Entry := []
  nextEntry : Nat := 0
  deriving DecidableEq, Repr

/-- A completion the host port has given (R359, R371, R439): data, UR, CA, or Configuration Request Retry Status. -/
inductive HostCompletion where
  | data (bytes : List Byte)
  | unsupported
  | abort
  | retry
  deriving DecidableEq, Repr

/-- A remote BAR2 read whose data is outstanding (R359): its first tag, arrival, offset and length, bytes returned. -/
structure Bar2Read where
  tags : List Nat
  arrived : Nat
  address : Nat
  length : Nat
  bytes : SMap (Option Byte)
  deriving DecidableEq, Repr

/-- A BAR2 read that waits (R359, R431): its global address, length and arrival, and, where part of it lies on another node, a tag by which
it is named when 5 ms have passed. -/
structure HeldRead where
  address : Nat
  length : Nat
  arrived : Nat
  tag : Option Nat
  deriving DecidableEq, Repr

/-- A report through AER (R371). -/
inductive AerReport where
  | unsupportedRequest
  | completerAbort
  | poisoned
  | completionTimeout
  | internalFatal
  deriving DecidableEq, Repr

/-- What the configuration space holds that the host writes (R356, R357): the command register, the BARs, the sizes of Device Control as
their codes, ASPM L1, MSI-X control, and the AER status of uncorrectable errors. -/
structure PciConfig where
  command : Nat := 0
  bar0 : W64 := 0
  bar2 : W64 := 0
  maxPayload : Nat := 0
  maxRead : Nat := 2
  aspmL1 : Bool := false
  msixEnable : Bool := false
  msixMask : Bool := false
  errors : W32 := 0
  deriving DecidableEq, Repr

/-- The host port (R356–R376). `reads` are remote BAR2 reads outstanding, `readsHeld` BAR2 reads that wait for writes before them (R359) or,
with `writesWaiting` (global address, bytes), for the hubs to come up (R431); `request` to `goLength` are the dictionary window (R388). -/
structure HostIf where
  memory : SMap Byte := []
  pairs : SMap QueuePair := []
  windowBase : W64 := 0
  eventVector : BitVec 16 := 0
  msixTable : SMap (BitVec 128) := []
  msixPending : SMap Bool := []
  msixSent : List Nat := []
  aer : List AerReport := []
  completions : List HostCompletion := []
  reads : List Bar2Read := []
  readsHeld : List HeldRead := []
  writesWaiting : List (Nat × List Byte) := []
  pci : PciConfig := {}
  request : SMap Byte := []
  response : SMap Byte := []
  goBusy : Bool := false
  goStatus : Nat := 0
  goLength : Nat := 0
  inL1 : Bool := false
  lastTlp : Nat := 0
  inReset : Bool := false
  speed : Nat := 5
  width : Nat := 16
  deriving DecidableEq, Repr

/-! ## The dictionary -/

/-- What the module keeps of a requester context (R381, R393, R451): role 0 operator, 1 service, 2 vendor. -/
structure CtxState where
  ctx : Ctx
  role : Nat
  selectors : SMap (Option Nat)
  last : Nat
  challenge : Option (List Byte × Nat)
  challengeAfter : Nat
  quote : Option (List Byte)
  deriving DecidableEq, Repr

/-- Where the response of a forwarded message goes (R390, R407). -/
inductive Forwarder where
  | window
  | entry (q e : Nat)
  deriving DecidableEq, Repr

structure Forwarded where
  tag : Nat
  sent : Nat
  target : Nat
  who : Forwarder
  deriving DecidableEq, Repr

/-- Which carrier brought a message (R388–R391), with what its answer needs: the tag of a MANAGEMENT frame, the sequence of a VDP frame. -/
inductive Carrier where
  | window
  | entry (q e : Nat)
  | management (node tag : Nat)
  | vdp (mac seq : Nat)
  | hubRom
  deriving DecidableEq, Repr

/-- A message in progress whose next item lies on the other side of the barrier (R407): items not yet answered, and the response so
far. -/
structure Job where
  id : Nat
  carrier : Carrier
  ctx : Ctx
  header : List Byte
  items : List (List Byte)
  done : List Byte
  deriving DecidableEq, Repr

/-- A quote asked for and not yet readable (R451): its tag, context and nonce, when it was asked, and the fragments that have come back
across the barrier. -/
structure QuoteJob where
  tag : Nat
  ctx : Ctx
  nonce : List Byte
  asked : Nat
  fragments : List (Nat × List Byte)
  deriving DecidableEq, Repr

/-- A quote that the island is to sign, in the order of arrival (R451): for a context of the field path, or (no context) for the host side;
its nonce, when it was asked for, and the host side's part once it has come. -/
structure IslandQuote where
  tag : Nat
  ctx : Option Ctx
  nonce : List Byte := []
  asked : Nat
  part : Option (List Byte) := none
  deriving DecidableEq, Repr

/-- A slot of the configuration store (R396): generation and the values of its image. -/
structure StoreSlot where
  valid : Bool
  generation : Nat
  values : SMap (Option Nat)
  deriving DecidableEq, Repr

/-- The dictionary: values that differ from their defaults, by entry and unit; shadows of counters (R472); contexts, forwarded messages and
jobs; `kept` the last VDP response of each requester and `repeats` the duplicates that came while theirs was formed (R392, R398); the
store's slots, the image being written, and `images` how many have been written (R396). -/
structure Dictionary where
  regs : SMap (Option Nat) := []
  shadows : SMap Nat := []
  contexts : List CtxState := []
  forwarded : List Forwarded := []
  response : Option (Ctx × List Byte) := none
  jobs : List Job := []
  nextJob : Nat := 0
  quotes : List QuoteJob := []
  kept : List (Nat × Nat × List Byte) := []
  slots : Vector StoreSlot 2 := #v[⟨true, 0, []⟩, ⟨false, 0, []⟩]
  committing : Option StoreSlot := none
  heldWrites : List (Nat × Nat) := []
  challenges : Nat := 0
  repeats : List (Nat × Nat) := []
  images : Nat := 0
  deriving DecidableEq, Repr

/-! ## The Cicada island -/

/-- A message on an isolated channel (R407): header, payload and CRC-16; `job` names the dictionary message or quote it belongs to. -/
structure Crossing where
  bytes : List Byte
  job : Nat := 0
  deriving DecidableEq, Repr

/-- The island (R402–R424). `time` is the fabric time of the last time-sync message; it came `syncAge` ns before fabric time was `lastSync`
(R405); the fast clock runs until `fastUntil`. `sentAt`, `pushedAt`, `tickAt` and `piAt` are when the messages of every 100 ms and of every
1 s, a measurement tick and a PI tick last took place; `hostSeq` and `islandSeq` count the messages that the host side and the island have
sent; `pulses` are the ages of flow pulses at the last tick, newest first (R410), `valveLow` says since when the loop current has been
below half the demanded one (R412); `mode`, `integral` and `demand` are those of the last PI tick, `seeded` says that the integral
continues from it; `blocks` an image being received; `fieldSent` the frames it has sent on the field network. -/
structure Island where
  fieldSupply : Bool := false
  powered : Bool := true
  fastUntil : Nat := 0
  time : Nat := 0
  lastSync : Nat := 0
  syncAge : Nat := 0
  hostState : Nat := 1
  toHost : List Crossing := []
  toIsland : List Crossing := []
  hostSeq : Nat := 0
  islandSeq : Nat := 0
  pulses : List Nat := []
  valveLow : Option Nat := none
  present : SMap Nat := []
  absent : SMap Nat := []
  active : BitVec 256 := 0
  log : List (BitVec 128) := []
  integral : Rat := 0
  demand : Rat := 100
  mode : Nat := 1
  seeded : Bool := false
  inlet : Option Rat := none
  outlet : Option Rat := none
  flow : Option Rat := some 0
  valveCurrent : Rat := 0
  leakOhm : Option Nat := some 0
  supply : Rat := 0
  leakLatched : Bool := false
  wet : Bool := false
  wetTicks : Nat := 0
  protection : Bool := false
  overTicks : Nat := 0
  clearTicks : Nat := 0
  svcTestUntil : Option Nat := none
  svcOverload : Option Nat := none
  hostService : Bool := false
  tripped : Option Nat := none
  wakeRequest : Bool := false
  dormantRequest : Bool := false
  fieldSettings : Nat × Nat × Nat × Nat × Bool := (fieldMac, 255, 8, 32, false)
  sentAt : Nat := 0
  pushedAt : Nat := 0
  tickAt : Nat := 0
  piAt : Nat := 0
  quotes : List IslandQuote := []
  blocks : List (Nat × List Byte) := []
  fieldSent : List (Nat × List Byte) := []
  resets : Nat := 0
  deriving DecidableEq, Repr

/-! ## Power, clocks and reset -/

/-- The power controller (R425–R439). `input` is 0 in 44–56 V, 1 in 40–44 V, 2 in 56–58 V, 3 where the input is lost; `state` is 1020.02;
`inReset` of the host interface, `warmHeld` and `perst` follow PERST#; `tripDie` is the die of a thermal trip not yet reported back by the
island, and `tripped` says that a junction has reached 110 °C in the FAULT STOP that lasts (R434); `stopRecord` the fatal record of the FAULT STOP that lasts, 0 for a thermal trip (R462). -/
structure Power where
  input : Nat := 0
  enJoined : Bool := true
  powered : Bool := true
  state : Nat := 1
  request : Nat := 0
  throttle : Nat := 100
  inputLevel : Nat := 100
  capLevel : Nat := 100
  thermalLevel : Nat := 100
  thermalSince : Nat := 0
  throttling : Bool := false
  temps : Vector Int 26 := Vector.replicate 26 0
  enteredAt : Nat := 0
  sleptAt : Nat := 0
  wokenAt : Nat := 0
  tripHold : Bool := false
  warmHeld : Bool := false
  perst : Bool := false
  startingUp : Bool := false
  startupCold : Bool := false
  draining : Bool := false
  tripDie : Option Nat := none
  tripped : Bool := false
  stopRecord : W256 := 0
  sentAt : Nat := 0
  cooling : List Byte := []
  telemetry : List Byte := []
  telemetryAt : Nat := 0
  islandService : Bool := false
  deriving DecidableEq, Repr

/-! ## Health, telemetry and time -/

/-- Logs, Scarab's progress and fabric time (R458–R476). Offset and delay are in units of 0.25 ns, `hold` in ns still to be held; `depths`
holds the depth that the neighbour on a link last gave, 0xFF when it is not synchronised. -/
structure Health where
  service : W32 := 0
  fatal : W256 := 0
  events : List W512 := []
  eventSeq : Nat := 0
  vectorWaiting : Bool := false
  vectorAt : Option Nat := none
  hbmPos : Nat := 0
  nearPos : Nat := 0
  hbmPasses : Nat := 0
  nearPasses : Nat := 0
  snapshot : Option Nat := none
  syncState : Nat := 0
  depth : Nat := 0
  parent : Option Nat := none
  offset : Int := 0
  delay : Nat := 0
  hold : Nat := 0
  depths : SMap Nat := []
  lostSince : Option Nat := none
  requestedAt : Nat := 0
  sampledAt : Nat := 0
  deriving DecidableEq, Repr

/-- The state of the module. `pending` is the queue of commands waiting, first in first out. -/
structure State where
  pending : List Instr
  now : Nat
  freeCtr : Nat
  grade : Grade
  swarm : Swarm
  mem : MemSys
  num : Numerics
  net : Switch
  eng : Engines
  coll : Collectives
  opt : Optics
  host : HostIf
  dict : Dictionary
  isl : Island
  pow : Power
  trust : Trust
  health : Health
  deriving DecidableEq, Repr

/-- The links at reset: every fitted, enabled, unsplit port p has link 2p, in state dark (R217, R341, 6020.02 default 0x01). -/
def State.resetLinks : SMap Link :=
  (List.range 32).map fun p => (2 * p, { state := 2 })

/-- The laser units at manufacture: unit 0 active, unit 1 standby, bias 1,000 per mille (R350, R355). -/
def State.resetLasers : SMap (Option Laser) :=
  (List.range 128).map fun k => (k, some ⟨if k % 2 = 0 then 1 else 0, 1000, 0, true⟩)

/-- The module right after a cold reset, with nothing in the queue. -/
def State.reset : State :=
  { pending := [], now := 0, freeCtr := 0, grade := .full, swarm := {}, mem := {}, num := {}, net := {}, eng := {}, coll := {},
    opt := { links := State.resetLinks, lasers := State.resetLasers }, host := {}, dict := {}, isl := {}, pow := {},
    trust := Trust.atStart, health := {} }

end Sys2Proof.Machine
end

