-- ==== Sys2Proof/Machine/Ops.lean ====
section
/-! DEFINITION. The named operations every meaning is built from: free values, dictionary values and counters, addresses, events and
interrupts (R467–R470), the Service Requested conditions (R465), halts and their records (R111–R114), and every access to memory
(R22–R25, R67, R115–R116, R202–R204). -/

namespace Sys2Proof

/-- The place of a slot among all slots: cell × 4 + thread. -/
def SlotId.key (i : SlotId) : Nat := i.cell * 4 + i.thread
def SlotId.ofKey (k : Nat) : SlotId := ⟨k / 4, k % 4⟩
def SlotId.comb (i : SlotId) : Nat := i.cell / 64
def SlotId.hive (i : SlotId) : Nat := i.cell / 65536

end Sys2Proof

namespace Sys2Proof.Machine

open Sys2Proof

/-! ## Free values -/

/-- Draw one free number. -/
def State.draw (s : State) : Nat × State := (Config.freeNat s.freeCtr, { s with freeCtr := s.freeCtr + 1 })

/-- Draw `n` free bytes: contents the manual leaves undefined (R10). -/
def State.drawBytes (s : State) (n : Nat) : List Byte × State :=
  ((List.range n).map (Config.freeByte s.freeCtr), { s with freeCtr := s.freeCtr + 1 })

/-! ## Dictionary values -/

/-- The row of an entry; shadows of counters (R472) have rows of their own only through `shadowed`. -/
def entryOf (key : Nat) : Option DictEntry := dictTable.find? fun e => e.key == key

/-- The default value of an entry. -/
def dfltOf (key : Nat) : Nat :=
  if key = 0x801001 then fieldMac
  else
    match entryOf key with
    | some e => e.dflt
    | none => 0

/-- The value in force of entry `key` (index × 256 + subindex), for unit `u` of its selector. -/
def State.reg (s : State) (key : Nat) (u : Nat := 0) : Nat :=
  match SMap.get none s.dict.regs (key * 65536 + u) with
  | some v => v
  | none => dfltOf key

/-- Set a value; a value equal to the default is not listed. -/
def State.setReg (s : State) (key v : Nat) (u : Nat := 0) : State :=
  { s with dict := { s.dict with
      regs := SMap.put none s.dict.regs (key * 65536 + u) (if v = dfltOf key then none else some v) } }

/-- Add to a kept count; it saturates at the largest value of its type (R11). -/
def State.bump (s : State) (key : Nat) (n : Nat := 1) (u : Nat := 0) : State :=
  s.setReg key (satAdd 64 (s.reg key u) n) u

/-- A U32 count. -/
def State.bump32 (s : State) (key : Nat) (n : Nat := 1) : State := s.setReg key (satAdd 32 (s.reg key) n)

/-- DET (1010.01). -/
def State.det (s : State) : Bool := s.reg 0x101001 = 1

/-- The step counter (3010.01). -/
def State.stepCount (s : State) : Nat := s.reg 0x301001

/-! ## Node identifiers and addresses (R17–R22) -/

/-- The size of dimension `d` in the geometry in force (R245). -/
def State.dimSize (s : State) (d : Nat) : Nat := fieldOf (4 * d + 3) (4 * d) s.net.dims.toNat + 1

/-- The number of dimensions. -/
def State.dimCount (s : State) : Nat := fieldOf 17 16 s.net.dims.toNat + 1

/-- This module's node identifier (6010.01). -/
def State.node (s : State) : Nat := s.net.coords.toNat % 2 ^ 24

/-- The coordinate of a node in dimension `d` (R18). -/
def coordOf (n d : Nat) : Nat := fieldOf (6 * d + 5) (6 * d) n

/-- A node is valid when every coordinate lies within its dimension (R19). -/
def State.nodeValid (s : State) (n : Nat) : Bool :=
  (List.range 4).all fun d => decide (coordOf n d < s.dimSize d)

/-- The node field of a global address. -/
def nodeOf (a : Nat) : Nat := a / 2 ^ 40 % 2 ^ 24

/-- The local field of a global address. -/
def localOf (a : Nat) : Nat := a % 2 ^ 40

/-- The global address of a local address of this module. -/
def State.globalOf (s : State) (a : Nat) : Nat := s.node * 2 ^ 40 + a

/-- What lies at a local address (R22). -/
inductive Place where
  | near (hive : Nat)
  | hbm
  | hub (east : Bool) (off : Nat)
  | hive (h off : Nat)
  | pad (cell off : Nat)
  | reserved
  deriving DecidableEq, Repr

def hbmBase : Nat := 0x4000000000
def hbmEnd : Nat := 0xD000000000

/-- The decoding of R22. -/
def place (a : Nat) : Place :=
  if a < 0x800000000 then .near (a / 0x80000000)
  else if 0x1000000000 ≤ a ∧ a < 0x1400000000 then .hub false (a - 0x1000000000)
  else if 0x1400000000 ≤ a ∧ a < 0x1800000000 then .hub true (a - 0x1400000000)
  else if 0x1800000000 ≤ a ∧ a < 0x2000000000 then
    .hive ((a - 0x1800000000) / 0x80000000) ((a - 0x1800000000) % 0x80000000)
  else if 0x2000000000 ≤ a ∧ a < 0x2100000000 then .pad ((a - 0x2000000000) / 4096) ((a - 0x2000000000) % 4096)
  else if hbmBase ≤ a ∧ a < hbmEnd then .hbm
  else .reserved

/-- Is logical hive `h` working (2000.01)? -/
def State.hiveWorks (s : State) (h : Nat) : Bool := decide (h < 16) && s.swarm.hives.getLsbD h

/-- The stack of an HBM address (R197). -/
def State.stackOf (s : State) (a : Nat) : Nat :=
  let x := a - hbmBase
  let l := s.mem.hubLocal
  let g := (72 - l) * 2 ^ 30
  if x < 8 * g then x / 4096 % 8
  else
    let y := x - 8 * g
    let hub := y / (4 * l * 2 ^ 30)
    let z := y % (4 * l * 2 ^ 30)
    hub * 4 + z / 4096 % 4

/-- The stack address of an HBM address (R197). -/
def State.stackAddress (s : State) (a : Nat) : Nat :=
  let x := a - hbmBase
  let l := s.mem.hubLocal
  let g := (72 - l) * 2 ^ 30
  if x < 8 * g then x / 4096 / 8 * 4096 + x % 4096
  else
    let z := (x - 8 * g) % (4 * l * 2 ^ 30)
    g + z / 4096 / 4 * 4096 + z % 4096

/-! ## Raw memory -/

/-- The byte stored at a local address. -/
def State.rawByte (s : State) (a : Nat) : Byte := SMap.get 0 s.mem.bytes a

/-- Store one byte. -/
def State.setByte (s : State) (a : Nat) (b : Byte) : State :=
  { s with mem := { s.mem with bytes := SMap.put 0 s.mem.bytes a b } }

/-- Bytes stored from a local address. -/
def State.rawBytes (s : State) (a n : Nat) : List Byte := (List.range n).map fun i => s.rawByte (a + i)

/-- Store bytes from a local address. -/
def State.setBytes (s : State) : Nat → List Byte → State
  | _, [] => s
  | a, b :: bs => (s.setByte a b).setBytes (a + 1) bs

/-- The word or codeword of a local address that carries its check bits: 64 B in HBM, 8 B elsewhere (R67, R200). -/
def wordOf (a : Nat) : Nat := if hbmBase ≤ a ∧ a < hbmEnd then a / 64 * 64 else a / 8 * 8
def wordSize (a : Nat) : Nat := if hbmBase ≤ a ∧ a < hbmEnd then 64 else 8

/-- A word is written whole, with fresh check bits: it holds no error any more (R67, R204). -/
def State.freshWord (s : State) (w : Nat) : State :=
  { s with mem := { s.mem with poison := SMap.put false s.mem.poison w false, soft := SMap.put false s.mem.soft w false } }

/-! ## Pools' own memory (R208) -/

def State.pool (s : State) (p : Nat) : Pool := SMap.get {} s.mem.pools p
def State.setPool (s : State) (p : Nat) (q : Pool) : State := { s with mem := { s.mem with pools := SMap.put {} s.mem.pools p q } }

/-- The size of a pool's buffers (R205). -/
def poolSize (cls : Nat) : Nat := 256 * 4 ^ cls

/-- Fields of a pool record (R206). -/
def Pool.enabled (q : Pool) : Bool := bitOf q.record.toNat 255
def Pool.cls (q : Pool) : Nat := fieldOf 254 252 q.record.toNat
def Pool.fallbackValid (q : Pool) : Bool := bitOf q.record.toNat 251
def Pool.fallback (q : Pool) : Nat := fieldOf 250 247 q.record.toNat
def Pool.count (q : Pool) : Nat := fieldOf 246 223 q.record.toNat + 1
def Pool.base (q : Pool) : Nat := fieldOf 167 128 q.record.toNat
def Pool.meta (q : Pool) : Nat := fieldOf 103 64 q.record.toNat
def Pool.lowWater (q : Pool) : Nat := fieldOf 31 0 q.record.toNat
def Pool.size (q : Pool) : Nat := poolSize q.cls

/-- Bytes of the ring and of the ring with the bitmap. -/
def Pool.ringBytes (q : Pool) : Nat := ceilDiv (q.count * 4) 64 * 64
def Pool.metaBytes (q : Pool) : Nat := q.ringBytes + ceilDiv (ceilDiv q.count 8) 64 * 64

/-- Does an address lie in the metadata of an enabled pool? -/
def State.inPoolMeta (s : State) (a : Nat) : Bool :=
  s.mem.pools.any fun e => e.2.enabled && decide (e.2.meta ≤ a) && decide (a < e.2.meta + e.2.metaBytes)

/-- A pool becomes faulted (R212). -/
def State.faultPool (s : State) (p : Nat) : State :=
  let q := s.pool p
  if q.state = 1 ∨ q.state = 3 then s.setPool p { q with state := 2 } else s

/-! ## Pads (R63) -/

/-- How often the contents of a cell's pad have been lost: by itself, and with its hive (key 2^40 + hive). -/
def State.padGeneration (s : State) (cell : Nat) : Nat :=
  SMap.get 0 s.swarm.padGen cell + SMap.get 0 s.swarm.padGen (2 ^ 40 + cell / 65536) * 2 ^ 64

/-- A byte of a cell's pad; a byte not written since the contents were lost is free (R10). -/
def State.padByte (s : State) (cell off : Nat) : Byte :=
  match SMap.get none s.swarm.pads (cell * 8192 + off) with
  | some b => b
  | none => Config.padByte (s.padGeneration cell) cell off

def State.setPadByte (s : State) (cell off : Nat) (b : Byte) : State :=
  { s with swarm := { s.swarm with pads := SMap.put none s.swarm.pads (cell * 8192 + off) (some b) } }

def State.padBytes (s : State) (cell off n : Nat) : List Byte := (List.range n).map fun i => s.padByte cell (off + i)

def State.setPadBytes (s : State) (cell : Nat) : Nat → List Byte → State
  | _, [] => s
  | off, b :: bs => (s.setPadByte cell off b).setPadBytes cell (off + 1) bs

/-- The pad of a cell loses its contents (R63, R83). -/
def State.losePad (s : State) (cell : Nat) : State :=
  { s with swarm := { s.swarm with
      pads := SMap.clearRange s.swarm.pads (cell * 8192) (cell * 8192 + 8192)
      padPoison := SMap.clearRange s.swarm.padPoison (cell * 8192) (cell * 8192 + 8192)
      padSoft := SMap.clearRange s.swarm.padSoft (cell * 8192) (cell * 8192 + 8192)
      padGen := SMap.modify 0 s.swarm.padGen cell (· + 1) } }

/-- Every pad of a hive loses its contents. -/
def State.losePadsOf (s : State) (h : Nat) : State :=
  { s with swarm := { s.swarm with
      pads := SMap.clearRange s.swarm.pads (h * 65536 * 8192) ((h + 1) * 65536 * 8192)
      padPoison := SMap.clearRange s.swarm.padPoison (h * 65536 * 8192) ((h + 1) * 65536 * 8192)
      padSoft := SMap.clearRange s.swarm.padSoft (h * 65536 * 8192) ((h + 1) * 65536 * 8192)
      padGen := SMap.modify 0 s.swarm.padGen (2 ^ 40 + h) (· + 1) } }

/-! ## Host memory, MSI-X and AER -/

def State.hostBytes (s : State) (a n : Nat) : List Byte := (List.range n).map fun i => SMap.get 0 s.host.memory (a + i)

def State.setHostBytes (s : State) : Nat → List Byte → State
  | _, [] => s
  | a, b :: bs =>
    ({ s with host := { s.host with memory := SMap.put 0 s.host.memory a b } } : State).setHostBytes (a + 1) bs

/-- The PCIe link carries a TLP: it leaves L1, where in DORMANT it stays (R373). -/
def State.tlp (s : State) : State := { s with host := { s.host with inL1 := decide (s.pow.state = 3), lastTlp := s.now } }

/-- The MSI-X table entry of a vector: masked from reset, as the PCIe MSI-X rules have it (R358). -/
def State.msixEntry (s : State) (v : Nat) : BitVec 128 := SMap.get (BitVec.ofNat 128 (2 ^ 96)) s.host.msixTable v

/-- Is a vector, or the whole function, masked? -/
def State.msixMasked (s : State) (v : Nat) : Bool := s.host.pci.msixMask || bitOf (s.msixEntry v).toNat 96

/-- Send the MSI-X message of vector `v`: a masked vector is marked pending instead, and nothing is sent while MSI-X is not enabled
(R370). -/
def State.sendMsix (s : State) (v : Nat) : State :=
  if !s.host.pci.msixEnable then s
  else if s.msixMasked v then { s with host := { s.host with msixPending := SMap.put false s.host.msixPending v true } }
  else
    let s := s.tlp
    { s with host := { s.host with msixSent := s.host.msixSent ++ [v] } }

/-- The bit of an error in the AER status of uncorrectable errors. -/
def AerReport.bit : AerReport → Nat
  | .unsupportedRequest => 20
  | .completerAbort => 15
  | .poisoned => 12
  | .completionTimeout => 14
  | .internalFatal => 22

/-- Report through AER (R371). -/
def State.aer (s : State) (r : AerReport) : State :=
  { s with host := { s.host with
      aer := s.host.aer ++ [r]
      pci := { s.host.pci with errors := s.host.pci.errors ||| BitVec.ofNat 32 (2 ^ r.bit) } } }

/-! ## Events (R467–R470) -/

/-- Bytes of a 512-bit record. -/
def recordBytes (n : Nat) (v : Nat) : List Byte := natLE n v

/-- Send the event vector's message now, or remember that it is due at the end of the 10 µs hold-off (R470). -/
def State.eventMessage (s : State) : State :=
  let free := match s.health.vectorAt with
    | none => true
    | some t => decide (t + 10000 ≤ s.now)
  if free then
    let s := s.sendMsix s.host.eventVector.toNat
    { s with health := { s.health with vectorAt := some s.now, vectorWaiting := false } }
  else { s with health := { s.health with vectorWaiting := true } }

/-- The telemetry ring: record number N, or 0 when it is disabled (R469). -/
def State.ringSize (s : State) : Nat :=
  let c := s.reg 0xB04002
  if bitOf c 7 then 2 ^ (c % 32) else 0

/-- Write one record to the telemetry ring; false when it is discarded (R469, R262). A place of the ring that a pool's ring or bitmap
holds may not be written (R208): the record is discarded too (DESIGN CHOICE, log entry 23). -/
def State.ringWrite (s : State) (rec : List Byte) : Bool × State :=
  let n := s.ringSize
  let p := s.reg 0xB04003
  let c := s.reg 0xB04004
  let a := s.reg 0xB04001 + p % n * 64
  if (p + 2 ^ 32 - c) % 2 ^ 32 ≥ n ∨ s.inPoolMeta a then (false, s.bump 0xB04006)
  else (true, ((s.freshWord a).setBytes a rec).setReg 0xB04003 ((p + 1) % 2 ^ 32))

/-- The record of R467 for a code, class and detail, with the next sequence number. -/
def State.eventRecord (s : State) (code cls detail : Nat) : Nat :=
  code * 2 ^ 496 + cls * 2 ^ 488 + b2n (decide (s.health.syncState < 2)) * 2 ^ 480
    + (s.health.eventSeq + 1) % 2 ^ 32 * 2 ^ 448 + s.now % 2 ^ 64 * 2 ^ 384 + detail % 2 ^ 256

/-- Post an event: the log keeps every record but samples; the ring takes it while enabled; the event vector follows when the
code's mask bit is 1 (R467–R470). -/
def State.postEvent (s : State) (code cls detail : Nat) : State :=
  let rec_ := s.eventRecord code cls detail
  let s := { s with health := { s.health with eventSeq := (s.health.eventSeq + 1) % 2 ^ 32 } }
  let s := s.bump 0xB03003
  let s := if code = 1 then s
    else { s with health := { s.health with events := logAppend 64 s.health.events (BitVec.ofNat 512 rec_) } }
  let mask := s.reg 0xB03001
  if s.ringSize = 0 then (if bitOf mask code && decide (code ≠ 1) then s.eventMessage else s)
  else
    let r := s.ringWrite (recordBytes 64 rec_)
    if r.1 && bitOf mask code then r.2.eventMessage else r.2

/-- A contained error (R461). -/
def State.contained (s : State) : State := s.bump 0xB02003

/-- A corrected error, counted at its own counter and at B020.02 (R461). -/
def State.correctedError (s : State) (key : Nat) (u : Nat := 0) : State := (s.bump key 1 u).bump 0xB02002

/-! ## Grade, ports and Service Requested (R3, R465) -/

/-- Is optical port `p` fitted on this grade? -/
def State.portFitted (s : State) (p : Nat) : Bool :=
  decide (p < 32) && (match s.grade with
    | .full => true
    | .reduced => decide (p < 12) || (decide (16 ≤ p) && decide (p < 28)))

/-- Is laser bank `b` fitted (R350)? -/
def State.bankFitted (s : State) (b : Nat) : Bool := s.portFitted (4 * b)

/-- Port control in force (6020.02). -/
def State.portControl (s : State) (p : Nat) : Nat := s.reg 0x602002 p

def State.portEnabled (s : State) (p : Nat) : Bool := bitOf (s.portControl p) 0
def State.portSplit (s : State) (p : Nat) : Bool := bitOf (s.portControl p) 1

/-- Does link `l` exist (R217)? -/
def State.linkExists (s : State) (l : Nat) : Bool :=
  s.portFitted (l / 2) && (decide (l % 2 = 0) || s.portSplit (l / 2))

def State.link (s : State) (l : Nat) : Link := SMap.get {} s.opt.links l
def State.setLink (s : State) (l : Nat) (k : Link) : State := { s with opt := { s.opt with links := SMap.put {} s.opt.links l k } }

def State.linkUp (s : State) (l : Nat) : Bool := decide ((s.link l).state = 4)

/-- The number of set bits below `w`. -/
def popCount (w v : Nat) : Nat := ((List.range w).filter fun i => bitOf v i).length

/-- Give `n` logical combs of hive `h`, from the `i`-th on, one each of the physical combs not yet taken. -/
def takeCombs (h : Nat) : Nat → Nat → List Nat → List Nat
  | 0, _, _ => []
  | n + 1, i, free =>
    let k := Config.combChoice h i % free.length
    free.getD k 0 :: takeCombs h n (i + 1) (free.eraseIdx k)

/-- The map of manufacture of hive `h`: 1,024 different ones of the physical combs 0 to 1,055, the other 32 being spares (R26). -/
def factoryCombs (h : Nat) : List Nat := takeCombs h 1024 0 (List.range 1056)

/-- The physical comb of logical comb `n`: the one it has moved to, else the one of manufacture. -/
def State.physicalOf (s : State) (n : Nat) : Nat :=
  match SMap.get none s.swarm.combMap n with
  | some p => p
  | none => (factoryCombs (n / 1024)).getD (n % 1024) 0

/-- Has physical comb `p` of hive `h` failed? -/
def State.combFailed (s : State) (h p : Nat) : Bool := SMap.get false s.swarm.failedCombs (h * 2048 + p)

/-- Physical combs of hive `h` that have failed. -/
def State.failedIn (s : State) (h : Nat) : Nat :=
  (s.swarm.failedCombs.filter fun e => decide (e.1 / 2048 = h) && e.2).length

/-- Combs of hive `h` that have failed and not moved yet: their spares are not used yet. -/
def State.movesIn (s : State) (h : Nat) : Nat :=
  (s.swarm.combs.filter fun e => decide (e.1 / 1024 = h) && e.2.movePending).length

/-- Spare combs left: each failed physical comb has used one spare, or was itself a spare. -/
def State.sparesIn (s : State) (h : Nat) : Nat := 32 + s.movesIn h - s.failedIn h

/-- The conditions of R465 in force. -/
def State.serviceNow (s : State) : Nat :=
  let b0 := (List.range 16).any fun h => s.hiveWorks h && decide (s.sparesIn h < 8)
  let ready (b w u : Nat) : Bool :=
    match SMap.get none s.opt.lasers ((b * 8 + w) * 2 + u) with
    | some l => decide (l.state = 0)
    | none => false
  let b1 := (List.range 8).any fun b => s.bankFitted b && (List.range 8).any fun w => !(ready b w 0 || ready b w 1)
  let b2 := (List.range 64).any fun l => s.linkUp l && !(s.portSplit (l / 2)) && decide (popCount 8 (s.link l).lanes.toNat = 7)
  let b3 := (List.range 64).any fun l => s.linkExists l && s.portEnabled (l / 2) && decide ((s.link l).state = 6)
  let b4 := s.mem.rowsRepaired != 0 && decide (100 * (Config.spareRowsAtManufacture - s.mem.rowsRepaired) < 10 * Config.spareRowsAtManufacture)
  let b5 := decide (s.eng.working ≠ BitVec.allOnes 32)
  let b6 := decide (s.swarm.hives ≠ BitVec.allOnes 16)
  b2n b0 + b2n b1 * 2 + b2n b2 * 4 + b2n b3 * 8 + b2n b4 * 16 + b2n b5 * 32 + b2n b6 * 64 + b2n s.pow.islandService * 128

/-- B010 follows its conditions; a change posts event 0x0070 (R465). -/
def State.updateService (s : State) : State :=
  let old := s.health.service.toNat
  let new := s.serviceNow
  if new = old then s
  else
    let s := { s with health := { s.health with service := BitVec.ofNat 32 new } }
    s.postEvent 0x70 4 (new + old * 2 ^ 32)

/-! ## Thread slots -/

def State.slot (s : State) (i : SlotId) : Slot := SMap.get {} s.swarm.slots i.key
def State.setSlot (s : State) (i : SlotId) (t : Slot) : State :=
  { s with swarm := { s.swarm with slots := SMap.put {} s.swarm.slots i.key t } }

def State.comb (s : State) (n : Nat) : Comb := SMap.get {} s.swarm.combs n
def State.setComb (s : State) (n : Nat) (c : Comb) : State :=
  { s with swarm := { s.swarm with combs := SMap.put {} s.swarm.combs n c } }

/-- Is the slot occupied? -/
def State.occupied (s : State) (i : SlotId) : Bool := decide ((s.slot i).status ≠ .empty)

/-- Has comb `n` no occupied slot? -/
def State.combEmpty (s : State) (n : Nat) : Bool :=
  !(SMap.anyIn s.swarm.slots (n * 256) (n * 256 + 256) fun t => decide (t.status ≠ .empty))

/-- Is every slot of the cell empty or waiting (R82)? -/
def State.cellIdle (s : State) (cell : Nat) : Bool :=
  !(SMap.anyIn s.swarm.slots (cell * 4) (cell * 4 + 4) fun t =>
      match t.status with
      | .empty | .waiting _ => false
      | _ => true)

/-- The cell's clock is stopped while every slot is empty or waiting and 2040.02 is 1 (R82). -/
def State.clockStopped (s : State) (cell : Nat) : Bool := s.cellIdle cell && decide (s.reg 0x204002 = 1)

/-- The bank shown for a comb: each accepted swap request changes it at once (R117). -/
def Comb.shownB (c : Comb) : Bool := if c.swaps % 2 = 0 then c.bankB else !c.bankB

/-- Is a bank marked altered (R120)? -/
def Comb.alteredIn (c : Comb) (b : Bool) : Bool := if b then c.alteredB else c.alteredA

/-- Set or clear the mark of a bank. -/
def Comb.markAltered (c : Comb) (b m : Bool) : Comb := if b then { c with alteredB := m } else { c with alteredA := m }

/-- An accepted launch by its number. -/
def State.launch? (s : State) (id : Nat) : Option Launch := s.swarm.launches.find? fun l => l.id == id

def State.mapLaunch (s : State) (id : Nat) (f : Launch → Launch) : State :=
  { s with swarm := { s.swarm with launches := s.swarm.launches.map fun l => if l.id = id then f l else l } }

/-- The halt record of R111. -/
def haltRecord (reason bank index : Nat) (i : SlotId) (time fault high : Nat) : Nat :=
  reason * 2 ^ 248 + bank * 2 ^ 246 + index * 2 ^ 235 + i.thread * 2 ^ 233 + i.cell * 2 ^ 213 + time % 2 ^ 64 * 2 ^ 128
    + fault * 2 ^ 64 + high

/-- Where the slot record of a thread lies (R112). -/
def slotRecordAt (i : SlotId) : Nat :=
  0x1800000000 + i.hive * 0x80000000 + 0x04000000 + (i.cell % 65536 * 4 + i.thread) * 32

/-- A thread halts (R111–R114): its record is written to its slot record and, for a reason other than 0x00, to the halt log; its
slot is freed with all its state (R68, R144); its launch counts it (R73); threads that waited for it in a YIELD go on. -/
def State.halt (s : State) (i : SlotId) (reason bank index fault high : Nat) : State :=
  let t := s.slot i
  let rec_ := haltRecord reason bank index i s.now fault high
  let s := s.setBytes (slotRecordAt i) (natLE 32 rec_)
  let s := if reason = 0 then s
    else
      let s := { s with swarm := { s.swarm with haltLog := logAppend 64 s.swarm.haltLog (BitVec.ofNat 256 rec_) } }
      let s := s.bump 0x205002
      if reason < 0xF0 then s.contained else s
  let s := s.mapLaunch t.launch fun l =>
    { l with live := l.live - 1, abnormal := l.abnormal + b2n (decide (reason ≠ 0)) }
  let s := if t.held.isSome then s.bump 0x208109 else s
  let s := s.setSlot i {}
  let s := (List.range 4).foldl (fun (s : State) j =>
    let u := s.slot ⟨i.cell, j⟩
    s.setSlot ⟨i.cell, j⟩ { u with yieldTo := u.yieldTo.filter (· ≠ i.thread) }) s
  let s := { s with swarm := { s.swarm with
      roomQueue := SMap.modify [] s.swarm.roomQueue i.cell (·.filter (· ≠ i.thread)) } }
  if s.combEmpty i.comb then s.setComb i.comb { s.comb i.comb with alteredA := false, alteredB := false, idleSince := s.now } else s

/-- The bank code of a halt record: 0b01 A, 0b10 B. -/
def bankCode (b : Bool) : Nat := if b then 2 else 1

/-! ## The command pointer (R104) -/

def Slot.loop (t : Slot) (n : Nat) : LoopCtr := t.loops.getD n {}

/-- Where the thread goes once the command has retired. -/
inductive After where
  | next
  | to (p : Nat)
  | brk
  deriving DecidableEq, Repr

/-- The pointer is about to become `target`: the loop rule of R104 over the active loops, innermost first. -/
def Slot.arrive (t : Slot) (brk : Bool) (target : Nat) : List Nat → Slot
  | [] => { t with ptr := target, nest := [] }
  | n :: rest =>
    let l := t.loop n
    if target = l.last + 1 then
      if brk || decide (l.remaining = 0) then
        Slot.arrive { t with loops := t.loops.setIfInBounds n { l with active := false } } false target rest
      else { t with loops := t.loops.setIfInBounds n { l with remaining := l.remaining - 1 }, ptr := l.first, nest := n :: rest }
    else { t with ptr := target, nest := n :: rest }

/-- The slot of a thread whose command at `p` has retired. -/
def Slot.retire (t : Slot) (p : Nat) (a : After) : Slot :=
  let t := { t with status := .ready, cur := none, latch := {}, fetched := [] }
  match a with
  | .next => t.arrive false (p + 1) t.nest
  | .to q => t.arrive false q t.nest
  | .brk =>
    match t.nest with
    | n :: _ => t.arrive true ((t.loop n).last + 1) t.nest
    | [] => { t with ptr := p + 1 }

/-- The command a thread would fetch next: the one after a command in progress, else the one at its pointer (R111; log entry 29). -/
def Slot.upcoming (t : Slot) : Nat := if t.cur.isSome then min (t.retire t.ptr .next).ptr 2047 else t.ptr

/-- A fatal condition that the thread's own command did not meet halts it (R114): its record names the command it would have fetched, and
the bank it would have fetched it from. -/
def State.haltVictim (s : State) (i : SlotId) (reason : Nat) : State :=
  s.halt i reason (bankCode (s.comb i.comb).bankB) (s.slot i).upcoming 0 0

/-- A fatal condition that the thread's own command met: its record names that command and the bank it came from. -/
def State.haltInCommand (s : State) (i : SlotId) (reason : Nat) : State :=
  match (s.slot i).cur with
  | some (_, b) => s.halt i reason (bankCode b) (s.slot i).ptr 0 0
  | none => s.haltVictim i reason

/-- An uncorrectable pad word halts all four threads of the cell with reason 0x38 (R114); `by_` is the thread whose command met it. -/
def State.padFatal (s : State) (cell : Nat) (by_ : Option Nat := none) : State :=
  (List.range 4).foldl (fun (s : State) t =>
    if !s.occupied ⟨cell, t⟩ then s
    else if by_ = some t then s.haltInCommand ⟨cell, t⟩ 0x38
    else s.haltVictim ⟨cell, t⟩ 0x38) s

/-! ## Memory errors (R203) -/

/-- Who makes an access: the consumer code and identity of R203. -/
structure Requester where
  consumer : Nat
  ident : Nat
  deriving DecidableEq, Repr

def Requester.ofThread (i : SlotId) : Requester := ⟨1, i.cell * 4 + i.thread⟩

/-- Is the word of a local address uncorrectable? -/
def State.poisoned (s : State) (a : Nat) : Bool := SMap.get false s.mem.poison (wordOf a)

/-- The record of R203 for the word at `a`, in the log and as an event. -/
def State.memoryRecord (s : State) (who : Requester) (a access : Nat) : State :=
  let hbm := decide (hbmBase ≤ a ∧ a < hbmEnd)
  let rec_ := (if hbm then 1 else 2) * 2 ^ 248 + who.consumer * 2 ^ 240 + (if hbm then s.stackOf a else 0xFF) * 2 ^ 232
    + access * 2 ^ 224 + s.now % 2 ^ 64 * 2 ^ 128 + s.globalOf (wordOf a) * 2 ^ 64 + who.ident
  let s := { s with mem := { s.mem with log := logAppend 64 s.mem.log (BitVec.ofNat 256 rec_) } }
  s.postEvent 0x10 2 rec_

/-- Log an uncorrectable read (access 0) or a refused partial write (access 1) of the word at `a`, count it and post it; an HBM row
becomes a repair candidate (R200, R201, R203). -/
def State.logMemory (s : State) (who : Requester) (a access : Nat) : State :=
  let hbm := decide (hbmBase ≤ a ∧ a < hbmEnd)
  let s := s.bump (if hbm then 0x701002 else 0x701005)
  let s := if hbm then
      { s with mem := { s.mem with candidates := SMap.put false s.mem.candidates (Config.rowOf (wordOf a)) true } }
    else s
  s.memoryRecord who a access

/-- Remapped rows become permanent at the next warm or cold reset or entry to DORMANT (R201). -/
def MemSys.settleRows (m : MemSys) : MemSys :=
  { m with remapped := [], remappedForGood := m.remapped.foldl (fun f e => SMap.put false f e.1 true) m.remappedForGood }

/-! ## Accesses to local memory -/

/-- Why an access fails: R25's address fault, an access the rights do not permit, a refused program-store write (R116), an
uncorrectable word (R202), or an uncorrectable pad word met through the window (R114). -/
inductive MemCause where
  | address
  | rights
  | refused
  | data
  | pad
  deriving DecidableEq, Repr

/-- A failed access: its cause and the local address that caused it (for data, the word's). -/
structure MemErr where
  cause : MemCause
  addr : Nat
  deriving DecidableEq, Repr

/-- A contiguous access: address and length. -/
abbrev Seg := Nat × Nat

/-- The program-store part of hive control space ends here; slot records follow up to `slotRecordsEnd` (R112, R115). -/
def slotRecordsBase : Nat := 0x04000000
def slotRecordsEnd : Nat := 0x04800000

/-- Launch ports of the west hub and expert doorbells of either hub are control-space units; other offsets are reserved. -/
def launchPortBase : Nat := 0x40000000
def launchPortEnd : Nat := 0x48000000
def doorbellBase : Nat := 0x02000000
def doorbellEnd : Nat := 0x02008000

/-- Why byte `a` of an access cannot be read. `whole8` says whether the access starts at, and covers, a multiple of 8 B. -/
def State.readFault (s : State) (whole8 : Bool) (a : Nat) : Option MemCause :=
  match place a with
  | .near h => if s.hiveWorks h then (if s.poisoned a then some .data else none) else some .address
  | .hbm => if s.inPoolMeta a then some .rights else if s.poisoned a then some .data else none
  | .hub east off =>
    if !east && decide (launchPortBase ≤ off ∧ off < launchPortEnd) then some .rights
    else if doorbellBase ≤ off ∧ off < doorbellEnd then some .rights
    else some .address
  | .hive h off =>
    if !s.hiveWorks h then some .address
    else if off < slotRecordsBase then
      (if !whole8 then some .rights else if s.poisoned a then some .data else none)
    else if off < slotRecordsEnd then none
    else some .address
  | .pad cell off =>
    if !s.hiveWorks (cell / 65536) then some .address
    else
      if SMap.get false s.swarm.padPoison ((cell * 8192 + b2n (bitOf (s.reg 0x203001) (cell / 65536)) * 4096 + off) / 8 * 8) then
        some .pad
      else none
  | .reserved => some .address

/-- Why byte `a` of an access cannot be written, leaving aside the program bank that is active and the check bits. -/
def State.writeFault (s : State) (whole8 : Bool) (a : Nat) : Option MemCause :=
  match place a with
  | .near h => if s.hiveWorks h then none else some .address
  | .hbm => if s.inPoolMeta a then some .rights else none
  | .hub east off =>
    if !east && decide (launchPortBase ≤ off ∧ off < launchPortEnd) then some .rights
    else if doorbellBase ≤ off ∧ off < doorbellEnd then some .rights
    else some .address
  | .hive h off =>
    if !s.hiveWorks h then some .address
    else if off < slotRecordsBase then (if whole8 then none else some .rights)
    else if off < slotRecordsEnd then some .rights
    else some .address
  | .pad cell _ => if s.hiveWorks (cell / 65536) then some .rights else some .address
  | .reserved => some .address

def seg8 (g : Seg) : Bool := decide (g.1 % 8 = 0) && decide (g.2 % 8 = 0)

/-- The first byte of the segments that cannot be read. -/
def State.firstReadFault (s : State) : List Seg → Option MemErr
  | [] => none
  | g :: gs =>
    match (List.range g.2).findSome? fun i => (s.readFault (seg8 g) (g.1 + i)).map fun c =>
        MemErr.mk c (if c = .data then wordOf (g.1 + i) else g.1 + i) with
    | some e => some e
    | none => s.firstReadFault gs

/-- The byte that a permitted read returns. -/
def State.readByte (s : State) (a : Nat) : Byte :=
  match place a with
  | .pad cell off => s.padByte cell (b2n (bitOf (s.reg 0x203001) (cell / 65536)) * 4096 + off)
  | _ => s.rawByte a

/-- The effects of a failed access: an uncorrectable word is logged (R203); an uncorrectable pad word halts its cell (R114). -/
def State.accessFailed (s : State) (who : Requester) (e : MemErr) (access : Nat) : State :=
  match e.cause with
  | .data => s.logMemory who e.addr access
  | .pad =>
    match place e.addr with
    | .pad cell _ => s.padFatal cell
    | _ => s
  | _ => s

/-- Which half of the pads of the hive of `cell` the window shows (2030.01). -/
def State.windowHalf (s : State) (cell : Nat) : Nat := b2n (bitOf (s.reg 0x203001) (cell / 65536))

/-- A read has corrected an error in the pad word that holds byte `off`: it is counted and written back (R114). -/
def State.correctPadWord (s : State) (cell off : Nat) : State :=
  let w := (cell * 8192 + off) / 8 * 8
  if SMap.get false s.swarm.padSoft w then
    ({ s with swarm := { s.swarm with padSoft := SMap.put false s.swarm.padSoft w false } } : State).correctedError 0x206002
  else s

/-- A corrected read of an HBM row: it becomes a candidate at its threshold (R201). -/
def State.rowCorrected (s : State) (row : Nat) : State :=
  let n := SMap.get 0 s.mem.rowCorrections row + 1
  let s := { s with mem := { s.mem with rowCorrections := SMap.put 0 s.mem.rowCorrections row n } }
  if s.reg 0x702003 ≤ n then { s with mem := { s.mem with candidates := SMap.put false s.mem.candidates row true } } else s

/-- The counts of a correction in the word at `w`: of HBM with its row, of the near store; the program store has no count of its own
(R67, R200, R201, R460). -/
def State.countCorrection (s : State) (w : Nat) : State :=
  match place w with
  | .hbm => (s.correctedError 0x701001).rowCorrected (Config.rowOf w)
  | .near _ => s.correctedError 0x701004
  | _ => s.bump 0xB02002

/-- A read of byte `a` corrects an error of its word: counted, and written back (R67, R114, R200). -/
def State.correctAt (s : State) (a : Nat) : State :=
  match place a with
  | .pad cell off => s.correctPadWord cell (s.windowHalf cell * 4096 + off)
  | _ =>
    if SMap.get false s.mem.soft (wordOf a) then
      ({ s with mem := { s.mem with soft := SMap.put false s.mem.soft (wordOf a) false } } : State).countCorrection (wordOf a)
    else s

/-- Every error that a read of segments corrects. -/
def State.correctRead (s : State) (segs : List Seg) : State :=
  if s.mem.soft.isEmpty ∧ s.swarm.padSoft.isEmpty then s
  else (segs.flatMap fun g => (List.range g.2).map fun i => g.1 + i).foldl State.correctAt s

/-- Read segments of local memory: the bytes, or the first fault. -/
def State.memRead (s : State) (who : Requester) (segs : List Seg) : State × Except MemErr (List Byte) :=
  match s.firstReadFault segs with
  | some e => (s.accessFailed who e 0, .error e)
  | none => (s.correctRead segs, .ok (segs.flatMap fun g => (List.range g.2).map fun i => s.readByte (g.1 + i)))

/-- The program-store comb and bank (true: B) of an address. -/
def progOf (a : Nat) : Option (Nat × Bool) :=
  match place a with
  | .hive h off => if off < slotRecordsBase then some (h * 1024 + off / 0x10000, decide (off % 0x10000 ≥ 0x8000)) else none
  | _ => none

/-- The local address of byte `off` of a bank of comb `n` (R115). -/
def progAddr (n : Nat) (b : Bool) (off : Nat) : Nat :=
  0x1800000000 + n / 1024 * 0x80000000 + n % 1024 * 0x10000 + (if b then 0x8000 else 0) + off

/-- A write accepted after a bank was measured marks its slot changed, and an alteration of it altered (R447). -/
def State.markBank (s : State) (n : Nat) (b altered : Bool) : State := { s with trust := s.trust.markBank n b altered }

/-- An 8 B piece reaches an accepted bank: it is stored with fresh check bits. -/
def State.storePiece (s : State) (a : Nat) (bs : List Byte) : State :=
  (s.freshWord (wordOf a)).setBytes a bs

/-- One aligned 8 B piece of a program-store write: refused and counted when its bank is the active one; held while its comb swaps
away from its bank; otherwise stored (R115–R117). True when refused. -/
def State.progWrite (s : State) (a : Nat) (bs : List Byte) : Bool × State :=
  match progOf a with
  | none => (false, s)
  | some (n, b) =>
    let c := s.comb n
    if c.shownB = b then (true, s.bump 0x202003)
    else if c.swaps > 0 then (false, s.setComb n { c with heldWrites := c.heldWrites ++ [(a, bs)] })
    else (false, (s.storePiece a bs).markBank n b false)

/-- Is any write held for a comb that swaps (R117)? Such a write is not yet performed. -/
def State.writesHeld (s : State) : Bool := s.swarm.combs.any fun e => !e.2.heldWrites.isEmpty

/-- A write segment: address and bytes. -/
abbrev WSeg := Nat × List Byte

def WSeg.seg (g : WSeg) : Seg := (g.1, g.2.length)

/-- Do the segments cover the whole word that holds `a`? -/
def covered (segs : List Seg) (a : Nat) : Bool :=
  (List.range (wordSize a)).all fun i => segs.any fun g => decide (g.1 ≤ wordOf a + i) && decide (wordOf a + i < g.1 + g.2)

/-- The first byte of the segments that cannot be written: a fault, or an uncorrectable word that the segments do not cover whole
(R67, R204). -/
def State.firstWriteFault (s : State) (all : List Seg) : List Seg → Option MemErr
  | [] => none
  | g :: gs =>
    match (List.range g.2).findSome? fun i =>
        match s.writeFault (seg8 g) (g.1 + i) with
        | some c => some (MemErr.mk c (g.1 + i))
        | none => if s.poisoned (g.1 + i) && !covered all (g.1 + i) then some ⟨.data, wordOf (g.1 + i)⟩ else none with
    | some e => some e
    | none => s.firstWriteFault all gs

/-- Store one segment that no check refuses; the address of the first refused program-store piece, if any. -/
def State.storeSeg (s : State) (g : WSeg) : Option Nat × State :=
  match progOf g.1 with
  | none =>
    (none, ((List.range g.2.length).foldl (fun (s : State) i => s.freshWord (wordOf (g.1 + i))) s).setBytes g.1 g.2)
  | some _ =>
    (List.range (g.2.length / 8)).foldl (fun r i =>
      let w := r.2.progWrite (g.1 + 8 * i) (slice g.2 (8 * i) 8)
      (if w.1 = true then (r.1 <|> some (g.1 + 8 * i)) else r.1, w.2)) (none, s)

/-- Store segments; the first refused program-store piece, if any. -/
def State.storeSegs (s : State) (segs : List WSeg) : Option Nat × State :=
  segs.foldl (fun r g => let w := r.2.storeSeg g; (r.1 <|> w.1, w.2)) (none, s)

/-- A write of part of a word reads its other bytes first: the errors this corrects. -/
def State.correctPartial (s : State) (all : List Seg) : State :=
  if s.mem.soft.isEmpty then s
  else ((all.flatMap fun g => (List.range g.2).map fun i => g.1 + i).filter fun a => !covered all a).foldl State.correctAt s

/-- Write segments of local memory: nothing is written when a byte faults; a program-store piece in an active bank is refused on its
own while the others are written (R115, R116). -/
def State.memWrite (s : State) (who : Requester) (segs : List WSeg) : State × Option MemErr :=
  match s.firstWriteFault (segs.map WSeg.seg) (segs.map WSeg.seg) with
  | some e => (s.accessFailed who e 1, some e)
  | none =>
    let w := (s.correctPartial (segs.map WSeg.seg)).storeSegs segs
    (w.2, w.1.map fun a => ⟨.refused, a⟩)

/-- The destination of a command that failed during its work is undefined (R93, R10): every byte of it in plain memory that can be
written takes a free value. -/
def State.scribble (s : State) (segs : List Seg) : State :=
  let n := s.freeCtr
  let s := { s with freeCtr := s.freeCtr + 1 }
  let as := segs.flatMap fun g => (List.range g.2).map fun i => g.1 + i
  as.foldl (fun s a =>
    match place a with
    | .near _ | .hbm =>
      if s.writeFault true a = none && !s.poisoned a then s.setByte a (Config.freeByte n a) else s
    | _ => s) s

/-! ## Accesses to a cell's own pad -/

/-- Does any byte of the pad segments lie in an uncorrectable word? -/
def State.padBad (s : State) (cell : Nat) (segs : List Seg) : Bool :=
  segs.any fun g => (List.range g.2).any fun i => SMap.get false s.swarm.padPoison ((cell * 8192 + g.1 + i) / 8 * 8)

/-- Read pad segments, unless a word is uncorrectable. -/
def State.padRead (s : State) (cell : Nat) (segs : List Seg) : Option (List Byte) :=
  if s.padBad cell segs then none
  else some (segs.flatMap fun g => s.padBytes cell g.1 g.2)

/-- Every error that a read of pad segments corrects. -/
def State.correctPad (s : State) (cell : Nat) (segs : List Seg) : State :=
  if s.swarm.padSoft.isEmpty then s
  else (segs.flatMap fun g => (List.range g.2).map fun i => g.1 + i).foldl (fun (s : State) a => s.correctPadWord cell a) s

/-- Write pad segments. A word that is covered whole takes fresh check bits; a word that is covered in part must first be read, so
an uncorrectable one stops the write, and an error that the code corrects is counted (R114; log entry 5). -/
def State.padWrite (s : State) (cell : Nat) (segs : List WSeg) : Option State :=
  let g8 := segs.map WSeg.seg
  let inside (a : Nat) : Bool := g8.any fun g => decide (g.1 ≤ a) && decide (a < g.1 + g.2)
  let words := g8.flatMap fun g => (List.range g.2).map fun i => (g.1 + i) / 8 * 8
  let bad := words.any fun w =>
    SMap.get false s.swarm.padPoison (cell * 8192 + w) && !((List.range 8).all fun i => inside (w + i))
  if bad then none
  else
    let s := s.correctPad cell ((words.filter fun w => !((List.range 8).all fun i => inside (w + i))).map fun w => (w, 1))
    let s := words.foldl (fun s w => { s with swarm := { s.swarm with
      padPoison := SMap.put false s.swarm.padPoison (cell * 8192 + w) false
      padSoft := SMap.put false s.swarm.padSoft (cell * 8192 + w) false } }) s
    some (segs.foldl (fun s g => s.setPadBytes cell g.1 g.2) s)

/-- Words of scratch that a chunk in scratch takes. -/
def Chunk.words (c : Chunk) : Nat := if c.spilled then 0 else c.bytes.length / 8

/-- The `w`-th word of the chunks is uncorrectable: its chunk is lost, which its empty bytes say (R275). -/
def loseChunkAt : List Chunk → Nat → List Chunk
  | [], _ => []
  | c :: cs, w => if w < c.words then { c with bytes := [] } :: cs else c :: loseChunkAt cs (w - c.words)

/-- The offset of the running sum that holds the `w`-th word of the sums. -/
def sumAt : SMap (List W32) → Nat → Option Nat
  | [], _ => none
  | e :: es, w => if 2 * w < e.2.length then some e.1 else sumAt es (w - ceilDiv e.2.length 2)

/-- Words of scratch that hold data of a stream: its chunks, the pairs of its window, its running sums. -/
def Stream.words (t : Stream) : Nat :=
  (t.chunks.map Chunk.words).sum + t.window.length + (t.sums.map fun e => ceilDiv e.2.length 2).sum

/-- An error arises in the `w`-th of those words. -/
def Stream.upset (t : Stream) (w : Nat) (corrected : Bool) : Stream :=
  let cs := (t.chunks.map Chunk.words).sum
  if corrected then { t with soft := t.soft + 1 }
  else if w < cs then { t with chunks := loseChunkAt t.chunks w }
  else if w < cs + t.window.length then { t with window := t.window.modify (w - cs) fun p => { p with lost := true } }
  else { t with lostSums := (sumAt t.sums (w - cs - t.window.length)).toList ++ t.lostSums }

/-- An error arises in the `w`-th word of the data that streams of engine `e` hold in its scratch (R270): where in scratch they lie the spec
does not say, so their words are numbered in the order they are kept. -/
def upsetStreams (e : Nat) (corrected : Bool) : List Stream → Nat → List Stream
  | [], _ => []
  | t :: ts, w =>
    if fieldOf 503 499 t.record.toNat ≠ e then t :: upsetStreams e corrected ts w
    else if w < t.words then t.upset w corrected :: ts
    else t :: upsetStreams e corrected ts (w - t.words)

/-- An error arises in a word of a pad, the near store, HBM, a program bank or the scratch of an engine; elsewhere it meets no memory. A word
with an error beyond correction keeps it. -/
def State.upsetAt (s : State) (u : Config.Upset) : State :=
  match u.place with
  | .pad =>
    let w := u.address % 2 ^ 33 / 8 * 8
    if u.corrected then { s with swarm := { s.swarm with padSoft := SMap.put false s.swarm.padSoft w true } }
    else { s with swarm := { s.swarm with padPoison := SMap.put false s.swarm.padPoison w true } }
  | .scratch =>
    { s with eng := { s.eng with
        streams := upsetStreams (u.address / 2 ^ 22 % 32) u.corrected s.eng.streams (u.address % 2 ^ 22 / 8) } }
  | .memory =>
    let stored := match place u.address with
      | .near _ | .hbm => true
      | .hive _ off => decide (off < slotRecordsBase)
      | _ => false
    if !stored then s
    else if u.corrected then { s with mem := { s.mem with soft := SMap.put false s.mem.soft (wordOf u.address) true } }
    else { s with mem := { s.mem with poison := SMap.put false s.mem.poison (wordOf u.address) true } }

/-- The error, if any, that arises in the memories as the block idles: a free choice (log entry 42). -/
def State.drawUpset (s : State) : State :=
  let u := Config.upset s.freeCtr
  let s := { s with freeCtr := s.freeCtr + 1 }
  match u with
  | none => s
  | some u => s.upsetAt u

/-- Time moves to the instant at which a timed event happens. A count that was held for the parent's (R476) has run on by then, and a bank
measurement has finished (R446; log entry 33). -/
def State.at_ (s : State) (t : Nat) : State :=
  if s.now < t then { s with now := t, health := { s.health with hold := 0 }, trust := s.trust.finishMeasure } else s

/-- The island's own clock takes no part in a step of fabric time from `old` to `new`: what it has timed keeps its age. -/
def Island.moveClock (i : Island) (old new : Nat) : Island :=
  let move (t : Nat) : Nat := new - (old - t)
  { i with
    fastUntil := i.fastUntil - old + new, syncAge := i.syncAge + (old - i.lastSync), lastSync := new, sentAt := move i.sentAt
    pushedAt := move i.pushedAt, tickAt := move i.tickAt, piAt := move i.piAt
    svcTestUntil := i.svcTestUntil.map fun t => t - old + new, svcOverload := i.svcOverload.map move, valveLow := i.valveLow.map move
    quotes := i.quotes.map fun (q : IslandQuote) => { q with asked := move q.asked } }

/-- Fabric time steps to `t` (R476, R477): a hold ends, and the island's clock goes on. -/
def State.stepTime (s : State) (t : Nat) : State :=
  { s with now := t, health := { s.health with hold := 0 }, isl := s.isl.moveClock s.now t }

/-- What idling does to a powered block: fabric time advances by 1 ns, unless it holds its count for its parent's (R476; log entry 18), and
an error may arise in the memories (log entry 42) and a bank measurement finishes (log entry 33). -/
def State.idleTime (s : State) : State :=
  let s := { s.drawUpset with trust := s.trust.finishMeasure }
  if s.health.hold = 0 then { s with now := s.now + 1 }
  else { s with health := { s.health with hold := s.health.hold - 1 } }

end Sys2Proof.Machine
end

