-- ==== Sys2Proof/Machine/Net.lean ====
section
/-! DEFINITION. Frames and their ways through the switch core: headers and trailers (R216–R224), the checks and discards of R227–R229,
routes (R230–R232), egress queues and buffer charges (R226, R237–R241), delivery, mirror copies and capture records (R259–R263),
fault injection (R265), and the tags of memory requests (R242). -/

namespace Sys2Proof.Machine

open Sys2Proof

/-! ## Headers -/

/-- The fields of a frame header (R218), the length in 64 B units. -/
structure Hdr where
  destNode : Nat := 0
  destEp : Nat := 0
  srcNode : Nat := 0
  srcEp : Nat := 0
  kind : Nat := 0
  tc : Nat := 0
  sub : Nat := 0
  mc : Bool := false
  hop : Nat := 0
  group : Nat := 0
  units : Nat := 1
  sop : Nat := 0
  tensor : Nat := 0
  seq : Nat := 0
  offset : Nat := 0
  deriving DecidableEq, Repr

/-- Read the fields of a header. -/
def Hdr.of (w : W256) : Hdr :=
  let v := w.toNat
  { destNode := fieldOf 255 232 v, destEp := fieldOf 231 216 v, srcNode := fieldOf 215 192 v, srcEp := fieldOf 191 176 v
    kind := fieldOf 175 168 v, tc := fieldOf 167 165 v, sub := fieldOf 164 164 v, mc := bitOf v 163, hop := fieldOf 161 156 v
    group := fieldOf 155 144 v, units := fieldOf 143 138 v + 1, sop := fieldOf 135 128 v, tensor := fieldOf 127 112 v
    seq := fieldOf 111 80 v, offset := fieldOf 79 16 v }

/-- Header bits [255:16] of the fields, reserved bits 0. -/
def Hdr.upper (h : Hdr) : Nat :=
  h.destNode % 2 ^ 24 * 2 ^ 232 + h.destEp % 2 ^ 16 * 2 ^ 216 + h.srcNode % 2 ^ 24 * 2 ^ 192 + h.srcEp % 2 ^ 16 * 2 ^ 176
    + h.kind % 256 * 2 ^ 168 + h.tc % 8 * 2 ^ 165 + h.sub % 2 * 2 ^ 164 + b2n h.mc * 2 ^ 163 + h.hop % 64 * 2 ^ 156
    + h.group % 4096 * 2 ^ 144 + (h.units - 1) % 64 * 2 ^ 138 + h.sop % 256 * 2 ^ 128 + h.tensor % 2 ^ 16 * 2 ^ 112
    + h.seq % 2 ^ 32 * 2 ^ 80 + h.offset % 2 ^ 64 * 2 ^ 16

/-- The CRC-16 of a header's bytes 2–31 (R219). -/
def headerCrc (v : Nat) : Nat := (crc16 (natLE 30 (v / 2 ^ 16))).toNat

/-- The header with its CRC-16. -/
def Hdr.encode (h : Hdr) : W256 := BitVec.ofNat 256 (h.upper + headerCrc h.upper)

/-- Check 1 of R227. -/
def headerOk (w : W256) : Bool := decide (w.toNat % 2 ^ 16 = headerCrc w.toNat)

/-- The reserved header bits [162] and [137:136]. -/
def headerReserved (w : W256) : Nat := fieldOf 162 162 w.toNat + fieldOf 137 136 w.toNat

/-- The CRC-32C of a frame: header bytes 0–31 and the payload (R219). -/
def frameCrc (f : Frame) : Nat := (crc32c (natLE 32 f.header.toNat ++ f.payload)).toNat

/-- What a trailer says of a frame (R223): confirmed, stomped and intact, or corrupt. -/
inductive TrailerVerdict where
  | confirmed
  | stomped
  | corrupt
  deriving DecidableEq, Repr

def trailerVerdict (f : Frame) (trailer : W64) : TrailerVerdict :=
  let c := trailer.toNat % 2 ^ 32
  if bitOf trailer.toNat 32 then (if c = 2 ^ 32 - 1 - frameCrc f then .stomped else .corrupt)
  else if c = frameCrc f then .confirmed else .corrupt

/-- Buffer cells of a payload (R224). -/
def cellsOf (payload : Nat) : Nat := ceilDiv (32 + payload) 256

/-- The counted length of a payload's frame with overhead `v` (R248). -/
def countedBy (v payload : Nat) : Nat := 32 + payload + 8 + v

/-- The counted length of a frame with the overhead as it is. -/
def State.counted (s : State) (payload : Nat) : Nat := countedBy (s.reg 0x411001) payload

/-- The response class of R221. -/
def isResponse (kind : Nat) : Bool := kind == 0x03 || kind == 0x05 || kind == 0x06 || kind == 0x07 || kind == 0x09 || kind == 0x42

/-- The kinds of R221. -/
def kindDefined (kind : Nat) : Bool :=
  (decide (1 ≤ kind) && decide (kind ≤ 9)) || kind == 0x10 || kind == 0x11 || kind == 0x20 || kind == 0x21 || kind == 0x30
    || kind == 0x31 || kind == 0x32 || kind == 0x40 || kind == 0x41 || kind == 0x42 || kind == 0x50

/-- The TCs that R221 permits for a kind. An ERROR frame travels as its request did, which may be one discarded for its TC. -/
def tcPermitted (kind tc : Nat) : Bool :=
  if kind = 7 then true
  else if 1 ≤ kind ∧ kind ≤ 9 then decide (1 ≤ tc ∧ tc ≤ 6)
  else if kind = 0x10 ∨ kind = 0x11 then decide (1 ≤ tc)
  else if kind = 0x20 then tc == 3
  else if kind = 0x21 then tc == 4
  else if kind = 0x30 then tc == 1 || tc == 2
  else if kind = 0x50 then tc == 7
  else tc == 0

/-- Is the TC set best-effort (R225)? -/
def State.bestEffort (s : State) (tc : Nat) : Bool :=
  (tc == 6 && decide (s.reg 0x402001 = 1)) || (tc == 7 && decide (s.reg 0x402002 = 1))

/-- Endpoint codes a kind is sent to (R220, R221; log entry 15). Codes outside R220 are left to check 7. -/
def epLegal (kind ep : Nat) : Bool :=
  if kind = 1 ∨ kind = 2 ∨ kind = 4 ∨ kind = 8 then ep == 0
  else if kind = 3 ∨ kind = 5 ∨ kind = 6 ∨ kind = 7 ∨ kind = 9 then decide (ep ≠ 0)
  else if kind = 0x11 then decide (ep / 256 = 0x30)
  else if kind = 0x20 then decide (ep = 0 ∨ ep / 256 = 0x30)
  else if kind = 0x21 then decide (ep / 256 = 0x30)
  else if kind = 0x30 ∨ kind = 0x31 ∨ kind = 0x32 then decide (ep / 256 = 0x31)
  else if kind = 0x40 ∨ kind = 0x42 then decide (ep = 0x3200)
  else if kind = 0x41 then decide (ep = 0x3201)
  else if kind = 0x50 then decide (ep / 256 = 0x20)
  else true

/-- Kinds whose payload is one 64 B unit (R242). -/
def oneUnit (kind : Nat) : Bool := kind == 2 || (decide (4 ≤ kind) && decide (kind ≤ 9)) || kind == 0x41

/-- Check 2 of R227, with the multicast kinds of R240. -/
def formLegal (w : W256) : Bool :=
  let h := Hdr.of w
  kindDefined h.kind && decide (headerReserved w = 0) && (!oneUnit h.kind || h.units == 1)
    && (!(h.kind == 1 || h.kind == 3) || decide (h.sop < 64)) && epLegal h.kind h.destEp
    && (!h.mc || h.kind == 0x10 || h.kind == 0x11 || h.kind == 0x30 || h.kind == 0x41)

/-! ## Queue pairs as the switch sees them (R361, R369) -/

def State.pair (s : State) (q : Nat) : QueuePair := SMap.get {} s.host.pairs q
def State.setPair (s : State) (q : Nat) (p : QueuePair) : State := { s with host := { s.host with pairs := SMap.put {} s.host.pairs q p } }

def QueuePair.receive (p : QueuePair) : Bool := bitOf p.config.toNat 363
def QueuePair.mirror (p : QueuePair) : Bool := bitOf p.config.toNat 362

/-- Does endpoint `ep` exist and work for a frame of this kind (check 7 of R227)? -/
def State.epWorks (s : State) (kind ep : Nat) : Bool :=
  if ep = 0 then true
  else if 0x1000 ≤ ep ∧ ep < 0x1010 then s.hiveWorks (ep - 0x1000)
  else if 0x2000 ≤ ep ∧ ep < 0x2100 then
    let p := s.pair (ep - 0x2000)
    if kind = 0x10 then p.state == 1 && p.receive
    else if kind = 0x50 then p.state == 1 && p.mirror
    else true
  else if 0x3000 ≤ ep ∧ ep < 0x3020 then s.eng.working.getLsbD (ep - 0x3000)
  else ep == 0x3100 || ep == 0x3101 || ep == 0x3200 || ep == 0x3201

/-! ## Ports, elements and routes -/

/-- Is the owner of a local address on the east hub (R217)? -/
def State.ownerEast (s : State) (a : Nat) : Bool :=
  match place a with
  | .near h => decide (8 ≤ h)
  | .hbm => decide (4 ≤ s.stackOf a)
  | .hub east _ => east
  | .hive h _ => decide (8 ≤ h)
  | .pad cell _ => decide (8 ≤ cell / 65536)
  | .reserved => false

/-- The port at which a frame for endpoint `ep` of this module leaves the switch (R216, R217). -/
def State.epPort (s : State) (ep offset : Nat) : Nat :=
  if ep = 0 then (if s.ownerEast (offset % 2 ^ 40) then 0x83 else 0x82)
  else if ep / 256 = 0x10 then 0x40 + ep % 256
  else if ep / 256 = 0x20 then 0x50
  else if ep / 256 = 0x30 then 0x60 + ep % 256
  else if ep / 256 = 0x31 then 0x80 + ep % 256
  else if ep = 0x3200 then 0x84
  else 0x85

/-- Does a port belong to the east element (R216)? -/
def portEast (p : Nat) : Bool :=
  if p < 0x40 then decide (32 ≤ p)
  else if p < 0x50 then decide (0x48 ≤ p)
  else if p = 0x52 then true
  else if 0x60 ≤ p ∧ p < 0x80 then decide (0x70 ≤ p)
  else p == 0x81 || p == 0x83

/-- The direction byte of a link in the geometry in force (R245, 6010.04). -/
def State.linkDir (s : State) (l : Nat) : Nat := fieldOf (8 * l + 7) (8 * l) s.net.dirs.toNat

/-- The direction of a frame to node `y` (R230): dimension and whether negative. -/
def State.direction (s : State) (y : Nat) : Option (Nat × Bool) :=
  (List.range s.dimCount).findSome? fun d =>
    let n := s.dimSize d
    let a := coordOf s.node d
    let b := coordOf y d
    let up := (b + n - a) % n
    let down := (a + n - b) % n
    if up ≠ 0 then some (d, decide (down < up)) else none

/-- The links that are up and assigned to a direction, in increasing number (R232). -/
def State.linksOf (s : State) (d : Nat) (neg : Bool) : List Nat :=
  (List.range 64).filter fun l =>
    let b := s.linkDir l
    s.linkUp l && bitOf b 7 && decide (b / 16 % 4 = d) && decide (bitOf b 0 = neg)

/-- Is a link of direction (d, neg) the wrap link of its dimension (R231)? -/
def State.isWrap (s : State) (d : Nat) (neg : Bool) : Bool :=
  if neg then decide (coordOf s.node d = 0) else decide (coordOf s.node d = s.dimSize d - 1)

/-- The sub-channel of a frame sent in dimension `d`, having arrived on port `ingress` with sub-channel `sub` (R231). -/
def State.subFor (s : State) (ingress sub d : Nat) (neg : Bool) : Nat :=
  let kept := if ingress < 0x40 ∧ bitOf (s.linkDir ingress) 7 ∧ s.linkDir ingress / 16 % 4 = d then sub else 0
  if s.isWrap d neg then 1 else kept

/-- The channel of (TC, class, sub-channel) (R226). -/
def chan (tc : Nat) (resp : Bool) (sub : Nat) : Nat := tc * 4 + b2n resp * 2 + sub

def State.queue (s : State) (port ch : Nat) : List Queued := SMap.get [] s.net.queues (port * 32 + ch)
def State.setQueue (s : State) (port ch : Nat) (q : List Queued) : State :=
  { s with net := { s.net with queues := SMap.put [] s.net.queues (port * 32 + ch) q } }

/-- Counted bytes waiting on a queue: R232 ranks queues by their bytes, and the model counts them as R248 does, with the overhead (DESIGN
CHOICE, log entry 25). -/
def State.queuedBytes (s : State) (port ch : Nat) : Nat :=
  ((s.queue port ch).map fun q => s.counted q.frame.payload.length).sum

/-- Counted bytes waiting for a TC of a port: the queue depth of R263, 0 where no egress was chosen. -/
def State.depthAt (s : State) (port tc : Nat) : Nat :=
  if port = 0xFF then 0 else ((List.range 4).map fun i => s.queuedBytes port (tc * 4 + i)).sum

/-- Does a TC of a port hold a frame? -/
def State.tcHolds (s : State) (port tc : Nat) : Bool := (List.range 4).any fun i => !(s.queue port (tc * 4 + i)).isEmpty

/-- The hash of R232. -/
def State.linkHash (s : State) (h : Hdr) : Nat :=
  h.srcNode ^^^ h.destNode ^^^ (h.srcEp * 256 % 2 ^ 24) ^^^ h.destEp ^^^ (h.tc * 2 ^ 21) ^^^ fieldOf 35 12 h.offset
    ^^^ (s.reg 0x405002 % 2 ^ 24)

/-- The first link of least queue depth. -/
def minBy (f : Nat → Nat) : List Nat → Option Nat
  | [] => none
  | l :: ls =>
    match minBy f ls with
    | none => some l
    | some m => if f l ≤ f m then some l else some m

/-- The link chosen for a frame among the links of its direction (R232); collective data always takes the hash choice (R322). -/
def State.chooseLink (s : State) (h : Hdr) (sub : Nat) (links : List Nat) : Option Nat :=
  if links.isEmpty then none
  else if s.reg 0x405001 = 0 ∨ s.det ∨ h.kind = 0x30 then links[s.linkHash h % links.length]?
  else minBy (fun l => s.queuedBytes l (chan h.tc (isResponse h.kind) sub)) links

/-! ## Queued frames -/

def Queued.cells (q : Queued) : Nat := cellsOf q.frame.payload.length
def Queued.hdr (q : Queued) : Hdr := Hdr.of q.frame.header
def Hdr.channel (h : Hdr) : Nat := chan h.tc (isResponse h.kind) h.sub
def Queued.channel (q : Queued) : Nat := q.hdr.channel

/-- Data that a collective sequencer of this module sends: it passes the group stage of its link (R254). -/
def Queued.sequenced (q : Queued) : Bool := (q.ingress == 0x80 || q.ingress == 0x81) && q.hdr.kind == 0x30

/-! ## Buffer charges (R237–R241) -/

/-- The guarantee G(t) and the share exponent a of a TC. -/
def State.guarantee (s : State) (tc : Nat) : Nat := s.reg (0x401001 + tc)
def State.shareExp (s : State) (tc : Nat) : Int := toSigned 16 (s.reg (0x401101 + tc))

/-- Cells charged to the guarantee of an ingress channel, and shared cells charged to its (port, TC). -/
def State.ownCells (s : State) (port ch : Nat) : Nat := SMap.get 0 s.net.charges (port * 32 + ch)
def State.sharedCells (s : State) (port tc : Nat) : Nat := SMap.get 0 s.net.shared (port * 8 + tc)

/-- The free part of what a channel holds for itself: its quarter of the guarantee and its completion cell (R237). -/
def State.ownFree (s : State) (port ch : Nat) : Nat := s.guarantee (ch / 4) / 4 + 1 - s.ownCells port ch

/-- The ingress ports of an element (R216). -/
def elementPorts (east : Bool) : List Nat :=
  if east then
    (List.range 32).map (· + 32) ++ (List.range 8).map (· + 0x48) ++ [0x52] ++ (List.range 16).map (· + 0x70) ++ [0x81, 0x83]
  else
    List.range 32 ++ (List.range 8).map (· + 0x40) ++ [0x50, 0x51] ++ (List.range 16).map (· + 0x60) ++ [0x80, 0x82, 0x84, 0x85]

/-- Free shared cells F of an element (4030.01, 4030.02): its cells less guarantees, completion cells and shared charges. All 32 link
ports of the element hold theirs, whether or not the link exists (DESIGN CHOICE, log entry 25). -/
def State.freeShared (s : State) (east : Bool) : Nat :=
  let ps := elementPorts east
  let held := (ps.map fun p => ((List.range 8).map fun t => s.guarantee t + 4 + s.sharedCells p t).sum).sum
  786432 - held

/-- R238: may a (port, TC) take further shared cells? -/
def State.shareOpen (s : State) (port tc : Nat) : Bool :=
  let sh : Int := (s.sharedCells port tc : Nat)
  let f : Int := s.freeShared (portEast port)
  let a := s.shareExp tc
  if a ≥ 0 then decide (sh < 2 ^ a.toNat * f) else decide (sh * 2 ^ (-a).toNat < f)

/-- Do an ingress channel's own cells or the shared pool give a frame its cells (R237–R239)? -/
def State.roomFor (s : State) (port ch cells : Nat) : Bool := decide (cells ≤ s.ownFree port ch) || s.shareOpen port (ch / 4)

/-- Do the channels of a TC of a link hold no frame: none queued, sent and not acknowledged, or stored from it (R239)? -/
def State.tcIdle (s : State) (l tc : Nat) : Bool :=
  !s.tcHolds l tc && ((s.link l).held.all fun h => h.queued.hdr.tc != tc)
    && ((List.range 4).all fun i => decide (s.ownCells l (tc * 4 + i) = 0)) && decide (s.sharedCells l tc = 0)

/-- Is a TC best-effort at a port? On a link a change waits until the TC's channels hold no frame (R239). -/
def State.bestEffortAt (s : State) (port tc : Nat) : Bool :=
  if port < 0x40 ∧ 6 ≤ tc ∧ !s.tcIdle port tc then SMap.get false s.net.modes (port * 8 + tc) else s.bestEffort tc

/-- A TC of a link is about to hold a frame: its mode stays as it is until it holds none. -/
def State.noteMode (s : State) (port tc : Nat) : State :=
  if port < 0x40 ∧ 6 ≤ tc then
    let m := s.bestEffortAt port tc
    { s with net := { s.net with modes := SMap.put false s.net.modes (port * 8 + tc) m } }
  else s

/-- Store a frame of `cells` cells once, with `copies` references (R241): charged to its channel's own cells first, then to the shared
pool. -/
def State.newStore (s : State) (port ch cells copies : Nat) : Nat × State :=
  let s := s.noteMode port (ch / 4)
  let id := s.net.nextStore
  let own := min cells (s.ownFree port ch)
  (id, { s with net := { s.net with
    nextStore := id + 1
    refs := SMap.put {} s.net.refs id ⟨copies, port * 32 + ch, own, cells - own⟩
    charges := SMap.put 0 s.net.charges (port * 32 + ch) (s.ownCells port ch + own)
    shared := SMap.put 0 s.net.shared (port * 8 + ch / 4) (s.sharedCells port (ch / 4) + (cells - own)) } })

/-- One copy of a stored frame is acknowledged, delivered or discarded: its cells are freed at the last (R241). -/
def State.unref (s : State) (id : Nat) : State :=
  let x := SMap.get {} s.net.refs id
  if x.copies = 0 then s
  else if 1 < x.copies then { s with net := { s.net with refs := SMap.put {} s.net.refs id { x with copies := x.copies - 1 } } }
  else
    { s with net := { s.net with
      refs := SMap.put {} s.net.refs id {}
      charges := SMap.modify 0 s.net.charges x.channel (· - x.own)
      shared := SMap.modify 0 s.net.shared (x.channel / 32 * 8 + x.channel % 32 / 4) (· - x.shared) } }

/-! ## Token buckets (R255–R257) -/

/-- Rate and burst of an element of 4120.02 or 4130.02. -/
def State.bucketElement (s : State) (key port tc : Nat) : Nat × Nat :=
  let e := s.reg key port / 2 ^ (64 * tc) % 2 ^ 64
  (e / 2 ^ 32, e % 2 ^ 32)

/-- Tokens of a bucket at the present time: it starts full and accrues at its rate up to its burst. -/
def bucketNow (b : Option Bucket) (rate burst now : Nat) : Int :=
  match b with
  | none => burst * 8000
  | some b => min (b.tokens + (rate * (now - b.updated) : Nat)) (burst * 8000)

def State.shaperTokens (s : State) (port tc : Nat) : Int :=
  let e := s.bucketElement 0x412002 port tc
  bucketNow (SMap.get none s.net.shapers (port * 8 + tc)) e.1 e.2 s.now

/-- The shaper of (port, TC) lets it send (R250). -/
def State.shaperOpen (s : State) (port tc : Nat) : Bool :=
  (s.bucketElement 0x412002 port tc).1 == 0 || decide (0 ≤ s.shaperTokens port tc)

/-- A transmission of counted length `n` starts (R255). -/
def State.shaperSpend (s : State) (port tc n : Nat) : State :=
  if (s.bucketElement 0x412002 port tc).1 = 0 then s
  else
    let b : Bucket := ⟨s.shaperTokens port tc - n * 8000, s.now⟩
    { s with net := { s.net with shapers := SMap.put none s.net.shapers (port * 8 + tc) (some b) } }

def State.policerTokens (s : State) (port tc : Nat) : Int :=
  let e := s.bucketElement 0x413002 port tc
  bucketNow (SMap.get none s.net.policers (port * 8 + tc)) e.1 e.2 s.now

def State.policerOpen (s : State) (port tc : Nat) : Bool :=
  (s.bucketElement 0x413002 port tc).1 == 0 || decide (0 ≤ s.policerTokens port tc)

/-- A frame's last byte arrives (R256). -/
def State.policerSpend (s : State) (port tc n : Nat) : State :=
  if (s.bucketElement 0x413002 port tc).1 = 0 then s
  else
    let b : Bucket := ⟨s.policerTokens port tc - n * 8000, s.now⟩
    { s with net := { s.net with policers := SMap.put none s.net.policers (port * 8 + tc) (some b) } }

/-! ## Fault injection (R264, R265) -/

/-- The rule of a (port, TC), when injection is unlocked. -/
def State.injectRule (s : State) (port tc : Nat) : Nat :=
  if s.reg 0xC00001 = 1 then (SMap.get 0 s.net.rules (port * 8 + tc)).toNat else 0

/-- Kind `a` of a rule sees a frame: is it selected? The frame is counted only while the kind is enabled. -/
def State.inject (s : State) (port tc a : Nat) : Bool × State :=
  let r := s.injectRule port tc
  let en := bitOf r (63 - 8 * a)
  let n := fieldOf (60 - 8 * a) (56 - 8 * a) r
  if !en then (false, s)
  else
    let k := (port * 8 + tc) * 3 + a
    let j := SMap.get 0 s.net.seen k
    let s := { s with net := { s.net with seen := SMap.put 0 s.net.seen k (j + 1) } }
    let g := (philox (s.reg 0xC00002) 0 (port * 8 + tc) (a * 2 ^ 44 + j % 2 ^ 44)).toNat
    if g % 2 ^ n = 0 then (true, s.bump (0xC02001 + a)) else (false, s)

/-! ## Mirror sessions and the capture ring (R258–R263) -/

def State.mirror (s : State) (i : Nat) : Mirror := SMap.get {} s.net.mirrors i
def State.setMirror (s : State) (i : Nat) (m : Mirror) : State :=
  { s with net := { s.net with mirrors := SMap.put {} s.net.mirrors i m } }

/-- Does session `i` match a frame that passes `port` with header `w`, on ingress or egress (R259)? -/
def State.mirrorMatch (s : State) (i port : Nat) (egress : Bool) (w : W256) : Bool :=
  let m := s.mirror i
  let c := m.control.toNat
  let kind := fieldOf 61 60 c
  let dir := fieldOf 59 58 c
  let dirOk := if egress then decide (2 ≤ dir) else dir % 2 == 1
  let portOk := kind == 1 || decide (fieldOf 57 50 c = port)
  let flowOk := kind == 0 || (w ^^^ m.value) &&& m.mask == 0
  bitOf c 63 && dirOk && portOk && flowOk && decide ((Hdr.of w).kind ≠ 0x50)

/-- The sessions that match. -/
def State.mirrorSet (s : State) (port : Nat) (egress : Bool) (w : W256) : List Nat :=
  (List.range 8).filter fun i => s.mirrorMatch i port egress w

/-- The metadata word of R263. -/
def metaWord (time ingress egress session : Nat) (dirEgress discarded : Bool) (tc depth : Nat) : Nat :=
  time % 2 ^ 64 * 2 ^ 64 + ingress * 2 ^ 56 + egress * 2 ^ 48 + session * 2 ^ 45 + b2n dirEgress * 2 ^ 44 + b2n discarded * 2 ^ 43
    + tc * 2 ^ 40 + depth % 2 ^ 32

/-- Write a record of 80 B into the capture ring: discarded when the ring is full (R262); the watermark posts its event. -/
def State.captureRecord (s : State) (rec : List Byte) : State :=
  let c := s.reg 0x430002
  if !bitOf c 7 then s
  else
    let n := 2 ^ (c % 32)
    let p := s.reg 0x430003
    let used := (p + 2 ^ 32 - s.reg 0x430004) % 2 ^ 32
    if used ≥ n then s.bump 0x430005
    else
      let a := s.reg 0x430001 + p % n * 80
      let p' := (p + 1) % 2 ^ 32
      let s := ((s.memWrite ⟨5, 0⟩ [(a, rec)]).1).setReg 0x430003 p'
      if s.reg 0x430006 ≠ 0 ∧ used + 1 = s.reg 0x430006 then s.postEvent 0x51 0 (p' + s.reg 0x430004 * 2 ^ 32) else s

/-- The element's bridge port towards the other element. -/
def bridgeOut (east : Bool) : Nat := if east then 0x52 else 0x51

/-- Add a frame to its channel FIFO of a port. A TC that held nothing wakes with deficit 0 (R251). -/
def State.addToFifo (s : State) (port : Nat) (q : Queued) : State :=
  let h := Hdr.of q.frame.header
  let d := SMap.get {} s.net.drr port
  let s :=
    if s.tcHolds port h.tc || (d.visiting && d.pos == h.tc) then s
    else
      let d := { d with deficits := d.deficits.setIfInBounds h.tc 0 }
      { s with net := { s.net with drr := SMap.put {} s.net.drr port d } }
  let s := s.noteMode port h.tc
  s.setQueue port h.channel (s.queue port h.channel ++ [q])

/-! ## The group stage (R254) -/

def State.stage (s : State) (k : Nat) : GroupStage := SMap.get {} s.net.stages k
def State.setStage (s : State) (k : Nat) (g : GroupStage) : State := { s with net := { s.net with stages := SMap.put {} s.net.stages k g } }

/-- The first group at or after `from_`, in increasing cyclic order, whose queue holds a frame. -/
def GroupStage.nextGroup (g : GroupStage) (from_ : Nat) : Option Nat :=
  let ks := (g.queues.filter fun e => !e.2.isEmpty).map Prod.fst
  match ks.find? fun k => decide (from_ ≤ k) with
  | some k => some k
  | none => ks.head?

/-- The next frame a stage passes, by the rule of R249 over its groups; the fuel bounds the visits until a deficit covers a frame. -/
def State.stagePick (s : State) : Nat → GroupStage → Option (Queued × GroupStage)
  | 0, _ => none
  | fuel + 1, g =>
    match (if g.visiting then some g.pos else g.nextGroup g.pos) with
    | none => none
    | some k =>
      match SMap.get [] g.queues k with
      | [] => s.stagePick fuel { g with visiting := false, pos := k + 1, deficits := SMap.put 0 g.deficits k 0 }
      | q :: rest =>
        if !g.visiting then
          s.stagePick fuel
            { g with visiting := true, overhead := s.reg 0x411001, pos := k, deficits := SMap.modify 0 g.deficits k (· + s.reg 0x410102 k) }
        else
          let d := SMap.get 0 g.deficits k
          let n := countedBy g.overhead q.frame.payload.length
          if n ≤ d then
            some (q, { g with
              queues := SMap.put [] g.queues k rest
              deficits := SMap.put 0 g.deficits k (if rest.isEmpty then 0 else d - n)
              visiting := !rest.isEmpty, pos := if rest.isEmpty then k + 1 else k })
          else s.stagePick fuel { g with visiting := false, pos := k + 1 }

/-- A stage passes a frame to its channel FIFO while that FIFO holds at most one frame of the stage that has not begun transmission. -/
def State.stageRun (s : State) (link tc : Nat) : Nat → State
  | 0 => s
  | fuel + 1 =>
    match s.stagePick 10000 (s.stage (link * 8 + tc)) with
    | none => s
    | some (q, g) =>
      if 1 < ((s.queue link q.channel).filter Queued.sequenced).length then s
      else State.stageRun ((s.setStage (link * 8 + tc) g).addToFifo link q) link tc fuel

/-- The port of the element of `from_` that leads to `final`: the bridge, where `final` lies beyond it. -/
def towards (from_ final : Nat) : Nat := if portEast from_ = portEast final then final else bridgeOut (portEast from_)

/-- Put a frame on the egress queue of `final`, by way of the bridge where `final` lies beyond it; a sequencer's data passes the group
stage of its link (R254, R328), but for a frame that `joins` the FIFO of a new link at once (R267). -/
def State.enqueue (s : State) (from_ final : Nat) (q : Queued) (joins : Bool := false) : State :=
  let port := towards from_ final
  let h := Hdr.of q.frame.header
  let q := { q with final := final }
  if q.sequenced ∧ port < 0x40 ∧ ¬ joins then
    let k := port * 8 + h.tc
    let g := s.stage k
    let old := SMap.get [] g.queues h.group
    let g := { g with
      queues := SMap.put [] g.queues h.group (old ++ [q])
      deficits := if old.isEmpty && !(g.visiting && g.pos == h.group) then SMap.put 0 g.deficits h.group 0 else g.deficits }
    (s.setStage k g).stageRun port h.tc 4
  else s.addToFifo port q

/-- The header fields and payload of the MIRROR copy of a frame for session `i` (R260). Its sequence is the number of copies the session
made before it, so that the first copy bears 0 (DESIGN CHOICE, log entry 25). -/
def State.mirrorFrame (s : State) (i : Nat) (f : Frame) (meta_ : Nat) : Frame :=
  let m := s.mirror i
  let c := m.control.toNat
  let port := fieldOf 49 42 c
  let payload := natLE 32 f.header.toNat ++ natLE 16 meta_ ++ List.replicate 16 0 ++ padTo 64 (f.payload.take 4032)
  let h : Hdr :=
    { destNode := if port = 0x50 then s.node else fieldOf 33 10 c, destEp := 0x2000 + fieldOf 41 34 c, srcNode := s.node
      srcEp := 0x3200, kind := 0x50, tc := 7, units := payload.length / 64, group := i, seq := m.made % 2 ^ 32
      offset := f.payload.length, hop := if port = 0x50 then 0 else 1
      sub := if port = 0x50 then 0 else s.subFor 0x84 0 (s.linkDir port / 16 % 4) (bitOf (s.linkDir port) 0) }
  ⟨h.encode, payload⟩

/-- A MIRROR copy that was made is stored and queued for the port it is bound for. -/
def State.storeCopy (s : State) (q : Queued) : State :=
  let y := s.newStore 0x84 q.channel q.cells 1
  y.2.enqueue 0x84 q.final { q with store := y.1 }

/-- Make the MIRROR copy of a frame for session `i` (R260, R261), unless its session's allowance or a best-effort TC7 has no cells. On a
lossless TC7 a copy for which there is no room waits, after those of its channel before it. -/
def State.mirrorCopy (s : State) (i : Nat) (f : Frame) (meta_ : Nat) : State :=
  let m := s.mirror i
  let port := fieldOf 49 42 m.control.toNat
  let q : Queued := ⟨s.mirrorFrame i f meta_, 0x84, port, 0, true, false, true⟩
  let room := s.roomFor 0x84 q.channel q.cells
  if m.heldCells + q.cells > m.allowance ∨ (s.bestEffort 7 ∧ ¬ room) then s.setMirror i { m with dropped := satAdd 64 m.dropped 1 }
  else
    let s := s.setMirror i { m with made := satAdd 64 m.made 1, heldCells := m.heldCells + q.cells }
    if !room || s.net.copies.any fun c => c.channel == q.channel then { s with net := { s.net with copies := s.net.copies ++ [q] } }
    else s.storeCopy q

/-- Is an enabled session in mode 1, which records, or in mode 0, which copies (R258)? One disabled since it matched a frame makes nothing
of it (R267). -/
def State.recording (s : State) (i : Nat) : Bool := bitOf (s.mirror i).control.toNat 63 && bitOf (s.mirror i).control.toNat 62
def State.copying (s : State) (i : Nat) : Bool := bitOf (s.mirror i).control.toNat 63 && !bitOf (s.mirror i).control.toNat 62

/-- The records that mode-1 sessions write of a frame (R262, R263). -/
def State.mirrorRecords (s : State) (ids : List Nat) (f : Frame) (time ingress egress depth : Nat) (dirEgress discarded : Bool) :
    State :=
  (ids.filter s.recording).foldl (fun s i =>
    s.captureRecord (natLE 32 f.header.toNat ++ slice f.payload 0 32
      ++ natLE 16 (metaWord time ingress egress i dirEgress discarded (Hdr.of f.header).tc depth))) s

/-- The copies that mode-0 sessions make of a frame (R260). -/
def State.mirrorCopies (s : State) (ids : List Nat) (f : Frame) (time ingress egress depth : Nat) (dirEgress discarded : Bool) :
    State :=
  (ids.filter s.copying).foldl (fun s i =>
    s.mirrorCopy i f (metaWord time ingress egress i dirEgress discarded (Hdr.of f.header).tc depth)) s

/-- What the sessions that matched a frame make of it: records, and copies. -/
def State.mirrorAll (s : State) (ids : List Nat) (f : Frame) (time ingress egress depth : Nat) (dirEgress discarded : Bool) : State :=
  (s.mirrorRecords ids f time ingress egress depth dirEgress discarded).mirrorCopies ids f time ingress egress depth dirEgress discarded

/-- A frame starts to leave by a port: the sessions that match it there take it (R259). -/
def State.mirrorOut (s : State) (port : Nat) (q : Queued) : State :=
  s.mirrorAll (s.mirrorSet port true q.frame.header) q.frame s.now q.ingress port (s.depthAt port q.hdr.tc) true false

/-! ## Delivery -/

/-- Do the reorder rules of the ingress port, and of the bridge it came by, select a frame delivered at `port` (R265)? -/
def State.reorderPick (s : State) (port : Nat) (q : Queued) : Bool × State :=
  let tc := q.hdr.tc
  if q.hdr.kind = 0x50 then (false, s)
  else
    let x := if 0x52 < q.ingress then (false, s) else s.inject q.ingress tc 2
    let y := if portEast q.ingress = portEast port then (false, x.2) else x.2.inject (bridgeOut (portEast port)) tc 2
    (x.1 || y.1, y.2)

/-- Frames of one ingress port and TC for one endpoint. -/
def Delivered.like (d e : Delivered) : Bool :=
  decide (d.port = e.port) && decide (d.ingress = e.ingress) && decide ((Hdr.of d.frame.header).tc = (Hdr.of e.frame.header).tc)
    && decide ((Hdr.of d.frame.header).destEp = (Hdr.of e.frame.header).destEp)

/-- A confirmed frame reaches an endpoint's FIFO, or is held for reordering; what was held goes immediately after the next frame of its
ingress port and TC for the same endpoint (R265). -/
def State.deliver (s : State) (port : Nat) (q : Queued) : State :=
  let d : Delivered := { port := port, frame := q.frame, ingress := q.ingress, store := q.store, since := s.now }
  let x := s.reorderPick port q
  let s := x.2
  if x.1 then { s with net := { s.net with reorder := s.net.reorder ++ [d] } }
  else
    let after := (s.net.reorder.filter d.like).reverse
    { s with net := { s.net with rx := s.net.rx ++ d :: after, reorder := s.net.reorder.filter fun e => !d.like e } }

/-- The first delivered frame of a port, TC and kind that satisfies `p`. -/
def State.rxFind (s : State) (port tc : Nat) (p : Hdr → Frame → Bool) : Option Delivered :=
  s.net.rx.find? fun d => decide (d.port = port) && decide ((Hdr.of d.frame.header).tc = tc) && p (Hdr.of d.frame.header) d.frame

/-- A delivered frame is consumed: its cells are freed. -/
def State.consume (s : State) (d : Delivered) : State :=
  ({ s with net := { s.net with rx := s.net.rx.erase d } } : State).unref d.store

/-- The first frame of a kind waiting at a port on a TC is taken. -/
def State.take (s : State) (port tc kind : Nat) : Option (Hdr × Frame × State) :=
  (s.rxFind port tc fun h _ => h.kind == kind).map fun d => (Hdr.of d.frame.header, d.frame, s.consume d)

/-! ## Discards (R228, R229) -/

/-- The record of R229. -/
def discardRecord (reason ingress egress time : Nat) (w : W256) : Nat :=
  let h := Hdr.of w
  if reason = 1 then reason * 2 ^ 248 + ingress * 2 ^ 240 + time % 2 ^ 64 * 2 ^ 64
  else reason * 2 ^ 248 + ingress * 2 ^ 240 + egress * 2 ^ 232 + h.kind * 2 ^ 224 + h.tc * 2 ^ 221 + h.sub * 2 ^ 220
    + b2n (isResponse h.kind) * 2 ^ 219 + h.destNode * 2 ^ 192 + h.srcNode * 2 ^ 168 + h.destEp * 2 ^ 152
    + time % 2 ^ 64 * 2 ^ 64 + h.seq * 2 ^ 32

/-- Count and log a discard. -/
def State.logDiscard (s : State) (reason ingress egress : Nat) (w : W256) : State :=
  let s := (s.bump 0x406002).bump 0x406003 1 reason
  let s := s.contained
  { s with net := { s.net with
      discards := logAppend 64 s.net.discards (BitVec.ofNat 256 (discardRecord reason ingress egress s.now w)) } }

/-- Reasons for which a discarded memory request is answered with an ERROR frame (R228). -/
def errorReason (reason : Nat) : Bool :=
  reason == 4 || reason == 5 || reason == 6 || reason == 7 || reason == 0x0A || reason == 0x0D

/-- The ERROR frame for a failed memory request (R242, R243). -/
def State.errorFrame (s : State) (h : Hdr) (reason fault : Nat) : Frame :=
  ⟨({ destNode := h.srcNode, destEp := h.srcEp, srcNode := s.node, srcEp := h.destEp, kind := 7, tc := h.tc } : Hdr).encode,
    [BitVec.ofNat 8 reason, BitVec.ofNat 8 h.kind, 0, 0] ++ natLE 4 h.seq ++ natLE 8 fault ++ List.replicate 48 0⟩

/-- The failing address of a discarded request (R242; log entry 25): the global address its header names; a FREE names its own in the
payload, and 0 stands for it. -/
def requestAddress (h : Hdr) : Nat := if h.kind = 8 then 0 else h.destNode * 2 ^ 40 + h.offset % 2 ^ 40

def isMemRequest (kind : Nat) : Bool := kind == 1 || kind == 2 || kind == 4 || kind == 8

/-! ## Routing a confirmed frame -/

/-- The group entry of a multicast frame (R240). -/
def State.groupEntry (s : State) (g : Nat) : Nat := (SMap.get 0 s.net.groups g).toNat

/-- The sub-channel of a frame that arrived on port `ingress` with sub-channel `sub` and leaves on link `l` (R231). -/
def State.linkSub (s : State) (ingress l sub : Nat) : Nat := s.subFor ingress sub (s.linkDir l / 16 % 4) (bitOf (s.linkDir l) 0)

/-- The checks of R227 after the CRC, and the route. -/
def State.route (s : State) (ingress : Nat) (w : W256) : Route :=
  let h := Hdr.of w
  if !formLegal w then .discard 4
  else if !tcPermitted h.kind h.tc then .discard 0x0A
  else if h.mc then
    let e := s.groupEntry h.group
    let links := ((List.range 64).filter fun l => bitOf e l && decide (l ≠ ingress)).map fun l => (l, s.linkSub ingress l h.sub)
    let loc := if bitOf e 126 then some (s.epPort h.destEp h.offset) else none
    if !bitOf e 127 then .discard 0x0B else .copies loc links
  else if h.destNode = s.node then
    if s.epWorks h.kind h.destEp then .local_ (s.epPort h.destEp h.offset) else .discard 6
  else if h.hop ≥ 32 then .discard 7
  else if !s.nodeValid h.destNode then .discard 5
  else
    match s.direction h.destNode with
    | none => .discard 5
    | some (d, neg) =>
      let sub := s.subFor ingress h.sub d neg
      match s.chooseLink h sub (s.linksOf d neg) with
      | none => .discard 0x0D
      | some l => .link l sub

/-- The header of a frame as it leaves on a link, on the sub-channel its route gives it (R231, R240). -/
def onward (w : W256) (sub : Nat) : W256 :=
  let h := Hdr.of w
  ({ h with hop := h.hop + 1, sub := sub } : Hdr).encode

/-! ## Link helpers -/

/-- Add to counter `i` of a link (6030.01). -/
def State.linkCount (s : State) (l i : Nat) (n : Nat := 1) : State := if n = 0 then s else s.bump 0x603001 n (l * 16 + i)

def State.mapLink (s : State) (l : Nat) (f : Link → Link) : State := s.setLink l (f (s.link l))

/-- Send a control word on a link: kind 1 ACK, 2 NAK, 3 CREDIT, 4 HANDOVER (R343). -/
def State.sendWord (s : State) (l kind a b : Nat) : State := s.mapLink l fun k => { k with words := k.words ++ [(kind, a, b)] }

/-- The cells a sender may still send on a channel: granted less charged, modulo 2^24. -/
def Link.credit (k : Link) (ch : Nat) : Nat :=
  let d := (SMap.get 0 k.granted ch + 2 ^ 24 - SMap.get 0 k.charged ch % 2 ^ 24) % 2 ^ 24
  if d < 2 ^ 23 then d else 0

/-- Does an egress hold credit for a frame (R237, R250)? On a best-effort TC no sender is held back (R239). The bridge's credit is the room
and the policer of the other element's bridge port (R256); the host port holds none on a channel that a waiting frame holds back (R369). -/
def State.hasCredit (s : State) (port ch cells : Nat) : Bool :=
  let tc := ch / 4
  if port < 0x40 then s.bestEffortAt port tc || decide (cells ≤ (s.link port).credit ch)
  else if port = 0x51 ∨ port = 0x52 then
    let other := bridgeOut (decide (port = 0x51))
    s.bestEffort tc || (s.policerOpen other tc && s.roomFor other ch cells)
  else if port = 0x50 then !s.net.rx.any fun d => d.waiting && decide (d.port = 0x50) && (Hdr.of d.frame.header).channel == ch
  else true

/-- Charge a transmission of `cells` cells on a channel. -/
def Link.charge (k : Link) (ch cells : Nat) : Link := { k with charged := SMap.modify 0 k.charged ch (· + cells) }

/-- A mirror copy made here leaves, or is discarded: its session holds its cells no longer (R261). -/
def State.releaseMirror (s : State) (q : Queued) : State :=
  let h := q.hdr
  if h.kind = 0x50 ∧ q.ingress = 0x84 then
    let m := s.mirror h.group
    s.setMirror h.group { m with heldCells := m.heldCells - q.cells }
  else s

/-- The rate of a link in Gb/s (R216). -/
def State.linkSpeed (s : State) (l : Nat) : Nat :=
  if s.portSplit (l / 2) then 800 else if popCount 8 (s.link l).lanes.toNat = 7 then 1400 else 1600

/-- The speed of a port in Mb/s (R216); endpoints have none. -/
def State.portSpeed (s : State) (p : Nat) : Nat :=
  if p < 0x40 then s.linkSpeed p * 1000
  else if p < 0x50 then 16000000
  else if p = 0x50 then 512000
  else if p ≤ 0x52 then 64000000
  else 0

/-- What the group stages of a port hold. -/
def State.stagedAt (s : State) (port : Nat) : List Queued :=
  (List.range 8).flatMap fun tc => (s.stage (port * 8 + tc)).queues.flatMap Prod.snd

/-- Everything that waits at a port, in channel order, with what its group stages hold. -/
def State.waiting (s : State) (port : Nat) : List Queued := (List.range 32).flatMap (fun ch => s.queue port ch) ++ s.stagedAt port

/-- May a port start a transmission? -/
def State.portReady (s : State) (port : Nat) : Bool :=
  s.pow.powered && decide (port ≤ 0x52) && (SMap.get none s.net.busy port).isNone
    && (decide (0x40 ≤ port) || (s.linkUp port && (s.link port).replayFrom.isNone && decide ((s.link port).held.length < 32768)))

/-- What every start of a transmission does: the shaper's tokens, the mirror copies, the count by TC (R255, R259); a mirror copy that leaves
by the port it is bound for is held no longer (R261). `v` is the overhead in force for the visit the frame is sent in (R252). -/
def State.startSend (s : State) (port : Nat) (q : Queued) (v : Nat) : State :=
  let tc := q.hdr.tc
  let s := s.shaperSpend port tc (countedBy v q.frame.payload.length)
  let s := if q.final = port then s.releaseMirror q else s
  let s := { s with net := { s.net with sentByTc := SMap.modify 0 s.net.sentByTc (port * 8 + tc) fun n => satAdd 64 n 1 } }
  if q.void then s else s.mirrorOut port q

/-- A link holds the frame it sends until it is acknowledged (R265, R344). -/
def State.holdOnLink (s : State) (l : Nat) (q : Queued) : State :=
  let h := q.hdr
  let x := if h.kind = 0x50 || q.void then (false, s) else s.inject l h.tc 1
  let s := x.2.noteMode l h.tc
  let k := s.link l
  let s := s.setLink l { k.charge q.channel q.cells with
    held := k.held ++ [⟨k.nextSeq, q, 1, x.1⟩], nextSeq := (k.nextSeq + 1) % 65536, ackAt := if k.held.isEmpty then s.now else k.ackAt }
  let s := s.linkCount l 0
  if h.tc = 1 ∨ h.tc = 2 then s.stageRun l h.tc 4 else s

/-- The trailer a held frame was last sent with (R223, R235, R265): its CRC-32C, inverted and with stomp 1 where the frame is void, and
with bit 0 inverted where it was selected for corruption. -/
def HeldFrame.trailer (h : HeldFrame) : W64 :=
  let c := frameCrc h.queued.frame
  if h.queued.void then BitVec.ofNat 64 (2 ^ 32 + (2 ^ 32 - 1 - c))
  else BitVec.ofNat 64 (if h.corrupt then c ^^^ 1 else c)

/-- The egress conditions of R234 and R266 for a frame, its header as link `l` would send it: the port is idle and holds credit for every
cell, and no session or rule selects the frame. -/
def State.cutReady (s : State) (l : Nat) (w : W256) (cells : Nat) : Bool :=
  let h := Hdr.of w
  let rule := s.injectRule l h.tc
  decide (s.reg 0x400001 = 1) && !h.mc && s.portReady l && (s.waiting l).isEmpty
    && s.hasCredit l h.channel cells && s.shaperOpen l h.tc
    && (s.mirrorSet l true w).isEmpty && !bitOf rule 63 && !bitOf rule 55

/-- Does a frame that reaches this element by hive port, host port or bridge `from_` leave on link `l` before its trailer has come
(R234, R236)? What came by replay, or was selected for mirroring where it entered, is stored. -/
def State.cutsHere (s : State) (from_ l : Nat) (q : Queued) : Bool :=
  decide (0x40 ≤ from_ ∧ from_ ≤ 0x52) && decide (s.portSpeed l ≤ s.portSpeed from_) && !q.stored
    && s.cutReady l q.frame.header q.cells

/-- Count a frame stored and forwarded (4060.05); a multicast frame is counted once, where it is stored, and this module's own mirror
copies are not. -/
def State.countStored (s : State) (q : Queued) : State :=
  if q.hdr.mc ∨ (q.hdr.kind = 0x50 ∧ q.ingress = 0x84) then s else s.bump 0x406005

/-- Place one copy of a frame: at an endpoint, on a link of this element (cut through or stored), at a scheduled port, or on the way to
the other element. Each copy of a multicast frame crosses the bridge, and is stored there, on its own (DESIGN CHOICE, log entry 25). -/
def State.place1 (s : State) (from_ final : Nat) (q : Queued) : State :=
  if portEast from_ = portEast final ∧ final ≥ 0x60 then (s.mirrorOut final q).deliver final q
  else if portEast from_ = portEast final ∧ final < 0x40 then
    if s.cutsHere from_ final q then ((s.bump 0x406004).startSend final q (s.reg 0x411001)).holdOnLink final q
    else (s.countStored q).enqueue from_ final q
  else s.enqueue from_ final q

/-- Does a drop rule select a frame on its way to `final`: that of the bridge where it crosses, and that of its last port (R265)? -/
def State.dropPick (s : State) (ingress final : Nat) (h : Hdr) : Bool × State :=
  if h.kind = 0x50 then (false, s)
  else
    let x := if portEast ingress = portEast final then (false, s) else s.inject (bridgeOut (portEast ingress)) h.tc 0
    if x.1 || decide (0x52 < final) then x else x.2.inject final h.tc 0

/-- The port a route leaves by; of several copies, the first one's (log entry 25). -/
def Route.egress : Route → Option Nat
  | .local_ p => some p
  | .link l _ => some l
  | .copies loc links => loc <|> links.head?.map Prod.fst
  | .discard _ => none

/-- What is left of a route with several copies. -/
def Route.ofCopies (reason : Nat) (loc : Option Nat) (links : List (Nat × Nat)) : Route :=
  if loc.isNone && links.isEmpty then .discard reason else .copies loc links

/-- Checks 4 and 7 of R227 for each copy of a multicast frame (log entry 25): a copy at the hop limit, or for an endpoint that does not
work, is discarded on its own. The route that is left: a discard where every copy was. -/
def State.screenCopies (s : State) (ingress : Nat) (w : W256) : Route → Route × State
  | .copies loc links =>
    let h := Hdr.of w
    let tired := decide (h.hop ≥ 32) && !links.isEmpty
    let dead := loc.isSome && !s.epWorks h.kind h.destEp
    let s := if tired then links.foldl (fun (s : State) x => s.logDiscard 7 ingress x.1 w) s else s
    let s := if dead then s.logDiscard 6 ingress (loc.getD 0xFF) w else s
    if !tired && !dead then (.copies loc links, s)
    else (Route.ofCopies (if dead then 6 else 7) (if dead then none else loc) (if tired then [] else links), s)
  | r => (r, s)

/-- The drop rules see a frame whose header is confirmed, each multicast copy on its own; what they select is discarded (R265). -/
def State.dropCopies (s : State) (ingress : Nat) (w : W256) (r : Route) : Route × State :=
  let h := Hdr.of w
  -- is the copy for port `p` kept?
  let keep (s : State) (p : Nat) : Bool × State :=
    let x := s.dropPick ingress p h
    if x.1 then (false, x.2.logDiscard 0x0C ingress p w) else (true, x.2)
  match r with
  | .local_ p => let x := keep s p; (if x.1 then r else .discard 0x0C, x.2)
  | .link l _ => let x := keep s l; (if x.1 then r else .discard 0x0C, x.2)
  | .copies none [] => (r, s)
  | .copies loc links =>
    let x := match loc with
      | some p => let y := keep s p; (if y.1 then loc else none, y.2)
      | none => (none, s)
    let y := links.foldl (fun (acc : List (Nat × Nat) × State) l =>
      let z := keep acc.2 l.1
      (if z.1 then acc.1 ++ [l] else acc.1, z.2)) ([], x.2)
    (Route.ofCopies 0x0C x.1 y.1, y.2)
  | .discard _ => (r, s)

/-- The last checks of a header (R227), and the drop rules that see it confirmed (R265): the route that is left. What is discarded here has
been logged. -/
def State.confirmCopies (s : State) (ingress : Nat) (w : W256) (r : Route) : Route × State :=
  let x := s.screenCopies ingress w r
  x.2.dropCopies ingress w x.1

/-- Queue or deliver a confirmed frame by its route; `answer` sends the ERROR frame of a discarded memory request. A frame that is one of
several copies of a stored payload names it in `stored`. A frame that is stored subtracts its counted length from its ingress policer, one
that is discarded does not (R256; DEDUCED, log entry 25). -/
def State.forwardWith (answer : State → Hdr → Nat → State) (s : State) (ingress : Nat) (r : Route) (f : Frame)
    (sessions : List Nat) (replay : Bool) (time : Nat) (stored : Option Nat := none) : State :=
  let h := Hdr.of f.header
  let cells := cellsOf f.payload.length
  let keep := replay || !sessions.isEmpty
  let free (s : State) : State :=
    match stored with
    | some id => s.unref id
    | none => s
  let discard (s : State) (reason egress : Nat) : State :=
    let depth := s.depthAt egress h.tc
    let s := (free s).logDiscard reason ingress egress f.header
    let s := s.mirrorAll sessions f time ingress egress depth false true
    if errorReason reason && isMemRequest h.kind then answer s h reason else s
  let full (s : State) : Bool := s.bestEffortAt ingress h.tc && stored.isNone && !s.roomFor ingress h.channel cells
  let store (s : State) (n : Nat) : Nat × State :=
    let s := if ingress ≤ 0x52 then s.policerSpend ingress h.tc (s.counted f.payload.length) else s
    match stored with
    | some id => (id, s)
    | none => s.newStore ingress h.channel cells n
  -- the copies with their ports and headers
  let place (s : State) (outs : List (Nat × W256)) : State :=
    match outs with
    | [] => s.mirrorAll sessions f time ingress 0xFF 0 false false
    | (first, _) :: _ =>
      if full s then discard s 8 first
      else
        let depth := s.depthAt first h.tc
        let y := store s outs.length
        let s := outs.foldl (fun (s : State) x =>
          if h.mc ∧ x.1 < 0x40 ∧ ¬ s.linkUp x.1 then (s.logDiscard 0x0D ingress x.1 f.header).unref y.1
          else s.place1 ingress x.1 ⟨⟨x.2, f.payload⟩, ingress, x.1, y.1, true, false, keep⟩) y.2
        s.mirrorAll sessions f time ingress first depth false false
  match r with
  | .discard reason => discard s reason 0xFF
  | .local_ port => place s [(port, f.header)]
  | .link l sub => place s [(l, onward f.header sub)]
  | .copies loc links =>
    -- an endpoint may have ceased to work since the header was confirmed (R246)
    let dead := loc.isSome && !s.epWorks h.kind h.destEp
    let s := if dead then s.logDiscard 6 ingress (loc.getD 0xFF) f.header else s
    let outs := (if dead then [] else loc.toList.map fun p => (p, f.header)) ++ links.map fun x => (x.1, onward f.header x.2)
    place (if outs.isEmpty then s else s.bump 0x406005) outs

/-- A frame built here whose every copy has been discarded: its sessions take it so, and its cells are freed. -/
def State.dropBuilt (s : State) (ingress egress : Nat) (f : Frame) (stored : Option Nat) : State :=
  let s := match stored with
    | some id => s.unref id
    | none => s
  s.mirrorAll (s.mirrorSet ingress false f.header) f s.now ingress egress (s.depthAt egress (Hdr.of f.header).tc) false true

/-- Forward without answering discards: for the ERROR frames themselves. -/
def State.forwardQuiet (s : State) (ingress : Nat) (f : Frame) : State :=
  let go (s : State) (r : Route) : State :=
    State.forwardWith (fun s _ _ => s) s ingress r f (s.mirrorSet ingress false f.header) false s.now
  match s.route ingress f.header with
  | .discard reason => go s (.discard reason)
  | r =>
    let x := s.confirmCopies ingress f.header r
    match x.1 with
    | .discard _ => x.2.dropBuilt ingress (r.egress.getD 0xFF) f none
    | r => go x.2 r

/-- The memory agent that answers for a discarded or failed request of header `h`. -/
def State.sendError (s : State) (h : Hdr) (reason fault : Nat) : State :=
  s.forwardQuiet (if s.ownerEast (h.offset % 2 ^ 40) then 0x83 else 0x82) (s.errorFrame h reason fault)

/-- Discard a frame with a reason, answering a memory request (R228). -/
def State.discardFrame (s : State) (reason ingress egress : Nat) (w : W256) : State :=
  let s := s.logDiscard reason ingress egress w
  let h := Hdr.of w
  if errorReason reason && isMemRequest h.kind then s.sendError h reason (requestAddress h) else s

/-- Forward a confirmed frame by a route latched at its header confirmation. -/
def State.forwardBy (s : State) (ingress : Nat) (r : Route) (f : Frame) (sessions : List Nat) (replay : Bool) (time : Nat)
    (stored : Option Nat := none) : State :=
  State.forwardWith (fun s h reason => s.sendError h reason (requestAddress h)) s ingress r f sessions replay time stored

/-- A route that leaves on link `l`, whatever R232 would choose. -/
def State.linkRoute (s : State) (ingress l : Nat) (w : W256) : Route := .link l (s.linkSub ingress l (Hdr.of w).sub)

/-- May a frame enter the switch at a port of this module: on a best-effort TC always, else with credit for its cells and while its
policer holds no less than zero (R237, R256)? -/
def State.admits (s : State) (port : Nat) (f : Frame) : Bool :=
  let h := Hdr.of f.header
  s.bestEffortAt port h.tc
    || ((decide (0x52 < port) || s.policerOpen port h.tc) && s.roomFor port h.channel (cellsOf f.payload.length))

/-- A frame built on this module goes its way `r`, its header having passed the first checks of R227: the other checks, the drop rules, and
its port's policer (R256). -/
def State.sendOn (s : State) (ingress : Nat) (r : Route) (f : Frame) (stored : Option Nat := none) : State :=
  let h := Hdr.of f.header
  let ids := s.mirrorSet ingress false f.header
  let x := s.confirmCopies ingress f.header r
  let s := x.2
  let egress := r.egress.getD 0xFF
  match x.1 with
  | .discard _ => s.dropBuilt ingress egress f stored
  | r =>
    if ingress ≤ 0x52 ∧ s.bestEffort h.tc ∧ ¬ s.policerOpen ingress h.tc then
      ((s.bump 0x414002).discardFrame 8 ingress egress f.header).dropBuilt ingress egress f stored
    else s.forwardBy ingress r f ids false s.now stored

/-- A frame built on this module enters the switch at its endpoint's port, complete. -/
def State.enter (s : State) (ingress : Nat) (f : Frame) (stored : Option Nat) : State :=
  match s.route ingress f.header with
  | .discard reason => s.forwardBy ingress (.discard reason) f (s.mirrorSet ingress false f.header) false s.now stored
  | r => s.sendOn ingress r f stored

/-- Store each payload that several frames of a set bear, once (R241, R296): the payloads, each with its stored frame. -/
def State.storeShared (s : State) (ingress : Nat) (fs : List Frame) : List (List Byte × Nat) × State :=
  fs.foldl (fun (x : List (List Byte × Nat) × State) f =>
    let same := fs.filter fun g => g.payload == f.payload
    if same.length < 2 || x.1.any fun e => e.1 == f.payload then x
    else
      let y := x.2.newStore ingress (Hdr.of f.header).channel (cellsOf f.payload.length) same.length
      (x.1 ++ [(f.payload, y.1)], y.2)) ([], s)

/-- The frames of one set enter, in order. -/
def State.enterSet (s : State) (ingress : Nat) (fs : List Frame) : State :=
  let x := s.storeShared ingress fs
  fs.foldl (fun s f => s.enter ingress f ((x.1.find? fun e => e.1 == f.payload).map Prod.snd)) x.2

/-- Do two waiting sets share their port and channel (R226)? -/
def sameEntry (x y : Nat × List Frame) : Bool :=
  x.1 == y.1 && (x.2.map fun f => (Hdr.of f.header).channel).head? == (y.2.map fun f => (Hdr.of f.header).channel).head?

/-- Send a set of frames: it waits where one of its port and channel waits before it, or where it is not admitted. -/
def State.sendSet (s : State) (ingress : Nat) (fs : List Frame) : State :=
  if s.net.entering.any (sameEntry (ingress, fs)) || !fs.all (s.admits ingress) then
    { s with net := { s.net with entering := s.net.entering ++ [(ingress, fs)] } }
  else s.enterSet ingress fs

/-- Send one frame. -/
def State.send (s : State) (ingress : Nat) (f : Frame) : State := s.sendSet ingress [f]

/-- Waiting sets enter, each after those of its port and channel before it, as far as they are admitted. -/
def State.admitWaiting (s : State) : Nat → State
  | 0 => s
  | fuel + 1 =>
    match s.net.entering.find? fun x => x.2.all (s.admits x.1) && (s.net.entering.find? (sameEntry x)) == some x with
    | none => s
    | some x => State.admitWaiting (({ s with net := { s.net with entering := s.net.entering.erase x } } : State).enterSet x.1 x.2) fuel

/-- MIRROR copies that wait for room are stored as far as there is room, each after those of its channel before it (R261). -/
def State.admitCopies (s : State) : Nat → State
  | 0 => s
  | fuel + 1 =>
    match s.net.copies.find? fun q => s.roomFor 0x84 q.channel q.cells && (s.net.copies.find? fun c => c.channel == q.channel) == some q with
    | none => s
    | some q => State.admitCopies (({ s with net := { s.net with copies := s.net.copies.erase q } } : State).storeCopy q) fuel

/-- Whatever waits and may enter enters. -/
def State.admitAll (s : State) : State :=
  let s := s.admitWaiting s.net.entering.length
  s.admitCopies s.net.copies.length

/-- On an empty queue the block idles: time passes, and frames that wait to enter the switch do so (log entry 18). -/
def State.idle (s : State) : State := if !s.pow.powered then s else s.idleTime.admitAll

/-! ## Requests and their tags (R242) -/

def State.tag (s : State) (t : Nat) : Option Tag := SMap.get none s.net.tags t
def State.dropTag (s : State) (t : Nat) : State := { s with net := { s.net with tags := SMap.put none s.net.tags t none } }

/-- The first tag at or after `t` that no outstanding request bears. -/
def State.freeTag (s : State) : Nat → Nat → Nat
  | 0, t => t
  | fuel + 1, t => if (s.tag t).isSome then s.freeTag fuel ((t + 1) % 2 ^ 32) else t

/-- Reserve a tag, unique among the outstanding requests (R242). -/
def State.newTag (s : State) (t : Tag) : Nat × State :=
  let id := s.freeTag s.net.tags.length s.net.nextTag
  (id, { s with net := { s.net with nextTag := (id + 1) % 2 ^ 32, tags := SMap.put none s.net.tags id (some t) } })

/-- The switch port and endpoint code of a requester's frames. -/
structure Origin where
  port : Nat
  ep : Nat
  deriving DecidableEq, Repr

def Origin.hive (h : Nat) : Origin := ⟨0x40 + h, 0x1000 + h⟩
def Origin.queuePair (q : Nat) : Origin := ⟨0x50, 0x2000 + q⟩
def Origin.engine (e : Nat) : Origin := ⟨0x60 + e, 0x3000 + e⟩
def Origin.sequencer (hub : Nat) : Origin := ⟨0x80 + hub, 0x3100 + hub⟩
def Origin.management : Origin := ⟨0x84, 0x3200⟩

/-- Split an access at the 4 KiB boundaries of `at_`, an address that moves with it: pieces (offset, length). -/
def splitPages : Nat → Nat → Nat → Nat → List (Nat × Nat)
  | 0, _, _, _ => []
  | fuel + 1, at_, off, len =>
    if len = 0 then []
    else
      let n := min len (4096 - at_ % 4096)
      (off, n) :: splitPages fuel (at_ + n) (off + n) (len - n)

/-- The pieces of a transfer of `len` bytes to `at_`. -/
def pieces (at_ len : Nat) : List (Nat × Nat) := splitPages (len / 4096 + 2) at_ 0 len

/-- Send one PUT of at most 4 KiB to local address `a` of node `n` (R222, R242). -/
def State.sendPut (s : State) (o : Origin) (tag : Tag) (n a tensor : Nat) (bs : List Byte) : State :=
  let (t, s) := s.newTag { tag with kind := 1, node := n, remote := a, count := bs.length }
  let body := padTo 64 bs
  let h : Hdr := { destNode := n, destEp := 0, srcNode := s.node, srcEp := o.ep, kind := 1, tc := tag.tc, units := body.length / 64
                   sop := body.length - bs.length, tensor := tensor, seq := t, offset := a }
  s.send o.port ⟨h.encode, body⟩

/-- Send the PUTs of a write of one segment. -/
def State.sendPuts (s : State) (o : Origin) (tag : Tag) (n : Nat) (g : WSeg) : State :=
  (pieces g.1 g.2.length).foldl (fun s p => s.sendPut o tag n (g.1 + p.1) 0 (slice g.2 p.1 p.2)) s

/-- Send one GET for `len` bytes at local address `a` of node `n`, with return address `ret`. -/
def State.sendGet (s : State) (o : Origin) (tag : Tag) (n a ret len : Nat) : State :=
  let (t, s) := s.newTag { tag with kind := 2, node := n, remote := a, count := len }
  let h : Hdr := { destNode := n, destEp := 0, srcNode := s.node, srcEp := o.ep, kind := 2, tc := tag.tc, seq := t, offset := a }
  s.send o.port ⟨h.encode, natLE 8 ret ++ natLE 4 len ++ List.replicate 52 0⟩

/-- Send the GETs of a read of `len` bytes at `a` that returns at `ret`; the tag's own place moves with it. -/
def State.sendGets (s : State) (o : Origin) (tag : Tag) (n a ret len : Nat) : State :=
  (pieces ret len).foldl (fun s p =>
    s.sendGet o { tag with here := tag.here.map (· + p.1) } n (a + p.1) (ret + p.1) p.2) s

/-- Send an ATOMIC on TC5 (R226, R242). -/
def State.sendAtomic (s : State) (o : Origin) (tag : Tag) (n a op : Nat) (x c : Nat) : State :=
  let (t, s) := s.newTag { tag with kind := 4, tc := 5, node := n, remote := a, count := 0 }
  let h : Hdr := { destNode := n, destEp := 0, srcNode := s.node, srcEp := o.ep, kind := 4, tc := 5, seq := t, offset := a }
  s.send o.port ⟨h.encode, natLE 8 op ++ natLE 8 x ++ natLE 8 c ++ List.replicate 40 0⟩

/-- Send a FREE of global address `a` on TC5 (R211). -/
def State.sendFree (s : State) (o : Origin) (tag : Tag) (a : Nat) : State :=
  let (t, s) := s.newTag { tag with kind := 8, tc := 5, node := nodeOf a, remote := localOf a, count := 0 }
  let h : Hdr := { destNode := nodeOf a, destEp := 0, srcNode := s.node, srcEp := o.ep, kind := 8, tc := 5, seq := t }
  s.send o.port ⟨h.encode, natLE 8 a ++ List.replicate 56 0⟩

end Sys2Proof.Machine
end

