-- ==== Sys2Proof/Machine/Operands.lean ====
section
/-! DEFINITION. The command word (R86), its operands (R89, R90), the operand kinds, selectors and modifiers each opcode accepts
(R91, R97–R102, R108), and tile descriptors with their checks (R94, R95, R123, R128–R130). -/

namespace Sys2Proof.Machine

open Sys2Proof

/-! ## The command word (R86) -/

def cmdOp (w : Nat) : Nat := fieldOf 127 120 w
def cmdGuard (w : Nat) : Nat := fieldOf 119 116 w
def cmdSel (w : Nat) : Nat := fieldOf 115 112 w
def cmdMods (w : Nat) : Nat := fieldOf 63 0 w

/-- An operand (R89). -/
inductive Opnd where
  | none
  | s (n : Nat)
  | v (n : Nat)
  | c (n : Nat)
  | d (n : Nat)
  | p (n : Nat)
  | lc (n : Nat)
  | imm (raw : Nat)
  | reserved
  deriving DecidableEq, Repr

/-- Read an operand's 16 bits; a value outside its range and a reserved kind read as `reserved`. -/
def opndOf (x : Nat) : Opnd :=
  let n := x % 4096
  match x / 4096 with
  | 0 => if n = 0 then .none else .reserved
  | 1 => if n < 16 then .s n else .reserved
  | 2 => if n < 8 then .v n else .reserved
  | 3 => if n < 4 then .c n else .reserved
  | 4 => if n < 32 then .d n else .reserved
  | 5 => if n < 8 then .p n else .reserved
  | 6 => if n < 2 then .lc n else .reserved
  | 7 => .imm n
  | _ => .reserved

def cmdA (w : Nat) : Opnd := opndOf (fieldOf 111 96 w)
def cmdB (w : Nat) : Opnd := opndOf (fieldOf 95 80 w)
def cmdD (w : Nat) : Opnd := opndOf (fieldOf 79 64 w)

/-- The register number an operand names. -/
def Opnd.num : Opnd → Nat
  | .s n | .v n | .c n | .d n | .p n | .lc n | .imm n => n
  | _ => 0

def Opnd.isNone : Opnd → Bool
  | .none => true
  | _ => false

/-- A 12-bit immediate, sign-extended to 32 bits. -/
def immVal (raw : Nat) : Nat := if raw ≥ 2048 then raw + 4294963200 else raw

/-! ## Registers of a thread -/

def Slot.sreg (t : Slot) (n : Nat) : W32 := t.sregs.getD n 0
def Slot.vreg (t : Slot) (n : Nat) : W64 := t.vregs.getD n 0
def Slot.creg (t : Slot) (n : Nat) : W32 := t.cregs.getD n 0
def Slot.desc (t : Slot) (n : Nat) : W256 := t.descs.getD n 0

/-- p0 reads 1 (R89). -/
def Slot.pred (t : Slot) (n : Nat) : Bool := if n = 0 then true else t.preds.getD n false

/-- A read of lcN: the remaining count while loop N is active, else its preset (R105). -/
def Slot.lcRead (t : Slot) (n : Nat) : W32 := if (t.loop n).active then (t.loop n).remaining else (t.loop n).preset

/-- An s pair as one 64-bit value (R90). -/
def Slot.pair (t : Slot) (n : Nat) : Nat := (t.sreg n).toNat + (t.sreg (n + 1)).toNat * 2 ^ 32

/-- The value an operand reads; a descriptor is read whole. -/
def Slot.value (t : Slot) : Opnd → Nat
  | .s n => (t.sreg n).toNat
  | .v n => (t.vreg n).toNat
  | .c n => (t.creg n).toNat
  | .d n => (t.desc n).toNat
  | .p n => b2n (t.pred n)
  | .lc n => (t.lcRead n).toNat
  | .imm n => immVal n
  | .none => 0
  | .reserved => 0

def Slot.setS (t : Slot) (n v : Nat) : Slot := { t with sregs := t.sregs.setIfInBounds n (BitVec.ofNat 32 v) }
def Slot.setV (t : Slot) (n v : Nat) : Slot := { t with vregs := t.vregs.setIfInBounds n (BitVec.ofNat 64 v) }
def Slot.setC (t : Slot) (n v : Nat) : Slot := { t with cregs := t.cregs.setIfInBounds n (BitVec.ofNat 32 v) }
def Slot.setD (t : Slot) (n v : Nat) : Slot := { t with descs := t.descs.setIfInBounds n (BitVec.ofNat 256 v) }

/-- Write a predicate; p0 stays 1 and number 0 names none (R99, R101). -/
def Slot.setP (t : Slot) (n : Nat) (b : Bool) : Slot := if n = 0 then t else { t with preds := t.preds.setIfInBounds n b }

/-- A write of lcN writes its preset only (R105). -/
def Slot.setLc (t : Slot) (n v : Nat) : Slot :=
  { t with loops := t.loops.setIfInBounds n { t.loop n with preset := BitVec.ofNat 32 v } }

def Slot.setPair (t : Slot) (n v : Nat) : Slot := (t.setS n v).setS (n + 1) (v / 2 ^ 32)

/-- Write a value to a destination: truncated or zero-extended to its width; a predicate receives (value ≠ 0) (R98). -/
def Slot.put (t : Slot) (o : Opnd) (v : Nat) : Slot :=
  match o with
  | .s n => t.setS n v
  | .v n => t.setV n v
  | .c n => t.setC n v
  | .d n => t.setD n v
  | .p n => t.setP n (decide (v ≠ 0))
  | .lc n => t.setLc n v
  | .none => t
  | .imm _ => t
  | .reserved => t

/-! ## The forms an opcode accepts -/

/-- A kind an opcode accepts in a position. -/
inductive Kind where
  | none
  | s
  | pair
  | v
  | c
  | d
  | p
  | lc
  | imm
  deriving DecidableEq, Repr

/-- Does an operand have the kind? An s pair is an even s register. -/
def Kind.takes : Kind → Opnd → Bool
  | .none, .none => true
  | .s, .s _ => true
  | .pair, .s n => n % 2 == 0
  | .v, .v _ => true
  | .c, .c _ => true
  | .d, .d _ => true
  | .p, .p _ => true
  | .lc, .lc _ => true
  | .imm, .imm _ => true
  | _, _ => false

/-- What an opcode accepts: kinds of a, b and destination, and the modifier bits it defines. -/
structure Form where
  a : List Kind := [.none]
  b : List Kind := [.none]
  d : List Kind := [.none]
  mask : Nat := 0

/-- A mask of bits [hi:lo]. -/
def bitsMask (hi lo : Nat) : Nat := 2 ^ (hi + 1) - 2 ^ lo

def scalarIn : List Kind := [.s, .c, .lc, .imm]
def shortIn : List Kind := [.s, .c, .imm]

/-- The form of each opcode (R97–R102, R108); none for an unlisted opcode. Where the modifiers choose the kinds (WAIT, DSET, ATOM),
the form follows them; a missing destination of a CAS is an operand its form does not accept (log entry 16). -/
def formOf (op mods : Nat) : Option Form :=
  match op with
  | 0x00 => some {}
  | 0x01 => some { mask := bitsMask 7 0 }
  | 0x02 => some { a := [.s, .c, .lc, .imm, .none], d := [.lc], mask := bitsMask 7 0 + bitsMask 47 16 }
  | 0x03 => some {}
  | 0x04 => some { mask := bitsMask 7 0 }
  | 0x05 => some {}
  | 0x06 =>
    let m := bitsMask 5 0 + bitsMask 31 16
    match mods % 4 with
    | 0 => some { d := [.p, .none], mask := m }
    | 1 => some { a := [.pair], b := [.s, .imm], d := [.p, .none], mask := m }
    | 2 => some { a := [.pair], d := [.p, .none], mask := m }
    | _ => some { a := [.pair, .none], b := [.s, .imm, .none], d := [.p, .none], mask := m }
  | 0x07 => some { a := [.s], mask := bitsMask 1 0 }
  | 0x08 => some { mask := 1 }
  | 0x10 => some { a := [.s, .c, .lc, .v, .p, .imm, .none], d := [.s, .c, .lc, .v, .p], mask := bitsMask 63 0 }
  | 0x11 => some { a := scalarIn, b := scalarIn, d := [.s, .c] }
  | 0x12 => some { a := scalarIn, b := scalarIn, d := [.s, .c] }
  | 0x13 => some { a := shortIn, b := shortIn, d := [.s, .c] }
  | 0x14 => some { a := shortIn, b := shortIn, d := [.s, .c], mask := bitsMask 1 0 }
  | 0x15 => some { a := shortIn, b := shortIn, d := [.s, .c], mask := bitsMask 1 0 }
  | 0x16 => some { a := scalarIn, b := scalarIn, d := [.p, .none], mask := bitsMask 4 0 }
  | 0x17 => some { a := [.p], b := [.p], d := [.p], mask := bitsMask 1 0 }
  | 0x18 => some { d := [.p, .none] }
  | 0x19 => some { a := if mods % 16 = 0 ∨ mods % 16 = 6 then [.pair] else [.s], d := [.d], mask := bitsMask 3 0 }
  | 0x1A => some { a := [.d], b := [.s, .c, .imm, .none], d := [.d], mask := bitsMask 31 0 }
  | 0x20 => some { a := [.d], d := [.d] }
  | 0x21 => some { a := [.d], d := [.d] }
  | 0x22 => some { a := [.d], b := [.d], d := [.d] }
  | 0x23 => some { a := [.d], b := [.d], d := [.d] }
  | 0x24 => some { a := [.pair], d := [.s, .v], mask := bitsMask 31 0 }
  | 0x25 => some { a := [.pair], b := [.s, .v], mask := bitsMask 31 0 }
  | 0x26 =>
    let reg : Kind := if bitOf mods 2 then .pair else .s
    some { a := [.pair], b := [reg], d := if mods % 4 = 3 then [reg] else [reg, .none], mask := bitsMask 3 0 }
  | 0x27 => some { a := [.s, .imm], d := [.pair], mask := bitsMask 2 0 }
  | 0x28 => some { a := [.pair], mask := bitsMask 2 0 }
  | 0x29 => some { a := [.pair], d := [.d], mask := bitsMask 5 0 }
  | 0x2A => some { a := [.d], d := [.d] }
  | 0x30 => some { a := [.d], b := [.d], d := [.d], mask := bitsMask 1 0 }
  | 0x31 => some { a := [.d], b := [.d], d := [.d], mask := bitsMask 1 0 }
  | 0x32 => some { a := [.d], b := [.d], d := [.d], mask := bitsMask 1 0 }
  | 0x33 => some { a := [.d], b := [.d], d := [.d], mask := bitsMask 1 0 + bitsMask 7 4 + bitsMask 31 16 }
  | 0x34 => some {}
  | 0x35 => some { a := [.d], d := [.d] }
  | 0x40 => some { a := [.v], b := [.v], d := [.v], mask := bitsMask 5 0 }
  | 0x41 => some { a := [.v], b := [.v], d := [.v], mask := bitsMask 10 2 }
  | 0x42 => some { a := [.v], b := [.v], d := [.v], mask := bitsMask 2 0 }
  | 0x43 => some { a := [.v], d := [.v], mask := bitsMask 23 0 }
  | 0x44 => some { a := [.v], b := [.v], d := [.v] }
  | 0x45 => some { a := [.v], d := [.v], mask := bitsMask 1 0 }
  | 0x46 => some { a := [.v], d := [.v], mask := bitsMask 5 0 }
  | 0x47 => some { a := [.d], d := [.d], mask := bitsMask 2 0 }
  | 0x48 => some { a := [.d], b := [.d], d := [.d], mask := bitsMask 3 0 }
  | 0x49 => some { a := [.d], d := [.d], mask := bitsMask 1 0 }
  | 0x4A => some { a := [.d], d := [.d], mask := bitsMask 6 0 + bitsMask 15 11 }
  | 0x50 => some { a := [.d], d := [.d], mask := bitsMask 3 0 }
  | 0x51 => some { a := [.d], d := [.d], mask := bitsMask 3 0 }
  | 0x52 => some { a := [.d], b := [.pair] }
  | 0x53 => some { a := [.pair], d := [.p, .none] }
  | 0x54 => some { a := [.d], b := [.d], mask := bitsMask 11 0 }
  | 0x55 => some { a := [.pair], d := [.p, .none] }
  | 0x60 => some { a := [.s, .imm], b := [.pair] }
  | 0x61 => some { a := [.pair], d := [.p, .none] }
  | 0x62 => some { a := [.s, .imm], b := [.d, .none], d := [.s, .none] }
  | 0x70 => some { d := [.pair] }
  | 0x71 => some { d := [.s], mask := bitsMask 3 0 }
  | _ => none

/-- Does the opcode accept the format selector (R91, R101)? -/
def selOk (op sel : Nat) : Bool :=
  match op with
  | 0x41 => sel == 0 || sel == 8 || sel == 9 || sel == 0xA
  | 0x44 => sel == 8 || sel == 9 || sel == 0xA
  | 0x45 => sel == 9
  | 0x46 => fmtLegal sel && sel != 0xB
  | _ => sel == 0

/-- Are the modifier values in range and their combination accepted (R97–R102, R106, R226)? -/
def modsOk (s : State) (w : Nat) : Bool :=
  let m := cmdMods w
  match cmdOp w with
  | 0x02 => m % 256 != 0 && ((cmdA w).isNone || fieldOf 47 16 m == 0)
  | 0x04 => m == 0 || decide (0xF0 ≤ m)
  | 0x06 => m % 4 != 3 && (m % 4 != 1 || fieldOf 4 2 m != 0)
  | 0x10 => (cmdA w).isNone || m == 0
  | 0x15 => m != 3
  | 0x16 => fieldOf 4 2 m != 0
  | 0x19 => decide (m < 7)
  | 0x29 => decide (1 ≤ m) && decide ((cmdD w).num + m ≤ 32)
  | 0x33 =>
    if m % 4 = 3 then fieldOf 7 4 m == 0 && fieldOf 31 16 m == 0
    else decide (fieldOf 7 4 m ≤ 8) && fieldOf 30 26 m != 31
  | 0x40 => fieldOf 4 3 m != 3
  | 0x41 => fieldOf 4 2 m != 0 && fieldOf 7 6 m != 3 && (cmdSel w == 0 || fieldOf 7 5 m == 0)
  | 0x46 => (!bitOf m 4 || fmtIsInt (m % 16)) && (!bitOf m 5 || fmtIsInt (cmdSel w))
  | 0x47 => m % 4 != 3 && !(bitOf m 2 && m % 4 == 2)
  | 0x48 => decide (m % 8 ≤ 5)
  | 0x49 => m != 3
  | 0x4A => decide (1 ≤ m % 128) && decide (m % 128 ≤ 64)
  | 0x50 => !bitOf m 3 || (decide (1 ≤ m % 8) && decide (m % 8 ≤ 6) && !s.bestEffort (m % 8))
  | 0x51 => !bitOf m 3 || (decide (1 ≤ m % 8) && decide (m % 8 ≤ 6) && !s.bestEffort (m % 8))
  | 0x71 => decide (m ≤ 8)
  | _ => true

/-- The reason an operand position gives (R492 step 2): 0x03, or 0x0A for a destination that is p0 or an immediate. -/
def opndReason (ks : List Kind) (o : Opnd) (dest : Bool) : Option Nat :=
  let isImm := match o with
    | .imm _ => true
    | _ => false
  if dest && isImm && decide (ks ≠ [.none]) then some 0x0A
  else if !(ks.any fun k => k.takes o) then some 0x03
  else if dest && decide (o = .p 0) then some 0x0A
  else none

/-- Steps 2 to 4 of R492: the reason, if a check breaks. ALLOC's pool value is checked with its operand (R210), and TTOPK's k, a modifier
value, against the columns of its operand a (R110). -/
def shapeReason (s : State) (t : Slot) (w : Nat) : Option Nat :=
  match formOf (cmdOp w) (cmdMods w) with
  | none => some 0x01
  | some f =>
    (opndReason f.a (cmdA w) false <|> (if cmdOp w = 0x27 ∧ t.value (cmdA w) > 15 then some 0x03 else none)
      <|> opndReason f.b (cmdB w) false <|> opndReason f.d (cmdD w) true
      <|> (if selOk (cmdOp w) (cmdSel w) then none else some 0x04)
      <|> (if cmdMods w &&& f.mask = cmdMods w && modsOk s w then none else some 0x06)
      <|> (if cmdOp w = 0x4A ∧ fieldOf 111 96 (t.value (cmdA w)) < cmdMods w % 128 then some 0x06 else none))

/-! ## Tile descriptors (R94) -/

/-- A tile descriptor's fields. -/
structure Desc where
  base : Nat
  scaleOff : Int
  metaOff : Int
  rows : Nat
  cols : Nat
  stride : Nat
  fmt : Nat
  signed : Bool
  block16 : Bool
  scaled : Bool
  elide : Bool
  sparse : Nat
  global : Bool
  pieces : Nat
  entries : Nat
  tensor : Nat
  deriving DecidableEq, Repr

def Desc.of (w : W256) : Desc :=
  let v := w.toNat
  { base := fieldOf 255 192 v, scaleOff := toSigned 32 (fieldOf 191 160 v), metaOff := toSigned 32 (fieldOf 159 128 v)
    rows := fieldOf 127 112 v, cols := fieldOf 111 96 v, stride := fieldOf 95 64 v, fmt := fieldOf 63 60 v
    signed := bitOf v 59, block16 := bitOf v 58, scaled := bitOf v 57, elide := bitOf v 56, sparse := fieldOf 55 54 v
    global := bitOf v 53, pieces := fieldOf 52 51 v + 1, entries := fieldOf 47 32 v, tensor := fieldOf 31 16 v }

def Slot.tile (t : Slot) (o : Opnd) : Desc := Desc.of (t.desc o.num)

def Desc.blockSize (d : Desc) : Nat := if d.block16 then 16 else 32
def Desc.width (d : Desc) : Nat := fmtBits d.fmt

/-- Values stored in one row (R94, R123, R128, R129). -/
def Desc.stored (d : Desc) : Nat :=
  match d.sparse with
  | 1 => d.cols / 4 * 2
  | 3 => d.entries
  | _ => d.cols

def Desc.rowBytes (d : Desc) : Nat := ceilDiv (d.stored * d.width) 8

/-- Bytes of one metadata row. -/
def Desc.metaRow (d : Desc) : Nat :=
  match d.sparse with
  | 0 => 0
  | 3 => ceilDiv d.entries 4 * 8
  | _ => ceilDiv d.cols 64 * 8

/-- Scale blocks of one row. -/
def Desc.blocks (d : Desc) : Nat := ceilDiv d.cols d.blockSize

/-- A byte range of a tile: start and length. Starts are exact integers, not wrapped (R95). -/
abbrev Range' := Int × Nat

/-- The start of row `r` of piece `p` (R94, R95). -/
def Desc.rowAt (d : Desc) (p r : Nat) : Int := (d.base : Int) + (p * d.rows * d.stride + r * d.stride : Nat)

/-- The start of the scale row `r` of piece `p`. -/
def Desc.scaleAt (d : Desc) (p r : Nat) : Int := d.base + d.scaleOff + ((p * d.rows + r) * d.blocks : Nat)

/-- The start of the metadata row `r`. -/
def Desc.metaAt (d : Desc) (r : Nat) : Int := d.base + d.metaOff + (r * d.metaRow : Nat)

/-- The byte ranges a tile occupies: its rows by piece, its scale array, its metadata (R95). -/
def Desc.ranges (d : Desc) : List Range' :=
  ((List.range d.pieces).flatMap fun p => (List.range d.rows).map fun r => (d.rowAt p r, d.rowBytes))
    ++ (if d.scaled then [(d.scaleAt 0 0, d.pieces * d.rows * d.blocks)] else [])
    ++ (if d.metaRow = 0 then [] else [(d.metaAt 0, d.rows * d.metaRow)])

/-- Formats a bitmap or index-list tile may hold (R130). -/
def sparseValueFmt (f : Nat) : Bool := f == 4 || f == 5 || f == 7 || f == 8 || f == 9

/-- Do the fields besides the format obey R95, R33 and the rules of the sparse kind (R123, R128–R130)? -/
def Desc.fieldsOk (sparseOk : List Nat) (piecesOk : Bool) (d : Desc) : Bool :=
  (!d.signed || fmtIsInt d.fmt) && (!d.scaled || fmtScalable d.fmt)
    && decide (d.pieces ≤ 3) && (d.pieces == 1 || (piecesOk && d.fmt == 4 && d.scaled && d.sparse == 0))
    && decide (1 ≤ d.rows) && decide (1 ≤ d.cols)
    && decide (d.rowBytes ≤ d.stride) && d.stride % 8 == 0 && d.base % 8 == 0
    && (d.global || decide (d.base < 8192))
    && (d.width != 4 || d.stored % 2 == 0) && (d.width != 6 || d.stored % 4 == 0)
    && sparseOk.contains d.sparse
    && (if d.sparse = 3 then decide (1 ≤ d.entries) && decide (d.entries ≤ d.cols) else d.entries == 0)
    && (d.sparse != 1 || (d.cols % (if d.fmt = 2 then 8 else 4) == 0 && ((d.base : Int) + d.metaOff) % 8 == 0))

/-- Does a pad tile's footprint lie in the pad? -/
def Desc.footprintOk (d : Desc) : Bool :=
  d.global || d.ranges.all fun g => decide (0 ≤ g.1) && decide (g.1 + g.2 ≤ 8192)

/-- Step 5 of R492 for one descriptor. -/
def Desc.reason (sparseOk : List Nat) (piecesOk : Bool) (d : Desc) : Option Nat :=
  if !fmtLegal d.fmt then some 0x04
  else if (d.sparse == 2 || d.sparse == 3) && !sparseValueFmt d.fmt then some 0x04
  else if !d.fieldsOk sparseOk piecesOk then some 0x05
  else if !d.footprintOk then some 0x14
  else none

/-- Do two tiles agree in every field but base, offsets, location and row stride (R99)? -/
def Desc.agrees (a d : Desc) : Bool :=
  a.rows == d.rows && a.cols == d.cols && a.fmt == d.fmt && a.signed == d.signed && a.block16 == d.block16
    && a.scaled == d.scaled && a.elide == d.elide && a.sparse == d.sparse && a.pieces == d.pieces && a.entries == d.entries
    && a.tensor == d.tensor

end Sys2Proof.Machine
end

