-- ==== Sys2Proof/Machine/Flags.lean ====
section
/-! DEFINITION. The comparator flags of CMP and the lane comparisons of VCMP (R106), the flag of a memory wait (R108), and the
conversion counts and the wide-overflow flag (R50). -/

namespace Sys2Proof.Machine

open Sys2Proof

/-- The flag that comparing two words sets (R106). -/
def cmpFlag (signed : Bool) (w a b : Nat) : CmpFlag :=
  if signed then
    (if toSigned w a < toSigned w b then .lt else if toSigned w a = toSigned w b then .eq else .gt)
  else if a < b then .lt else if a = b then .eq else .gt

/-- Does a flag meet a mask (bit 0 LT, 1 EQ, 2 GT)? -/
def CmpFlag.meets (f : CmpFlag) (mask : Nat) : Bool :=
  match f with
  | .clear => false
  | .lt => bitOf mask 0
  | .eq => bitOf mask 1
  | .gt => bitOf mask 2

/-- The flag of two floating-point lanes: none set when either is NaN, −0 equal to +0 (R106). -/
def floatFlag (x y : FVal) : CmpFlag :=
  if FVal.lt x y then .lt else if FVal.eq x y then .eq else if FVal.lt y x then .gt else .clear

/-- The sticky wide-overflow flag 3001.05 (R50). -/
def State.setWide (s : State) (b : Bool) : State := if b then s.setReg 0x300105 1 else s

/-- Add to a count, where there is anything to add. -/
def State.bumpBy (s : State) (key n : Nat) : State := if n = 0 then s else s.bump key n

/-- The counts of written conversion results (R50). -/
def State.countConvs (s : State) (cs : List Conv) : State :=
  ((((s.bumpBy 0x300101 (cs.map Conv.sat).sum).bumpBy 0x300102 (cs.map Conv.crush).sum).bumpBy 0x300103
    (cs.map Conv.invalid).sum).bumpBy 0x300104 (cs.map Conv.infs).sum).setWide (cs.any Conv.wide)

end Sys2Proof.Machine
end

