-- ==== Sys2Proof/Machine/Records.lean ====
section
/-! DEFINITION. Training numerics: tensor records, their rolls and contributions (R178–R185), bindings (R193), record images (R187,
R188), the underflow watch (R182, R192), and the step counter and seeds (R171, R172). -/

namespace Sys2Proof.Machine

open Sys2Proof

/-! ## Scale codes (R43, R181) -/

/-- The smallest e with m × 2^g ≤ n × 2^k × 2^e, for m, n > 0. -/
def smallestExp (m : Nat) (g : Int) (n : Nat) (k : Int) : Int :=
  let l := floorLog m n (g - k)
  if dyadicLe m g n (k + l) then l else l + 1

/-- The largest finite value of a format code: significand and exponent; 7 for INT4 and 127 for INT8. -/
def largestOf (code : Nat) : Nat × Int :=
  match ffmtOf code with
  | some f => f.maxFinite
  | none => if code = 6 then (7, 0) else (127, 0)

def clampScale (e : Int) : Nat := (min (max (e + 127) 0) 254).toNat

/-- code(A) for an FP32 amax A and head-room h (R181). -/
def TensorRecord.codeOf (t : TensorRecord) (a : W32) (h : Nat) : Nat :=
  match f32Val a with
  | .num _ m e => if m = 0 then (if t.primed then t.scale else 0x7F)
      else let f := largestOf t.format; clampScale (smallestExp m (e + h) f.1 f.2)
  | _ => 254

/-! ## Rolls (R180–R182) -/

/-- Empty the history. -/
def TensorRecord.forget (t : TensorRecord) : TensorRecord :=
  { t with history := Vector.replicate 16 0, historyCount := 0, historyHead := 0 }

/-- The largest history entry. -/
def TensorRecord.largest (t : TensorRecord) : W32 :=
  t.history.toList.foldl (fun m x => if m.toNat < x.toNat then x else m) 0

/-- Append an amax to the history. -/
def TensorRecord.remember (t : TensorRecord) (a : W32) : TensorRecord :=
  { t with history := t.history.setIfInBounds t.historyHead a, historyHead := (t.historyHead + 1) % 16
           historyCount := min (t.historyCount + 1) 16 }

/-- One roll: the record, and whether the zero run and the stall run have just become equal to the threshold. -/
def TensorRecord.roll (t : TensorRecord) (h thr phi : Nat) : TensorRecord × Bool × Bool :=
  let u :=
    if t.reported then
      let v :=
        if t.saturationsNow > 0 then ({ t with scale := t.codeOf t.amax h } : TensorRecord).forget
        else
          let w := t.remember t.amax
          { w with scale := w.codeOf w.largest h }
      let v := { v with primed := true }
      if t.watchZero then { v with zeroRun := if isZero t.amax then satAdd 32 t.zeroRun 1 else 0 } else v
    else if t.saturationsNow > 0 then ({ t with scale := min (t.scale + h) 254 } : TensorRecord).forget
    else t
  let u :=
    if t.watchStall ∧ t.updates > 0 then
      { u with stallRun := if t.stalled * 65536 ≥ phi * t.updates then satAdd 32 t.stallRun 1 else 0 }
    else u
  let z := decide (thr > 0) && decide (u.zeroRun = thr) && decide (t.zeroRun ≠ thr)
  let l := decide (thr > 0) && decide (u.stallRun = thr) && decide (t.stallRun ≠ thr)
  ({ u with
      amax := 0, reported := false, saturationsNow := 0, updates := 0, stalled := 0, epoch := t.epoch + 1, headroom := h
      zeroAlarm := u.zeroAlarm || z, stallAlarm := u.stallAlarm || l }, z, l)
where
  isZero (a : W32) : Bool := a.toNat % 2 ^ 31 == 0

/-- The record brought to epoch `e`, roll by roll. Only the first roll can change more than the epoch. -/
def TensorRecord.rolled (t : TensorRecord) (e h thr phi : Nat) : TensorRecord × Bool × Bool :=
  if !t.bound ∨ e ≤ t.epoch then (t, false, false)
  else
    let r := t.roll h thr phi
    ({ r.1 with epoch := e }, r.2)

def State.epoch (s : State) : Nat := s.reg 0x302003

def State.record (s : State) (n : Nat) : TensorRecord := SMap.get {} s.num.records n
def State.setRecord (s : State) (n : Nat) (t : TensorRecord) : State :=
  { s with num := { s.num with records := SMap.put {} s.num.records n t } }

/-- What record `n` is at epoch `e`, with its alarms. -/
def State.recordAt (s : State) (n e : Nat) : TensorRecord × Bool × Bool :=
  (s.record n).rolled e (s.reg 0x302001) (s.reg 0x305001) (s.reg 0x305002)

/-- What record `n` reads as at the present epoch, with its alarms. -/
def State.rolledRecord (s : State) (n : Nat) : TensorRecord × Bool × Bool := s.recordAt n s.epoch

/-- An underflow alarm (R182). -/
def State.underflow (s : State) (n tensor : Nat) (stall : Bool) : State :=
  (s.bump 0x305003).postEvent 0x60 0 (n + tensor * 2 ^ 16 + b2n stall * 2 ^ 32)

/-- Roll record `n` forward to epoch `e`. -/
def State.rollTo (s : State) (n e : Nat) : State :=
  let r := s.recordAt n e
  let s := s.setRecord n r.1
  let s := if r.2.1 then s.underflow n r.1.tensor false else s
  if r.2.2 then s.underflow n r.1.tensor true else s

/-- Roll record `n` forward to the present epoch (R180). R180 has this done before a contribution, a read and an export; the model does it
then, and before a SCALE, a tensor-scaled conversion and a write of 3030.01 that binds or unbinds, and at no other time: an alarm of a roll
is raised with it (DESIGN CHOICE, log entry 43). -/
def State.rollRecord (s : State) (n : Nat) : State := s.rollTo n s.epoch

/-- The record bound to a tensor ID (R178): its number and the record. -/
def State.recordOf (s : State) (tensor : Nat) : Option (Nat × TensorRecord) :=
  s.num.records.find? fun e => e.2.bound && e.2.tensor == tensor

/-! ## Contributions (R179) -/

/-- What a command adds to a record. -/
structure Contribution where
  amax : Option W32 := none
  saturations : Nat := 0
  crushes : Nat := 0
  prune : Nat := 0
  updates : Nat := 0
  stalled : Nat := 0
  shadows : Nat := 0
  deriving DecidableEq, Repr

def TensorRecord.add (t : TensorRecord) (c : Contribution) : TensorRecord :=
  let t := match c.amax with
    | some a => { t with reported := true, amax := if t.amax.toNat < a.toNat then a else t.amax }
    | none => t
  { t with
      saturationsNow := satAdd 32 t.saturationsNow c.saturations, saturations := satAdd 32 t.saturations c.saturations
      crushes := satAdd 32 t.crushes c.crushes, prune := satAdd 32 t.prune c.prune, updates := satAdd 32 t.updates c.updates
      stalled := satAdd 32 t.stalled c.stalled, shadows := satAdd 32 t.shadows c.shadows }

/-- A contribution under a tensor ID, with the epoch its command latched (R180): the record rolls to that epoch and takes it, so that one in
flight as STEP advances the epoch is applied to a record that has not rolled past it (R193); a stale one is only counted. -/
def State.contribute (s : State) (tensor epoch : Nat) (c : Contribution) : State :=
  match s.recordOf tensor with
  | none => s
  | some (n, u) =>
    if epoch < u.epoch then s.bump 0x302004
    else
      let s := s.rollTo n epoch
      s.setRecord n ((s.record n).add c)

/-- Prime an unprimed record from an amax (R185), with the head-room latched by the command. -/
def State.prepass (s : State) (n : Nat) (a : W32) (h : Nat) : State :=
  let t := s.record n
  let s := s.setRecord n { t with scale := t.codeOf a h, primed := true, prepasses := satAdd 32 t.prepasses 1 }
  (s.bump 0x302005).postEvent 0x62 0 (n + t.tensor * 2 ^ 16)

/-- The scale code in force of the record of a tensor ID, when it is bound, scaled and primed. -/
def State.scaleFor (s : State) (tensor : Nat) : Option Nat :=
  match s.recordOf tensor with
  | some (n, t) => let u := (s.rolledRecord n).1; if t.scaled ∧ u.primed then some u.scale else none
  | none => none

/-- The largest magnitude of finite values, as FP32. R179 asks for it exactly: where FP32 cannot hold it, a block-scaled value beyond its
largest (448 × 2^127), the model takes Inf, as FP32 rounds it, and so the scale code 254 (DESIGN CHOICE, log entry 43). FP32X reads through
FP32. Of a tile with no finite element the spec says nothing: it reports the amax 0 (R179; DESIGN CHOICE, log entry 43). -/
def amaxOf (xs : List FVal) : W32 :=
  xs.foldl (fun m x => if x.isFinite then (let w := (f32Round x.abs).1; if m.toNat < w.toNat then w else m) else m) 0

/-! ## Records as bits (R188) -/

def TensorRecord.bits (t : TensorRecord) : Nat :=
  t.tensor * 2 ^ 1008 + t.format * 2 ^ 1004 + b2n t.scaled * 2 ^ 1003 + b2n t.watchZero * 2 ^ 1002 + b2n t.watchStall * 2 ^ 1001
    + b2n t.shadow * 2 ^ 1000 + b2n t.primed * 2 ^ 999 + b2n t.zeroAlarm * 2 ^ 998 + b2n t.stallAlarm * 2 ^ 997
    + b2n t.bound * 2 ^ 996 + t.historyCount * 2 ^ 991 + t.historyHead * 2 ^ 987 + t.scale * 2 ^ 976 + b2n t.reported * 2 ^ 975
    + t.epoch % 2 ^ 64 * 2 ^ 896 + t.amax.toNat * 2 ^ 864 + t.saturationsNow * 2 ^ 832 + t.updates * 2 ^ 800 + t.stalled * 2 ^ 768
    + t.zeroRun * 2 ^ 736 + t.stallRun * 2 ^ 704 + t.saturations * 2 ^ 672 + t.crushes * 2 ^ 640 + t.prune * 2 ^ 608
    + t.prepasses * 2 ^ 576 + t.shadows * 2 ^ 544
    + ((List.range (min t.historyCount 16)).map fun i => (t.history.getD i 0).toNat * 2 ^ (32 * i)).sum

/-- A record read from an image; history entries beyond the count are 0 (R188). -/
def TensorRecord.ofBits (v : Nat) : TensorRecord :=
  { tensor := fieldOf 1023 1008 v, format := fieldOf 1007 1004 v, scaled := bitOf v 1003, watchZero := bitOf v 1002
    watchStall := bitOf v 1001, shadow := bitOf v 1000, primed := bitOf v 999, zeroAlarm := bitOf v 998, stallAlarm := bitOf v 997
    bound := bitOf v 996, historyCount := fieldOf 995 991 v, historyHead := fieldOf 990 987 v, scale := fieldOf 983 976 v
    reported := bitOf v 975, epoch := fieldOf 959 896 v, amax := BitVec.ofNat 32 (fieldOf 895 864 v)
    saturationsNow := fieldOf 863 832 v, updates := fieldOf 831 800 v, stalled := fieldOf 799 768 v, zeroRun := fieldOf 767 736 v
    stallRun := fieldOf 735 704 v, saturations := fieldOf 703 672 v, crushes := fieldOf 671 640 v, prune := fieldOf 639 608 v
    prepasses := fieldOf 607 576 v, shadows := fieldOf 575 544 v
    history := (Vector.range 16).map fun i =>
      if i < fieldOf 995 991 v then BitVec.ofNat 32 (fieldOf (32 * i + 31) (32 * i) v) else 0 }

def recordFormat (f : Nat) : Bool := f == 1 || f == 2 || f == 4 || f == 5 || f == 6 || f == 7

/-! ## Binding (R193) -/

/-- A write of 3030.01; none: refused. -/
def State.recordControl (s : State) (v : Nat) : Option State :=
  let n := fieldOf 11 0 v
  if bitOf v 37 then some (s.setRecord n { s.record n with zeroAlarm := false, stallAlarm := false })
  else if bitOf v 36 then
    let s := s.rollRecord n
    let t := s.record n
    let tensor := fieldOf 27 12 v
    let f := fieldOf 31 28 v
    let scaled : Bool := bitOf v 32
    let other : Bool := match s.recordOf tensor with
      | some r => r.1 != n
      | none => false
    if !recordFormat f || (scaled && fmtIsInt f) || other then none
    else if t.bound then
      if t.tensor ≠ tensor ∨ t.format ≠ f then none
      else some (s.setRecord n { t with
        scaled := scaled, watchZero := bitOf v 33, watchStall := bitOf v 34, shadow := bitOf v 35 })
    else some (s.setRecord n { t with
        tensor := tensor, format := f, bound := true, scaled := scaled, watchZero := bitOf v 33, watchStall := bitOf v 34
        shadow := bitOf v 35, epoch := s.epoch, headroom := s.reg 0x302001 })
  else some ((s.rollRecord n).setRecord n {})

/-! ## Transfers (R187) -/

/-- Does a record of an image obey the rules of a binding write? -/
def recordImageOk (v : Nat) : Bool :=
  let t := TensorRecord.ofBits v
  if t.bound then recordFormat t.format && !(t.scaled && fmtIsInt t.format) && decide (t.historyCount ≤ 16)
  else decide (v = 0)

/-- Is no tensor ID held twice? -/
def tensorsDistinct : List Nat → Bool
  | [] => true
  | t :: ts => !ts.contains t && tensorsDistinct ts

def imageBytes : Nat := 64 + 4096 * 128

/-- The header of an image. -/
def imageHeader (epoch : Nat) : List Byte := natLE 2 1 ++ natLE 2 4096 ++ natLE 4 0 ++ natLE 8 epoch ++ List.replicate 48 0

/-- Export: every record rolled and written; the status. The copies are made as the transfer finishes. -/
def State.exportRecords (s : State) (a : Nat) : Nat × State :=
  let s := (s.num.records.map Prod.fst).foldl (fun s n => s.rollRecord n) s
  let body := (List.range 4096).flatMap fun n => natLE 128 (s.record n).bits
  match s.memWrite ⟨5, 0⟩ [(localOf a, imageHeader s.epoch ++ body)] with
  | (s, none) => (0x00, s)
  | (s, some e) => if e.cause = .data then (0x12, s.scribble [(localOf a, imageBytes)]) else (0x10, s)

/-- Import: the whole image is checked before any record changes. -/
def State.importRecords (s : State) (a : Nat) : Nat × State :=
  match s.memRead ⟨5, 0⟩ [(localOf a, imageBytes)] with
  | (s, .error e) => (if e.cause = .data then 0x12 else 0x10, s)
  | (s, .ok bs) =>
    let vs := (List.range 4096).map fun n => numAt bs (64 + 128 * n) 128
    let ts := vs.map TensorRecord.ofBits
    if numAt bs 0 2 ≠ 1 ∨ numAt bs 2 2 ≠ 4096 ∨ !(vs.all recordImageOk)
        ∨ !tensorsDistinct ((ts.filter fun t => t.bound).map TensorRecord.tensor) then (0x11, s)
    else
      let fresh (t : TensorRecord) : TensorRecord :=
        if t.bound then { t with epoch := s.epoch, amax := 0, reported := false, saturationsNow := 0, updates := 0, stalled := 0
                                 headroom := s.reg 0x302001 }
        else {}
      (0x00, { s with num := { s.num with
        records := ((List.range 4096).zip ts).foldl (fun m p => SMap.put {} m p.1 (fresh p.2)) [] } })

/-! ## The step counter and seeds (R171, R172) -/

def State.seedOf (s : State) (tensor : Nat) : Nat := (SMap.get 0 s.num.seeds tensor).toNat

def State.setSeed (s : State) (tensor : Nat) (v : W64) : State :=
  { s with num := { s.num with seeds := SMap.put 0 s.num.seeds tensor v } }

/-! ## Shadow tiles (R189–R191) -/

/-- The bin of one entry: main and shadow FP32 words. -/
def shadowBin (main shadow : W32) : Nat :=
  if main = shadow then 0
  else
    match f32Val main, f32Val shadow with
    | .nan, .nan => 0
    | .num s m e, .num t n g =>
      let d := dyAdd (signedOf s m, e) (-(signedOf t n), g)
      if d.1 = 0 then 0
      else
        let den : Nat × Int := if dyadicLe n g 1 (-126) then (1, -126) else (n, g)
        let l := floorLog d.1.natAbs den.1 (d.2 - den.2)
        (min (max (l + 24) 1) 15).toNat
    | _, _ => 15

/-- Bin the entries of a chosen multiply and raise its alarm; the event names the highest bin. -/
def State.shadowTile (s : State) (tensor cell epoch : Nat) (bins : List Nat) : State :=
  let h := bins.foldl (fun h b =>
    setField h (64 * b) 64 (satAdd 64 (fieldOf (64 * b + 63) (64 * b) h) 1)) (s.reg 0x304004)
  let s := s.setReg 0x304004 h
  let s := s.contribute tensor epoch { shadows := 1 }
  let top := bins.foldl max 0
  if top ≥ s.reg 0x304003 then (s.bump 0x304005).postEvent 0x61 0 (tensor + cell * 2 ^ 32 + top * 2 ^ 56) else s

end Sys2Proof.Machine
end

