-- ==== Sys2Proof/Machine/Thread.lean ====
section
/-! DEFINITION. How a thread issues and retires a command: the fetch from its comb's active bank, the checks of R88 and R492, the
loop rule of R104, the halts of R111, and its accesses to the pad and to global memory (R17–R25, R79, R92, R93, R242). -/

namespace Sys2Proof.Machine

open Sys2Proof

/-! ## Commands as actions -/

/-- How a command stops short of retiring: a halt of its thread with a reason and fault address, or a state to leave as it is
(the thread waits, or is gone). -/
inductive Stop where
  | halt (reason fault : Nat) (s : State)
  | leave (s : State)

/-- A command being performed. -/
abbrev Cmd := StateT State (Except Stop)

/-- The command at issue: slot, word, bank (true: B) and index. -/
structure Issue where
  id : SlotId
  word : Nat
  bankB : Bool
  ptr : Nat
  deriving DecidableEq, Repr

namespace Cmd

/-- Halt the thread. -/
def fail {α : Type} (reason : Nat) (fault : Nat := 0) : Cmd α := fun s => .error (.halt reason fault s)

/-- Leave the state as it is: the command does not retire. -/
def leave {α : Type} : Cmd α := fun s => .error (.leave s)

/-- Halt with a reason, if there is one. -/
def check : Option Nat → Cmd Unit
  | some r => fail r
  | none => pure ()

def require (ok : Bool) (reason : Nat) : Cmd Unit := if ok then pure () else fail reason

def slot (i : SlotId) : Cmd Slot := fun s => .ok (s.slot i, s)

def update (f : State → State) : Cmd Unit := fun s => .ok ((), f s)

def mapSlot (i : SlotId) (f : Slot → Slot) : Cmd Unit := update fun s => s.setSlot i (f (s.slot i))

/-- The thread waits with a status; its command stays in progress. -/
def await {α : Type} (i : SlotId) (w : SlotStatus) : Cmd α := fun s => .error (.leave (s.setSlot i { s.slot i with status := w }))

end Cmd

/-! ## Fetch (R64, R87, R120) -/

/-- Is the host side running its clocks (R427, R436)? Threads run in ACTIVE and ENTERING. -/
def State.running (s : State) : Bool :=
  s.pow.powered && (s.pow.state == 1 || s.pow.state == 2) && !s.pow.startingUp && !s.pow.warmHeld

/-- The thread slot whose request a tag names. -/
def TagOwner.thread? : TagOwner → Option SlotId
  | .threadGet i | .threadGetTo i _ | .threadPut i | .threadAtom i | .threadFree i => some i
  | _ => none

/-- A tag of this thread (its slot may since have been given to another launch). -/
def State.ofThread (s : State) (i : SlotId) (t : Tag) : Bool := t.owner.thread? == some i && t.launch == some (s.slot i).launch

/-- Requests of the thread whose answer its command waits for. -/
def State.awaited (s : State) (i : SlotId) : Bool :=
  s.net.tags.any fun e =>
    match e.2 with
    | some t => s.ofThread i t && (match t.owner with
        | .threadGet _ | .threadGetTo _ _ | .threadFree _ => true
        | .threadAtom _ => t.here.isSome
        | _ => false)
    | none => false

/-- May the thread of a slot issue, or go on with, a command? -/
def State.canIssue (s : State) (i : SlotId) : Bool :=
  s.running && decide (i.cell < 1048576) && decide (i.thread < 4) && (s.slot i).yieldTo.isEmpty
    && (match (s.slot i).status with
      | .ready => true
      | .remote => !s.awaited i
      | _ => false)

/-- What a fetch gives: a word, or the reason for which it halts the thread. -/
inductive Fetched where
  | word (w : Nat) (bankB : Bool)
  | halt (reason : Nat) (bankB : Bool)
  deriving DecidableEq, Repr

/-- Fetch the command at the thread's pointer; a command in progress keeps its word (R117). -/
def State.fetch (s : State) (i : SlotId) : Fetched :=
  let t := s.slot i
  match t.cur with
  | some (w, b) => .word w b
  | none =>
    let c := s.comb i.comb
    let b := c.bankB
    if t.ptr ≥ 2048 then .halt 0x09 b
    else if c.alteredIn b then .halt 0x30 b
    else
      let a := progAddr i.comb b (t.ptr * 16)
      if s.poisoned a || s.poisoned (a + 8) then .halt 0x32 b else .word (leNat (s.rawBytes a 16)) b

/-- The guard passes (R86, R88). -/
def guardPasses (t : Slot) (w : Nat) : Bool :=
  let g := cmdGuard w
  if g = 0 then true else if g < 8 then t.pred g else !t.pred (g - 8)

/-! ## Retirement -/

/-- Halt the thread of a command with a reason and fault address (R111). -/
def State.haltAt (s : State) (x : Issue) (reason fault : Nat) : State :=
  s.halt x.id reason (bankCode x.bankB) (if reason = 0x09 then 2047 else x.ptr) fault
    (if 0x30 ≤ reason ∧ reason ≤ 0x3F then 0 else x.word / 2 ^ 64)

/-- The command retires: the thread goes on, or halts with reason 0x09 when its pointer reaches 2,048 (R104). -/
def State.retire (s : State) (x : Issue) (a : After) : State :=
  let t := (s.slot x.id).retire x.ptr a
  let s := s.setSlot x.id t
  if t.ptr ≥ 2048 then s.haltAt x 0x09 0 else s

/-- Run a command's action to its end. -/
def State.runBody (s : State) (x : Issue) (body : Cmd After) : State :=
  match body s with
  | .ok (a, s') => s'.retire x a
  | .error (.halt reason fault s') => s'.haltAt x reason fault
  | .error (.leave s') => s'

/-- The thread has issued: threads of its cell that yielded to it wait for it no longer (R108). -/
def State.issued (s : State) (i : SlotId) : State :=
  (List.range 4).foldl (fun (s : State) j =>
    let u := s.slot ⟨i.cell, j⟩
    if u.yieldTo.contains i.thread then s.setSlot ⟨i.cell, j⟩ { u with yieldTo := u.yieldTo.filter (· ≠ i.thread) } else s) s

/-- Is a conversion into a tile of a tensor ID, format and scaling tensor-scaled (R183)? -/
def State.tensorScaled (s : State) (d : Desc) : Bool :=
  !d.scaled && (match s.recordOf d.tensor with
    | some r => r.2.scaled && r.2.format == d.fmt
    | none => false)

/-- What a command latches at issue. -/
def State.latchFor (s : State) (t : Slot) (w : Nat) : Latch :=
  let d : Option Desc := match cmdD w with
    | .d n => some (Desc.of (t.desc n))
    | _ => none
  let tensor := match d with
    | some e => e.tensor
    | none => 0
  { step := s.stepCount, epoch := s.reg 0x302003, rounding := s.reg 0x300001, e5m2Inf := decide (s.reg 0x300002 = 1)
    fp16Inf := decide (s.reg 0x300003 = 1), headroom := s.reg 0x302001, seed := s.seedOf tensor
    code := match d with
      | some e => if s.tensorScaled e then s.scaleFor e.tensor else none
      | none => none
    policy := s.reg 0x208001, sample := s.reg 0x208002, threshold := s.reg 0x208003, permitted := decide (s.reg 0x208004 = 1) }

/-- Steps 2 to 4 of R492: they are made once, as the command issues, and not again while it is in progress (R93). -/
def State.firstShape (s : State) (t : Slot) (w : Nat) : Option Nat := if t.cur.isSome then none else shapeReason s t w

/-- Perform the next command of a slot, if it is one of `row` (R88, R92, R492): steps 1 to 4 here, the rest in `body`. A word that
belongs to another row, and a slot that may not issue, leave the state as it is. -/
def runCommand (s : State) (i : SlotId) (row : Nat → Bool) (body : Issue → Cmd After) : State :=
  if !s.canIssue i then s
  else
    match s.fetch i with
    | .halt reason b =>
      s.halt i reason (bankCode b) (min (s.slot i).ptr 2047) 0 0
    | .word w b =>
      let x : Issue := ⟨i, w, b, (s.slot i).ptr⟩
      if (formOf (cmdOp w) (cmdMods w)).isNone then (s.issued i).haltAt x 0x01 0
      else if !row w then s
      else
        let s := s.issued i
        let t := s.slot i
        if cmdGuard w = 8 then s.haltAt x 0x02 0
        else if !guardPasses t w then s.retire x .next
        else
          match s.firstShape t w with
          | some r => s.haltAt x r 0
          | none =>
            let l := if t.cur.isSome then t.latch else s.latchFor t w
            (s.setSlot i { t with cur := some (w, b), latch := l }).runBody x (body x)

/-- A command that only changes its slot. -/
def runSlot (s : State) (i : SlotId) (op : Nat) (f : Slot → Nat → Slot) : State :=
  runCommand s i (fun w => cmdOp w == op) fun x => do
    Cmd.mapSlot i fun t => f t x.word
    pure .next

/-! ## Undefined destinations (R93) -/

/-- Pad bytes that take free values. -/
def State.scribblePad (s : State) (cell : Nat) (segs : List Seg) : State :=
  let n := s.freeCtr
  let s := { s with freeCtr := s.freeCtr + 1 }
  (segs.flatMap fun g => (List.range g.2).map fun i => g.1 + i).foldl
    (fun (s : State) a => s.setPadByte cell a (Config.freeByte n a)) s

/-- Byte ranges of a destination: in the pad, or at global addresses. -/
structure Dest where
  global : Bool
  ranges : List Range'

def Desc.dest (d : Desc) : Dest := ⟨d.global, d.ranges⟩

/-- The local bytes of a destination take free values. -/
def State.undefineBytes (s : State) (cell : Nat) (d : Dest) : State :=
  let segs := d.ranges.map fun g => (g.1.toNat, g.2)
  if d.global then s.scribble ((segs.filter fun g => decide (nodeOf g.1 = s.node)).map fun g => (localOf g.1, g.2))
  else s.scribblePad cell segs

/-- A halt with reason 0x10–0x13 during the work leaves the destination undefined. -/
def Cmd.into {α : Type} (x : Issue) (d : Dest) (c : Cmd α) : Cmd α := fun s =>
  match c s with
  | .error (.halt reason fault s') =>
    .error (.halt reason fault (if 0x10 ≤ reason ∧ reason ≤ 0x13 then s'.undefineBytes x.id.cell d else s'))
  | r => r

/-! ## Accesses of a thread -/

/-- Cut a range of global addresses where the node field changes. -/
def splitNode (a n : Nat) : List Seg :=
  if n = 0 then []
  else if a / 2 ^ 40 = (a + n - 1) / 2 ^ 40 then [(a, n)]
  else
    let k := (a / 2 ^ 40 + 1) * 2 ^ 40 - a
    [(a, k), (a + k, n - k)]

/-- The first address of ranges that is invalid: outside 64 bits or in no node of the system (R19). -/
def State.firstInvalid (s : State) (rs : List Range') : Option Nat :=
  rs.findSome? fun g =>
    if g.2 = 0 then none
    else if g.1 < 0 then some (ofInt 64 g.1)
    else if g.1.toNat + g.2 > 2 ^ 64 then some (max (2 ^ 64) g.1.toNat % 2 ^ 64)
    else ((splitNode g.1.toNat g.2).find? fun q => !s.nodeValid (nodeOf q.1)).map Prod.fst

def segsOf (rs : List Range') : List Seg := rs.flatMap fun g => splitNode g.1.toNat g.2

/-- Does an unacknowledged write or atomic of the thread touch a 64 B line of these global bytes (R79)? -/
def State.lineBusy (s : State) (i : SlotId) (segs : List Seg) : Bool :=
  s.net.tags.any fun e =>
    match e.2 with
    | some t =>
      s.ofThread i t && (match t.owner with
          | .threadPut _ | .threadAtom _ => true
          | _ => false)
        && segs.any fun g => decide (nodeOf g.1 = t.node) && decide (localOf g.1 / 64 ≤ (t.remote + max t.count 1 - 1) / 64)
            && decide (t.remote / 64 ≤ (localOf g.1 + max g.2 1 - 1) / 64)
    | none => false

/-- The remote parts of ranges. -/
def State.remoteSegs (s : State) (rs : List Range') : List Seg := (segsOf rs).filter fun g => decide (nodeOf g.1 ≠ s.node)

/-- Hold the command while an earlier access of the thread to one of its remote lines is unacknowledged (R79). -/
def Cmd.holdLines (x : Issue) (d : Dest) : Cmd Unit := fun s =>
  if d.global && (s.firstInvalid d.ranges).isNone && s.lineBusy x.id (s.remoteSegs d.ranges) then
    .error (.leave (s.setSlot x.id { s.slot x.id with status := .remote }))
  else .ok ((), s)

/-- The tag of a thread's request. -/
def State.threadTag (s : State) (i : SlotId) (owner : TagOwner) (tc : Nat) : Tag :=
  { owner := owner, launch := some (s.slot i).launch, kind := 0, tc := tc, node := 0, remote := 0, here := none, count := 0, arrived := 0 }

/-- The window base of the thread's pad: the return address of data that goes to no memory of the module (log entry 17). -/
def padWindow (i : SlotId) : Nat := 0x2000000000 + i.cell * 4096

/-- Send the GETs for the bytes of these segments that have not been fetched, and wait for them. Each is split at the 4 KiB boundaries of
its return address (R242). -/
def State.fetchRemote (s : State) (i : SlotId) (segs : List Seg) (tc : Nat) : State :=
  let s := segs.foldl (fun (s : State) g =>
    (pieces (padWindow i) g.2).foldl (fun (s : State) p =>
      s.sendGet (Origin.hive i.hive) { s.threadTag i (.threadGet i) tc with here := some (g.1 + p.1) } (nodeOf g.1)
        (localOf g.1 + p.1) (padWindow i) p.2) s) s
  s.setSlot i { s.slot i with status := .remote }

/-- The reason a failed local access of a thread halts with (R25, R67, R116). -/
def memReason : MemCause → Nat
  | .data => 0x13
  | _ => 0x10

/-- Does a write that is held for the swap of a comb (R117) overlap local segments? A read of those bytes then waits until the write has
been performed, so that accesses to the same bytes keep their order (R79). -/
def State.heldOver (s : State) (segs : List Seg) : Bool :=
  s.swarm.combs.any fun e => e.2.heldWrites.any fun w => segs.any fun g => decide (g.1 < w.1 + w.2.length) && decide (w.1 < g.1 + g.2)

/-- The first byte of [a, a + n) in the window's slot of a cell (R22). -/
def ownPadIn (cell a n : Nat) : Option Nat :=
  let w := 0x2000000000 + cell * 4096
  if n > 0 ∧ a < w + 4096 ∧ w < a + n then some (max a w) else none

/-- Read global ranges: a thread reads its own module's memory, and other nodes by GET frames. A thread may not read its own cell's
pad through the window (R23). -/
def Cmd.readGlobal (x : Issue) (rs : List Range') (tc : Nat := 5) : Cmd (List Byte) := fun s =>
  match s.firstInvalid rs with
  | some a => .error (.halt 0x10 a s)
  | none =>
    let segs := segsOf rs
    let loc := segs.filter fun g => decide (nodeOf g.1 = s.node)
    if s.heldOver (loc.map fun g => (localOf g.1, g.2)) then .error (.leave (s.setSlot x.id { s.slot x.id with status := .remote })) else
    match loc.findSome? fun g => ownPadIn x.id.cell (localOf g.1) g.2 with
    | some a => .error (.halt 0x10 (s.globalOf a) s)
    | none =>
      match s.memRead (Requester.ofThread x.id) (loc.map fun g => (localOf g.1, g.2)) with
      | (s', .error e) =>
        -- an uncorrectable pad word met through the window halts the cell it lies in, and refuses the reader
        .error (.halt (memReason e.cause) (s'.globalOf e.addr) s')
      | (s', .ok _) =>
        let got := (s'.slot x.id).fetched
        let missing := (segs.filter fun g => decide (nodeOf g.1 ≠ s'.node)).filter fun g =>
          (List.range g.2).any fun k => (SMap.get none got (g.1 + k)).isNone
        if missing.isEmpty then
          .ok (segs.flatMap fun g => (List.range g.2).map fun k =>
            if nodeOf g.1 = s'.node then s'.readByte (localOf g.1 + k) else (SMap.get none got (g.1 + k)).getD 0, s')
        else if s'.lineBusy x.id missing then .error (.leave (s'.setSlot x.id { s'.slot x.id with status := .remote }))
        else .error (.leave (s'.fetchRemote x.id missing tc))

/-- Read pad ranges; an uncorrectable word halts the cell's four threads (R114). -/
def Cmd.readPad (x : Issue) (rs : List Range') : Cmd (List Byte) := fun s =>
  match s.padRead x.id.cell (rs.map fun g => (g.1.toNat, g.2)) with
  | some bs => .ok (bs, s.correctPad x.id.cell (rs.map fun g => (g.1.toNat, g.2)))
  | none => .error (.leave (s.padFatal x.id.cell x.id.thread))

def Cmd.read (x : Issue) (global : Bool) (rs : List Range') (tc : Nat := 5) : Cmd (List Byte) :=
  if global then Cmd.readGlobal x rs tc else Cmd.readPad x rs

/-- A range and the bytes to write to it. -/
abbrev WRange := Int × List Byte

/-- Write global ranges: the local ones at once, the remote ones as PUTs (R20, R92). -/
def Cmd.writeGlobal (x : Issue) (ws : List WRange) (tc tensor : Nat) : Cmd Unit := fun s =>
  match s.firstInvalid (ws.map fun w => (w.1, w.2.length)) with
  | some a => .error (.halt 0x10 a s)
  | none =>
    let segs : List WSeg := ws.flatMap fun w =>
      (splitNode w.1.toNat w.2.length).map fun g => (g.1, slice w.2 (g.1 - w.1.toNat) g.2)
    let loc := segs.filter fun g => decide (nodeOf g.1 = s.node)
    match s.memWrite (Requester.ofThread x.id) (loc.map fun g => (localOf g.1, g.2)) with
    | (s', some e) => .error (.halt (memReason e.cause) (s'.globalOf e.addr) s')
    | (s', none) =>
      .ok ((), (segs.filter fun g => decide (nodeOf g.1 ≠ s'.node)).foldl (fun (s : State) g =>
        (pieces g.1 g.2.length).foldl (fun (s : State) p =>
          s.sendPut (Origin.hive x.id.hive) (s.threadTag x.id (.threadPut x.id) tc) (nodeOf g.1) (localOf g.1 + p.1) tensor
            (slice g.2 p.1 p.2)) s) s')

def Cmd.writePad (x : Issue) (ws : List WRange) : Cmd Unit := fun s =>
  match s.padWrite x.id.cell (ws.map fun w => (w.1.toNat, w.2)) with
  | some s' => .ok ((), s')
  | none => .error (.leave (s.padFatal x.id.cell x.id.thread))

def Cmd.write (x : Issue) (global : Bool) (ws : List WRange) (tc : Nat := 5) (tensor : Nat := 0) : Cmd Unit :=
  if global then Cmd.writeGlobal x ws tc tensor else Cmd.writePad x ws

/-! ## Work items (R76, R107) -/

/-- The first item of run `r`. -/
def Launch.grain (l : Launch) : Nat := fieldOf 178 171 l.desc.toNat + 1
def Launch.items (l : Launch) : Nat := fieldOf 159 128 l.desc.toNat
def Launch.threads (l : Launch) : Nat := fieldOf 201 179 l.desc.toNat
def Launch.tpc (l : Launch) : Nat := fieldOf 243 242 l.desc.toNat + 1
def Launch.startComb (l : Launch) : Nat := fieldOf 230 217 l.desc.toNat
def Launch.combs (l : Launch) : Nat := fieldOf 216 202 l.desc.toNat
def Launch.firstThread (l : Launch) : Nat := fieldOf 170 169 l.desc.toNat
def Launch.entry (l : Launch) : Nat := fieldOf 241 231 l.desc.toNat
def Launch.runCount (l : Launch) : Nat := ceilDiv l.items l.grain

/-- Launch thread numbers on comb `n` (R70): first and count. -/
def Launch.threadsOn (l : Launch) (n : Nat) : Nat × Nat :=
  let per := 64 * l.tpc
  let lo := (n - l.startComb) * per
  if n < l.startComb ∨ l.startComb + l.combs ≤ n then (0, 0) else (lo, min per (l.threads - lo))

/-- The runs of a comb's queue in increasing order: run numbers congruent to its threads modulo the thread count. Queue position k of
a comb with threads lo … lo + c − 1 holds run k / c × T + lo + k mod c. -/
def Launch.queueRun (l : Launch) (n k : Nat) : Nat :=
  let (lo, c) := l.threadsOn n
  k / c * l.threads + lo + k % c

/-- How many runs the queue of comb `n` starts with. -/
def Launch.queueLength (l : Launch) (n : Nat) : Nat :=
  let (lo, c) := l.threadsOn n
  let full := l.runCount / l.threads
  let rest := l.runCount % l.threads
  full * c + min c (rest - lo)

/-- The part of a comb's queue not yet taken: positions [from, to). -/
def Launch.queueOf (l : Launch) (n : Nat) : Nat × Nat :=
  match l.runs.find? fun e => e.1 == n with
  | some e => e.2
  | none => (0, l.queueLength n)

/-- The comb of hive `h` whose queue holds the most runs; ties go to the lower comb. -/
def Launch.richest (l : Launch) (h : Nat) : Option Nat :=
  let cs := ((List.range l.combs).map (· + l.startComb)).filter fun n => decide (n / 1024 = h)
  cs.foldl (fun best n =>
    let q := l.queueOf n
    if q.2 ≤ q.1 then best
    else
      match best with
      | none => some n
      | some m => let p := l.queueOf m; if p.2 - p.1 < q.2 - q.1 then some n else best) none

/-- Take a run for thread `i` of the launch: statically the next of its own, else by the queue of its comb or a steal (R76). -/
def Launch.takeRun (l : Launch) (i comb : Nat) (last : Option Nat) : Option Nat × Launch :=
  if !l.dynamic then
    let r := match last with
      | none => i
      | some r => r + l.threads
    (if r < l.runCount then some r else none, l)
  else
    let q := l.queueOf comb
    if q.1 < q.2 then
      (some (l.queueRun comb q.1), { l with runs := SMap.ins (q.1 + 1, q.2) l.runs comb })
    else
      match l.richest (comb / 1024) with
      | none => (none, l)
      | some n =>
        let q := l.queueOf n
        (some (l.queueRun n (q.2 - 1)), { l with runs := SMap.ins (q.1, q.2 - 1) l.runs n })

/-- Deliver the next work item to a thread's slot: run, item and c0 (R107). -/
def Launch.deliver (l : Launch) (t : Slot) (comb : Nat) : Slot × Launch :=
  let more := match t.run, t.item with
    | some r, some k => if k + 1 < min l.items ((r + 1) * l.grain) then some (k + 1) else none
    | _, _ => none
  match more with
  | some k => ({ t with item := some k }.setC 0 k, l)
  | none =>
    -- a thread that has had its last item keeps none
    if t.run.isSome && t.item.isNone then (t.setC 0 0xFFFFFFFF, l)
    else
      match l.takeRun t.index comb t.run with
      | (some r, l) => ({ t with run := some r, item := some (r * l.grain) }.setC 0 (r * l.grain), l)
      | (none, l) => ({ t with run := some (t.run.getD 0), item := none }.setC 0 0xFFFFFFFF, l)

end Sys2Proof.Machine
end

