-- ==== Sys2Proof/Machine/Launch.lean ====
section
/-! DEFINITION. Completion records (R494), host entries that end (R365), launches: their checks, starts and completions (R69–R77),
launch ports (R75), and comb gating (R83). -/

namespace Sys2Proof.Machine

open Sys2Proof

/-! ## Completion records (R494) -/

/-- The reason an ERROR frame gives for a failed local access (R243). -/
def MemCause.code : MemCause → Nat
  | .address => 0x81
  | .data => 0x83
  | _ => 0x82

/-- A record could not be written: event 0x0090 and a contained error. -/
def State.recordFailed (s : State) (kind a cause : Nat) : State :=
  s.contained.postEvent 0x90 2 (a % 2 ^ 64 + kind * 2 ^ 64 + cause * 2 ^ 72)

/-- A tag with no owner but a role. -/
def plainTag (owner : TagOwner) (tc : Nat) : Tag :=
  { owner := owner, launch := none, kind := 0, tc := tc, node := 0, remote := 0, here := none, count := 0, arrived := 0 }

/-- Write a record of kind 1 launch, 2 stream, 3 collective, 4 dispatch context, 5 ready record, 6 receipt header, to a global
address: locally at once, to another node as a PUT. A misaligned address counts as invalid (log entry 19). -/
def State.writeRecord (s : State) (kind : Nat) (who : Requester) (o : Origin) (a : Nat) (bs : List Byte) : State :=
  if !s.nodeValid (nodeOf a) ∨ a % 8 ≠ 0 then s.recordFailed kind a 0x81
  else if nodeOf a = s.node then
    match s.memWrite who [(localOf a, bs)] with
    | (s', none) => s'
    | (s', some e) => s'.recordFailed kind a e.cause.code
  else s.sendPut o (plainTag (.record kind) 5) (nodeOf a) (localOf a) 0 bs

/-- A started submission entry ends with a status and detail; its CQ entry is due (R365, R367). One that ends with a status of 0x11–0x15
is counted (R376). -/
def State.endEntry (s : State) (q e status detail : Nat) : State :=
  let p := s.pair q
  let ends := p.entries.any fun x => x.id == e && x.result.isNone
  let s := if ends && decide (0x11 ≤ status ∧ status ≤ 0x15) then s.bump 0x104002 else s
  s.setPair q { p with entries := p.entries.map fun x =>
    if x.id = e ∧ x.result = none then { x with result := some (status, detail), left := 0 } else x }

/-! ## The checks of a launch (R71) -/

def launchVersion (d : W256) : Nat := fieldOf 255 248 d.toNat
def launchBank (d : W256) : Nat := fieldOf 247 246 d.toNat
def launchMode (d : W256) : Nat := fieldOf 245 244 d.toNat
def launchArgument (d : W256) : Nat := fieldOf 127 64 d.toNat
def launchCompletion (d : W256) : Nat := fieldOf 63 0 d.toNat

/-- A launch of a descriptor, with nothing of it started. -/
def Launch.fresh (id : Nat) (d : W256) (src : LaunchSource) : Launch :=
  { id := id, desc := d, dynamic := false, held := false, started := [], live := 0, lost := 0, abnormal := 0, source := src, runs := [] }

/-- The target combs: those that receive a thread (R70, R71). -/
def Launch.targets (l : Launch) : List Nat :=
  (List.range (min l.combs (ceilDiv l.threads (64 * l.tpc)))).map (· + l.startComb)

/-- The hives that hold a target comb. -/
def Launch.hives (l : Launch) : List Nat :=
  let n := min l.combs (ceilDiv l.threads (64 * l.tpc))
  (List.range 16).filter fun h => decide (l.startComb / 1024 ≤ h) && decide (h ≤ (l.startComb + n - 1) / 1024)

/-- The status with which a descriptor is refused, if it is (R71, R74). Where several conditions hold, the spec gives no order: the lowest
status is reported (DESIGN CHOICE, log entry 37). -/
def State.launchRefusal (s : State) (l : Launch) : Option Nat :=
  let d := l.desc
  let b := launchBank d
  let arg := launchArgument d
  let done := launchCompletion d
  if launchVersion d ≠ 1 then some 0x10
  else if b = 3 ∨ launchMode d ≥ 2 ∨ l.firstThread + l.tpc > 4 then some 0x11
  else if l.startComb + l.combs > 16384 ∨ l.combs = 0 ∨ l.threads = 0 ∨ l.threads > l.combs * 64 * l.tpc then some 0x12
  else if (List.range 16).any fun h => decide (l.startComb / 1024 ≤ h) && decide (h ≤ (l.startComb + l.combs - 1) / 1024)
      && !s.hiveWorks h then some 0x13
  else if b ≠ 0 ∧ l.targets.any (fun n => (s.comb n).shownB != decide (b = 2)) then some 0x14
  else if arg % 64 ≠ 0 ∨ !s.nodeValid (nodeOf arg) ∨ (done ≠ 0 ∧ (done % 8 ≠ 0 ∨ !s.nodeValid (nodeOf done))) then some 0x15
  else if l.hives.any fun h => decide (64 ≤ (s.swarm.launches.filter fun m => m.hives.contains h).length) then some 0x16
  else none

/-- The completion record of a launch (R73). -/
def launchRecord (abnormal status : Nat) : Nat := 2 ^ 63 + min abnormal 0xFFFFFF * 256 + status

/-- Report a launch: its record, and for a host-posted launch its completion entry (R73, R365). R203 names no consumer for a record that
meets an uncorrectable word: it is logged as the switch's, 0x05, with identity 0 (DESIGN CHOICE, log entry 19). -/
def State.reportLaunch (s : State) (l : Launch) (abnormal status : Nat) : State :=
  let r := launchRecord abnormal status
  let a := launchCompletion l.desc
  let s := if a = 0 then s else s.writeRecord 1 ⟨5, 0⟩ (Origin.hive (l.startComb / 1024)) a (natLE 8 r)
  match l.source with
  | .entry q e => s.endEntry q e status r
  | .thread _ => s

/-- Post a launch descriptor (R71, R77): refused at once, or accepted. -/
def State.postLaunch (s : State) (d : W256) (src : LaunchSource) : State :=
  let l := Launch.fresh (s.swarm.nextLaunch + 1) d src
  match s.launchRefusal l with
  | some st => (s.bump 0x201003).reportLaunch l 0 st
  | none =>
    let want := decide (launchMode d = 1)
    let dyn := want && !s.det && decide (s.reg 0x201001 = 1)
    let s := if want && !dyn then s.bump 0x201005 else s
    let s := s.bump 0x201002
    { s with swarm := { s.swarm with
        nextLaunch := s.swarm.nextLaunch + 1
        launches := s.swarm.launches ++ [{ l with dynamic := dyn, held := decide (s.pow.state ≠ 1) }] } }

/-! ## Launch ports (R75) -/

/-- The owning thread stores 8 B at an offset of its launch port; offset 0x18 posts the descriptor. The spec does not say how long bytes
0–23 last: they stay until they are written again, through a post and for the slot's next thread (DESIGN CHOICE, log entry 37). -/
def State.portStore (s : State) (i : SlotId) (off v : Nat) : State :=
  let d := (SMap.get 0 s.swarm.ports i.key).toNat
  if off = 0x18 then s.postLaunch (BitVec.ofNat 256 (v % 2 ^ 64 * 2 ^ 192 + d)) (.thread i)
  else { s with swarm := { s.swarm with ports := SMap.put 0 s.swarm.ports i.key (BitVec.ofNat 192 (setField d (8 * off) 64 v)) } }

/-- A running thread's store to offset 0x18. -/
def State.launchPortPost (s : State) (i : SlotId) (v : W64) : State :=
  if s.running && decide (i.cell < 1048576) && decide (i.thread < 4) && s.occupied i then s.portStore i 0x18 v.toNat else s

def execLaunchPortPost (i : SlotId) (data : W64) (s : State) : Host.Outcome State Fault Refusal := .next (s.launchPortPost i data)

/-! ## Starting threads (R68, R70, R72, R119) -/

/-- The slot of the `k`-th thread of a launch on comb `n`. -/
def Launch.slotAt (l : Launch) (n k : Nat) : SlotId := ⟨n * 64 + k / l.tpc, l.firstThread + k % l.tpc⟩

def sameSource : LaunchSource → LaunchSource → Bool
  | .thread i, .thread j => i == j
  | .entry q _, .entry r _ => q == r
  | _, _ => false

/-- Must launch `l` wait on comb `n` for an earlier launch of its source (R72)? -/
def State.waitsBehind (s : State) (l : Launch) (n : Nat) : Bool :=
  (s.swarm.launches.takeWhile fun m => m.id != l.id).any fun m =>
    sameSource m.source l.source && m.targets.contains n && !m.started.contains n

/-- May the launch start on comb `n`? -/
def State.mayStart (s : State) (l : Launch) (n : Nat) : Bool :=
  let c := s.comb n
  s.running && !l.held && l.targets.contains n && !l.started.contains n && s.hiveWorks (n / 1024)
    && !c.movePending && !c.draining && decide (c.swaps = 0) && !s.waitsBehind l n
    && (List.range (l.threadsOn n).2).all fun k => !s.occupied (l.slotAt n k)

/-- The slot of a thread at its start (R68). -/
def Launch.startSlot (l : Launch) (i : Nat) : Slot :=
  let a := launchArgument l.desc
  let t : Slot := { status := .ready, ptr := l.entry, launch := l.id, index := i, namedBank := launchBank l.desc }
  (((t.setS 0 a).setS 1 (a / 2 ^ 32)).setS 2 i).setS 3 l.threads

/-- Start one thread: its slot, its first work item, and the halt of R119. -/
def State.startThread (s : State) (id n k : Nat) : State :=
  match s.launch? id with
  | none => s
  | some l =>
    let j := l.slotAt n k
    let fresh := (List.range 4).all fun t => !s.occupied ⟨j.cell, t⟩
    let s := if fresh then s.losePad j.cell else s
    let r := l.deliver (l.startSlot ((l.threadsOn n).1 + k)) n
    let s := (s.setSlot j r.1).mapLaunch id fun _ => { r.2 with live := r.2.live + 1 }
    let b := launchBank l.desc
    if b ≠ 0 ∧ (s.comb n).bankB ≠ decide (b = 2) then s.halt j 0x31 b l.entry 0 0 else s

/-- A launch starts on a comb, and wakes it if it is gated (R83). -/
def State.threadStart (s : State) (id n : Nat) : State :=
  match s.launch? id with
  | none => s
  | some l =>
    if !s.mayStart l n then s
    else
      let s := s.setComb n { s.comb n with gated := false }
      let s := s.mapLaunch id fun m => { m with started := m.started ++ [n] }
      (List.range (l.threadsOn n).2).foldl (fun s k => s.startThread id n k) s

def execThreadStart (launch comb : Nat) (s : State) : Host.Outcome State Fault Refusal := .next (s.threadStart launch comb)

/-- Has every thread of a launch halted, and is every access of it performed at system scope (R73)? -/
def State.launchOver (s : State) (l : Launch) : Bool :=
  decide (l.live = 0) && l.targets.all (fun n => l.started.contains n) && !s.writesHeld
    && !(s.net.tags.any fun e =>
      match e.2 with
      | some t => t.launch == some l.id
      | none => false)

/-- A launch completes. -/
def State.launchComplete (s : State) (id : Nat) : State :=
  match s.launch? id with
  | none => s
  | some l =>
    if !(s.pow.powered && s.launchOver l) then s
    else
      let n := l.abnormal + l.lost
      let s := if n = 0 then s else s.bump 0x201004
      let s := { s with swarm := { s.swarm with launches := s.swarm.launches.filter fun m => m.id != id } }
      s.reportLaunch l n (if n = 0 then 0 else 1)

def execLaunchComplete (launch : Nat) (s : State) : Host.Outcome State Fault Refusal := .next (s.launchComplete launch)

/-! ## Comb gating (R83) -/

/-- Does a launch wait for comb `n`? -/
def State.awaitedComb (s : State) (n : Nat) : Bool :=
  s.swarm.launches.any fun l => l.targets.contains n && !l.started.contains n

/-- An idle comb gates once its idle time has passed: the pads of its cells are lost. -/
def State.combGate (s : State) (n t : Nat) : State :=
  let c := s.comb n
  let idle := s.reg 0x204001
  if s.running && decide (n < 16384) && s.hiveWorks (n / 1024) && !c.gated && s.combEmpty n && !s.awaitedComb n
      && decide (idle ≠ 0) && decide (max c.idleSince s.swarm.resetAt + idle * 1000 ≤ max s.now t) then
    let s := s.at_ t
    let s := s.setComb n { c with gated := true }
    let s := (List.range 64).foldl (fun s k => s.losePad (n * 64 + k)) s
    s.bump 0x204003
  else s

def execCombGate (comb at_ : Nat) (s : State) : Host.Outcome State Fault Refusal := .next (s.combGate comb at_)

end Sys2Proof.Machine
end

