-- ==== Sys2Proof/Machine/Experts.lean ====
section
/-! DEFINITION. In-fabric expert routing: dispatch contexts, the expert table, counting, row copies, closes, ready records, returns and
combine (R290–R306), and stream engines that are disabled (R271, R464). -/

namespace Sys2Proof.Machine

open Sys2Proof

/-! ## Records -/

def State.ctx (s : State) (n : Nat) : DispatchContext := SMap.get {} s.eng.contexts n
def State.setCtx (s : State) (n : Nat) (c : DispatchContext) : State :=
  { s with eng := { s.eng with contexts := SMap.put {} s.eng.contexts n c } }

def State.home (s : State) (e : Nat) : ExpertHome := SMap.get {} s.eng.homes e
def State.setHome (s : State) (e : Nat) (h : ExpertHome) : State :=
  { s with eng := { s.eng with homes := SMap.put {} s.eng.homes e h } }

namespace DispatchContext

def fld (c : DispatchContext) (hi lo : Nat) : Nat := fieldOf hi lo c.record.toNat
def renormalise (c : DispatchContext) : Bool := bitOf c.record.toNat 510
def yCode (c : DispatchContext) : Nat := if bitOf c.record.toNat 509 then 0xA else 8
def outCode (c : DispatchContext) : Nat := if bitOf c.record.toNat 508 then 0xA else 8
def partCount (c : DispatchContext) : Nat := c.fld 502 501 + 1
def partBytes (c : DispatchContext) : Nat := (c.fld 500 495 + 1) * 64
def base (c : DispatchContext) : Nat := c.fld 494 483
def experts (c : DispatchContext) : Nat := c.fld 482 471 + 1
def rank (c : DispatchContext) : Nat := c.fld 470 455
def tokens (c : DispatchContext) : Nat := c.fld 454 441 + 1
def yBytes (c : DispatchContext) : Nat := (c.fld 440 432 + 1) * 64
def hold (c : DispatchContext) : Nat := c.fld 383 320
def staging (c : DispatchContext) : Nat := c.fld 319 256
def receipt (c : DispatchContext) : Nat := c.fld 255 192
def output (c : DispatchContext) : Nat := c.fld 191 128
def outStride (c : DispatchContext) : Nat := c.fld 127 96
def completion (c : DispatchContext) : Nat := c.fld 63 0

/-- Elements of a row. -/
def width (c : DispatchContext) : Nat := c.yBytes / (fmtBits c.yCode / 8)

/-- Bytes of one frame's payload: the routing block and the part. -/
def frameBytes (c : DispatchContext) : Nat := 64 + c.partBytes

def holdAt (c : DispatchContext) (t q : Nat) : Nat := c.hold + (t * c.partCount + q) * c.frameBytes

/-- Add to one of the eight counts of 5810.04. -/
def count (c : DispatchContext) (i : Nat) (n : Nat := 1) : DispatchContext :=
  { c with counts := c.counts.setIfInBounds i (satAdd 64 (c.counts.getD i 0) n) }

/-- Armed, with nothing counted. -/
def armed (c : DispatchContext) : DispatchContext :=
  { c with state := 1, rearm := false, next := 0, used := [], kept := [], parts := [], returned := [], combined := 0, receipts := 0
           droppedTokens := 0, dataError := false }

end DispatchContext

/-- Fields of an expert entry (R291). -/
def State.expert (s : State) (e : Nat) : Nat := (SMap.get 0 s.eng.experts e).toNat
def expValid (v : Nat) : Bool := bitOf v 511
def expEngine (v : Nat) : Nat := fieldOf 510 506 v
def expCapacity (v : Nat) : Nat := fieldOf 505 486 v
def expSources (v : Nat) : Nat := fieldOf 485 470 v + 1
def expPadFill (v : Nat) : Bool := bitOf v 469
def expNode (v : Nat) : Nat := fieldOf 463 440 v
def expRowStride (v : Nat) : Nat := fieldOf 439 408 v
def expRowBase (v : Nat) : Nat := fieldOf 383 320 v
def expTagBase (v : Nat) : Nat := fieldOf 319 256 v
def expReturnBase (v : Nat) : Nat := fieldOf 255 192 v
def expReturnStride (v : Nat) : Nat := fieldOf 191 160 v
def expReady (v : Nat) : Nat := fieldOf 127 64 v

/-- The first position of source `s` (R292). -/
def expFirst (v src : Nat) : Nat := expCapacity v * src / expSources v

/-- The requester of the engines (R203). -/
def engineRequester : Requester := ⟨5, 0⟩

/-- A write of an engine to this module's memory, its failure left to the caller. -/
def State.engineWrite (s : State) (a : Nat) (bs : List Byte) : State × Option MemErr := s.memWrite engineRequester [(localOf a, bs)]

def Origin.ofEngine (e : Nat) : Origin := Origin.engine (e % 32)

/-! ## Completion of a context (R304, R305) -/

def contextRecord (dropped status : Nat) : Nat := 2 ^ 63 + min dropped 0xFFFFFF * 256 + status

def State.contextReport (s : State) (n status : Nat) : State :=
  let c := s.ctx n
  s.writeRecord 4 engineRequester (Origin.ofEngine c.engine) c.completion (natLE 8 (contextRecord c.droppedTokens status))

/-- The context faults: status 0x01 data error, 0x02 engine lost. -/
def State.contextFault (s : State) (n status : Nat) : State :=
  let s := s.contained
  (s.setCtx n { s.ctx n with state := 4 }).contextReport n status

/-- The context is done once every token is combined; a pending re-arm arms it again. -/
def State.contextCheck (s : State) (n : Nat) : State :=
  let c := s.ctx n
  if c.state = 2 ∧ c.combined = c.tokens then
    let s := s.contextReport n (if c.dataError then 1 else 0)
    s.setCtx n (if c.rearm then c.armed else { c with state := 3 })
  else s

/-- STEP advances (R305): capacity counters reset, now or once the context is done; the homes' counts are of an earlier step from then on
(R291; log entry 20). -/
def State.stepContexts (s : State) : State :=
  let step (c : DispatchContext) : DispatchContext :=
    if (c.state = 1 ∧ c.next > 0) ∨ c.state = 2 then { c with rearm := true }
    else if c.state = 3 then c.armed
    else c
  { s with eng := { s.eng with
      contexts := s.eng.contexts.map fun e => (e.1, step e.2)
      homes := s.eng.homes.map fun (e : Nat × ExpertHome) => (e.1, { e.2 with past := true }) } }

/-! ## Combine (R303) -/

/-- FP32 division under RNE. -/
def f32Div (a b : W32) : W32 × Bool :=
  match f32Val a, f32Val b with
  | .nan, _ => f32Round .nan
  | _, .nan => f32Round .nan
  | .inf _, .inf _ => f32Round .nan
  | .inf s, .num t _ _ => f32Round (.inf (s != t))
  | .num s _ _, .inf t => f32Round (.num (s != t) 0 0)
  | .num s m e, .num t n g =>
    if n = 0 then (if m = 0 then f32Round .nan else f32Round (.inf (s != t)))
    else if m = 0 then f32Round (.num (s != t) 0 0)
    else
      let c := FFmt.fp32.roundTo .wide .rne (s != t) m n (e - g)
      (BitVec.ofNat 32 c.bits, c.wide)

/-- The sum of the kept weights in slot order, and whether it overflowed. -/
def weightSum (ws : List W32) : W32 × Bool :=
  ws.foldl (fun r w => let x := f32Add r.1 w; (x.1, r.2 || x.2)) (0, false)

/-- Is a word ±0? -/
def isZero32 (w : W32) : Bool := w.toNat % 2 ^ 31 == 0

/-- The weights used: divided by their sum when renormalising and the sum is not ±0. -/
def usedWeights (renorm : Bool) (ws : List W32) : List W32 × Bool :=
  let t := weightSum ws
  if renorm && !isZero32 t.1 then
    let vs := ws.map fun w => f32Div w t.1
    (vs.map Prod.fst, t.2 || vs.any Prod.snd)
  else (ws, renorm && t.2)

/-- One element of a combined row. -/
def combineElem (vs : List W32) (ys : List FVal) : W32 × Bool :=
  (vs.zip ys).foldl (fun r p => let x := f32Fma (f32Val p.1) p.2 (f32Val r.1); (x.1, r.2 || x.2)) (0, false)

/-- The kept slots of a token. -/
def DispatchContext.keptSlots (c : DispatchContext) (t : Nat) : List (Nat × W32) :=
  (List.range 8).filterMap fun j => (SMap.get none c.kept (t * 8 + j)).map fun w => (j, w)

/-- Combine token `t` of context `n`: read its staged rows, form its row, convert it once and write it. -/
def State.combineToken (s : State) (n t : Nat) : State :=
  let c := s.ctx n
  let ks := c.keptSlots t
  match s.memRead engineRequester (ks.map fun k => (localOf (c.staging + (t * 8 + k.1) * c.yBytes), c.yBytes)) with
  | (s, .error _) => s.contextFault n 1
  | (s, .ok bs) =>
    let ws := ks.map Prod.snd
    let u := usedWeights c.renormalise ws
    let w := fmtBits c.yCode
    let acc := (List.range c.width).map fun i =>
      combineElem u.1 ((List.range ks.length).map fun k => decodeElem c.yCode true (elemAt w (slice bs (k * c.yBytes) c.yBytes) i))
    let out := acc.map fun a => convertElem c.outCode true false false .rne (f32Val a.1)
    let skipped := c.renormalise && isZero32 (weightSum ws).1
    let r := s.engineWrite (c.output + t * c.outStride) (packElems (fmtBits c.outCode) (out.map Conv.bits))
    -- counts are added for a row that is written (R50)
    let s := if r.2.isSome then r.1 else (r.1.countConvs out).setWide (u.2 || acc.any Prod.snd)
    let c := if skipped then c.count 7 else c
    (s.setCtx n { c with combined := c.combined + 1, dataError := c.dataError || r.2.isSome }).contextCheck n

/-! ## Counting (R294, R295) -/

/-- What counting makes of a slot of a routing block. -/
inductive PairFate where
  | empty
  | drop (cause : Nat)
  | keep (position : Nat)
  deriving DecidableEq, Repr

/-- The fate of slot `j`, given the experts of the block. -/
def State.pairFate (s : State) (c : DispatchContext) (es : List Nat) (j : Nat) : PairFate :=
  let e := es.getD j 0xFFFF
  let v := s.expert e
  if e = 0xFFFF then .empty
  else if e < c.base ∨ c.base + c.experts ≤ e ∨ !expValid v then .drop 1
  else if expSources v ≤ c.rank then .drop 3
  else if (es.take j).contains e then .drop 2
  else
    let u := SMap.get 0 c.used e
    if u < expFirst v (c.rank + 1) - expFirst v c.rank then .keep (expFirst v c.rank + u) else .drop 0

/-- A receipt entry (R299). -/
def receiptEntry (t j cause e : Nat) : Nat := t % 2 ^ 24 * 2 ^ 40 + j * 2 ^ 37 + cause * 2 ^ 35 + e % 4096

/-- A row copy of part `q` of token `t` for slot `j`, whose expert `e` keeps it at `position` (R296). -/
def State.rowCopyFrame (s : State) (n engine t q : Nat) (payload : List Byte) (k : Nat × Nat × Nat) : Frame :=
  let (j, e, position) := k
  let v := s.expert e
  let h : Hdr :=
    { destNode := expNode v, destEp := 0, srcNode := s.node, srcEp := 0x3000 + engine, kind := 0x20, tc := 3, sop := 1
      units := payload.length / 64, group := e, tensor := n, seq := t % 2 ^ 24 + j * 2 ^ 24 + engine * 2 ^ 27
      offset := expRowBase v + position * expRowStride v + q * payload.length }
  ⟨h.encode, payload⟩

/-- Count one slot of token `t`; what it keeps: slot, expert and position. -/
def State.countSlot (s : State) (n t : Nat) (es ws : List Nat) (j : Nat) : State × List (Nat × Nat × Nat) :=
  let c := s.ctx n
  let e := es.getD j 0xFFFF
  match s.pairFate c es j with
  | .empty => (s, [])
  | .drop cause =>
    let i := if cause = 0 then 2 else if cause = 2 then 4 else 3
    let r := s.engineWrite (c.receipt + 64 + c.receipts * 8) (natLE 8 (receiptEntry t j cause e))
    (r.1.setCtx n { c.count i with receipts := c.receipts + 1, dataError := c.dataError || r.2.isSome }, [])
  | .keep p =>
    (s.setCtx n { c.count 1 with
        used := SMap.put 0 c.used e (SMap.get 0 c.used e + 1)
        kept := SMap.put none c.kept (t * 8 + j) (some (BitVec.ofNat 32 (ws.getD j 0))) }, [(j, e, p)])

/-- Count the eight slots of token `t` in order, and send for each one kept the row copies of the token's parts `ps`: those of one part
share its stored payload (R241, R295, R296). -/
def State.countSlots (s : State) (n t : Nat) (es ws : List Nat) (ps : List (List Byte)) : State :=
  let r := (List.range 8).foldl (fun (r : State × List (Nat × Nat × Nat)) j =>
    let x := r.1.countSlot n t es ws j
    (x.1, r.2 ++ x.2)) (s, [])
  let engine := (r.1.ctx n).engine
  let fs := r.2.flatMap fun k => (List.range ps.length).map fun q => r.1.rowCopyFrame n engine t q (ps.getD q []) k
  if fs.isEmpty then r.1 else r.1.sendSet (0x60 + engine) fs

/-- The close to the home engine of an expert (R296). -/
def State.sendClose (s : State) (n e : Nat) : State :=
  let c := s.ctx n
  let v := s.expert e
  let h : Hdr := { destNode := expNode v, destEp := 0x3000 + expEngine v, srcNode := s.node, srcEp := 0x3000 + c.engine, kind := 0x20
                   tc := 3, sop := 2, group := e, tensor := n }
  s.send (0x60 + c.engine)
    ⟨h.encode, natLE 4 (SMap.get 0 c.used e) ++ natLE 4 c.partCount ++ natLE 4 c.rank ++ List.replicate 52 0⟩

/-- The last token is counted: closes, receipt header, state counted (R295, R299, R305). -/
def State.closeContext (s : State) (n : Nat) : State :=
  let c := s.ctx n
  let es := ((List.range c.experts).map (· + c.base)).filter fun e => expValid (s.expert e) && decide (c.rank < expSources (s.expert e))
  let s := es.foldl (fun s e => s.sendClose n e) s
  let header := natLE 8 s.stepCount ++ natLE 4 c.receipts ++ List.replicate 4 0 ++ [1] ++ List.replicate 47 0
  let s := s.writeRecord 6 engineRequester (Origin.ofEngine c.engine) c.receipt header
  (s.setCtx n { s.ctx n with state := 2 }).contextCheck n

/-- Count token `next` from its parts (R295). -/
def State.countToken (s : State) (n : Nat) (ps : List (List Byte)) : State :=
  let c := s.ctx n
  let t := c.next
  let block := ps.headD []
  let es := (List.range 8).map fun j => numAt block (8 + 2 * j) 2
  let ws := (List.range 8).map fun j => numAt block (24 + 4 * j) 4
  let dropped := (List.range 8).any fun j => match s.pairFate c es j with
    | .drop _ => true
    | _ => false
  let s := s.countSlots n t es ws ps
  let c := s.ctx n
  let s := s.setCtx n { c.count 0 with
      next := t + 1, droppedTokens := c.droppedTokens + b2n dropped, parts := c.parts.filter fun p => p.token != t }
  let s := if (s.ctx n).keptSlots t = [] then s.combineToken n t else s
  if (s.ctx n).next = (s.ctx n).tokens then s.closeContext n else s

/-- Count tokens while every part of the next one is at hand; the fuel is the context's token count. -/
def State.countTokens (n : Nat) : Nat → State → State
  | 0, s => s
  | fuel + 1, s =>
    let c := s.ctx n
    let ps := (List.range c.partCount).filterMap fun q =>
      (c.parts.find? fun p => p.token == c.next && p.part == q && !p.inHold).map Part.payload
    if c.state = 1 ∧ ps.length = c.partCount then State.countTokens n fuel (s.countToken n ps) else s

/-- A frame delivered to an engine is refused with reason 0x06 (R228). -/
def State.refuseFrame (s : State) (d : Delivered) : State := s.logDiscard 6 d.ingress d.port d.frame.header

/-- A token's part arrives (R293–R295). -/
def State.tokenPart (s : State) (n : Nat) (d : Delivered) : State :=
  let h := Hdr.of d.frame.header
  let c := s.ctx n
  let t := numAt d.frame.payload 0 4
  let q := numAt d.frame.payload 4 1
  if h.sop ≠ 0 ∨ c.state ≠ 1 ∨ c.tokens ≤ t ∨ c.partCount ≤ q ∨ t < c.next
      ∨ c.parts.any (fun p => p.token == t && p.part == q) then
    (s.refuseFrame d).setCtx n (c.count 5)
  else
    let body := slice d.frame.payload 0 c.frameBytes
    if t = c.next then State.countTokens n c.tokens (s.setCtx n { c with parts := c.parts ++ [⟨t, q, body, false⟩] })
    else
      let r := s.engineWrite (c.holdAt t q) body
      match r.2 with
      | some _ => r.1.contextFault n 1
      | none => r.1.setCtx n { c with parts := c.parts ++ [⟨t, q, [], true⟩] }

/-- Is a switch port an engine's? -/
def enginePort (p : Nat) : Bool := decide (0x60 ≤ p) && decide (p < 0x80)

def State.dispatchTokenFrame (s : State) (port tc : Nat) : State :=
  match s.rxFind port tc fun h _ => enginePort port && h.kind == 0x20 && h.sop != 2 with
  | none => s
  | some d => (s.consume d).tokenPart (Hdr.of d.frame.header).tensor d

def execDispatchTokenFrame (port tc : Nat) (s : State) : Host.Outcome State Fault Refusal := .next (s.dispatchTokenFrame port tc)

/-- The parts of the next token come back from the hold area (R294). -/
def State.holdAreaReadback (s : State) (n : Nat) : State :=
  let c := s.ctx n
  let held := c.parts.filter fun p => p.token == c.next && p.inHold
  let ready := decide (((c.parts.filter fun p => p.token == c.next).length) = c.partCount)
  if c.state = 1 ∧ ready ∧ held ≠ [] then
    match s.memRead engineRequester (held.map fun p => (localOf (c.holdAt p.token p.part), c.frameBytes)) with
    | (s, .error _) => s.contextFault n 1
    | (s, .ok bs) =>
      let back := (List.range held.length).map fun k =>
        let p := held.getD k ⟨0, 0, [], true⟩
        { p with payload := slice bs (k * c.frameBytes) c.frameBytes, inHold := false }
      let rest := c.parts.filter fun p => !(p.token == c.next && p.inHold)
      State.countTokens n c.tokens (s.setCtx n { c with parts := rest ++ back })
  else s

def execHoldAreaReadback (context : Nat) (s : State) : Host.Outcome State Fault Refusal := .next (s.holdAreaReadback context)

/-! ## The home (R297–R301) -/

/-- The tag of a position (R297). -/
def rowTag (h : Hdr) (weight : Nat) : Nat :=
  2 ^ 127 + h.seq / 2 ^ 24 % 8 * 2 ^ 124 + h.seq / 2 ^ 27 % 32 * 2 ^ 119 + h.srcNode * 2 ^ 88 + h.tensor % 4096 * 2 ^ 76
    + h.seq % 2 ^ 24 * 2 ^ 32 + weight

/-- The y row bytes of an expert's layer as this module knows them: of its own context whose range holds the expert, else the return stride
(log entry 21). -/
def State.yRowBytes (s : State) (e : Nat) : Nat :=
  let stride := expReturnStride (s.expert e)
  match s.eng.contexts.find? fun c => decide (c.2.state ≠ 0) && decide (c.2.base ≤ e) && decide (e < c.2.base + c.2.experts) with
  | some c => c.2.yBytes
  | none => stride

/-- Send the y row of one position back to its source (R300, R301). -/
def State.sendReturn (s : State) (e p : Nat) : State :=
  let v := s.expert e
  let eng := (s.home e).engine
  match s.memRead engineRequester [(localOf (expTagBase v + p * 16), 16)] with
  | (s, .error _) => s.contained
  | (s, .ok tb) =>
    let tag := leNat tb
    if !bitOf tag 127 then s
    else
      let n := s.yRowBytes e
      let a := expReturnBase v + p * expReturnStride v
      (List.range (ceilDiv n 4096)).foldl (fun s k =>
        let len := min 4096 (n - k * 4096)
        let h : Hdr := { destNode := fieldOf 111 88 tag, destEp := 0x3000 + fieldOf 123 119 tag, srcNode := s.node, srcEp := 0x3000 + eng
                         kind := 0x21, tc := 4, units := len / 64, group := e, tensor := fieldOf 87 76 tag
                         seq := fieldOf 55 32 tag + fieldOf 126 124 tag * 2 ^ 24, offset := k * 4096 }
        match s.memRead engineRequester [(localOf (a + k * 4096), len)] with
        | (s, .error _) => s.logDiscard 9 (0x60 + eng) 0xFF h.encode
        | (s, .ok bs) => s.send (0x60 + eng) ⟨h.encode, bs⟩) s

/-- Send the returns that the doorbell permits, once the expert is ready. -/
def State.sendReturns (s : State) (e : Nat) : State :=
  let g := s.home e
  if g.state = 2 then
    let s := (List.range (g.mark - g.sent)).foldl (fun s k => s.sendReturn e (g.sent + k)) s
    s.setHome e { s.home e with sent := max g.sent g.mark }
  else s

/-- Positions an expert keeps. -/
def ExpertHome.keptPositions (g : ExpertHome) : Nat := (g.closes.map fun c => c.2.1).sum

/-- The expert is ready: pad tags, pad fill, the ready record, then returns that wait (R298, R300). -/
def State.expertReady (s : State) (e : Nat) : State :=
  let v := s.expert e
  let g := s.home e
  let pads := g.closes.flatMap fun c =>
    (List.range (expFirst v (c.1 + 1) - (expFirst v c.1 + c.2.1))).map (· + (expFirst v c.1 + c.2.1))
  let s := pads.foldl (fun s p =>
    let s := (s.engineWrite (expTagBase v + p * 16) (List.replicate 16 0)).1
    if expPadFill v then (s.engineWrite (expRowBase v + p * expRowStride v) (List.replicate (expRowStride v) 0)).1 else s) s
  let rec_ := 2 ^ 63 + g.keptPositions % 2 ^ 20 * 2 ^ 32 + s.stepCount % 2 ^ 32
  let s := s.writeRecord 5 engineRequester (Origin.ofEngine g.engine) (s.globalOf (expReady v)) (natLE 8 rec_)
  (s.setHome e { s.home e with state := 2 }).sendReturns e

/-- Is the expert ready? -/
def State.checkReady (s : State) (e : Nat) : State :=
  let g := s.home e
  if g.state = 1 ∧ g.closes.length = expSources (s.expert e) ∧ g.parts = (g.closes.map fun c => c.2.1 * c.2.2).sum then s.expertReady e
  else s

/-- Is this module the home of a valid expert? -/
def State.isHome (s : State) (e : Nat) : Bool := expValid (s.expert e) && decide (expNode (s.expert e) = s.node)

/-- The home state that a close or part joins: a first one starts it, and starts it anew where the expert was ready, or faulted in an
earlier step (log entry 20). Doorbell stores held before a first start stay held (R300). -/
def State.openHome (s : State) (e : Nat) : ExpertHome :=
  let g := s.home e
  if g.state = 0 then { g with state := 1, past := false, engine := expEngine (s.expert e) }
  else if g.state = 2 ∨ (g.state = 3 ∧ g.past) then { state := 1, engine := expEngine (s.expert e) }
  else g

/-- A row copy is written like a PUT and reported (R297); one whose hive has failed is discarded and faults the expert (R306). -/
def State.rowCopy (s : State) (d : Delivered) : State :=
  let h := Hdr.of d.frame.header
  let e := h.group
  let v := s.expert e
  if h.sop ≠ 1 ∨ !s.isHome e then s.refuseFrame d
  else
    let who : Requester := ⟨4, h.srcNode⟩
    match s.memWrite who [(localOf h.offset, d.frame.payload)] with
    | (s, some _) => (s.refuseFrame d).setHome e { s.openHome e with state := 3 }
    | (s, none) =>
      let q := numAt d.frame.payload 4 1
      let position := (h.offset - expRowBase v) / max 1 (expRowStride v)
      let weight := numAt d.frame.payload (24 + 4 * (h.seq / 2 ^ 24 % 8)) 4
      let s := if q = 0 then (s.memWrite who [(localOf (expTagBase v + position * 16), natLE 16 (rowTag h weight))]).1 else s
      let g := s.openHome e
      (s.setHome e { g with parts := satAdd 32 g.parts 1 }).checkReady e

/-- Is a switch port a memory agent's? -/
def memoryPort (p : Nat) : Bool := p == 0x82 || p == 0x83

def State.dispatchRowCopyFrame (s : State) (port tc : Nat) : State :=
  match s.rxFind port tc fun h _ => memoryPort port && h.kind == 0x20 with
  | none => s
  | some d => (s.consume d).rowCopy d

def execDispatchRowCopyFrame (port tc : Nat) (s : State) : Host.Outcome State Fault Refusal := .next (s.dispatchRowCopyFrame port tc)

def State.dispatchCloseFrame (s : State) (port tc : Nat) : State :=
  match s.rxFind port tc fun h _ => enginePort port && h.kind == 0x20 && h.sop == 2 with
  | none => s
  | some d =>
    let s := s.consume d
    let e := (Hdr.of d.frame.header).group
    if !s.isHome e then s.refuseFrame d
    else
      let g := s.openHome e
      let p := d.frame.payload
      (s.setHome e { g with closes := g.closes ++ [(numAt p 8 4, numAt p 0 4, numAt p 4 1)] }).checkReady e

def execDispatchCloseFrame (port tc : Nat) (s : State) : Host.Outcome State Fault Refusal := .next (s.dispatchCloseFrame port tc)

/-- A store of h to an expert's doorbell (R300): lower marks are ignored, h is clamped to C. -/
def State.ringDoorbell (s : State) (e v : Nat) : State :=
  let h := min (v % 2 ^ 20) (expCapacity (s.expert e))
  let g := s.home e
  if h ≤ g.mark then s else (s.setHome e { g with mark := h }).sendReturns e

def State.returnDoorbellStore (s : State) (e : Nat) (v : W64) : State :=
  if s.running && decide (e < 4096) then s.ringDoorbell e v.toNat else s

def execReturnDoorbellStore (expert : Nat) (v : W64) (s : State) : Host.Outcome State Fault Refusal :=
  .next (s.returnDoorbellStore expert v)

/-! ## Returns at the source (R302) -/

/-- Does a received range of (token, slot) overlap [off, off + len)? -/
def DispatchContext.received (c : DispatchContext) (k off len : Nat) : Bool :=
  c.returned.any fun r => r.1 == k && decide (r.2.1 < off + len) && decide (off < r.2.1 + r.2.2)

/-- Has every byte of every kept slot of a token arrived? -/
def DispatchContext.complete (c : DispatchContext) (t : Nat) : Bool :=
  (c.keptSlots t).all fun k =>
    decide (((c.returned.filter fun r => r.1 == t * 8 + k.1).map fun r => r.2.2).sum = c.yBytes)

/-- A RETURN frame is staged, and its token combined when complete. Bytes beyond the y row are not kept (log entry 21). -/
def State.returned (s : State) (d : Delivered) : State :=
  let h := Hdr.of d.frame.header
  let n := h.tensor
  let c := s.ctx n
  let t := h.seq % 2 ^ 24
  let k := t * 8 + h.seq / 2 ^ 24 % 8
  let len := min d.frame.payload.length (c.yBytes - h.offset)
  if c.state ≠ 2 ∨ (SMap.get none c.kept k).isNone ∨ c.received k h.offset (max len 1) then
    (s.refuseFrame d).setCtx n (c.count 6)
  else if len = 0 then s
  else
    match s.engineWrite (c.staging + k * c.yBytes + h.offset) (d.frame.payload.take len) with
    | (s, some _) => s.contextFault n 1
    | (s, none) =>
      let c := { c with returned := c.returned ++ [(k, h.offset, len)] }
      let s := s.setCtx n c
      if c.complete t then s.combineToken n t else s

def State.returnFrame (s : State) (port tc : Nat) : State :=
  match s.rxFind port tc fun h _ => enginePort port && h.kind == 0x21 with
  | none => s
  | some d => (s.consume d).returned d

def execReturnFrame (port tc : Nat) (s : State) : Host.Outcome State Fault Refusal := .next (s.returnFrame port tc)

/-! ## The fields of attach records and of stream-engine instructions (R274, R278, R279) -/

namespace Stream

def fld (t : Stream) (hi lo : Nat) : Nat := fieldOf hi lo t.record.toNat
def engine (t : Stream) : Nat := t.fld 503 499
def sources (t : Stream) : Nat := t.fld 483 476 + 1
def chunk (t : Stream) : Nat := (t.fld 475 470 + 1) * 64
def progLen (t : Stream) : Nat := t.fld 469 463
def outTc (t : Stream) : Nat := t.fld 462 460
def outRank (t : Stream) : Nat := t.fld 459 452
def length (t : Stream) : Nat := t.fld 447 416
def outEp (t : Stream) : Nat := t.fld 415 400
def tensor (t : Stream) : Nat := t.fld 399 384
def progAddress (t : Stream) : Nat := t.fld 383 320
def outAddress (t : Stream) : Nat := t.fld 319 256
def table (t : Stream) : Nat := t.fld 255 192
def tableRows (t : Stream) : Nat := t.fld 191 160
def spill (t : Stream) : Nat := t.fld 127 64
def completion (t : Stream) : Nat := t.fld 63 0

end Stream

def seOp (i : W64) : Nat := fieldOf 63 58 i.toNat
def seFmt (i : W64) : Nat := fieldOf 57 54 i.toNat
def seOpt (i : W64) : Nat := fieldOf 53 48 i.toNat
def seA (i : W64) : Nat := fieldOf 47 32 i.toNat
def seB (i : W64) : Nat := fieldOf 31 16 i.toNat
def seC (i : W64) : Nat := fieldOf 15 0 i.toNat

def seInput (i : W64) : Bool := decide (1 ≤ seOp i ∧ seOp i ≤ 3)
def seCollects (i : W64) : Bool := seOp i == 0x0B || seOp i == 0x0C

/-- The length of W after an instruction that received `w` bytes. -/
def seLength (chunk w : Nat) (i : W64) : Nat :=
  match seOp i with
  | 0x01 => if seFmt i = 8 then 2 * chunk else chunk
  | 0x02 | 0x03 => chunk
  | 0x0B => 8 * seA i
  | 0x0C => 8 * seA i
  | 0x0D => if seOpt i = 0 then w / 2 else 2 * w
  | _ => w

/-! ## Writes of context records and expert entries (R290, R291) -/

/-- Scratch a stream reserves (R273). -/
def Stream.scratch (t : Stream) : Nat :=
  8192 + t.sources * 4 * t.chunk
    + (t.program.map fun i => if seOp i = 0x0B then seA i * 16 else if seOp i = 0x0C then 8192 else 0).sum

/-- Scratch an engine has reserved. -/
def State.scratchUsed (s : State) (e : Nat) : Nat :=
  ((s.eng.streams.filter fun t => t.engine == e).map Stream.scratch).sum
    + ((s.eng.contexts.filter fun c => decide (c.2.state ≠ 0) && decide (c.2.engine = e)).map fun c => c.2.tokens * 64).sum

/-- Does [a, a + n) lie in HBM? -/
def inHbm (a n : Nat) : Bool := decide (hbmBase ≤ a) && decide (a + n ≤ hbmEnd)

/-- Does a global address name this module, with an alignment, and [a, a + n) a plain range of it? -/
def State.ownRange (s : State) (a n align : Nat) : Bool :=
  decide (a % align = 0) && decide (nodeOf a = s.node) && decide (localOf a + n ≤ 2 ^ 40)

/-- May the record enable a context (R290)? -/
def State.contextOk (s : State) (c : DispatchContext) : Bool :=
  decide (c.fld 500 495 ≠ 63) && decide (c.base + c.experts ≤ 4096)
    && decide (c.hold % 64 = 0) && inHbm c.hold (c.tokens * c.partCount * c.frameBytes)
    && decide (c.staging % 64 = 0) && inHbm c.staging (c.tokens * 8 * c.yBytes)
    && s.ownRange c.receipt (64 + c.tokens * 64) 64
    && decide (nodeOf c.output = s.node) && decide (c.outStride % 8 = 0) && decide (c.width * fmtBits c.outCode / 8 ≤ c.outStride)
    && s.ownRange c.completion 8 8 && s.eng.working.getLsbD (c.fld 507 503)
    && decide (s.scratchUsed (c.fld 507 503) + c.tokens * 64 ≤ 4194304)

/-- A write of a context record; none: refused with an access error. -/
def State.writeContext (s : State) (n : Nat) (v : W512) : Option State :=
  let c := s.ctx n
  let old := c.record.toNat
  let fresh : DispatchContext := { record := v, engine := fieldOf 507 503 v.toNat, counts := c.counts }
  if bitOf old 511 then
    if v.toNat % 2 ^ 511 ≠ old % 2 ^ 511 then none
    else if bitOf v.toNat 511 then some s
    else some (s.setCtx n { fresh with state := 0, rearm := false })
  else if bitOf v.toNat 511 then
    if s.contextOk fresh then some (s.setCtx n fresh.armed) else none
  else some (s.setCtx n fresh)

/-- A write of an expert entry (R291); none: refused. -/
def State.writeExpert (s : State) (e : Nat) (v : W512) : Option State :=
  let busy := s.eng.contexts.any fun c =>
    decide (c.2.base ≤ e) && decide (e < c.2.base + c.2.experts) && ((c.2.state == 1 && decide (0 < c.2.next)) || c.2.state == 2)
  let g := s.home e
  if busy ∨ (!g.past && !(g.closes.isEmpty && g.parts = 0)) then none
  else some { s with eng := { s.eng with experts := SMap.put 0 s.eng.experts e v } }

/-! ## Engines that are disabled (R271, R306, R464) -/

/-- The engine that takes over from `e`: its peer, else the lowest-numbered working engine of the hub. -/
def State.peerOf (s : State) (e : Nat) : Option Nat :=
  let peer := if e % 2 = 0 then e + 1 else e - 1
  if s.eng.working.getLsbD peer then some peer
  else ((List.range 16).map (· + e / 16 * 16)).find? fun k => s.eng.working.getLsbD k

/-- The completion record of a stream (R275). -/
def streamRecord (refused status : Nat) : Nat := 2 ^ 63 + min refused 0xFFFFFF * 256 + status

/-- The owner of requests whose stream has ended: no stream has this handle. -/
def endedStream : Nat := 4096

/-- A request of a stream that has ended is no longer one of its handle, which another stream may now take. -/
def Tag.forgetStream (handle : Nat) (t : Tag) : Tag :=
  if t.owner = .stream handle then { t with owner := .stream endedStream } else t

/-- A stream ends with a status: its record is written and its slots, handle and scratch are freed. -/
def State.endStream (s : State) (handle status : Nat) : State :=
  match s.eng.streams.find? fun t => t.handle == handle with
  | none => s
  | some t =>
    let s := { s with eng := { s.eng with streams := s.eng.streams.filter fun u => u.handle != handle } }
    let s := { s with net := { s.net with tags := s.net.tags.map fun (e : Nat × Option Tag) => (e.1, e.2.map (Tag.forgetStream handle)) } }
    let s := if status = 0 then s else s.contained
    s.writeRecord 2 engineRequester (Origin.ofEngine t.engine) t.completion (natLE 8 (streamRecord t.refused status))

/-- The bytes of W after instructions that received `w` bytes, filters and collecting stages aside (R279). -/
def stageBytes (chunk w : Nat) (is : List W64) : Nat :=
  is.foldl (fun w i => if seOp i = 0x08 then w / 4 * seA i else if seCollects i then w else seLength chunk w i) w

/-- The instructions from the collecting one on. -/
def afterCollect : List W64 → Option (W64 × List W64)
  | [] => none
  | i :: rest => if seCollects i then some (i, rest) else afterCollect rest

/-- How many pairs fill the window of a collecting instruction; 0 for the whole stream. -/
def windowSize (i : W64) : Nat := if seOp i = 0x0B then seA i else seB i

/-- How many of the `n` pairs of a window are delivered: all by SORT, the largest k by TOPK. -/
def windowGives (i : W64) (n : Nat) : Nat := if seOp i = 0x0B then n else min n (seA i)

/-- The total of units (R281). -/
def Stream.total (t : Stream) : Nat :=
  match t.program with
  | i :: _ => if seOp i = 1 then t.length / t.chunk else t.sources * (t.length / t.chunk)
  | [] => 0

/-- Does a stream's output go where its unit says, in whatever order units run: fast sum, with neither a filter nor a collecting stage
(R281, R284)? -/
def Stream.direct (t : Stream) : Bool := t.fast && !(t.program.any fun i => seOp i == 0x09 || seCollects i)

/-- Bytes that the units not yet finished emit, if no filter drops any: of their pairs, those that each window delivers. -/
def Stream.bytesLeft (t : Stream) : Nat :=
  match afterCollect t.program with
  | none => (t.total - t.units) * stageBytes t.chunk t.chunk t.program
  | some (i, rest) =>
    let pairs := (t.total - t.units) * (stageBytes t.chunk t.chunk (t.program.takeWhile fun j => !seCollects j) / 8) + t.window.length
    let full := if windowSize i = 0 then 0 else pairs / windowSize i
    let out (n : Nat) : Nat := stageBytes t.chunk (8 * windowGives i n) rest
    full * out (windowSize i) + out (pairs - full * windowSize i)

/-- Output offsets and lengths that the units not yet finished may write. -/
def Stream.unfinished (t : Stream) : List (Nat × Nat) :=
  if t.direct then
    let w := stageBytes t.chunk t.chunk t.program
    ((List.range t.total).filter fun u => decide ((t.arrived.filter fun a => a.2 == u * t.chunk).length < t.sources)).map fun u => (u * w, w)
  else [(t.out, t.bytesLeft)]

/-- The outputs of a stream's unfinished units in this module's memory are undefined (R306, R10). -/
def State.loseStreamOutput (s : State) (t : Stream) : State :=
  if t.outEp = 0 ∧ nodeOf t.outAddress = s.node then
    s.scribble (t.unfinished.map fun r => (localOf (t.outAddress + r.1), r.2))
  else s

/-- Engine `e` fails: its streams end with status 0x03, its contexts and home counts move to its peer. -/
def State.engineDisable (s : State) (e : Nat) : State :=
  if decide (e < 32) && s.eng.working.getLsbD e then
    let s := { s with eng := { s.eng with working := s.eng.working &&& ~~~ (BitVec.ofNat 32 (2 ^ e)) } }
    let peer := s.peerOf e
    let s := (s.eng.streams.filter fun t => t.engine == e).foldl (fun (s : State) t => (s.loseStreamOutput t).endStream t.handle 3) s
    let mine := (s.eng.contexts.filter fun c => decide (c.2.state ≠ 0) && decide (c.2.engine = e)).map Prod.fst
    let s := mine.foldl (fun s n =>
      match peer with
      | some p => s.setCtx n { s.ctx n with engine := p }
      | none => if (s.ctx n).state = 4 then s else s.contextFault n 2) s
    let s := match peer with
      | some p =>
        let mv (g : ExpertHome) : ExpertHome := if g.engine = e then { g with engine := p } else g
        { s with eng := { s.eng with homes := s.eng.homes.map fun (g : Nat × ExpertHome) => (g.1, mv g.2) } }
      | none => s
    (s.postEvent 0x30 4 (e + (peer.getD 0) * 256)).updateService
  else s

def execEngineDisable (engine : Nat) (s : State) : Host.Outcome State Fault Refusal := .next (s.engineDisable engine)

end Sys2Proof.Machine
end

