-- ==== Sys2Proof/Machine/Streams.lean ====
section
/-! DEFINITION. Streams: attach records and their checks (R273–R275, R280), input frames (R276, R277), units and stages (R279–R289),
spilled chunks (R285), completion and detach (R275, R277, R306). -/

namespace Sys2Proof.Machine

open Sys2Proof

/-! ## Programs (R278–R280) -/

/-- The opcode, option bits, format and ranges of one instruction. -/
def seLegal (i : W64) : Bool :=
  let o := seOpt i
  match seOp i with
  | 0x01 => (seFmt i == 8 || seFmt i == 0xA) && decide (o ≤ 2)
  | 0x02 => seFmt i == 0 && decide (o ≤ 2)
  | 0x03 => seFmt i == 0 && o == 0
  | 0x08 => seFmt i == 0 && o == 0 && seA i % 8 == 0 && decide (8 ≤ seA i) && decide (seA i ≤ 4096)
  | 0x09 => seFmt i == 0 && o % 8 != 0
  | 0x0A => seFmt i == 0 && o == 0
  | 0x0B => seFmt i == 0 && decide (o ≤ 7) && o % 4 != 3 && decide (1 ≤ seA i) && decide (seA i ≤ 1024)
  | 0x0C => seFmt i == 0 && decide (o ≤ 2) && decide (1 ≤ seA i) && decide (seA i ≤ 64)
      && (seB i == 0 || (decide (seA i ≤ seB i) && decide (seB i ≤ 1024)))
  | 0x0D => seFmt i == 0 && decide (o ≤ 1)
  | 0x10 => seFmt i == 0 && o == 0
  | 0x11 => seFmt i == 0 && o == 0
  | _ => false

/-- The rules of R280 for the instructions after the input: `prev` precedes, `w` is the length of W. -/
def seTail (take gatherOk merge : Bool) (chunk : Nat) : W64 → Nat → Nat → List W64 → Bool
  | _, _, _, [] => false
  | prev, w, collected, i :: rest =>
    seLegal i && !seInput i
      && (match seOp i with
        | 0x08 => take && gatherOk && (match rest with
            | j :: _ => seOp j == 0x10
            | [] => false)
        | 0x09 => if bitOf (seOpt i) 3 then seA i % 4 == 0 && decide (seA i + 4 ≤ w)
            else take && seA i % 8 == 0 && decide (seA i ≤ 224)
        | 0x0B | 0x0C => !merge && collected == 0
        | 0x0D => seOp prev == 0x01 || seOp prev == 0x03 || seOp prev == 0x0D
        | 0x10 => (match rest with
            | [j] => seOp j == 0x11
            | _ => false)
        | _ => true)
      && (if seOp i = 0x11 then rest.isEmpty && seOp prev == 0x10
          else seTail take gatherOk merge chunk i (seLength chunk w i) (collected + b2n (seCollects i)) rest)

/-- Is a program valid (R280)? -/
def programValid (t : Stream) (prog : List W64) : Bool :=
  decide (2 ≤ prog.length ∧ prog.length ≤ 64)
    && (match prog with
      | [] => false
      | i :: rest =>
        seLegal i && seInput i
          && seTail (seOp i == 3) (decide (t.table ≠ 0 ∧ t.tableRows ≠ 0)) (seOp i == 2) t.chunk i (seLength t.chunk t.chunk i) 0 rest)

/-! ## Attaching (R274, R275) -/

/-- A stream of a record with nothing received. -/
def Stream.fresh (record : W512) (slot : Nat) (prog : List W64) (fast : Bool) : Stream :=
  { handle := fieldOf 495 484 record.toNat, record := record, slot := slot, program := prog, fast := fast, chunks := [], arrived := [], units := 0
    heads := List.replicate (fieldOf 483 476 record.toNat + 1) 0, sums := [], window := [], out := 0, refused := 0
    dataError := false, ended := false }

/-- Is a global address one of this module, in range and aligned? -/
def State.ownAddress (s : State) (a align : Nat) : Bool := decide (nodeOf a = s.node) && decide (a % align = 0)

/-- The lowest run of `n` consecutive free slots in an engine's program store of 64, given the programs in it (R270, R274). -/
def freeSlots (mine : List Stream) (n : Nat) : Option Nat :=
  (List.range (65 - n)).find? fun p =>
    mine.all fun u => decide (p + n ≤ u.slot) || decide (u.slot + u.program.length ≤ p)

/-- What the checks of an attach make of its record: the status of its refusal, or the first slot and the instructions of its program
(log entry 22 gives the order of the checks). -/
def State.attachCheck (s : State) (t : Stream) : Except Nat (Nat × List W64) × State :=
  if t.fld 511 504 ≠ 1 ∨ t.outTc = 0 ∨ t.outTc = 7
      ∨ t.length = 0 ∨ t.length % t.chunk ≠ 0 ∨ ¬ (t.outEp = 0 ∨ (0x3000 ≤ t.outEp ∧ t.outEp < 0x3020)) then (.error 0x10, s)
  else if !s.eng.working.getLsbD t.engine then (.error 0x11, s)
  else if !s.ownAddress t.progAddress 8 then (.error 0x14, s)
  else if t.progLen < 2 ∨ 64 < t.progLen then (.error 0x12, s)
  else
    match s.memRead engineRequester [(localOf t.progAddress, t.progLen * 8)] with
    | (s, .error e) => (.error (if e.cause = .data then 0x12 else 0x14), s)
    | (s, .ok bs) =>
      let prog := (List.range t.progLen).map fun k => BitVec.ofNat 64 (numAt bs (8 * k) 8)
      let mine := s.eng.streams.filter fun u => u.engine == t.engine
      let gathers := prog.any fun i => seOp i == 0x08
      let r : Except Nat (Nat × List W64) :=
        if !programValid t prog then .error 0x12
        else if s.scratchUsed t.engine + Stream.scratch { t with program := prog } > 4194304 ∨ 16 ≤ mine.length then .error 0x13
        else
          match freeSlots mine prog.length with
          | none => .error 0x13
          | some slot =>
            if !s.nodeValid (nodeOf t.outAddress) ∨ (gathers ∧ !s.ownAddress t.table 1) ∨ !s.ownAddress t.completion 8
                ∨ (t.length > 4 * t.chunk ∧ ¬ (t.spill % 64 = 0 ∧ inHbm t.spill (t.sources * t.length))) then .error 0x14
            else if s.eng.streams.any fun u => u.handle == t.handle then .error 0x15
            else .ok (slot, prog)
      (r, s)

/-- Attach a stream; true when it is accepted. -/
def State.attachStream (s : State) (record : W512) : Bool × State :=
  let t := Stream.fresh record 0 [] false
  match s.attachCheck t with
  | (.error st, s) =>
    (false, (s.bump 0x580004).writeRecord 2 engineRequester (Origin.ofEngine t.engine) t.completion (natLE 8 (streamRecord 0 st)))
  | (.ok (slot, prog), s) =>
    let want := bitOf record.toNat 498
    let allowed := !s.det && decide (s.reg 0x580002 = 1)
    let sum := match prog with
      | i :: _ => seOp i == 1 && seOpt i == 0
      | [] => false
    let s := if want && !allowed then s.bump 0x580008 else s
    let s := s.bump 0x580003
    (true, { s with eng := { s.eng with streams := s.eng.streams ++ [Stream.fresh record slot prog (want && allowed && sum)] } })

/-! ## Pairs (R278, R288, R289) -/

/-- Does key `a` come before key `b` (−1), after it (1), or rank equal (0)? NaN comes last in both directions. -/
def keyOrder (type : Nat) (desc : Bool) (a b : W32) : Int :=
  let flip (less more : Bool) : Int :=
    if desc then (if more then -1 else if less then 1 else 0) else if less then -1 else if more then 1 else 0
  match type with
  | 0 => flip (decide (a.toNat < b.toNat)) (decide (b.toNat < a.toNat))
  | 1 => flip (decide (a.toInt < b.toInt)) (decide (b.toInt < a.toInt))
  | _ =>
    let x := f32Val a
    let y := f32Val b
    if x = .nan then (if y = .nan then 0 else 1)
    else if y = .nan then -1
    else flip (FVal.lt x y) (FVal.lt y x)

/-- Pair `p` is placed before pair `q`. -/
def pairBefore (type : Nat) (desc : Bool) (p q : Pair) : Bool :=
  let o := keyOrder type desc p.key q.key
  decide (o < 0) || (decide (o = 0) && (decide (p.rank < q.rank) || (decide (p.rank = q.rank) && decide (p.pos ≤ q.pos))))

/-- Insertion into a sorted window. -/
def insertPair (type : Nat) (desc : Bool) (p : Pair) : List Pair → List Pair
  | [] => [p]
  | q :: qs => if pairBefore type desc q p then q :: insertPair type desc p qs else p :: q :: qs

def sortPairs (type : Nat) (desc : Bool) (ps : List Pair) : List Pair := ps.foldl (fun acc p => insertPair type desc p acc) []

def pairBytes (ps : List Pair) : List Byte := ps.flatMap fun p => natLE 4 p.key.toNat ++ natLE 4 p.value.toNat

/-- The pairs of a window that a collecting instruction delivers, in order. -/
def deliverWindow (i : W64) (ps : List Pair) : List Pair :=
  if seOp i = 0x0B then sortPairs (seOpt i % 4) (bitOf (seOpt i) 2) ps else (sortPairs (seOpt i % 4) true ps).take (seA i)

/-! ## Stages -/

def State.stream? (s : State) (h : Nat) : Option Stream := s.eng.streams.find? fun t => t.handle == h
def State.mapStream (s : State) (h : Nat) (f : Stream → Stream) : State :=
  { s with eng := { s.eng with streams := s.eng.streams.map fun t => if t.handle = h then f t else t } }

/-- The TC of a stream's PUT frames: the record's, but PUT travels only on lossless TCs (R226; log entry 22). -/
def State.putTc (s : State) (t : Stream) : Nat := if s.bestEffort t.outTc then 5 else t.outTc

/-- The header of an output frame of `units` at output offset `at_` (R282). -/
def State.outputHdr (s : State) (t : Stream) (units at_ : Nat) : Hdr :=
  let h : Hdr := { destNode := nodeOf t.outAddress, srcNode := s.node, srcEp := 0x3000 + t.engine, units := units, tensor := t.tensor }
  if t.outEp = 0 then { h with kind := 1, tc := s.putTc t, offset := localOf t.outAddress + at_ }
  else { h with destEp := t.outEp, kind := 0x11, tc := t.outTc, group := t.handle, seq := t.outRank * 2 ^ 24, offset := at_ }

/-- Is a frame of [off, off + len) spoiled by a range GATHER could not read? -/
def spoiledBy (bad : List (Nat × Nat)) (off len : Nat) : Bool := bad.any fun b => decide (b.1 < off + len) && decide (off < b.1 + b.2)

/-- Count conversion events once their results are written (R50): FP32 and BF16 crush values and overflow to Inf, and no more. -/
def State.countEvents (s : State) (es : List (Nat × Bool)) : State :=
  (s.bumpBy 0x300102 (es.map Prod.fst).sum).setWide (es.any Prod.snd)

/-- The conversion events of the elements that lie in [off, off + len) of the `n` bytes they were converted to. -/
def eventsIn (es : List (Nat × Bool)) (n off len : Nat) : List (Nat × Bool) :=
  (es.take ((off + len) * es.length / max 1 n)).drop (off * es.length / max 1 n)

/-- Send W at output offset `at_` (R282). Frames whose rows could not be read are dropped: for uncorrectable words (`data`) with reason 0x09,
for refused addresses (`addr`) by the error record alone (R25, R228, R286). The conversion events `es` of W's elements count with the
frames that are written or sent (R50). -/
def State.emitAt (s : State) (t : Stream) (w : List Byte) (es : List (Nat × Bool)) (data addr : List (Nat × Nat)) (at_ : Nat) : State :=
  let port := 0x60 + t.engine
  let frame (s : State) (off len : Nat) (send : State → State × Bool) : State :=
    if spoiledBy data off len then s.logDiscard 9 port 0xFF (s.outputHdr t (ceilDiv len 64) (at_ + off)).encode
    else if spoiledBy addr off len then s
    else
      let r := send s
      if r.2 then r.1.countEvents (eventsIn es w.length off len) else r.1.mapStream t.handle fun t => { t with dataError := true }
  if t.outEp = 0 then
    let a := localOf t.outAddress + at_
    (pieces a w.length).foldl (fun s p => frame s p.1 p.2 fun s =>
      if nodeOf t.outAddress = s.node then
        -- the node's own memory is written inside the module (R20)
        let r := s.engineWrite (a + p.1) (slice w p.1 p.2)
        (r.1, r.2.isNone)
      else (s.sendPut (Origin.engine t.engine) (plainTag (.stream t.handle) (s.putTc t)) (nodeOf t.outAddress) (a + p.1) t.tensor
        (slice w p.1 p.2), true)) s
  else
    (List.range (ceilDiv w.length 4096)).foldl (fun s k =>
      let bs := padTo 64 ((w.drop (4096 * k)).take 4096)
      frame s (4096 * k) bs.length fun s =>
        (s.send port ⟨(s.outputHdr t (bs.length / 64) (at_ + 4096 * k)).encode, bs⟩, true)) s

/-- GATHER (R286): the rows; ranges of W lost to uncorrectable words, and to addresses that may not be read, each with its error record
(R25); and indices out of range. R286 lays a record out for uncorrectable words alone (that of R203): the record of a refused address is
laid out likewise, with memory 0x02 outside HBM, and is no count of 7010.02 or 7010.05, no discard and no stream status (DESIGN CHOICE, log
entry 36). -/
def State.gatherRows (s : State) (t : Stream) (row : Nat) (idx : List Nat) : State × List Byte × List (Nat × Nat) × List (Nat × Nat) :=
  (List.range idx.length).foldl (fun (r : State × List Byte × List (Nat × Nat) × List (Nat × Nat)) k =>
    let (s, w, data, addr) := r
    let i := idx.getD k 0
    let none_ := List.replicate row (0 : Byte)
    if i ≥ t.tableRows then (s.bump 0x580006, w ++ none_, data, addr)
    else
      match s.memRead engineRequester [(localOf (t.table + i * row), row)] with
      | (s, .ok bs) => (s, w ++ bs, data, addr)
      | (s, .error e) =>
        if e.cause = .data then (s, w ++ none_, data ++ [(k * row, row)], addr)
        else (s.contained.memoryRecord engineRequester e.addr 0, w ++ none_, data, addr ++ [(k * row, row)])) (s, [], [], [])

/-- Bytes as FP32 or BF16 words. -/
def wordsOf (w : Nat) (bs : List Byte) : List Nat := (List.range (bs.length * 8 / w)).map fun i => elemAt w bs i

/-- The conversion events of an element after another conversion of it. -/
def convStep (old : Nat × Bool) (c : Conv) : Nat × Bool := (old.1 + c.crush, old.2 || c.wide)

/-- The events of the elements of W after a conversion of all of them: none had any before the first. -/
def convSteps (old : List (Nat × Bool)) (cs : List Conv) : List (Nat × Bool) :=
  if old.isEmpty then cs.map (convStep (0, false)) else List.zipWith convStep old cs

/-- Pair `k` of the `m` pairs of W, with its place among the unit's input bytes: its position is that of the input byte it starts from
(R288). -/
def pairOf (chunk rank pos : Nat) (lost : Bool) (w : List Byte) (es : List (Nat × Bool)) (k : Nat) : Pair :=
  let n := es.length * 8 / max 1 w.length
  let mine := (es.drop (k * n)).take n
  { key := BitVec.ofNat 32 (numAt w (8 * k) 4), value := BitVec.ofNat 32 (numAt w (8 * k + 4) 4), rank := rank
    pos := pos + k * chunk / max 1 w.length, crushes := (mine.map Prod.fst).sum, wide := mine.any Prod.snd, lost := lost }

/-- Run W through instructions (R279, R281). `hdr` is the TAKE unit's header; `rank` and `pos` place its first pair; `unit` numbers it; `es`
are the conversion events of its elements, counted when they are sent (R50). Of a `lost` W, part of whose input was uncorrectable, only the
length counts: its frames are not sent, and neither are those of a window that it enters (R275). -/
def State.runStages (h unit rank pos : Nat) (hdr : W256) : List W64 → Bool → List Byte → List (Nat × Bool) → State → State
  | [], _, _, _, s => s
  | i :: rest, lost, w, es, s =>
    match s.stream? h with
    | none => s
    | some t =>
      let emit (s : State) (w : List Byte) (data addr : List (Nat × Nat)) : State :=
        let at_ := if t.direct then unit * w.length else t.out
        (if lost then s.mapStream h fun t => { t with dataError := true } else s.emitAt t w es data addr at_).mapStream h fun t =>
          { t with out := t.out + w.length }
      match seOp i with
      | 0x0D =>
        if seOpt i = 0 then
          let cs := (wordsOf 32 w).map fun x => convertElem 8 true false false .rne (FFmt.fp32.decode x)
          State.runStages h unit rank pos hdr rest lost (packElems 16 (cs.map Conv.bits)) (convSteps es cs) s
        else
          let cs := (wordsOf 16 w).map fun x => convertElem 0xA true false false .rne (FFmt.bf16.decode x)
          State.runStages h unit rank pos hdr rest lost (packElems 32 (cs.map Conv.bits)) (convSteps es cs) s
      | 0x09 =>
        let o := seOpt i
        let x := if bitOf o 3 then numAt w (seA i) 4 else fieldOf (seA i + 31) (seA i) hdr.toNat
        let holds := (cmpFlag (bitOf o 4) 32 x (seB i * 65536 + seC i)).meets (o % 8)
        if holds != bitOf o 5 || (lost && bitOf o 3) then State.runStages h unit rank pos hdr rest lost w es s else s
      | 0x0A =>
        if !lost && w.all (· == 0) then (s.bump 0x580005).mapStream h fun t => { t with out := t.out + w.length }
        else State.runStages h unit rank pos hdr rest lost w es s
      | 0x0B | 0x0C =>
        (List.range (w.length / 8)).foldl (fun s k =>
          let win := (match s.stream? h with
            | some t => t.window
            | none => []) ++ [pairOf t.chunk rank pos lost w es k]
          if win.length = windowSize i then
            let out := deliverWindow i win
            State.runStages h unit rank pos hdr rest (win.any Pair.lost) (pairBytes out) (out.map fun p => (p.crushes, p.wide))
              (s.mapStream h fun t => { t with window := [] })
          else s.mapStream h fun t => { t with window := win }) s
      | 0x08 =>
        -- EMIT follows at once (R280)
        let idx := if lost then [] else wordsOf 32 w
        let (s, out, data, addr) := s.gatherRows t (seA i) idx
        let out := if lost then List.replicate (w.length / 4 * seA i) 0 else out
        emit (if data.isEmpty then s else s.mapStream h fun t => { t with dataError := true }) out data addr
      | 0x10 => emit s w [] []
      | _ => s

/-! ## Units (R281, R283, R284) -/

/-- The elements of a chunk as FP32 values. -/
def reduceElems (fmt : Nat) (bs : List Byte) : List FVal := (wordsOf (fmtBits fmt) bs).map fun x => decodeElem fmt true x

/-- Combine two element values of REDUCE: sum rounded once, or max or min. -/
def reduceStep (opt : Nat) (acc : W32) (x : FVal) : W32 × Bool :=
  if opt = 0 then f32Round (FVal.add false (f32Val acc) x)
  else f32Round (FVal.pick (opt == 1) (f32Val acc) x)

/-- Add one chunk to an accumulator row; an empty row takes the elements. -/
def reduceRow (opt : Nat) (acc : List W32) (xs : List FVal) : List W32 × Bool :=
  if acc.isEmpty then (xs.map fun x => (f32Round x).1, false)
  else
    let rs := (acc.zip xs).map fun p => reduceStep opt p.1 p.2
    (rs.map Prod.fst, rs.any Prod.snd)

/-- Does the program merge? -/
def Stream.merges (t : Stream) : Bool := seOp (t.program.headD 0) == 2

/-- The lowest offset not yet complete: of the next unit, or of the heads of a merge. -/
def Stream.lowest (t : Stream) : Nat :=
  match t.program with
  | i :: _ =>
    if seOp i = 1 then t.units * t.chunk
    else if seOp i = 3 then t.units / t.sources * t.chunk
    else t.heads.foldl (fun m p => min m (8 * p / t.chunk * t.chunk)) t.length
  | [] => 0

/-- Has the turn of a source's chunk come (R285)? It lies within 4 chunks of the lowest offset not yet complete, or the merge may reach it
from the source's own head. -/
def Stream.due (t : Stream) (rank off : Nat) : Bool :=
  decide (off < t.lowest + 4 * t.chunk)
    || (t.merges && decide (off ≤ 8 * t.heads.getD rank 0 / t.chunk * t.chunk + t.chunk))

/-- A chunk in scratch. -/
def Stream.chunkAt (t : Stream) (rank off : Nat) : Option Chunk :=
  t.chunks.find? fun c => c.rank == rank && c.offset == off && !c.spilled

/-- The pair at position `p` of a source's stream, if it is in scratch. -/
def Stream.pairAt (t : Stream) (rank p : Nat) : Option Pair :=
  (t.chunkAt rank (8 * p / t.chunk * t.chunk)).map fun c =>
    let o := 8 * p - c.offset
    { key := BitVec.ofNat 32 (numAt c.bytes o 4), value := BitVec.ofNat 32 (numAt c.bytes (o + 4) 4), rank := rank, pos := p }

/-- Merge `n` pairs from the heads (R288), if every head needed is in scratch. -/
def Stream.mergePairs (t : Stream) (type : Nat) : Nat → List Nat → List Pair → Option (List Pair × List Nat)
  | 0, heads, acc => some (acc.reverse, heads)
  | n + 1, heads, acc =>
    let live := (List.range heads.length).filter fun r => decide (8 * heads.getD r 0 < t.length)
    let hs := live.map fun r => t.pairAt r (heads.getD r 0)
    if hs.any Option.isNone then none
    else
      match hs.filterMap id with
      | [] => some (acc.reverse, heads)
      | p :: ps =>
        let best := ps.foldl (fun b q => if pairBefore type false b q then b else q) p
        t.mergePairs type n (setAt heads best.rank (best.pos + 1)) (best :: acc)

/-- A unit whose input was uncorrectable runs for its length alone (R275): `len` bytes come from its input instruction. What a FILTER of its
bytes would have made of it is unknown: it passes (log entry 36). -/
def State.lostUnit (s : State) (h unit rank pos : Nat) (hdr : W256) (rest : List W64) (len : Nat) : State :=
  State.runStages h unit rank pos hdr rest true (List.replicate len 0) [] (s.mapStream h fun t => { t with dataError := true })

/-- Errors in words of the stream's scratch that their code corrects are met and counted (R270, R461). -/
def State.correctScratch (s : State) (h : Nat) : State :=
  match s.stream? h with
  | none => s
  | some t => (s.bumpBy 0xB02002 t.soft).mapStream h fun t => { t with soft := 0 }

/-- Run the next unit if its input is at hand; the second component says whether one ran. -/
def State.runUnit (s : State) (h : Nat) : State × Bool :=
  match s.stream? h with
  | none => (s, false)
  | some t =>
    match t.program with
    | [] => (s, false)
    | i :: rest =>
      let n := t.sources
      if t.units ≥ t.total then (s, false)
      else if seOp i = 1 then
        let off := t.units * t.chunk
        let cs := (List.range n).map fun r => t.chunkAt r off
        if cs.any Option.isNone then (s, false)
        else
          let bs := (cs.filterMap id).map Chunk.bytes
          let s := s.mapStream h fun t => { t with units := t.units + 1, chunks := t.chunks.filter fun c => c.offset != off }
          if bs.any List.isEmpty then (s.lostUnit h t.units 0 (off / 8) 0 rest (seLength t.chunk t.chunk i), true)
          else
            let r := bs.foldl (fun (r : List W32 × Bool) b =>
              let x := reduceRow (seOpt i) r.1 (reduceElems (seFmt i) b)
              (x.1, r.2 || x.2)) ([], false)
            (State.runStages h t.units 0 (off / 8) 0 rest false (r.1.flatMap fun x => natLE 4 x.toNat) [] (s.setWide r.2), true)
      else if seOp i = 3 then
        let off := t.units / n * t.chunk
        let rank := t.units % n
        match t.chunkAt rank off with
        | none => (s, false)
        | some c =>
          let s := s.mapStream h fun t =>
            { t with units := t.units + 1, chunks := t.chunks.filter fun c => !(c.offset == off && c.rank == rank) }
          if c.bytes.isEmpty then (s.lostUnit h t.units rank (off / 8) c.header rest t.chunk, true)
          else (State.runStages h t.units rank (off / 8) c.header rest false c.bytes [] s, true)
      else
        match t.mergePairs (seOpt i % 4) (t.chunk / 8) t.heads [] with
        | none => (s, false)
        | some (ps, heads) =>
          let s := s.mapStream h fun t =>
            { t with
                units := t.units + 1, heads := heads
                chunks := t.chunks.filter fun c => decide (8 * heads.getD c.rank 0 < c.offset + t.chunk) }
          let spoiled := ps.any fun p => (t.chunkAt p.rank (8 * p.pos / t.chunk * t.chunk)).any fun c => c.bytes.isEmpty
          if spoiled then (s.lostUnit h t.units 0 (t.units * t.chunk / 8) 0 rest t.chunk, true)
          else (State.runStages h t.units 0 (t.units * t.chunk / 8) 0 rest false (pairBytes ps) [] s, true)

/-- Once every unit has run, the partly filled window goes, and the stream has ended (R281). -/
def State.finishUnits (s : State) (h : Nat) : State :=
  match s.stream? h with
  | none => s
  | some t =>
    if t.units < t.total ∨ t.ended then s
    else
      let s := s.mapStream h fun t => { t with ended := true, window := [] }
      match afterCollect t.program with
      | some (i, rest) =>
        if t.window.isEmpty then s
        else
          let out := deliverWindow i t.window
          State.runStages h t.units 0 0 0 rest (t.window.any Pair.lost) (pairBytes out) (out.map fun p => (p.crushes, p.wide)) s
      | none => s

/-- Run every unit whose input is at hand. -/
def State.runUnits (h : Nat) : Nat → State → State
  | 0, s => s
  | fuel + 1, s =>
    let r := s.runUnit h
    if r.2 then State.runUnits h fuel (r.1.correctScratch h) else r.1.finishUnits h

def State.runStream (s : State) (h : Nat) : State :=
  match s.stream? h with
  | none => s
  | some t => State.runUnits h (t.total + 1) s

/-- With fast sum an offset runs once its last chunk has arrived, whatever offsets are before it (R284). -/
def State.runFast (s : State) (h off : Nat) : State :=
  match s.stream? h with
  | none => s
  | some t =>
    if (t.arrived.filter fun a => a.2 == off).length = t.sources then
      let w := (SMap.get [] t.sums off).flatMap fun x => natLE 4 x.toNat
      let s := (s.mapStream h fun t => { t with units := t.units + 1, sums := SMap.put [] t.sums off [] }).correctScratch h
      (if t.lostSums.contains off then s.lostUnit h (off / t.chunk) 0 (off / 8) 0 (t.program.drop 1) w.length
        else State.runStages h (off / t.chunk) 0 (off / 8) 0 (t.program.drop 1) false w [] s).finishUnits h
    else s

/-! ## Input frames (R276, R277, R285) -/

/-- Is an input frame refused? -/
def Stream.refuses (t : Stream) (h : Hdr) (len : Nat) : Bool :=
  decide (t.sources ≤ h.seq / 2 ^ 24) || h.offset % t.chunk != 0 || decide (t.length ≤ h.offset) || len != t.chunk
    || t.arrived.contains (h.seq / 2 ^ 24, h.offset)

/-- Take an accepted chunk: added at once for fast sum, kept in scratch where it lies within 4 chunks of the lowest offset not yet complete,
or spilled (R285). -/
def State.takeChunk (s : State) (t : Stream) (hd : Hdr) (f : Frame) : State :=
  let h := t.handle
  let rank := hd.seq / 2 ^ 24
  let off := hd.offset
  let s := s.mapStream h fun t => { t with arrived := t.arrived ++ [(rank, off)] }
  if t.fast then
    let i := t.program.headD 0
    let r := reduceRow 0 (SMap.get [] t.sums off) (reduceElems (seFmt i) f.payload)
    let s := (s.mapStream h fun t => { t with sums := SMap.put [] t.sums off r.1 }).setWide r.2
    s.runFast h off
  else if off < t.lowest + 4 * t.chunk then
    (s.mapStream h fun t => { t with chunks := t.chunks ++ [⟨rank, off, f.header, f.payload, false⟩] }).runStream h
  else
    let r := s.engineWrite (t.spill + rank * t.length + off) f.payload
    match r.2 with
    | none => r.1.mapStream h fun t => { t with chunks := t.chunks ++ [⟨rank, off, f.header, [], true⟩] }
    | some _ =>
      r.1.mapStream h fun t => { t with chunks := t.chunks ++ [⟨rank, off, f.header, [], false⟩], dataError := true }

/-- A STREAM frame at an engine. -/
def State.streamInput (s : State) (d : Delivered) : State :=
  let hd := Hdr.of d.frame.header
  let refuse (s : State) : State := (s.refuseFrame d).bump 0x580007
  match s.stream? hd.group with
  | none => refuse s
  | some t =>
    if t.engine ≠ d.port - 0x60 then refuse s
    else if t.ended ∨ t.refuses hd d.frame.payload.length then (refuse s).mapStream t.handle fun t => { t with refused := t.refused + 1 }
    else s.takeChunk t hd d.frame

def State.streamFrame (s : State) (port tc : Nat) : State :=
  match s.rxFind port tc fun h _ => enginePort port && h.kind == 0x11 with
  | none => s
  | some d => (s.consume d).streamInput d

def execStreamFrame (port tc : Nat) (s : State) : Host.Outcome State Fault Refusal := .next (s.streamFrame port tc)

/-- Spilled chunks whose turn has come are read back; one that is uncorrectable spoils its unit (R275, R285). -/
def State.streamSpillReadback (s : State) (h : Nat) : State :=
  match s.stream? h with
  | none => s
  | some t =>
    let due := t.chunks.filter fun c => c.spilled && t.due c.rank c.offset
    if due.isEmpty then s
    else
      let s := due.foldl (fun s c =>
        let r := s.memRead engineRequester [(localOf (t.spill + c.rank * t.length + c.offset), t.chunk)]
        let bs := match r.2 with
          | .ok bs => bs
          | .error _ => []
        r.1.mapStream h fun t => { t with chunks := t.chunks.map fun x =>
          if x.rank = c.rank ∧ x.offset = c.offset then { x with bytes := bs, spilled := false } else x }) s
      s.runStream h

def execStreamSpillReadback (handle : Nat) (s : State) : Host.Outcome State Fault Refusal := .next (s.streamSpillReadback handle)

/-- Has a stream an output frame that is not acknowledged? -/
def State.streamWaits (s : State) (h : Nat) : Bool :=
  s.net.tags.any fun e =>
    match e.2 with
    | some t => t.owner == .stream h
    | none => false

/-- A stream completes once every unit has run and every output is acknowledged (R277). -/
def State.streamComplete (s : State) (h : Nat) : State :=
  match s.stream? h with
  | none => s
  | some t => if t.ended && !s.streamWaits h then s.endStream h (if t.dataError then 1 else 0) else s

def execStreamComplete (handle : Nat) (s : State) : Host.Outcome State Fault Refusal := .next (s.streamComplete handle)

end Sys2Proof.Machine
end

