-- ==== Sys2Proof/Machine/Pools.lean ====
section
/-! DEFINITION. The Buffer Pool Manager: pool records, initialisation, ALLOC and FREE (R205–R212). -/

namespace Sys2Proof.Machine

open Sys2Proof

/-- The requester of the manager (R203). -/
def poolRequester : Requester := ⟨7, 0⟩

/-- The local address of the bitmap byte of buffer `i`. -/
def Pool.bitAt (q : Pool) (i : Nat) : Nat := q.meta + q.ringBytes + i / 8

/-- Is buffer `i` allocated? -/
def State.poolBit (s : State) (q : Pool) (i : Nat) : Bool := bitOf (s.rawByte (q.bitAt i)).toNat (i % 8)

def State.setPoolBit (s : State) (q : Pool) (i : Nat) (b : Bool) : State :=
  s.setByte (q.bitAt i) (BitVec.ofNat 8 (setField (s.rawByte (q.bitAt i)).toNat (i % 8) 1 (b2n b)))

/-- The low-water condition of a pool (R206). -/
def Pool.isLow (q : Pool) : Bool := decide (q.free < q.lowWater)

/-- An ALLOC, a FREE or a write of the low-water value has taken effect: the event is posted when the condition becomes true, whatever the
state of the pool. -/
def State.lowWater (s : State) (p : Nat) : State :=
  let q := s.pool p
  let s := s.setPool p { q with low := q.isLow }
  if q.isLow && !q.low then s.postEvent 0x50 0 (p + q.free * 2 ^ 32) else s

/-- A pool as it is enabled or initialised: the condition holds or not, without an event, since neither an ALLOC nor a change of the
low-water value of an enabled pool made it so (DESIGN CHOICE, log entry 23). -/
def Pool.settled (q : Pool) : Pool := { q with low := q.isLow }

/-- The manager meets an uncorrectable codeword of a pool, in a read (access 0) or a write of part of it (access 1) (R204, R212). -/
def State.poolError (s : State) (p a : Nat) (access : Nat := 0) : State := (s.logMemory poolRequester (wordOf a) access).faultPool p

/-! ## The cache and the ring (R209) -/

/-- Entries of the ring. -/
def Pool.ringSlots (q : Pool) : Nat := q.ringBytes / 4

/-- The local address of entry `i` of the ring, counted round it. -/
def Pool.entryAt (q : Pool) (i : Nat) : Nat := q.meta + 4 * (i % q.ringSlots)

/-- One access of a refill: the next entries of one codeword of the ring, while they fit below 256. -/
def State.refillMoves (s : State) (p : Nat) : Nat → State
  | 0 => s
  | n + 1 =>
    let q := s.pool p
    let k := min (16 - q.ringHead % 16) q.ringHeld
    if q.state ≠ 1 ∨ k = 0 ∨ 256 < q.cache.length + k then s
    else if s.poisoned (q.entryAt q.ringHead) then s.poolError p (q.entryAt q.ringHead)
    else
      let is := (List.range k).map fun j => leNat (s.rawBytes (q.entryAt (q.ringHead + j)) 4)
      let s := s.correctRead [(q.entryAt q.ringHead, 4 * k)]
      (s.setPool p { q with
        cache := q.cache ++ is, ringHead := (q.ringHead + k) % q.ringSlots, ringHeld := q.ringHeld - k }).refillMoves p n

/-- A cache of 128 entries or fewer is refilled from a ring that holds any, up to 256. -/
def State.refillCache (s : State) (p : Nat) : State :=
  if 0 < (s.pool p).ringHeld ∧ (s.pool p).cache.length ≤ 128 then s.refillMoves p 32 else s

/-- One access of a spill: the oldest entries of the cache go to the rest of one codeword of the ring, while 256 stay. A codeword written
in part needs its old bytes (R204). -/
def State.spillMoves (s : State) (p : Nat) : Nat → State
  | 0 => s
  | n + 1 =>
    let q := s.pool p
    let tail := (q.ringHead + q.ringHeld) % q.ringSlots
    let k := 16 - tail % 16
    if q.state ≠ 1 ∨ q.cache.length < 256 + k then s
    else if k < 16 ∧ s.poisoned (q.entryAt tail) then s.poolError p (q.entryAt tail) 1
    else
      let s := if k < 16 then s.correctRead [(q.entryAt tail, 4)] else s
      let s := (s.storeSeg (q.entryAt tail, (q.cache.take k).flatMap (natLE 4))).2
      (s.setPool p { q with cache := q.cache.drop k, ringHeld := q.ringHeld + k }).spillMoves p n

/-- A cache of 384 entries or more spills to its ring, down to 256. -/
def State.spillCache (s : State) (p : Nat) : State := if 384 ≤ (s.pool p).cache.length then s.spillMoves p 32 else s

/-- An ALLOC that meets an empty cache has it refilled first (R210). -/
def State.cacheReady (s : State) (p : Nat) : State := if (s.pool p).cache.isEmpty then s.refillCache p else s

/-- Take one free buffer of pool `p` from its cache; which one is a free choice (R209, R169). -/
def State.takeBuffer (s : State) (p : Nat) : Option Nat × State :=
  let s := s.cacheReady p
  let q := s.pool p
  if q.state ≠ 1 ∨ q.cache.isEmpty then (none, s)
  else
    let x := s.draw
    let j := x.1 % q.cache.length
    let i := q.cache.getD j 0
    let s := x.2
    if s.poisoned (q.bitAt i) then (none, s.poolError p (q.bitAt i))
    else
      let s := (s.correctRead [(q.bitAt i, 1)]).setPoolBit q i true
      let s := (s.setPool p { q with free := q.free - 1, cache := q.cache.eraseIdx j }).lowWater p
      (some (s.globalOf (q.base + i * q.size)), (s.bump 0x710004 1 p).refillCache p)

/-- The loop of R210 from pool `p`, with fuel for the chain. -/
def State.allocFrom (s : State) (p : Nat) : Nat → Option Nat × State
  | 0 => (none, s)
  | fuel + 1 =>
    let q := s.pool p
    if q.state ≠ 1 then (none, s)
    else if q.free > 0 then s.takeBuffer p
    else if !q.fallbackValid then (none, s)
    else State.allocFrom (s.bump 0x710005 1 p) q.fallback fuel

/-- ALLOC of pool `p`: the buffer's global address, or 0 (R210). -/
def State.alloc (s : State) (p : Nat) : Nat × State :=
  match s.allocFrom p 8 with
  | (some a, s) => (a, s)
  | (none, s) => (0, s.bump 0x710006 1 p)

/-- The size of the buffer at a global address, as the pool that holds it gives it. -/
def State.bufferSize (s : State) (a : Nat) : Nat :=
  match s.mem.pools.find? fun e => decide (e.2.base ≤ localOf a) && decide (localOf a < e.2.base + e.2.count * e.2.size)
      && decide (e.2.state ≠ 0) with
  | some e => e.2.size
  | none => 0

/-- Who frees: kind and identity of R211. -/
structure Freer where
  kind : Nat
  ident : Nat
  deriving DecidableEq, Repr

/-- Reject a FREE. -/
def State.rejectFree (s : State) (who : Freer) (a reason p : Nat) : Nat × State :=
  let s := if reason = 1 then s else s.bump 0x710007 1 p
  let s := s.bump 0x720002
  let rec_ := reason * 2 ^ 248 + p * 2 ^ 244 + who.kind * 2 ^ 240 + who.ident * 2 ^ 192 + s.now % 2 ^ 64 * 2 ^ 128 + a % 2 ^ 64 * 2 ^ 64
  (reason, { s with mem := { s.mem with rejections := logAppend 64 s.mem.rejections (BitVec.ofNat 256 rec_) } })

/-- FREE of a global address of this module: 0 when accepted, else the rejection reason (R211). -/
def State.freeHere (s : State) (who : Freer) (a : Nat) : Nat × State :=
  let l := localOf a
  if a = 0 then (0, s)
  else if !s.nodeValid (nodeOf a) then s.rejectFree who a 1 0
  else
    match (List.range 16).find? fun p =>
        let q := s.pool p
        (q.state == 1 || q.state == 2) && decide (q.base ≤ l) && decide (l < q.base + q.count * q.size) with
    | none => s.rejectFree who a 1 0
    | some p =>
      let q := s.pool p
      let i := (l - q.base) / q.size
      if q.state = 2 then s.rejectFree who a 4 p
      else if (l - q.base) % q.size ≠ 0 then s.rejectFree who a 2 p
      else if s.poisoned (q.bitAt i) then (s.poolError p (q.bitAt i)).rejectFree who a 4 p
      else if !s.poolBit q i then (s.correctRead [(q.bitAt i, 1)]).rejectFree who a 3 p
      else (0, ((((s.correctRead [(q.bitAt i, 1)]).setPoolBit q i false).setPool p { q with free := q.free + 1, cache := q.cache ++ [i] }).lowWater p).spillCache p)

/-! ## Records (R207, R208) -/

/-- Do two ranges overlap? -/
def overlap (a n b m : Nat) : Bool := decide (a < b + m) && decide (b < a + n)

/-- Does a region lie wholly within the near store or wholly within HBM? -/
def plainRegion (a n : Nat) : Bool := decide (a + n ≤ 0x800000000) || inHbmRange a n
where
  inHbmRange (a n : Nat) : Bool := decide (hbmBase ≤ a) && decide (a + n ≤ hbmEnd)

/-- The checks of R207 on enabling a pool or changing an enabled one. -/
def State.poolOk (s : State) (p : Nat) (q : Pool) : Bool :=
  let n := q.count * q.size
  let others := (List.range 16).filter fun k => k != p && (s.pool k).enabled
  q.base % q.size == 0 && plainRegion q.base n && q.meta % 64 == 0 && plainRegion.inHbmRange q.meta q.metaBytes
    && !overlap q.base n q.meta q.metaBytes
    && others.all fun k =>
      let o := s.pool k
      !overlap q.base n o.base (o.count * o.size) && !overlap q.base n o.meta o.metaBytes
        && !overlap q.meta q.metaBytes o.base (o.count * o.size) && !overlap q.meta q.metaBytes o.meta o.metaBytes

/-- Is the fallback acceptable? -/
def State.fallbackOk (s : State) (q : Pool) : Bool :=
  !q.fallbackValid || ((s.pool q.fallback).enabled && decide (q.cls < (s.pool q.fallback).cls))

/-- The record with the fields an enabled pool may change set to 0. -/
def Pool.fixedPart (q : Pool) : Nat :=
  setField (setField q.record.toNat 247 5 0) 0 32 0

/-- A write of a pool record (R207); none: refused with an access error. Disabling a pool leaves its ring undefined, and a pool that
stays disabled posts no low-water event (log entry 23). -/
def State.writePool (s : State) (p : Nat) (v : W256) : Option State :=
  let old := s.pool p
  let q : Pool := { old with record := v }
  let named := (List.range 16).any fun k => k != p && (s.pool k).enabled && (s.pool k).fallbackValid && (s.pool k).fallback == p
  if old.enabled then
    if q.enabled then
      if s.poolOk p q && s.fallbackOk q && decide (q.fixedPart = old.fixedPart) then some ((s.setPool p q).lowWater p) else none
    else if (old.state ≠ 2 ∧ old.state ≠ 3 ∧ old.free ≠ old.count) ∨ named ∨ q.fixedPart % 2 ^ 255 ≠ old.fixedPart % 2 ^ 255 ∨ !s.fallbackOk q then none
    else some ((s.setPool p { record := v }).scribble [(old.meta, old.ringBytes)])
  else if !s.fallbackOk q then none
  else if q.enabled then
    if s.poolOk p q then some (s.setPool p ({ record := v, state := 3 } : Pool).settled) else none
  else some (s.setPool p { record := v })

/-- An initialising pool finishes (R208): ring, bitmap and free count are written, and it is enabled; an uncorrectable codeword cannot
arise, since whole codewords are written. -/
def State.poolInitComplete (s : State) (p : Nat) : State :=
  let q := s.pool p
  if s.pow.powered ∧ p < 16 ∧ q.state = 3 then
    let ring := padTo 64 ((List.range q.count).flatMap fun i => natLE 4 i)
    let map := List.replicate (q.metaBytes - q.ringBytes) (0 : Byte)
    let s := (s.storeSeg (q.meta, ring ++ map)).2
    (s.setPool p ({ q with state := 1, free := q.count, cache := [], ringHead := 0, ringHeld := q.count } : Pool).settled).refillCache p
  else s

def execPoolInitComplete (pool : Nat) (s : State) : Host.Outcome State Fault Refusal := .next (s.poolInitComplete pool)

end Sys2Proof.Machine
end

