-- ==== Sys2Proof/Machine/ThreadMem.lean ====
section
/-! DEFINITION. The memory commands of a thread (R81, R99, R109, R210, R211), with the stores to launch ports and doorbells (R75, R300). -/

namespace Sys2Proof.Machine

open Sys2Proof

/-! ## Shared checks -/

/-- Cut bytes over ranges, in order. -/
def cutBytes : List Range' → List Byte → List WRange
  | [], _ => []
  | g :: gs, bs => (g.1, slice bs 0 g.2) :: cutBytes gs (bs.drop g.2)

/-- Does a pad operand overlap the bytes of the held destination (R141)? -/
def Slot.touchesHeld (t : Slot) (ds : List Desc) : Bool :=
  match t.held with
  | none => false
  | some h =>
    let hs := (Desc.of h.dest).ranges
    ds.any fun d => !d.global && d.ranges.any fun g => hs.any fun k => decide (g.1 < k.1 + k.2) && decide (k.1 < g.1 + g.2)

/-- Step 10 of R492 for a command that is neither a chain multiply nor COMMIT. -/
def Cmd.commitOk (x : Issue) (ds : List Desc) : Cmd Unit := do
  let t ← Cmd.slot x.id
  Cmd.require (!t.touchesHeld ds) 0x20

/-! ## LOAD, STORE and COPY -/

/-- Run a command; when it halts with reason 0x13, change the state it leaves. -/
def Cmd.onData {α : Type} (f : State → State) (c : Cmd α) : Cmd α := fun s =>
  match c s with
  | .error (.halt 0x13 fault s') => .error (.halt 0x13 fault (f s'))
  | r => r

/-- A PUT whose source is uncorrectable is dropped while its frame is built (R202, R228). -/
def State.dropPut (s : State) (i : SlotId) (tc a tensor : Nat) : State :=
  if nodeOf a = s.node then s
  else
    let h : Hdr := { destNode := nodeOf a, destEp := 0, srcNode := s.node, srcEp := 0x1000 + i.hive, kind := 1, tc := tc
                     tensor := tensor, offset := localOf a }
    s.logDiscard 9 (0x40 + i.hive) 0xFF h.encode

/-- A raw copy of one tile to another, with its scales and metadata (R99). -/
def copyBody (srcGlobal destGlobal : Bool) (x : Issue) : Cmd After := do
  let t ← Cmd.slot x.id
  let a := t.tile (cmdA x.word)
  let d := t.tile (cmdD x.word)
  Cmd.check (a.reason [0, 1, 2, 3] true <|> d.reason [0, 1, 2, 3] true)
  Cmd.require (a.global == srcGlobal && d.global == destGlobal && a.agrees d) 0x05
  Cmd.commitOk x [a, d]
  Cmd.holdLines x d.dest
  Cmd.into x d.dest do
    let bs ← Cmd.onData (fun s => if destGlobal then s.dropPut x.id 5 d.base d.tensor else s) (Cmd.read x a.global a.ranges)
    Cmd.write x d.global (cutBytes d.ranges bs) 5 d.tensor
  pure .next

def execLoad (i : SlotId) (s : State) : Host.Outcome State Fault Refusal :=
  .next (runCommand s i (fun w => cmdOp w == 0x20) (copyBody true false))

def execStore (i : SlotId) (s : State) : Host.Outcome State Fault Refusal :=
  .next (runCommand s i (fun w => cmdOp w == 0x21) (copyBody false true))

def execCopy (i : SlotId) (s : State) : Host.Outcome State Fault Refusal :=
  .next (runCommand s i (fun w => cmdOp w == 0x2A) (copyBody true true))

/-! ## GATHER and SCATTER (R109) -/

/-- The checks of steps 5 to 7 for a table, an index tile and a tile of rows. -/
def indexedReason (a b d table rows : Desc) : Option Nat :=
  a.reason [0] false <|> b.reason [0] false <|> d.reason [0] false
    <|> (if b.fmt = 0xA then none else some 0x04)
    <|> (if b.rows = 1 ∧ rows.rows = b.cols ∧ rows.rowBytes = table.rowBytes then none else some 0x05)

/-- The indices of an index tile. -/
def Cmd.indices (x : Issue) (b : Desc) : Cmd (List Nat) := do
  let bs ← Cmd.read x b.global [(b.rowAt 0 0, b.rowBytes)]
  pure ((List.range b.cols).map fun j => numAt bs (4 * j) 4)

/-- Spread rows read for the indices in range over all of them; the others are zero. -/
def spreadRows (len rows : Nat) : List Nat → List Byte → List (List Byte)
  | [], _ => []
  | i :: is, bs =>
    if i < rows then slice bs 0 len :: spreadRows len rows is (bs.drop len) else List.replicate len 0 :: spreadRows len rows is bs

def gatherBody (x : Issue) : Cmd After := do
  let t ← Cmd.slot x.id
  let a := t.tile (cmdA x.word)
  let b := t.tile (cmdB x.word)
  let d := t.tile (cmdD x.word)
  Cmd.check (indexedReason a b d a d)
  Cmd.commitOk x [a, b, d]
  Cmd.holdLines x d.dest
  Cmd.into x d.dest do
    let is ← Cmd.indices x b
    let bs ← Cmd.onData (fun s => if d.global then s.dropPut x.id 5 d.base d.tensor else s)
      (Cmd.read x a.global ((is.filter fun i => decide (i < a.rows)).map fun i => (a.rowAt 0 i, a.rowBytes)))
    let rows := spreadRows a.rowBytes a.rows is bs
    Cmd.write x d.global ((List.range is.length).map fun j => (d.rowAt 0 j, rows.getD j [])) 5 d.tensor
    Cmd.update fun s => s.bumpBy 0x206001 (is.filter fun i => decide (a.rows ≤ i)).length
  pure .next

def execGather (i : SlotId) (s : State) : Host.Outcome State Fault Refusal :=
  .next (runCommand s i (fun w => cmdOp w == 0x22) gatherBody)

/-- Row `j` and index `j` of a SCATTER, as a write to the table. -/
def scatterWrites (d : Desc) (len : Nat) : List Nat → List Byte → List WRange
  | [], _ => []
  | i :: is, bs =>
    (if i < d.rows then [(d.rowAt 0 i, slice bs 0 len)] else []) ++ scatterWrites d len is (bs.drop len)

def scatterBody (x : Issue) : Cmd After := do
  let t ← Cmd.slot x.id
  let a := t.tile (cmdA x.word)
  let b := t.tile (cmdB x.word)
  let d := t.tile (cmdD x.word)
  Cmd.check (indexedReason a b d d a)
  Cmd.commitOk x [a, b, d]
  let is ← Cmd.indices x b
  let dest : Dest := ⟨d.global, (is.filter fun i => decide (i < d.rows)).map fun i => (d.rowAt 0 i, d.rowBytes)⟩
  Cmd.holdLines x dest
  Cmd.into x dest do
    let bs ← Cmd.onData (fun s => if d.global then s.dropPut x.id 5 d.base d.tensor else s)
      (Cmd.read x a.global ((List.range a.rows).map fun j => (a.rowAt 0 j, a.rowBytes)))
    Cmd.write x d.global (scatterWrites d a.rowBytes is bs) 5 d.tensor
    Cmd.update fun s => s.bumpBy 0x206001 (is.filter fun i => decide (d.rows ≤ i)).length
  pure .next

def execScatter (i : SlotId) (s : State) : Host.Outcome State Fault Refusal :=
  .next (runCommand s i (fun w => cmdOp w == 0x23) scatterBody)

/-! ## LDR and STR -/

/-- The address of LDR and STR: the s pair plus a signed offset, modulo 2^64; misaligned halts with reason 0x12. -/
def Cmd.address (x : Issue) (n : Nat) : Cmd Nat := do
  let t ← Cmd.slot x.id
  let a := ofInt 64 ((t.pair (cmdA x.word).num : Nat) + toSigned 32 (cmdMods x.word % 2 ^ 32))
  if a % n ≠ 0 then Cmd.fail 0x12 a else pure a

/-- 8 for a vector register, else 4. -/
def wordBytes : Opnd → Nat
  | .v _ => 8
  | _ => 4

def ldrBody (x : Issue) : Cmd After := do
  let n := wordBytes (cmdD x.word)
  let a ← Cmd.address x n
  let bs ← Cmd.readGlobal x [((a : Int), n)]
  Cmd.mapSlot x.id fun t => t.put (cmdD x.word) (leNat bs)
  pure .next

def execLdr (i : SlotId) (s : State) : Host.Outcome State Fault Refusal :=
  .next (runCommand s i (fun w => cmdOp w == 0x24) ldrBody)

/-- A control-space unit that takes an aligned 8 B store of this thread: its launch port, or a doorbell on the hub of the expert's home
engine. -/
inductive Unit8 where
  | port (off : Nat)
  | doorbell (expert : Nat)
  | none
  deriving DecidableEq, Repr

def State.unit8 (s : State) (i : SlotId) (a : Nat) : Unit8 :=
  if nodeOf a ≠ s.node then .none
  else
    match place (localOf a) with
    | .hub east off =>
      if !east && decide (launchPortBase ≤ off ∧ off < launchPortEnd) then
        (if (off - launchPortBase) / 32 = i.key then .port (off % 32) else .none)
      else if doorbellBase ≤ off ∧ off < doorbellEnd then
        let e := (off - doorbellBase) / 8
        if decide (16 ≤ expEngine (s.expert e)) = east then .doorbell e else .none
      else .none
    | _ => .none

/-- STR. R75 takes 8 B stores at a launch port or doorbell; whether R78 makes a tile STORE, SCATTER or COPY one, the spec does not say: only
an 8 B STR is (DESIGN CHOICE, log entry 37). -/
def strBody (x : Issue) : Cmd After := do
  let t ← Cmd.slot x.id
  let n := wordBytes (cmdB x.word)
  let v := t.value (cmdB x.word)
  let a ← Cmd.address x n
  let s ← get
  match (if n = 8 then s.unit8 x.id a else .none) with
  | .port off => Cmd.update fun s => s.portStore x.id off v
  | .doorbell e => Cmd.update fun s => s.ringDoorbell e v
  | .none =>
    Cmd.holdLines x ⟨true, [((a : Int), n)]⟩
    Cmd.writeGlobal x [((a : Int), natLE n v)] 5 0
  pure .next

def execStr (i : SlotId) (s : State) : Host.Outcome State Fault Refusal :=
  .next (runCommand s i (fun w => cmdOp w == 0x25) strBody)

/-! ## ATOM (R81) -/

/-- The new value an atomic leaves: ADD, MAX, MIN or CAS on `w`-bit values. -/
def atomicNew (op w : Nat) (signed : Bool) (old x compare : Nat) : Nat :=
  let less (a b : Nat) : Bool := if signed then decide (toSigned w a < toSigned w b) else decide (a % 2 ^ w < b % 2 ^ w)
  match op with
  | 0 => (old + x) % 2 ^ w
  | 1 => if less old x then x % 2 ^ w else old
  | 2 => if less x old then x % 2 ^ w else old
  | _ => if old = compare % 2 ^ w then x % 2 ^ w else old

/-- Can an atomic of `n` bytes be performed at a local address? -/
def atomicAt (a n : Nat) : Bool :=
  decide (a % n = 0) && (match place a with
    | .near _ => true
    | .hbm => true
    | _ => false)

/-- Perform an atomic at a local address: the old value. `mods` is ATOM's modifier field. -/
def State.atomicHere (s : State) (who : Requester) (a mods x compare : Nat) : State × Except MemErr Nat :=
  let n := if bitOf mods 2 then 8 else 4
  if !atomicAt a n then (s, .error ⟨.address, a⟩)
  else
    match s.memRead who [(a, n)] with
    | (s, .error e) => (s, .error e)
    | (s, .ok bs) =>
      let old := leNat bs
      match s.memWrite who [(a, natLE n (atomicNew (mods % 4) (8 * n) (bitOf mods 3) old x compare))] with
      | (s, some e) => (s, .error e)
      | (s, none) => (s, .ok old)

/-- The key of `fetched` under which the answer to a remote ATOM or FREE waits. -/
def answerKey : Nat := 2 ^ 64

/-- The answer a remote request has brought, if it has. -/
def Slot.answer (t : Slot) : Option Nat :=
  if (SMap.get none t.fetched answerKey).isSome then
    some (leNat ((List.range 8).map fun k => (SMap.get none t.fetched (answerKey + k)).getD 0))
  else none

/-- Write the old value to ATOM's destination. -/
def Slot.putAtom (t : Slot) (o : Opnd) (wide : Bool) (old : Nat) : Slot :=
  match o with
  | .s n => if wide then t.setPair n old else t.setS n old
  | _ => t

def atomBody (x : Issue) : Cmd After := do
  let t ← Cmd.slot x.id
  let m := cmdMods x.word % 16
  let wide := bitOf m 2
  let n := if wide then 8 else 4
  let a := t.pair (cmdA x.word).num
  let reg (o : Opnd) : Nat := match o with
    | .s k => if wide then t.pair k else (t.sreg k).toNat
    | _ => 0
  let v := reg (cmdB x.word)
  let c := reg (cmdD x.word)
  let s ← get
  if !s.nodeValid (nodeOf a) then Cmd.fail 0x10 a
  else if nodeOf a = s.node then
    match s.atomicHere (Requester.ofThread x.id) (localOf a) m v c with
    | (s', .error e) =>
      Cmd.update fun _ => s'
      Cmd.fail (memReason e.cause) (s'.globalOf e.addr)
    | (s', .ok old) =>
      Cmd.update fun _ => s'
      Cmd.mapSlot x.id fun t => t.putAtom (cmdD x.word) wide old
      pure .next
  else
    match t.answer with
    | some old =>
      Cmd.mapSlot x.id fun t => t.putAtom (cmdD x.word) wide old
      pure .next
    | none =>
      Cmd.holdLines x ⟨true, [((a : Int), n)]⟩
      let waits := !(cmdD x.word).isNone
      Cmd.update fun s => s.sendAtomic (Origin.hive x.id.hive)
        { s.threadTag x.id (.threadAtom x.id) 5 with here := if waits then some answerKey else none } (nodeOf a) (localOf a) m v c
      if waits then Cmd.await x.id .remote else pure .next

def execAtom (i : SlotId) (s : State) : Host.Outcome State Fault Refusal :=
  .next (runCommand s i (fun w => cmdOp w == 0x26) atomBody)

/-! ## ALLOC and FREE -/

def allocBody (x : Issue) : Cmd After := do
  let t ← Cmd.slot x.id
  let p := t.value (cmdA x.word)
  let s ← get
  let r := s.alloc p
  Cmd.update fun _ => r.2
  Cmd.mapSlot x.id fun t => (t.setPair (cmdD x.word).num r.1).setP (cmdMods x.word % 8) (decide (r.1 ≠ 0))
  pure .next

def execAlloc (i : SlotId) (s : State) : Host.Outcome State Fault Refusal :=
  .next (runCommand s i (fun w => cmdOp w == 0x27) allocBody)

def freeBody (x : Issue) : Cmd After := do
  let t ← Cmd.slot x.id
  let a := t.pair (cmdA x.word).num
  let p := cmdMods x.word % 8
  let s ← get
  if a = 0 ∨ nodeOf a = s.node ∨ !s.nodeValid (nodeOf a) then
    let r := s.freeHere ⟨1, x.id.key⟩ a
    Cmd.update fun _ => r.2
    Cmd.mapSlot x.id fun t => t.setP p (decide (r.1 = 0))
    pure .next
  else
    match t.answer with
    | some v =>
      Cmd.mapSlot x.id fun t => t.setP p (decide (v = 0))
      pure .next
    | none =>
      Cmd.update fun s => s.sendFree (Origin.hive x.id.hive) (s.threadTag x.id (.threadFree x.id) 5) a
      Cmd.await x.id .remote

def execFree (i : SlotId) (s : State) : Host.Outcome State Fault Refusal :=
  .next (runCommand s i (fun w => cmdOp w == 0x28) freeBody)

/-! ## DLOAD -/

def dloadBody (x : Issue) : Cmd After := do
  let t ← Cmd.slot x.id
  let a := t.pair (cmdA x.word).num
  let n := cmdMods x.word % 64
  if a % 32 ≠ 0 then Cmd.fail 0x12 a
  else
    let bs ← Cmd.readGlobal x [((a : Int), 32 * n)]
    Cmd.mapSlot x.id fun t => (List.range n).foldl (fun t k => t.setD ((cmdD x.word).num + k) (numAt bs (32 * k) 32)) t
    pure .next

def execDload (i : SlotId) (s : State) : Host.Outcome State Fault Refusal :=
  .next (runCommand s i (fun w => cmdOp w == 0x29) dloadBody)

end Sys2Proof.Machine
end

