-- ==== Sys2Proof/Machine/Tensor.lean ====
section
/-! DEFINITION. Reading tiles (R41, R44, R94, R123–R130), and the tensor commands: MMA, MMA24, MMASA (R53–R55, R58, R100, R152–R155)
with shadow tiles (R189–R191) and speculation (R140–R145), COMMIT (R142, R149), and PACK (R127). -/

namespace Sys2Proof.Machine

open Sys2Proof

/-! ## Tiles as elements -/

/-- A stored element that is present: its logical position in the row, its code, its block's scale code (127 when unscaled) and its
exact value. -/
structure Elem where
  pos : Nat
  code : Nat
  scale : Nat
  val : FVal
  deriving DecidableEq, Repr

/-- A tile as read: by piece, row and present element; the 2:4 groups with equal positions and the dropped indices met. -/
structure TileRows where
  pieces : List (List (List Elem))
  conflicts : Nat := 0
  dropped : Nat := 0
  deriving DecidableEq, Repr

def TileRows.row (t : TileRows) (p r : Nat) : List Elem := (t.pieces.getD p []).getD r []

/-- A run of consecutive bytes of a row and the elements it holds: index among its values, position, scale code. -/
structure Run where
  start : Int
  len : Nat
  els : List (Nat × Nat × Nat)

/-- Split bytes into parts of given lengths. -/
def splitParts : List Nat → List Byte → List (List Byte)
  | [], _ => []
  | n :: ns, bs => bs.take n :: splitParts ns (bs.drop n)

/-- Read ranges, each on its own. -/
def Cmd.readParts (x : Issue) (global : Bool) (rs : List Range') (tc : Nat := 5) : Cmd (List (List Byte)) := do
  let bs ← Cmd.read x global rs tc
  pure (splitParts (rs.map fun g => g.2) bs)

/-- The blocks of a row that share a scale: first position and count. An unscaled row is one block. -/
def Desc.spans (d : Desc) : List (Nat × Nat) :=
  if d.scaled then (List.range d.blocks).map fun b => (b * d.blockSize, min d.blockSize (d.cols - b * d.blockSize))
  else [(0, d.cols)]

/-- The scale code of a position, from the bytes of the scale array. -/
def Desc.scaleCode (d : Desc) (sc : List Byte) (p r pos : Nat) : Nat :=
  if d.scaled then (sc.getD ((p * d.rows + r) * d.blocks + pos / d.blockSize) 0).toNat else 127

/-- The chunks of a dense row: one per block that is not a zero block. -/
def Desc.denseChunks (d : Desc) (sc : List Byte) (p r : Nat) : List Run :=
  (d.spans.filter fun b => d.scaleCode sc p r b.1 != 255).map fun b =>
    ⟨d.rowAt p r + (b.1 * d.width / 8 : Nat), ceilDiv (b.2 * d.width) 8,
      (List.range b.2).map fun i => (i, b.1 + i, d.scaleCode sc p r b.1)⟩

/-- The nibble of group `g` of a block's metadata bytes (R124). -/
def nibbleAt (bs : List Byte) (g : Nat) : Nat := elemAt 4 bs g

/-- The elements of a 2:4 block from its metadata bytes, and its groups with equal positions (R126). -/
def pairEls (sc first count : Nat) (bs : List Byte) : List (Nat × Nat × Nat) × Nat :=
  let gs := List.range (count / 4)
  let same (g : Nat) : Bool := decide (nibbleAt bs g % 4 = nibbleAt bs g / 4 % 4)
  (gs.flatMap fun g =>
      (2 * g, first + 4 * g + nibbleAt bs g % 4, sc)
        :: (if same g then [] else [(2 * g + 1, first + 4 * g + nibbleAt bs g / 4 % 4, sc)]),
    (gs.filter same).length)

/-- The chunks of a 2:4 row whose live blocks' metadata has been read. -/
def Desc.pairChunks (d : Desc) (sc : List Byte) (r : Nat) : List (Nat × Nat) → List (List Byte) → List Run × Nat
  | b :: bs, m :: ms =>
    let e := pairEls (d.scaleCode sc 0 r b.1) b.1 b.2 m
    let rest := d.pairChunks sc r bs ms
    (⟨d.rowAt 0 r + (b.1 / 2 * d.width / 8 : Nat), ceilDiv (b.2 / 2 * d.width) 8, e.1⟩ :: rest.1, e.2 + rest.2)
  | _, _ => ([], 0)

/-- The value index and position of each present entry of a bitmap row, and its set bits beyond the columns (R128). -/
def bitmapEntries (cols : Nat) (m : List Byte) : List (Nat × Nat) × Nat :=
  let bit (j : Nat) : Bool := bitOf (m.getD (j / 8) 0).toNat (j % 8)
  let present := (List.range cols).filter bit
  ((List.range present.length).zip present,
    ((List.range (8 * m.length - cols)).filter fun j => bit (cols + j)).length)

/-- The same for an index-list row (R129). -/
def indexEntries (cols entries : Nat) (m : List Byte) : List (Nat × Nat) × Nat :=
  let ix := (List.range entries).map fun j => (j, numAt m (2 * j) 2)
  (ix.filter fun e => decide (e.2 < cols), (ix.filter fun e => decide (cols ≤ e.2 ∧ e.2 ≠ 0xFFFF)).length)

/-- The chunks of an activation row: one per value to fetch. -/
def Desc.valueChunks (d : Desc) (sc : List Byte) (r : Nat) (es : List (Nat × Nat)) : List Run :=
  (es.filter fun e => d.scaleCode sc 0 r e.2 != 255).map fun e =>
    ⟨d.rowAt 0 r + (e.1 * d.width / 8 : Nat), d.width / 8, [(0, e.2, d.scaleCode sc 0 r e.2)]⟩

/-- The chunks of every piece and row, with conflicts and dropped indices; metadata is read here. -/
def Cmd.chunks (x : Issue) (d : Desc) (sc : List Byte) (tc : Nat) : Cmd (List (List (List Run)) × Nat × Nat) := do
  match d.sparse with
  | 0 => pure ((List.range d.pieces).map fun p => (List.range d.rows).map fun r => d.denseChunks sc p r, 0, 0)
  | 1 =>
    let live (r : Nat) := d.spans.filter fun b => d.scaleCode sc 0 r b.1 != 255
    let ms ← Cmd.readParts x d.global ((List.range d.rows).flatMap fun r =>
      (live r).map fun b => (d.metaAt r + (b.1 / 8 : Nat), ceilDiv (b.2 / 4) 2)) tc
    let rows := (List.range d.rows).foldl (fun (acc : List (List Run × Nat) × List (List Byte)) r =>
      (acc.1 ++ [d.pairChunks sc r (live r) acc.2], acc.2.drop (live r).length)) ([], ms)
    pure ([rows.1.map Prod.fst], (rows.1.map Prod.snd).sum, 0)
  | k =>
    let ms ← Cmd.readParts x d.global ((List.range d.rows).map fun r => (d.metaAt r, d.metaRow)) tc
    let es := ms.map fun m => if k = 2 then bitmapEntries d.cols m else indexEntries d.cols d.entries m
    pure ([(List.range d.rows).map fun r => d.valueChunks sc r (es.getD r ([], 0)).1], 0, (es.map Prod.snd).sum)

/-- The elements of chunks that have been read. -/
def Desc.elems (d : Desc) : List Run → List (List Byte) → List Elem
  | c :: cs, b :: bs =>
    (c.els.map fun e =>
      let v := elemAt d.width b e.1
      { pos := e.2.1, code := v, scale := e.2.2, val := (decodeElem d.fmt d.signed v).scale ((e.2.2 : Int) - 127) }) ++ d.elems cs bs
  | _, _ => []

/-- Give each row of chunks its parts of the bytes read. -/
def Desc.rowsOf (d : Desc) : List (List Run) → List (List Byte) → List (List Elem)
  | [], _ => []
  | cs :: rest, bs => d.elems cs bs :: d.rowsOf rest (bs.drop cs.length)

/-- Read a tile: its scales, its metadata, then the bytes of its present elements. -/
def Cmd.tile (x : Issue) (d : Desc) (tc : Nat := 5) : Cmd TileRows := do
  let sc ← if d.scaled then Cmd.read x d.global [(d.scaleAt 0 0, d.pieces * d.rows * d.blocks)] tc else pure []
  let cs ← Cmd.chunks x d sc tc
  let bs ← Cmd.readParts x d.global ((cs.1.flatten.flatten).map fun c => (c.start, c.len)) tc
  let rows := d.rowsOf cs.1.flatten bs
  pure { pieces := (List.range d.pieces).map fun p => (rows.drop (p * d.rows)).take d.rows, conflicts := cs.2.1, dropped := cs.2.2 }

/-- The value at a position of a row; an absent element reads +0 (R44). -/
def valueAt (r : List Elem) (pos : Nat) : FVal :=
  match r.find? fun e => e.pos == pos with
  | some e => e.val
  | none => FVal.zero

/-- Every value of a row of a dense tile. -/
def Desc.rowValues (d : Desc) (r : List Elem) : List FVal :=
  if r.length = d.cols then r.map Elem.val else (List.range d.cols).map (valueAt r)

/-- Read a dense tile of one piece as values, row by row. FP32X reads through FP32 (R176); a finite value that becomes Inf by it sets the
wide-overflow flag (R46, R50). -/
def Cmd.values (x : Issue) (d : Desc) : Cmd (List (List FVal)) := do
  let t ← Cmd.tile x d
  let rows := (List.range d.rows).map fun r => d.rowValues (t.row 0 r)
  if d.fmt = 0xB then do
    let rs := rows.map fun vs => vs.map f32Round
    Cmd.update fun s => s.setWide (rs.flatten.any Prod.snd)
    pure (rs.map fun vs => vs.map fun r => f32Val r.1)
  else pure rows

/-! ## One entry of a multiply -/

/-- The floating-point formats of the tensor unit. -/
def tensorFloat (f : Nat) : Bool := f == 1 || f == 2 || f == 4 || f == 5 || f == 8 || f == 9

/-- The operand pairs of R53. -/
def pairOk (f g : Nat) : Bool := (tensorFloat f && tensorFloat g) || (fmtIsInt f && fmtIsInt g)

/-- The block size of R153. -/
def mulBlock (a b : Desc) : Nat := if (a.scaled && a.block16) || (b.scaled && b.block16) then 16 else 32

/-- The piece pairs of R58. -/
def piecePairs (na nb : Nat) : List (Nat × Nat) :=
  (List.range na).flatMap fun i => ((List.range nb).filter fun j => decide (i + j < max na nb)).map fun j => (i, j)

/-- The performed products of entry (m, n): position and exact value; the operand values of each are kept for the shadow. -/
def products (a b : TileRows) (m n : Nat) : List (Nat × FVal × FVal) :=
  (piecePairs a.pieces.length b.pieces.length).flatMap fun q =>
    (a.row q.1 m).flatMap fun e =>
      match (b.row q.2 n).find? fun f => f.pos == e.pos with
      | some f => [(e.pos, e.val, f.val)]
      | none => []

/-- The integer that an integer value is. -/
def FVal.toInt : FVal → Int
  | .num s m e => signedOf s (m * 2 ^ e.toNat)
  | _ => 0

/-- The accumulator entry of R152 and R155, from its start. -/
def entrySum (isInt : Bool) (blockSize k : Nat) (start : W32) (ps : List (Nat × FVal × FVal)) : AccEntry :=
  let blk (i : Nat) : List FVal := (ps.filter fun p => decide (p.1 / blockSize = i)).map fun p => FVal.mul p.2.1 p.2.2
  let bs := (List.range (ceilDiv k blockSize)).map blk
  if isInt then
    let r := intSum start (bs.map fun b => (b.map FVal.toInt).sum)
    ⟨r.1, false, r.2⟩
  else
    let r := refSum start bs
    ⟨r.1, r.2, false⟩

/-- Shadow value of an entry: fused multiply-adds in increasing k (R190). -/
def shadowValue (start : W32) (ps : List (Nat × FVal × FVal)) : W32 :=
  (ps.mergeSort fun p q => decide (p.1 ≤ q.1)).foldl
    (fun v p => (f32Fma (f32Val (f32Round p.2.1).1) (f32Val (f32Round p.2.2).1) (f32Val v)).1) start

/-- The four-byte entries of a pad tile, row-major. -/
def Cmd.entries (x : Issue) (d : Desc) : Cmd (List W32) := do
  let bs ← Cmd.readPad x ((List.range d.rows).map fun r => (d.rowAt 0 r, d.rowBytes))
  pure ((List.range (d.rows * d.cols)).map fun i => BitVec.ofNat 32 (numAt bs (4 * i) 4))

/-- Write the four-byte entries of a tile. -/
def Cmd.putEntries (x : Issue) (d : Desc) (vs : List W32) : Cmd Unit :=
  Cmd.write x d.global (cutBytes ((List.range d.rows).map fun r => (d.rowAt 0 r, d.rowBytes)) (vs.flatMap fun v => natLE 4 v.toNat))
    5 d.tensor

/-- The element index of R171 for entry P of a tile. -/
def State.elementIndex (s : State) (t : Slot) (p : Nat) : Nat :=
  let items := match s.launch? t.launch with
    | some l => l.items
    | none => 0
  let o := if items = 0 then t.index else t.item.getD 0xFFFFFFFF
  o * 65536 + p % 65536

/-- The generator output for entry P of a command's destination (R170, R171). -/
def State.drawFor (s : State) (t : Slot) (tensor p : Nat) : Nat :=
  (philox t.latch.seed t.latch.step tensor (s.elementIndex t p)).toNat

/-! ## The multiplies -/

/-- The sparse kinds a multiply accepts for operands a and b (R100). -/
def mulKinds (op : Nat) : List Nat × List Nat :=
  match op with
  | 0x30 => ([0], [0])
  | 0x31 => ([0], [1])
  | _ => ([2, 3], [0, 1])

/-- Steps 5 to 9 of R492. -/
def mulReason (op : Nat) (speculative : Bool) (a b d : Desc) : Option Nat :=
  let k := mulKinds op
  a.reason k.1 true <|> b.reason k.2 true <|> d.reason [0] false
    <|> (if pairOk a.fmt b.fmt then none else some 0x04)
    <|> (if a.cols = b.cols then none else some 0x05)
    <|> (if d.global = false ∧ d.fmt = 0xA ∧ d.rows = a.rows ∧ d.cols = b.rows ∧ a.rows ≤ 64 ∧ b.rows ≤ 64 then none else some 0x05)
    <|> (if speculative ∧ a.rows * b.rows * 4 > 1024 then some 0x21 else none)

/-- Does the held tile take a multiply with this destination into its chain? -/
def HeldTile.sameDest (h : HeldTile) (d : Desc) : Bool :=
  let e := Desc.of h.dest
  e.base == d.base && e.rows == d.rows && e.cols == d.cols && e.stride == d.stride

/-- Step 10 of R492 for a speculative multiply (R141). -/
def Slot.specOk (t : Slot) (d : Desc) (accumulate : Bool) : Bool :=
  match t.prediction with
  | none => false
  | some p =>
    p.rows == d.rows && p.cols == d.cols && (match t.held with
      | none => true
      | some h => h.sameDest d && accumulate && decide (h.chain.length < 8))

/-- Commit-buffer bytes that a slot holds, or that a multiply it has in progress has been granted. -/
def Slot.bufferBytes (t : Slot) : Nat :=
  match t.held with
  | some h => 4 * h.acc.length
  | none => t.room

/-- Commit-buffer bytes in use in a cell. -/
def State.heldBytes (s : State) (cell : Nat) : Nat := ((List.range 4).map fun j => (s.slot ⟨cell, j⟩).bufferBytes).sum

def State.roomQueue (s : State) (cell : Nat) : List Nat := SMap.get [] s.swarm.roomQueue cell

/-- May the thread open a tile of `n` bytes: nobody waits before it, and there is room? -/
def State.hasRoom (s : State) (i : SlotId) (n : Nat) : Bool :=
  decide (s.heldBytes i.cell + n ≤ 1024) && (match s.roomQueue i.cell with
    | [] => true
    | j :: _ => j == i.thread)

/-- A thread waits for room no longer. -/
def State.leaveRoomQueue (s : State) (i : SlotId) : State :=
  { s with swarm := { s.swarm with roomQueue := SMap.modify [] s.swarm.roomQueue i.cell fun q => q.filter (· ≠ i.thread) } }

/-- Room for `n` bytes is granted to the multiply a thread has in progress. -/
def State.grantRoom (s : State) (i : SlotId) (n : Nat) : State := (s.setSlot i { s.slot i with room := n }).leaveRoomQueue i

/-- Take room as the multiply issues, or wait for it in issue order (R140). Room once granted is kept while operands come from other
nodes, so a multiply that issues later cannot take it. -/
def Cmd.awaitRoom (x : Issue) (n : Nat) : Cmd Unit := fun s =>
  if (s.slot x.id).room = n ∨ s.hasRoom x.id n then .ok ((), s.grantRoom x.id n)
  else
    let q := s.roomQueue x.id.cell
    let s := if q.contains x.id.thread then s
      else ({ s with swarm := { s.swarm with
        roomQueue := SMap.put [] s.swarm.roomQueue x.id.cell (q ++ [x.id.thread]) } } : State).bump 0x20810B
    .error (.leave (s.setSlot x.id { s.slot x.id with status := .room }))

/-- Is the entry computed by the multiplies of the chain? -/
def computedCode (v : Nat) : Bool := v == 0 || v == 3

/-- The counts of a multiply's operands (R126, R128, R129), and the stalls of its gather stage (R131). -/
def State.operandCounts (s : State) (conflicts dropped : Nat) : State := (s.bumpBy 0x207002 conflicts).bumpBy 0x207003 dropped

def State.gatherStall (s : State) (op : Nat) : State :=
  if op = 0x30 then s
  else
    let n := s.swarm.multiplies
    ({ s with swarm := { s.swarm with multiplies := n + 1 } } : State).bumpBy 0x207004 (Config.gatherStalls n)

/-- The entries of a multiply: each computed where `want` holds, and otherwise left. -/
def mulEntries (a b : Desc) (ta tb : TileRows) (start : List W32) (want : Nat → Bool) : List AccEntry :=
  (List.range (a.rows * b.rows)).map fun i =>
    let v := start.getD i 0
    if want i then entrySum (fmtIsInt a.fmt) (mulBlock a b) a.cols v (products ta tb (i / b.rows) (i % b.rows)) else ⟨v, false, false⟩

/-- Is the multiply a chosen shadow candidate (R189)? -/
def State.shadowChosen (s : State) (t : Slot) (a d : Desc) : Bool :=
  decide (s.reg 0x304001 = 1) && !fmtIsInt a.fmt && (match s.recordOf d.tensor with
    | some r => r.2.shadow
    | none => false)
    && decide (s.drawFor t d.tensor 0 / 2 ^ 16 % 2 ^ s.reg 0x304002 = 0)

/-- A multiply that is not speculative. -/
def plainMultiply (x : Issue) (a b d : Desc) (accumulate : Bool) : Cmd After := do
  Cmd.commitOk x [a, b, d]
  Cmd.into x d.dest do
    let start ← if accumulate then Cmd.entries x d else pure (List.replicate (d.rows * d.cols) 0)
    let ta ← Cmd.tile x a
    let tb ← Cmd.tile x b
    let es := mulEntries a b ta tb start fun _ => true
    Cmd.putEntries x d (es.map AccEntry.value)
    let t ← Cmd.slot x.id
    Cmd.update fun s =>
      let s := s.operandCounts (ta.conflicts + tb.conflicts) (ta.dropped + tb.dropped)
      let s := (s.bumpBy 0x300106 (es.filter fun e => e.clamped).length).setWide (es.any fun e => e.wide)
      let s := s.gatherStall (cmdOp x.word)
      if s.shadowChosen t a d then
        s.shadowTile d.tensor x.id.cell t.latch.epoch ((List.range es.length).map fun i =>
          shadowBin ((es.map AccEntry.value).getD i 0)
            (shadowValue (start.getD i 0) (products ta tb (i / b.rows) (i % b.rows))))
      else s
  pure .next

/-- A speculative multiply: it opens a held tile or extends its chain (R140). The stalls of its gather stage are counted as it runs: R145
names the counts that are held with the tile, and these are not among them (DEDUCED, log entry 2). -/
def specMultiply (x : Issue) (a b d : Desc) (accumulate : Bool) : Cmd After := do
  let t ← Cmd.slot x.id
  Cmd.require (t.specOk d accumulate) 0x20
  let size := d.rows * d.cols * 4
  if t.held.isNone then Cmd.awaitRoom x size
  let ta ← Cmd.tile x a
  let tb ← Cmd.tile x b
  let start ← match t.held with
    | some h => pure h.acc
    | none => if accumulate then Cmd.entries x d else pure (List.replicate (d.rows * d.cols) 0)
  let pred := t.prediction.getD ⟨0, 0, [], 0⟩
  let h : HeldTile := t.held.getD
    { dest := t.desc (cmdD x.word).num, verdicts := pred, initial := start, acc := start, clamps := List.replicate start.length 0
      wide := List.replicate start.length false, conflicts := 0, dropped := 0, chain := [] }
  let es := mulEntries a b ta tb start fun i => computedCode (h.verdicts.verdicts.getD i 0)
  let link : ChainLink := ⟨cmdOp x.word, t.desc (cmdA x.word).num, t.desc (cmdB x.word).num⟩
  Cmd.mapSlot x.id fun t => { t with room := 0, held := some { h with
    acc := es.map AccEntry.value
    clamps := (h.clamps.zip es).map fun p => p.1 + b2n p.2.clamped
    wide := (h.wide.zip es).map fun p => p.1 || p.2.wide
    conflicts := h.conflicts + ta.conflicts + tb.conflicts
    dropped := h.dropped + ta.dropped + tb.dropped
    chain := h.chain ++ [link] } }
  Cmd.update fun s => (s.gatherStall (cmdOp x.word)).leaveRoomQueue x.id
  pure .next

def multiplyBody (x : Issue) : Cmd After := do
  let t ← Cmd.slot x.id
  let a := t.tile (cmdA x.word)
  let b := t.tile (cmdB x.word)
  let d := t.tile (cmdD x.word)
  let m := cmdMods x.word
  Cmd.check (mulReason (cmdOp x.word) (bitOf m 1) a b d)
  if bitOf m 1 then specMultiply x a b d (bitOf m 0) else plainMultiply x a b d (bitOf m 0)

def execMma (i : SlotId) (s : State) : Host.Outcome State Fault Refusal :=
  .next (runCommand s i (fun w => cmdOp w == 0x30) multiplyBody)

def execMma24 (i : SlotId) (s : State) : Host.Outcome State Fault Refusal :=
  .next (runCommand s i (fun w => cmdOp w == 0x31) multiplyBody)

def execMmasa (i : SlotId) (s : State) : Host.Outcome State Fault Refusal :=
  .next (runCommand s i (fun w => cmdOp w == 0x32) multiplyBody)

/-- Room has been freed for the speculative multiply that has waited longest in its cell: it starts (R140). -/
def execSpecMultiplyRoomStart (i : SlotId) (s : State) : Host.Outcome State Fault Refusal :=
  .next (
    let t := s.slot i
    if t.status = .room ∧ (s.roomQueue i.cell).head? = some i.thread ∧ s.running then
      runCommand (s.setSlot i { t with status := .ready }) i (fun w => decide (0x30 ≤ cmdOp w ∧ cmdOp w ≤ 0x32)) multiplyBody
    else s)

/-! ## COMMIT (R142–R145, R149) -/

/-- Is an accumulator active: greater than zero, or NaN? -/
def activeEntry (isInt : Bool) (w : W32) : Bool :=
  if isInt then decide (toSigned 32 w.toNat > 0)
  else
    match f32Val w with
    | .nan => true
    | v => FVal.lt FVal.zero v

/-- Replay the chain for the entries of verdict 0x2, on the operands as they stand: accumulators, clamps and wide overflows. A replayed
MMA24 or MMASA stalls its gather stage as any other does (R131; DEDUCED, log entry 2). -/
def Cmd.replay (x : Issue) (verdicts : List Nat) :
    List ChainLink → List W32 × List Nat × List Bool → Cmd (List W32 × List Nat × List Bool)
  | [], r => pure r
  | l :: ls, r => do
    let a := Desc.of l.a
    let b := Desc.of l.b
    let ta ← Cmd.tile x a
    let tb ← Cmd.tile x b
    let es := mulEntries a b ta tb r.1 fun i => decide (verdicts.getD i 0 = 2)
    Cmd.update fun s => s.gatherStall l.opcode
    Cmd.replay x verdicts ls
      (es.map AccEntry.value, (r.2.1.zip es).map fun p => p.1 + b2n p.2.clamped, (r.2.2.zip es).map fun p => p.1 || p.2.wide)

/-- Are the accumulators of the tile read as integers (R142)? The spec does not say how the entries of a chain that mixes integer and
float multiplies are judged: the format of its last multiply decides (DESIGN CHOICE, log entry 34). -/
def HeldTile.isInt (h : HeldTile) : Bool :=
  match h.chain.getLast? with
  | some l => fmtIsInt (Desc.of l.a).fmt
  | none => false

/-- How many entries satisfy `p`. -/
def countIdx (n : Nat) (p : Nat → Bool) : Nat := ((List.range n).filter p).length

def commitBody (x : Issue) : Cmd After := do
  let t ← Cmd.slot x.id
  match t.held with
  | none =>
    Cmd.mapSlot x.id fun t => { t with prediction := none }
    pure .next
  | some h =>
    let vs := h.verdicts.verdicts
    let n := h.acc.length
    let v (i : Nat) : Nat := vs.getD i 0
    let miss (i : Nat) : Bool := decide (v i = 3) && activeEntry h.isInt (h.acc.getD i 0)
    let verified := decide (h.verdicts.policy = 1)
    let again := verified && decide (countIdx n miss > 0)
    let r ← if again then
        Cmd.into x (Desc.of h.dest).dest (Cmd.replay x vs h.chain (h.initial, List.replicate n 0, List.replicate n false))
      else pure (h.acc, h.clamps, h.wide)
    let fromReplay (i : Nat) : Bool := again && decide (v i = 2)
    let computed (i : Nat) : Bool := v i == 0 || (again && decide (v i = 2 ∨ v i = 3))
    let out := (List.range n).map fun i =>
      if !computed i then 0 else if fromReplay i then r.1.getD i 0 else h.acc.getD i 0
    let clamps := (List.range n).map fun i =>
      if !computed i then 0 else if fromReplay i then r.2.1.getD i 0 else h.clamps.getD i 0
    let wide := (List.range n).any fun i =>
      computed i && (if fromReplay i then r.2.2.getD i false else h.wide.getD i false)
    Cmd.putEntries x (Desc.of h.dest) out
    Cmd.update fun s =>
      let s := ((s.operandCounts h.conflicts h.dropped).bumpBy 0x300106 clamps.sum).setWide wide
      let s := s.bumpBy 0x208101 (countIdx n fun i => v i == 1)
      let s := s.bumpBy 0x208102 (countIdx n fun i => v i == 2 || v i == 3)
      let s := s.bumpBy 0x208103 (countIdx n fun i => v i == 3)
      let s := s.bumpBy 0x208104 (countIdx n miss)
      let two := countIdx n fun i => v i == 2
      let s := if verified && !again then s.bumpBy 0x208105 two else s
      let s := if h.verdicts.policy = 2 then s.bumpBy 0x208106 two else s
      let s := s.bump 0x208107
      if again then s.bump 0x208108 else s
    Cmd.mapSlot x.id fun t => { t with prediction := none, held := none }
    pure .next

def execCommit (i : SlotId) (s : State) : Host.Outcome State Fault Refusal :=
  .next (runCommand s i (fun w => cmdOp w == 0x34) commitBody)

/-! ## PACK (R127) -/

/-- Is the element other than ±0? -/
def Elem.nonZero (e : Elem) : Bool := !e.val.isZero

/-- Does `e` rank before `f`: NaN first, then by magnitude, then by position? -/
def Elem.before (e f : Elem) : Bool :=
  if e.val = .nan then f.val != .nan || decide (e.pos < f.pos)
  else if f.val = .nan then false
  else if FVal.lt f.val.abs e.val.abs then true
  else if FVal.lt e.val.abs f.val.abs then false
  else decide (e.pos < f.pos)

/-- Pack one group: the two kept (position, code) in ascending order, and the number dropped. -/
def packGroup (es : List Elem) (first : Nat) : List (Nat × Nat) × Nat :=
  let nz := (es.filter Elem.nonZero).mergeSort fun e f => e.before f || e.pos == f.pos
  let kept := (nz.take 2).map fun e => (e.pos - first, e.code)
  let holds := nz.map fun e => e.pos - first
  let fill := ((List.range 4).filter fun p => !holds.contains p).take (2 - kept.length)
  let all := kept ++ fill.map fun p => (p, 0)
  (all.mergeSort fun p q => decide (p.1 ≤ q.1), nz.length - 2)

/-- A packed row: for each block its value codes (none: elided), all nibbles, and the number dropped. -/
def packRow (d : Desc) (scales : Nat → Nat) (r : List Elem) : List (Nat × Option (List Nat)) × List Nat × Nat :=
  d.spans.foldl (fun acc b =>
    if scales b.1 = 255 then
      (acc.1 ++ [(b.1, if d.elide then none else some (List.replicate (b.2 / 2) 0))], acc.2.1 ++ List.replicate (b.2 / 4) 4, acc.2.2)
    else
      let gs := (List.range (b.2 / 4)).map fun g =>
        packGroup (r.filter fun e => decide (e.pos / 4 = b.1 / 4 + g)) (b.1 + 4 * g)
      (acc.1 ++ [(b.1, some (gs.flatMap fun g => g.1.map Prod.snd))],
        acc.2.1 ++ gs.map (fun g => ((g.1.map Prod.fst).getD 0 0) + 4 * ((g.1.map Prod.fst).getD 1 0)),
        acc.2.2 + (gs.map Prod.snd).sum)) ([], [], 0)

def packReason (a d : Desc) : Option Nat :=
  a.reason [0] false <|> d.reason [1] false
    <|> (if a.fmt = 0xA ∨ a.fmt = 0xB then some 0x04 else none)
    <|> (if a.fmt = d.fmt ∧ a.signed = d.signed ∧ a.scaled = d.scaled ∧ a.block16 = d.block16 ∧ a.rows = d.rows ∧ a.cols = d.cols
      then none else some 0x05)

def packBody (x : Issue) : Cmd After := do
  let t ← Cmd.slot x.id
  let a := t.tile (cmdA x.word)
  let d := t.tile (cmdD x.word)
  Cmd.check (packReason a d)
  Cmd.commitOk x [a, d]
  Cmd.holdLines x d.dest
  Cmd.into x d.dest do
    let sc ← if a.scaled then Cmd.read x a.global [(a.scaleAt 0 0, a.rows * a.blocks)] else pure []
    let ta ← Cmd.tile x a
    let rows := (List.range a.rows).map fun r => packRow d (a.scaleCode sc 0 r) (ta.row 0 r)
    let writes : List WRange := (List.range d.rows).flatMap fun r =>
      let p := rows.getD r ([], [], 0)
      (p.1.filterMap fun b => b.2.map fun cs => (d.rowAt 0 r + (b.1 / 2 * d.width / 8 : Nat), packElems d.width cs))
        ++ [(d.metaAt r, slice (packElems 4 p.2.1) 0 d.metaRow)]
    Cmd.write x d.global (writes ++ (if d.scaled then [(d.scaleAt 0 0, sc)] else [])) 5 d.tensor
    let dropped := (rows.map fun p => p.2.2).sum
    Cmd.update fun s => (s.bumpBy 0x207001 dropped).contribute d.tensor t.latch.epoch { prune := dropped }
  pure .next

def execPack (i : SlotId) (s : State) : Host.Outcome State Fault Refusal :=
  .next (runCommand s i (fun w => cmdOp w == 0x35) packBody)

end Sys2Proof.Machine
end

