-- ==== Sys2Proof/Machine/Mantis.lean ====
section
/-! DEFINITION. PREDICT: the factors, projections, scores and certain test of Mantis, its verdicts and their sampling (R134–R139, R156). -/

namespace Sys2Proof.Machine

open Sys2Proof

/-! ## Factors (R134) -/

/-- Bytes of one row of Q. -/
def factorRow (r : Nat) : Nat := ceilDiv r 16 * 8

/-- Offsets from T of the scales, of E and of β, and the size of the whole. -/
structure FactorLayout where
  scales : Nat
  bounds : Nat
  biases : Nat
  size : Nat
  deriving DecidableEq, Repr

def factorLayout (n r : Nat) : FactorLayout :=
  let a := n * factorRow r
  let b := a + ceilDiv n 8 * 8
  let c := b + ceilDiv n 4 * 8
  ⟨a, b, c, c + ceilDiv n 4 * 8⟩

/-- One neuron's factors: the values of its row of Q, its scale code, E and β. -/
structure Neuron where
  q : List FVal
  scale : Nat
  e : FVal
  beta : FVal

def neuronOf (fmt r n count : Nat) (bs : List Byte) : Neuron :=
  let l := factorLayout count r
  let row := slice bs (n * factorRow r) (factorRow r)
  { q := (List.range r).map fun j => decodeElem fmt true (elemAt 4 row j), scale := numAt bs (l.scales + n) 1
    e := FFmt.fp16.decode (numAt bs (l.bounds + 2 * n) 2), beta := FFmt.fp16.decode (numAt bs (l.biases + 2 * n) 2) }

/-! ## Projection and norm (R135, R156, R139) -/

/-- An FP32 value as its word. -/
def word32 (v : FVal) : W32 := (f32Round v).1

/-- Products by block. -/
def byBlock (blockSize k : Nat) (ps : List (Nat × FVal)) : List (List FVal) :=
  (List.range (ceilDiv k blockSize)).map fun i => (ps.filter fun p => decide (p.1 / blockSize = i)).map Prod.snd

/-- The products of row m of a with row j of P. -/
def projectionBlocks (blockSize k : Nat) (ta tp : TileRows) (m j : Nat) : List (List FVal) :=
  byBlock blockSize k ((products ta tp m j).map fun p => (p.1, FVal.mul p.2.1 p.2.2))

/-- The terms of the norm of row m. -/
def normBlocks (blockSize k : Nat) (ta : TileRows) (m : Nat) : List (List FVal) :=
  byBlock blockSize k ((ta.row 0 m).map fun e => (e.pos, e.val.abs))

/-- What Mantis forms from a and P. -/
def keepProjection (wa wb : W256) (ta tp : TileRows) : KeptProjection :=
  let a := Desc.of wa
  let b := Desc.of wb
  let size := mulBlock a b
  let zs := (List.range a.rows).flatMap fun m => (List.range b.rows).map fun j => projectionBlocks size a.cols ta tp m j
  let ns := (List.range a.rows).map fun m => normBlocks size a.cols ta m
  { a := wa, b := wb, z := zs.map fun p => (refSum 0 p).1, zDown := zs.map fun p => word32 (dirSum false p)
    zUp := zs.map fun p => word32 (dirSum true p), norm := ns.map fun p => (refSum 0 p).1
    normUp := ns.map fun p => word32 (dirSum true p) }

/-- Does what Mantis has kept serve these descriptors: a equal, b equal but for its metadata offset (R139)? -/
def KeptProjection.serves (k : KeptProjection) (wa wb : W256) : Bool :=
  k.a == wa && setField k.b.toNat 128 32 0 == setField wb.toNat 128 32 0

/-! ## Score, certain test and verdict (R135–R137) -/

/-- The sum over the rank, multiplied exactly by the row's scale. -/
def rankSum (scale : Nat) (ps : List FVal) : FVal :=
  if scale = 255 then FVal.zero else (blockExact ps).scale ((scale : Int) - 127)

/-- The score s(m, n). -/
def scoreOf (u : Neuron) (z : List FVal) : FVal :=
  let s := f32Val (word32 (rankSum u.scale ((z.zip u.q).map fun p => FVal.mul p.1 p.2)))
  f32Val (word32 (FVal.add false s u.beta))

/-- The bound Y(m, n). -/
def boundOf (u : Neuron) (down up : List FVal) (normUp : FVal) : FVal :=
  let ws := ((down.zip up).zip u.q).map fun p => FVal.pick true (FVal.mul p.1.1 p.2) (FVal.mul p.1.2 p.2)
  let s := roundDir true (rankSum u.scale ws)
  let s := roundDir true (FVal.add false s u.beta)
  roundDir true (FVal.add false s (roundDir true (FVal.mul u.e normUp)))

/-- May the neuron ever be skipped? -/
def Neuron.mayskip (u : Neuron) : Bool := u.e.isFinite && u.beta.isFinite && !FVal.lt u.e FVal.zero

/-- The verdict of an entry; `chosen` says whether it is sampled under R137. -/
def verdictOf (u : Neuron) (policy : Nat) (tau : FVal) (z down up : List FVal) (normUp : FVal) (chosen : Bool) : Nat :=
  let y := boundOf u down up normUp
  if !u.mayskip then 0
  else if FVal.lt y FVal.zero || FVal.eq y FVal.zero then 1
  else if policy ≠ 0 ∧ FVal.lt (scoreOf u z) tau then (if policy = 1 ∧ chosen then 3 else 2)
  else 0

/-! ## The command (R138) -/

/-- Where the factors after P lie. -/
def Desc.factors (b : Desc) : Int := b.base + b.metaOff

def predictReason (a b d : Desc) : Option Nat :=
  let size := (factorLayout d.cols b.rows).size
  a.reason [0] false <|> b.reason [0] false
    <|> (if b.global ∨ (0 ≤ b.factors ∧ b.factors + size ≤ 8192) ∨ d.cols > 64 ∨ b.factors % 8 ≠ 0 then none else some 0x14)
    <|> d.reason [0] false
    <|> (if (a.fmt = 1 ∨ a.fmt = 6 ∨ a.fmt = 4 ∨ a.fmt = 5 ∨ a.fmt = 7) ∧ (b.fmt = 1 ∨ (b.fmt = 6 ∧ b.signed)) ∧ d.fmt = 6 ∧ ¬ d.signed
      then none else some 0x04)
    <|> (if a.cols = b.cols ∧ a.rows ≤ 64 ∧ b.rows ≤ 64 ∧ b.factors % 8 = 0 then none else some 0x05)
    <|> (if ¬ d.global ∧ d.rows = a.rows ∧ d.cols % 2 = 0 ∧ 2 ≤ d.cols ∧ d.cols ≤ 64 ∧ d.rows * d.cols ≤ 256 then none else some 0x05)

/-- Policy, k and τ of the command (R138): its own, or the latched defaults. -/
def settingsOf (l : Latch) (mods : Nat) : Nat × Nat × FVal :=
  let own := decide (mods % 4 ≠ 3)
  let policy := if own then mods % 4 else l.policy
  let k := if own then fieldOf 7 4 mods else l.sample
  let tau := if own then fieldOf 31 16 mods else l.threshold
  (if l.permitted then policy else 0, k, FFmt.fp16.decode tau)

/-- Row `m` of a row-major list of words, as values. -/
def wordsRow (ws : List W32) (m n : Nat) : List FVal := ((ws.drop (m * n)).take n).map f32Val

def predictBody (x : Issue) : Cmd After := do
  let t ← Cmd.slot x.id
  let wa := t.desc (cmdA x.word).num
  let wb := t.desc (cmdB x.word).num
  let a := Desc.of wa
  let b := Desc.of wb
  let d := t.tile (cmdD x.word)
  Cmd.check (predictReason a b d)
  Cmd.require t.held.isNone 0x20
  Cmd.into x d.dest do
    let kept ← match t.kept.filter fun k => k.serves wa wb with
      | some k => pure { k with b := wb }
      | none => do
        let ta ← Cmd.tile x a
        let tp ← Cmd.tile x b
        pure (keepProjection wa wb ta tp)
    let bs ← Cmd.read x b.global [(b.factors, (factorLayout d.cols b.rows).size)]
    let (policy, k, tau) := settingsOf t.latch (cmdMods x.word)
    let us := (List.range d.cols).map fun n => neuronOf b.fmt b.rows n d.cols bs
    let s ← get
    let chosen (p : Nat) : Bool := decide (s.drawFor t d.tensor p / 2 ^ 16 % 2 ^ k = 0)
    let vs := (List.range d.rows).flatMap fun m =>
      ((List.range d.cols).zip us).map fun nu =>
        verdictOf nu.2 policy tau (wordsRow kept.z m b.rows) (wordsRow kept.zDown m b.rows) (wordsRow kept.zUp m b.rows)
          (f32Val (kept.normUp.getD m 0)) (chosen (m * d.cols + nu.1))
    Cmd.writePad x ((List.range d.rows).map fun m => (d.rowAt 0 m, packElems 4 ((vs.drop (m * d.cols)).take d.cols)))
    Cmd.mapSlot x.id fun t => { t with prediction := some ⟨d.rows, d.cols, vs, policy⟩, kept := some kept }
    if !t.latch.permitted then Cmd.update fun s => s.bump 0x208005
  pure .next

def execPredict (i : SlotId) (s : State) : Host.Outcome State Fault Refusal :=
  .next (runCommand s i (fun w => cmdOp w == 0x33) predictBody)

end Sys2Proof.Machine
end

