-- ==== Sys2Proof/Machine/Vector.lean ====
section
/-! DEFINITION. The vector commands (R101): register lanes, format conversion (R43–R49, R57, R183, R185), element-wise arithmetic (R176,
R179), reductions (R157) and top-k (R110). -/

namespace Sys2Proof.Machine

open Sys2Proof

/-! ## Lanes -/

/-- The lanes of a value, `w` bits wide, lowest first. -/
def lanesOf (w v : Nat) : List Nat := (List.range (64 / w)).map fun i => v / 2 ^ (w * i) % 2 ^ w

/-- Lanes joined to a 64-bit value. -/
def joinLanes (w : Nat) (ls : List Nat) : Nat := ls.foldr (fun l acc => acc * 2 ^ w + l % 2 ^ w) 0

def laneBits (code : Nat) : Nat := 8 * 2 ^ code

/-- One lane of VOP. -/
def vopLane (op w : Nat) (signed : Bool) (x y : Nat) : Nat :=
  let le := if signed then decide (toSigned w x ≤ toSigned w y) else decide (x ≤ y)
  match op with
  | 0 => (x + y) % 2 ^ w
  | 1 => (x + 2 ^ w - y) % 2 ^ w
  | 2 => if le then x else y
  | 3 => if le then y else x
  | 4 => x &&& y
  | 5 => x ||| y
  | 6 => x ^^^ y
  | _ => x &&& (2 ^ w - 1 - y)

def execVop (i : SlotId) (s : State) : Host.Outcome State Fault Refusal :=
  .next (runSlot s i 0x40 fun t c =>
    let m := cmdMods c
    let w := laneBits (fieldOf 4 3 m)
    t.put (cmdD c) (joinLanes w (List.zipWith (vopLane (m % 8) w (bitOf m 5)) (lanesOf w (t.value (cmdA c)))
      (lanesOf w (t.value (cmdB c))))))

/-- The lane width of a floating-point selector. -/
def selBits (sel : Nat) : Nat := if sel = 0xA then 32 else 16

/-- The flag of one lane of VCMP (R106). -/
def vcmpFlag (sel : Nat) (signed : Bool) (w x y : Nat) : CmpFlag :=
  if sel = 0 then cmpFlag signed w x y else floatFlag (decodeElem sel false x) (decodeElem sel false y)

def execVcmp (i : SlotId) (s : State) : Host.Outcome State Fault Refusal :=
  .next (runSlot s i 0x41 fun t c =>
    let m := cmdMods c
    let sel := cmdSel c
    let w := if sel = 0 then laneBits (fieldOf 7 6 m) else selBits sel
    let hits := List.zipWith (fun x y => (vcmpFlag sel (bitOf m 5) w x y).meets (fieldOf 4 2 m)) (lanesOf w (t.value (cmdA c)))
      (lanesOf w (t.value (cmdB c)))
    (t.put (cmdD c) (joinLanes w (hits.map fun h => if h then 2 ^ w - 1 else 0))).setP (fieldOf 10 8 m) (hits.any id))

def execVsel (i : SlotId) (s : State) : Host.Outcome State Fault Refusal :=
  .next (runSlot s i 0x42 fun t c =>
    let mask := (t.vreg (cmdMods c % 8)).toNat
    t.put (cmdD c) ((t.value (cmdA c) &&& mask) ||| (t.value (cmdB c) &&& (2 ^ 64 - 1 - mask))))

def execVshuf (i : SlotId) (s : State) : Host.Outcome State Fault Refusal :=
  .next (runSlot s i 0x43 fun t c =>
    let bs := lanesOf 8 (t.value (cmdA c))
    t.put (cmdD c) (joinLanes 8 ((List.range 8).map fun j => bs.getD (fieldOf (3 * j + 2) (3 * j) (cmdMods c)) 0)))

/-- Round an arithmetic result into a format code under RNE (R39, R46). -/
def roundElem (l : Latch) (code : Nat) (v : FVal) : Conv :=
  match ffmtOf code with
  | some f => f.round (overflowOf code l.e5m2Inf l.fp16Inf) .rne v
  | none => { bits := 0 }

def vfmaBody (x : Issue) : Cmd After := do
  let t ← Cmd.slot x.id
  let sel := cmdSel x.word
  let w := selBits sel
  let val (o : Opnd) : List FVal := (lanesOf w (t.value o)).map (decodeElem sel false)
  let cs := ((val (cmdA x.word)).zip ((val (cmdB x.word)).zip (val (cmdD x.word)))).map fun p =>
    roundElem t.latch sel (FVal.add false (FVal.mul p.1 p.2.1) p.2.2)
  Cmd.mapSlot x.id fun t => t.put (cmdD x.word) (joinLanes w (cs.map Conv.bits))
  Cmd.update fun s => s.countConvs cs
  pure .next

def execVfma (i : SlotId) (s : State) : Host.Outcome State Fault Refusal :=
  .next (runCommand s i (fun w => cmdOp w == 0x44) vfmaBody)

def execVsfu (i : SlotId) (s : State) : Host.Outcome State Fault Refusal :=
  .next (runSlot s i 0x45 fun t c =>
    t.put (cmdD c) (joinLanes 16 ((lanesOf 16 (t.value (cmdA c))).map (sfuLane (cmdMods c % 4)))))

/-- VCVT: elements from the low bits, always under RNE; the bits beyond are 0. -/
def vcvtBody (x : Issue) : Cmd After := do
  let t ← Cmd.slot x.id
  let m := cmdMods x.word
  let src := m % 16
  let dst := cmdSel x.word
  Cmd.require (fmtLegal src && src != 0xB) 0x04
  let n := 64 / max (fmtBits src) (fmtBits dst)
  let v := t.value (cmdA x.word)
  let cs := (List.range n).map fun i =>
    convertElem dst (bitOf m 5) t.latch.e5m2Inf t.latch.fp16Inf .rne
      (decodeElem src (bitOf m 4) (v / 2 ^ (fmtBits src * i) % 2 ^ fmtBits src))
  Cmd.mapSlot x.id fun t => t.put (cmdD x.word) (joinLanes (fmtBits dst) (cs.map Conv.bits))
  Cmd.update fun s => s.countConvs cs
  pure .next

def execVcvt (i : SlotId) (s : State) : Host.Outcome State Fault Refusal :=
  .next (runCommand s i (fun w => cmdOp w == 0x46) vcvtBody)

/-! ## Block conversion (R43–R45) -/

/-- A block as written: scale code, element codes, and the counts. -/
structure BlockOut where
  scale : Nat
  codes : List Nat
  counts : List Conv

/-- The largest finite magnitude of a block, if one is not zero. -/
def blockMax (vs : List FVal) : Option (Nat × Int) :=
  vs.foldl (fun m v =>
    match v with
    | .num _ n e =>
      if n = 0 then m
      else
        match m with
        | none => some (n, e)
        | some p => if dyadicLe n e p.1 p.2 then some p else some (n, e)
    | _ => m) none

/-- Is a converted code zero of either sign? -/
def zeroCode (fmt code : Nat) : Bool := code % 2 ^ (fmtBits fmt - 1) == 0

/-- The scale code a block takes before R44 is applied. -/
def chooseScale (fmt : Nat) (vs : List FVal) : Nat :=
  match blockMax vs with
  | some p => let f := largestOf fmt; clampScale (smallestExp p.1 p.2 f.1 f.2)
  | none => 0x7F

/-- Convert a block; `conv` converts element i of the block from its scaled value. -/
def convertBlock (fmt : Nat) (conv : Nat → FVal → Conv) (vs : List FVal) : BlockOut :=
  let c := chooseScale fmt vs
  let cs := ((List.range vs.length).zip vs).map fun p => conv p.1 (p.2.scale (127 - (c : Int)))
  if cs.all fun k => zeroCode fmt k.bits then ⟨255, cs.map fun _ => 0, cs⟩ else ⟨c, cs.map Conv.bits, cs⟩

/-- The blocks of a row of values. -/
def Desc.cutRow (d : Desc) (vs : List FVal) : List (Nat × List FVal) := d.spans.map fun b => (b.1, (vs.drop b.1).take b.2)

/-- The writes of one row of blocks of a piece: the element bytes that are not elided, and the scale bytes. -/
def Desc.blockWrites (d : Desc) (p r : Nat) (bs : List (Nat × BlockOut)) : List WRange :=
  (bs.filterMap fun b =>
    if b.2.scale = 255 ∧ d.elide then none
    else some (d.rowAt p r + (b.1 * d.width / 8 : Nat), packElems d.width b.2.codes))
    ++ [(d.scaleAt p r, bs.map fun b => BitVec.ofNat 8 b.2.scale)]

/-! ## Split conversion (R57) -/

/-- The pieces of one block of values. -/
def splitBlock : Nat → List FVal → List BlockOut
  | 0, _ => []
  | n + 1, vs =>
    let o := convertBlock 4 (fun _ v => FFmt.e4m3.convert .saturate .rne v) vs
    let rest := List.zipWith (fun v c =>
      if v.isFinite then FVal.add false v (FVal.neg ((FFmt.e4m3.decode c).scale ((o.scale : Int) - 127))) else v) vs
      (if o.scale = 255 then vs.map fun _ => 0 else o.codes)
    o :: splitBlock n rest

/-- Inf and NaN elements are carried as NaN into every piece. -/
def splitInput (v : FVal) : FVal := if v.isFinite then v else .nan

/-- The counts of a split element: invalid for Inf and NaN; a crush when it is not zero and every piece is. -/
def splitCount (v : FVal) (codes : List Nat) : Conv :=
  if !v.isFinite then { bits := 0, invalid := 1 }
  else { bits := 0, crush := b2n (!v.isZero && codes.all (zeroCode 4)) }

/-! ## TCVT -/

/-- Formats of the vector unit's arithmetic. -/
def wideFmt (f : Nat) : Bool := f == 8 || f == 9 || f == 0xA

def tcvtReason (split : Bool) (a d : Desc) : Option Nat :=
  a.reason [0] false <|> d.reason [0] split
    <|> (if split && !wideFmt a.fmt then some 0x04 else none)
    <|> (if a.rows = d.rows ∧ a.cols = d.cols then none else some 0x05)
    <|> (if split ∧ d.pieces ≠ (if a.fmt = 0xA then 3 else 2) then some 0x05 else none)

/-- The rounding of a TCVT for entry P (R46, R49, R101). -/
def State.tcvtMode (s : State) (t : Slot) (d : Desc) (mods p : Nat) : Rnd :=
  let sr := decide (mods % 4 = 2) || (decide (mods % 4 = 0) && decide (t.latch.rounding = 1))
  if sr && d.fmt != 0xA && d.fmt != 0xB then .sr (s.drawFor t d.tensor p % 65536) else .rne

/-- The scale code of a tensor-scaled conversion or a SCALE with a tile: the latched one, the record's, or a pre-pass (R185). -/
def State.codeOrPrepass (s : State) (tensor : Nat) (a : W32) (headroom : Nat) : Nat × State :=
  match s.recordOf tensor with
  | none => (0xFF, s)
  | some r =>
    let s := s.rollRecord r.1
    let s := if (s.record r.1).primed then s else s.prepass r.1 a headroom
    ((s.record r.1).scale, s)

/-- Write a plain row. -/
def Desc.rowWrite (d : Desc) (r : Nat) (codes : List Nat) : WRange := (d.rowAt 0 r, packElems d.width codes)

/-- The writes and counts of a TCVT that is not split, given its scale exponent. -/
def plainConversion (s : State) (t : Slot) (d : Desc) (mods : Nat) (k : Int) (rows : List (List FVal)) : List WRange × List Conv :=
  let conv (p : Nat) (v : FVal) : Conv :=
    convertElem d.fmt d.signed t.latch.e5m2Inf t.latch.fp16Inf (s.tcvtMode t d mods p) v
  let out := ((List.range d.rows).zip rows).map fun q =>
    if d.scaled then
      let bs := (d.cutRow q.2).map fun b => (b.1, convertBlock d.fmt (fun i v => conv (q.1 * d.cols + b.1 + i) v) b.2)
      (d.blockWrites 0 q.1 bs, bs.flatMap fun b => b.2.counts)
    else
      let cs := ((List.range d.cols).zip q.2).map fun p => conv (q.1 * d.cols + p.1) (p.2.scale k)
      ([d.rowWrite q.1 (cs.map Conv.bits)], cs)
  (out.flatMap Prod.fst, out.flatMap Prod.snd)

/-- The writes and counts of a split TCVT. -/
def splitConversion (d : Desc) (rows : List (List FVal)) : List WRange × List Conv :=
  let out := ((List.range d.rows).zip rows).map fun q =>
    let bs := (d.cutRow q.2).map fun b => (b.1, b.2, splitBlock d.pieces (b.2.map splitInput))
    ((List.range d.pieces).flatMap fun p =>
        d.blockWrites p q.1 (bs.map fun b => (b.1, b.2.2.getD p ⟨255, [], []⟩)),
      bs.flatMap fun b => ((List.range b.2.1.length).zip b.2.1).map fun e =>
        splitCount e.2 (b.2.2.map fun o => o.codes.getD e.1 0))
  (out.flatMap Prod.fst, out.flatMap Prod.snd)

def tcvtBody (x : Issue) : Cmd After := do
  let t ← Cmd.slot x.id
  let a := t.tile (cmdA x.word)
  let d := t.tile (cmdD x.word)
  let m := cmdMods x.word
  let split := bitOf m 2
  Cmd.check (tcvtReason split a d)
  Cmd.commitOk x [a, d]
  Cmd.holdLines x d.dest
  Cmd.into x d.dest do
    let rows ← Cmd.values x a
    let amax := amaxOf rows.flatten
    let s ← get
    let (k, s') : Int × State :=
      if split then (0, s)
      else
        match t.latch.code with
        | some c => (127 - (c : Int), s)
        | none =>
          if s.tensorScaled d then
            let r := s.codeOrPrepass d.tensor amax t.latch.headroom
            (127 - (r.1 : Int), r.2)
          else (0, s)
    set s'
    let out := if split then splitConversion d rows else plainConversion s' t d m k rows
    Cmd.write x d.global out.1 5 d.tensor
    Cmd.update fun s => (s.countConvs out.2).contribute d.tensor t.latch.epoch
      { amax := some amax, saturations := (out.2.map Conv.sat).sum, crushes := (out.2.map Conv.crush).sum }
  pure .next

def execTcvt (i : SlotId) (s : State) : Host.Outcome State Fault Refusal :=
  .next (runCommand s i (fun w => cmdOp w == 0x47) tcvtBody)

/-! ## TEW (R101, R176, R179) -/

def tewReason (op : Nat) (oneRow : Bool) (a b d : Desc) : Option Nat :=
  a.reason [0] false <|> b.reason [0] false <|> d.reason [0] false
    <|> (if d.fmt = 0xB then (if (op = 0 ∨ op = 3) ∧ a.fmt = 0xA ∧ b.fmt = 0xA then none else some 0x04)
        else if wideFmt d.fmt ∧ a.fmt = d.fmt ∧ b.fmt = d.fmt then none else some 0x04)
    <|> (if a.cols = b.cols ∧ b.rows = (if oneRow then 1 else a.rows) ∧ a.rows = d.rows ∧ a.cols = d.cols then none else some 0x05)

/-- One element of TEW: the exact result before its rounding, and the update it makes (add and fma). -/
def tewElem (op : Nat) (x y old : FVal) : FVal × Option FVal :=
  match op with
  | 0 => (FVal.add false x y, some y)
  | 1 => (FVal.add false x y.neg, none)
  | 2 => (FVal.mul x y, none)
  | 3 => (FVal.add false (FVal.mul x y) old, some (FVal.mul x y))
  | 4 => (FVal.pick true x y, none)
  | _ => (FVal.pick false x y, none)

/-- An update counts when it is non-zero and finite. -/
def countsUpdate : Option FVal → Bool
  | some v => v.isFinite && !v.isZero
  | none => false

def tewBody (x : Issue) : Cmd After := do
  let t ← Cmd.slot x.id
  let a := t.tile (cmdA x.word)
  let b := t.tile (cmdB x.word)
  let d := t.tile (cmdD x.word)
  let op := cmdMods x.word % 8
  let oneRow := bitOf (cmdMods x.word) 3
  Cmd.check (tewReason op oneRow a b d)
  Cmd.commitOk x [a, b, d]
  Cmd.holdLines x d.dest
  Cmd.into x d.dest do
    let ra ← Cmd.values x a
    let rb ← Cmd.values x b
    let s ← get
    let watch : Bool := (decide (op = 0) || decide (op = 3)) && (d.fmt == 0xA || d.fmt == 0xB)
    let old ← if op = 3 ∨ (watch ∧ (s.recordOf d.tensor).isSome) then do
        let o ← Cmd.tile x d
        pure ((List.range d.rows).map fun r => o.row 0 r)
      else pure []
    let out := (List.range d.rows).map fun r =>
      ((ra.getD r []).zip (rb.getD (if oneRow then 0 else r) [])).zip (List.range d.cols) |>.map fun p =>
        let e := (old.getD r []).getD p.2 ⟨0, 0, 127, FVal.zero⟩
        let v := tewElem op p.1.1 p.1.2 e.val
        let c := roundElem t.latch d.fmt v.1
        let counted := watch && countsUpdate v.2
        (c, counted, counted && decide (decodeElem d.fmt false c.bits ≠ .nan) && decide (c.bits = e.code))
    Cmd.write x d.global (((List.range d.rows).zip out).map fun q => d.rowWrite q.1 (q.2.map fun e => e.1.bits)) 5 d.tensor
    let es := out.flatten
    Cmd.update fun s =>
      let s := s.countConvs (es.map fun e => e.1)
      if watch then
        s.contribute d.tensor t.latch.epoch
          { updates := (es.filter fun e => e.2.1).length, stalled := (es.filter fun e => e.2.2).length }
      else s
  pure .next

def execTew (i : SlotId) (s : State) : Host.Outcome State Fault Refusal :=
  .next (runCommand s i (fun w => cmdOp w == 0x48) tewBody)

/-! ## TRED (R157) -/

def tredReason (op : Nat) (a d : Desc) : Option Nat :=
  a.reason [0] false <|> d.reason [0] false
    <|> (if wideFmt a.fmt ∧ (d.fmt = 0xA ∨ (op ≠ 0 ∧ d.fmt = a.fmt)) then none else some 0x04)
    <|> (if d.rows = a.rows ∧ d.cols = 1 then none else some 0x05)

/-- Combine two values of the tree: their sum in FP32 and whether it overflowed, or the larger or smaller. -/
def tredCombine (op : Nat) (p q : FVal × Bool) : FVal × Bool :=
  match op with
  | 0 => let r := f32Round (FVal.add false p.1 q.1); (f32Val r.1, p.2 || q.2 || r.2)
  | 1 => (FVal.pick true p.1 q.1, false)
  | _ => (FVal.pick false p.1 q.1, false)

def tredBody (x : Issue) : Cmd After := do
  let t ← Cmd.slot x.id
  let a := t.tile (cmdA x.word)
  let d := t.tile (cmdD x.word)
  let op := cmdMods x.word % 4
  Cmd.check (tredReason op a d)
  Cmd.commitOk x [a, d]
  Cmd.holdLines x d.dest
  Cmd.into x d.dest do
    let rows ← Cmd.values x a
    let rs := rows.map fun vs => (treeReduce (tredCombine op) vs.length (vs.map fun v => (v, false))).getD (FVal.zero, false)
    Cmd.write x d.global (((List.range d.rows).zip rs).map fun q => d.rowWrite q.1 [(roundElem t.latch d.fmt q.2.1).bits]) 5 d.tensor
    Cmd.update fun s => s.setWide (rs.any fun r => r.2)
  pure .next

def execTred (i : SlotId) (s : State) : Host.Outcome State Fault Refusal :=
  .next (runCommand s i (fun w => cmdOp w == 0x49) tredBody)

/-! ## TTOPK (R110) -/

def ttopkReason (k : Nat) (a d ix : Desc) : Option Nat :=
  a.reason [0] false <|> d.reason [0] false <|> ix.reason [0] false
    <|> (if (a.fmt = 7 ∨ wideFmt a.fmt) ∧ d.fmt = a.fmt ∧ d.signed = a.signed ∧ ix.fmt = 0xA then none else some 0x04)
    <|> (if d.rows = a.rows ∧ d.cols = k ∧ ix.rows = a.rows ∧ ix.cols = k then none else some 0x05)

/-- Does score p, at its column, rank before q, or at q's place? -/
def ranksBefore (p q : FVal × Nat) : Bool :=
  if p.1 = .nan then q.1 == .nan && decide (p.2 ≤ q.2)
  else if q.1 = .nan then true
  else if FVal.lt q.1 p.1 then true
  else if FVal.lt p.1 q.1 then false
  else decide (p.2 ≤ q.2)

/-- The code of a value copied to a tile of the scores' format. -/
def scoreCode (l : Latch) (d : Desc) (v : FVal) : Nat :=
  if fmtIsInt d.fmt then ofInt (fmtBits d.fmt) v.toInt else (roundElem l d.fmt v).bits

def ttopkBody (x : Issue) : Cmd After := do
  let t ← Cmd.slot x.id
  let a := t.tile (cmdA x.word)
  let d := t.tile (cmdD x.word)
  let k := cmdMods x.word % 128
  let ix := Desc.of (t.desc (fieldOf 15 11 (cmdMods x.word)))
  Cmd.check (ttopkReason k a d ix)
  Cmd.commitOk x [a, d, ix]
  Cmd.holdLines x d.dest
  Cmd.holdLines x ix.dest
  Cmd.into x d.dest do
    Cmd.into x ix.dest do
      let rows ← Cmd.values x a
      let tops := rows.map fun vs => ((vs.zip (List.range vs.length)).mergeSort ranksBefore).take k
      let at_ (d : Desc) (f : FVal × Nat → Nat) : List WRange :=
        ((List.range d.rows).zip tops).map fun q => d.rowWrite q.1 (q.2.map f)
      Cmd.write x d.global (at_ d fun p => scoreCode t.latch d p.1) 5 d.tensor
      Cmd.write x ix.global (at_ ix fun p => p.2) 5 ix.tensor
  pure .next

def execTtopk (i : SlotId) (s : State) : Host.Outcome State Fault Refusal :=
  .next (runCommand s i (fun w => cmdOp w == 0x4A) ttopkBody)

end Sys2Proof.Machine
end

