-- ==== Sys2Proof/Machine/Fabric.lean ====
section
/-! DEFINITION. The fabric, numerics and query commands of a thread (R102): PUT and GET (R20, R226, R242), SEND (R244), DISPATCH (R293),
SATTACH (R274), SEED, STEP (R172, R180, R305), SCALE (R184, R185), TIME and IDENT. -/

namespace Sys2Proof.Machine

open Sys2Proof

/-! ## PUT and GET -/

/-- The TC of a PUT or GET (R20, R226). -/
def fabricTc (w : Nat) : Nat := if bitOf (cmdMods w) 3 then cmdMods w % 8 else 5

/-- Is a tile local: in the pad, or at an address of this module? -/
def State.localTile (s : State) (d : Desc) : Bool := !d.global || decide (nodeOf d.base = s.node)

def putBody (x : Issue) : Cmd After := do
  let t ← Cmd.slot x.id
  let a := t.tile (cmdA x.word)
  let d := t.tile (cmdD x.word)
  let tc := fabricTc x.word
  Cmd.check (a.reason [0, 1, 2, 3] true <|> d.reason [0, 1, 2, 3] true)
  let s ← get
  Cmd.require (s.localTile a && d.global && a.agrees d) 0x05
  Cmd.commitOk x [a, d]
  Cmd.holdLines x d.dest
  Cmd.into x d.dest do
    let bs ← Cmd.onData (fun s => s.dropPut x.id tc d.base d.tensor) (Cmd.read x a.global a.ranges)
    Cmd.write x d.global (cutBytes d.ranges bs) tc d.tensor
  pure .next

def execPut (i : SlotId) (s : State) : Host.Outcome State Fault Refusal :=
  .next (runCommand s i (fun w => cmdOp w == 0x50) putBody)

/-- Set in `fetched` once the requests of a GET have been sent. -/
def sentKey : Nat := 2 ^ 64 + 16

/-- Source and destination of each part of a copy that lies in one node: source address, destination address, length. -/
def copyParts : List Range' → List Range' → List (Nat × Nat × Nat)
  | g :: gs, h :: hs =>
    ((splitNode g.1.toNat g.2).map fun q => (q.1, h.1.toNat + (q.1 - g.1.toNat), q.2)) ++ copyParts gs hs
  | _, _ => []

/-- Send the GETs of the remote parts, and copy the local ones. -/
def getParts (x : Issue) (a d : Desc) (tc : Nat) : Cmd After := do
  let s ← get
  match s.firstInvalid a.ranges with
  | some f => Cmd.fail 0x10 f
  | none =>
    let ps := copyParts a.ranges d.ranges
    let near := ps.filter fun p => decide (nodeOf p.1 = s.node)
    let far := ps.filter fun p => decide (nodeOf p.1 ≠ s.node)
    let wrong := if d.global then s.firstWriteFault [] (far.map fun p => (localOf p.2.1, p.2.2)) else none
    match wrong.filter fun e => decide (e.cause ≠ .data) with
    | some e => Cmd.fail 0x10 (s.globalOf e.addr)
    | none =>
      let bs ← Cmd.readGlobal x (near.map fun p => ((p.1 : Int), p.2.2))
      let parts := splitParts (near.map fun p => p.2.2) bs
      Cmd.write x d.global ((near.zip parts).map fun p => ((p.1.2.1 : Int), p.2)) tc d.tensor
      if far.isEmpty then pure .next
      else
        Cmd.update fun s => far.foldl (fun (s : State) p =>
          s.sendGets (Origin.hive x.id.hive)
            { s.threadTag x.id (.threadGetTo x.id (!d.global)) tc with here := some (if d.global then localOf p.2.1 else p.2.1) }
            (nodeOf p.1) (localOf p.1) (if d.global then localOf p.2.1 else padWindow x.id) p.2.2) s
        Cmd.mapSlot x.id fun t => { t with fetched := SMap.put none t.fetched sentKey (some 1) }
        Cmd.await x.id .remote

def getBody (x : Issue) : Cmd After := do
  let t ← Cmd.slot x.id
  let a := t.tile (cmdA x.word)
  let d := t.tile (cmdD x.word)
  let s ← get
  if (SMap.get none t.fetched sentKey).isSome then pure .next
  else do
    Cmd.check (a.reason [0, 1, 2, 3] true <|> d.reason [0, 1, 2, 3] true)
    Cmd.require (a.global && s.localTile d && a.agrees d) 0x05
    Cmd.commitOk x [a, d]
    if s.lineBusy x.id (s.remoteSegs a.ranges) then Cmd.await x.id .remote
    else Cmd.into x d.dest (getParts x a d (fabricTc x.word))

def execGet (i : SlotId) (s : State) : Host.Outcome State Fault Refusal :=
  .next (runCommand s i (fun w => cmdOp w == 0x51) getBody)

/-! ## SEND (R244) -/

/-- The reason a header template fails with, and the fault address. -/
def State.templateReason (s : State) (w : W256) : Option (Nat × Nat) :=
  let h := Hdr.of w
  if (h.kind ≠ 0x10 ∧ h.kind ≠ 0x11) ∨ headerReserved w ≠ 0 ∨ !tcPermitted h.kind h.tc ∨ (h.mc ∧ !bitOf (s.groupEntry h.group) 127) then
    some (0x03, 0)
  else if !h.mc ∧ !s.nodeValid h.destNode then some (0x10, h.destNode * 2 ^ 40)
  else none

def sendBody (x : Issue) : Cmd After := do
  let t ← Cmd.slot x.id
  let a := t.tile (cmdA x.word)
  let p := t.pair (cmdB x.word).num
  let size := a.rows * a.rowBytes
  Cmd.check (a.reason [0] false)
  Cmd.require (64 ≤ size && size ≤ 4096 && size % 64 == 0) 0x05
  Cmd.commitOk x [a]
  if p % 32 ≠ 0 then Cmd.fail 0x12 p
  else do
    let w := BitVec.ofNat 256 (leNat (← Cmd.readGlobal x [((p : Int), 32)]))
    let s ← get
    match s.templateReason w with
    | some (r, f) => Cmd.fail r f
    | none =>
      let h : Hdr := { Hdr.of w with srcNode := s.node, srcEp := 0x1000 + x.id.hive, hop := 0, sub := 0, units := size / 64 }
      let port := 0x40 + x.id.hive
      let bs ← Cmd.onData (fun s => s.logDiscard 9 port 0xFF h.encode)
        (Cmd.read x a.global ((List.range a.rows).map fun r => (a.rowAt 0 r, a.rowBytes)))
      Cmd.update fun s => s.send port ⟨h.encode, bs⟩
      pure .next

def execSend (i : SlotId) (s : State) : Host.Outcome State Fault Refusal :=
  .next (runCommand s i (fun w => cmdOp w == 0x52) sendBody)

/-! ## DISPATCH (R293) -/

/-- The routing block of part `q` from a routing row. -/
def routingBlock (row : List Byte) (q : Nat) : List Byte :=
  natLE 4 (numAt row 0 4) ++ natLE 1 q ++ List.replicate 3 0
    ++ ((List.range 8).flatMap fun j => let e := numAt row (4 + 4 * j) 4; natLE 2 (if e > 4095 then 0xFFFF else e))
    ++ ((List.range 8).flatMap fun j => natLE 4 (numAt row (36 + 4 * j) 4)) ++ List.replicate 8 0

/-- Scale bytes of a row. -/
def Desc.scaleBytes (d : Desc) : Nat := if d.scaled then d.blocks else 0

def dispatchBody (x : Issue) : Cmd After := do
  let t ← Cmd.slot x.id
  let a := t.tile (cmdA x.word)
  let b := t.tile (cmdB x.word)
  let n := fieldOf 11 0 (cmdMods x.word)
  let s ← get
  let c := s.ctx n
  Cmd.require (bitOf c.record.toNat 511) 0x06
  Cmd.check (a.reason [0] false <|> b.reason [0] false)
  Cmd.require (b.fmt == 0xA && b.cols == 17 && a.rows == b.rows * c.partCount && decide (a.rowBytes + a.scaleBytes ≤ c.partBytes)) 0x05
  Cmd.commitOk x [a, b]
  let header (token : Nat) : W256 := (({
      destNode := s.node, destEp := 0x3000 + c.engine, srcNode := s.node, srcEp := 0x1000 + x.id.hive, kind := 0x20, tc := 3
      units := c.frameBytes / 64, tensor := n, seq := token } : Hdr)).encode
  -- a frame whose source is uncorrectable is dropped as it is built (R202, R228)
  let drop (token : Nat) (s : State) : State := s.logDiscard 9 (0x40 + x.id.hive) 0xFF (header token)
  let routes ← Cmd.onData (drop 0) (Cmd.readParts x b.global ((List.range b.rows).map fun r => (b.rowAt 0 r, b.rowBytes)))
  let first := numAt (routes.getD 0 []) 0 4
  let rows ← Cmd.onData (drop first) (Cmd.readParts x a.global ((List.range a.rows).map fun r => (a.rowAt 0 r, a.rowBytes)))
  let scales ← if a.scaled then
      Cmd.onData (drop first) (Cmd.readParts x a.global ((List.range a.rows).map fun r => (a.scaleAt 0 r, a.blocks)))
    else pure []
  Cmd.update fun s => (List.range a.rows).foldl (fun (s : State) r =>
    let route := routes.getD (r / c.partCount) []
    let body := slice (rows.getD r [] ++ scales.getD r []) 0 c.partBytes
    s.send (0x40 + x.id.hive) ⟨header (numAt route 0 4), routingBlock route (r % c.partCount) ++ body⟩) s
  pure .next

def execDispatch (i : SlotId) (s : State) : Host.Outcome State Fault Refusal :=
  .next (runCommand s i (fun w => cmdOp w == 0x54) dispatchBody)

/-! ## Records read at issue (R274, R313) -/

/-- Read a 64 B aligned record in the near store or HBM of this module. -/
def Cmd.record512 (x : Issue) (a : Nat) : Cmd W512 := do
  let s ← get
  let plain := match place (localOf a) with
    | .near _ | .hbm => true
    | _ => false
  if a % 64 ≠ 0 then Cmd.fail 0x12 a
  else if nodeOf a ≠ s.node ∨ !plain then Cmd.fail 0x10 a
  else
    let bs ← Cmd.readGlobal x [((a : Int), 64)]
    pure (BitVec.ofNat 512 (leNat bs))

def sattachBody (x : Issue) : Cmd After := do
  let t ← Cmd.slot x.id
  let v ← Cmd.record512 x (t.pair (cmdA x.word).num)
  let s ← get
  let r := s.attachStream v
  set r.2
  Cmd.mapSlot x.id fun t => t.put (cmdD x.word) (b2n r.1)
  pure .next

def execSattach (i : SlotId) (s : State) : Host.Outcome State Fault Refusal :=
  .next (runCommand s i (fun w => cmdOp w == 0x55) sattachBody)

/-! ## SEED, STEP, SCALE -/

def seedBody (x : Issue) : Cmd After := do
  let t ← Cmd.slot x.id
  Cmd.update fun s => s.setSeed (t.value (cmdA x.word) % 65536) (BitVec.ofNat 64 (t.pair (cmdB x.word).num))
  pure .next

def execSeed (i : SlotId) (s : State) : Host.Outcome State Fault Refusal :=
  .next (runCommand s i (fun w => cmdOp w == 0x60) seedBody)

/-- The step counter advances by 1, with the estimator epoch and the capacity counters (R172, R180, R305). -/
def State.advanceStep (s : State) : State :=
  ((s.setReg 0x301001 ((s.stepCount + 1) % 2 ^ 64)).setReg 0x302003 ((s.epoch + 1) % 2 ^ 64)).stepContexts

def stepBody (x : Issue) : Cmd After := do
  let t ← Cmd.slot x.id
  let s ← get
  let ok := decide (s.stepCount = t.pair (cmdA x.word).num)
  if ok then Cmd.update State.advanceStep
  Cmd.mapSlot x.id fun t => t.put (cmdD x.word) (b2n ok)
  pure .next

def execStep (i : SlotId) (s : State) : Host.Outcome State Fault Refusal :=
  .next (runCommand s i (fun w => cmdOp w == 0x61) stepBody)

def scaleBody (x : Issue) : Cmd After := do
  let t ← Cmd.slot x.id
  let tensor := t.value (cmdA x.word) % 65536
  let b := t.tile (cmdB x.word)
  let named := !(cmdB x.word).isNone
  Cmd.check (if named then b.reason [0] false else none)
  if named then Cmd.commitOk x [b]
  let amax ← if named then do
      let rows ← Cmd.values x b
      pure (some (amaxOf rows.flatten))
    else pure none
  let s ← get
  let (c, s') : Nat × State :=
    match s.recordOf tensor with
    | none => (0xFF, s)
    | some r =>
      let s := s.rollRecord r.1
      match amax with
      | some a =>
        let p := s.codeOrPrepass tensor a t.latch.headroom
        (p.1, p.2.contribute tensor t.latch.epoch { amax := some a })
      | none => (if (s.record r.1).primed then (s.record r.1).scale else 0xFF, s)
  set s'
  Cmd.mapSlot x.id fun t => t.put (cmdD x.word) c
  pure .next

def execScale (i : SlotId) (s : State) : Host.Outcome State Fault Refusal :=
  .next (runCommand s i (fun w => cmdOp w == 0x62) scaleBody)

/-! ## TIME and IDENT -/

def timeBody (x : Issue) : Cmd After := do
  let s ← get
  Cmd.mapSlot x.id fun t => t.setPair (cmdD x.word).num s.now
  pure .next

def execTime (i : SlotId) (s : State) : Host.Outcome State Fault Refusal :=
  .next (runCommand s i (fun w => cmdOp w == 0x70) timeBody)

/-- The identity value of a selector. -/
def State.identity (s : State) (i : SlotId) (sel : Nat) : Nat :=
  match sel with
  | 0 => (s.slot i).index
  | 1 => i.cell
  | 2 => i.comb
  | 3 => i.hive
  | 4 => i.thread
  | 5 => s.node
  | 6 => s.stepCount % 2 ^ 32
  | 7 => s.stepCount / 2 ^ 32
  | _ => b2n (s.comb i.comb).shownB

def identBody (x : Issue) : Cmd After := do
  let s ← get
  Cmd.mapSlot x.id fun t => t.put (cmdD x.word) (s.identity x.id (cmdMods x.word % 16))
  pure .next

def execIdent (i : SlotId) (s : State) : Host.Outcome State Fault Refusal :=
  .next (runCommand s i (fun w => cmdOp w == 0x71) identBody)

end Sys2Proof.Machine
end

