-- ==== Sys2Proof/Machine/HostWindow.lean ====
section
/-! DEFINITION. BAR2 and its window (R359, R371), and what stands in a submission entry (R364, R365). -/

namespace Sys2Proof.Machine

open Sys2Proof

/-- Does the endpoint take requests: host side powered, start-up over, port 0x50 not held in reset (R426, R439)? -/
def State.hostUp (s : State) : Bool := s.pow.powered && !s.pow.startingUp && !s.pow.warmHeld && !s.host.inReset

/-! ## BAR2 (R359, R360, R371) -/

/-- A BAR access that fails: counted, and reported through AER. -/
def State.barFault (s : State) (r : AerReport) : State := (s.bump 0x104001).aer r

/-- Give a completion to a non-posted request. -/
def State.complete (s : State) (c : HostCompletion) : State := { s with host := { s.host with completions := s.host.completions ++ [c] } }

def State.failRead (s : State) : State := (s.barFault .unsupportedRequest).complete .unsupported

/-- Do BAR2 requests wait: on the way back from DORMANT and in start-up, while PLLs lock (R431)? -/
def State.bar2Waits (s : State) : Bool := s.pow.startingUp || s.pow.state == 4

/-- Is BAR2 served: ACTIVE or ENTERING (R373, R434)? -/
def State.bar2Served (s : State) : Bool := !s.pow.startingUp && (s.pow.state == 1 || s.pow.state == 2)

def bar2Requester : Requester := ⟨3, 0⟩

/-- BAR2 requests leave as endpoint 0x2000 (log entry 26). -/
def bar2Tag (owner : TagOwner) (arrived : Nat) : Tag := { plainTag owner 5 with arrived := arrived }

/-- The bytes that lie here of parts of a read, by address. -/
def State.putBytes (m : SMap (Option Byte)) (a : Nat) : List Byte → SMap (Option Byte)
  | [] => m
  | b :: bs => State.putBytes (SMap.put none m a (some b)) (a + 1) bs

/-- Send the GETs of a remote part, and give their tags. -/
def State.bar2Gets (s : State) (a n : Nat) : List Nat × State :=
  (pieces 0 n).foldl (fun r p =>
    let t := r.2.freeTag r.2.net.tags.length r.2.net.nextTag
    (r.1 ++ [t], r.2.sendGet (Origin.queuePair 0) { bar2Tag .bar2Read s.now with here := some (a + p.1) } (nodeOf a)
      (localOf a + p.1) 0 p.2)) ([], s)

/-- A read of `len` bytes at global address `a`, which arrived at a time: local bytes at once, others by GETs. -/
def State.bar2Access (s : State) (a len arrived : Nat) : State :=
  let segs := splitNode a len
  let near := segs.filter fun g => decide (nodeOf g.1 = s.node)
  let far := segs.filter fun g => decide (nodeOf g.1 ≠ s.node)
  match s.memRead bar2Requester (near.map fun g => (localOf g.1, g.2)) with
  | (s, .error _) => s.failRead
  | (s, .ok bs) =>
    if far.isEmpty then s.complete (.data bs)
    else
      let r := far.foldl (fun r g => let q := r.2.bar2Gets g.1 g.2; (r.1 ++ q.1, q.2)) (([] : List Nat), s)
      let got := match near with
        | g :: _ => State.putBytes [] g.1 bs
        | [] => []
      { r.2 with host := { r.2.host with reads := r.2.host.reads ++ [⟨r.1, arrived, a, len, got⟩] } }

/-- Can the window reach `len` bytes at offset `o`, which is global address `a` (R359)? -/
def State.windowReaches (s : State) (o a len : Nat) : Bool :=
  decide (o + len ≤ 2 ^ 36) && decide (a + len ≤ 2 ^ 64) && (splitNode a len).all fun g => s.nodeValid (nodeOf g.1)

/-- A read is held; one that reaches another node under a tag of its own. -/
def State.holdRead (s : State) (a len : Nat) : State :=
  let remote := (splitNode a len).any fun g => decide (nodeOf g.1 ≠ s.node)
  let x := if remote then s.newTag (bar2Tag .bar2Read s.now) else (0, s)
  { x.2 with host := { x.2.host with
      readsHeld := x.2.host.readsHeld ++ [⟨a, len, s.now, if remote then some x.1 else none⟩] } }

/-- A BAR2 read of `len` bytes at offset `o`. It waits for the writes before it to be performed: while a write is held for a comb that
swaps (R359; log entry 26), and while the hubs come up (R431). -/
def State.bar2Read (s : State) (o len : Nat) : State :=
  let a := s.host.windowBase.toNat + o
  if !(s.bar2Served || s.bar2Waits) ∨ !s.windowReaches o a len then s.failRead
  else if s.writesHeld ∨ s.bar2Waits then s.holdRead a len
  else s.bar2Access a len s.now

/-- A held read is performed; where it completes, the link carries a TLP. -/
def State.releaseRead (s : State) (r : HeldRead) : State :=
  let s := match r.tag with
    | some t => s.dropTag t
    | none => s
  let t := s.bar2Access r.address r.length r.arrived
  if t.host.completions.length = s.host.completions.length then t else t.tlp

/-- Reads that waited are performed once no write is held and BAR2 is served. -/
def State.releaseReads (s : State) : State :=
  if s.writesHeld || s.bar2Waits then s
  else s.host.readsHeld.foldl State.releaseRead { s with host := { s.host with readsHeld := [] } }

/-- A posted write of bytes at global address `a`. -/
def State.bar2Store (s : State) (a : Nat) (bs : List Byte) : State :=
  let segs := splitNode a bs.length
  let part (g : Seg) : List Byte := slice bs (g.1 - a) g.2
  let near := segs.filter fun g => decide (nodeOf g.1 = s.node)
  let far := segs.filter fun g => decide (nodeOf g.1 ≠ s.node)
  let r := s.memWrite bar2Requester (near.map fun g => (localOf g.1, part g))
  let s := match r.2 with
    | some _ => r.1.barFault .unsupportedRequest
    | none => r.1
  far.foldl (fun (s : State) g =>
    s.sendPuts (Origin.queuePair 0) (bar2Tag .bar2Write s.now) (nodeOf g.1) (localOf g.1, part g)) s

/-- A posted BAR2 write; it waits while the hubs come up (R431). -/
def State.bar2Write (s : State) (o : Nat) (bs : List Byte) : State :=
  let a := s.host.windowBase.toNat + o
  if !(s.bar2Served || s.bar2Waits) then s.bump 0x104001
  else if !s.windowReaches o a bs.length then s.barFault .unsupportedRequest
  else if s.bar2Waits then { s with host := { s.host with writesWaiting := s.host.writesWaiting ++ [(a, bs)] } }
  else s.bar2Store a bs

/-- BAR2 requests that waited while the hubs came up are performed, the writes first. -/
def State.releaseBar2 (s : State) : State :=
  (s.host.writesWaiting.foldl (fun (s : State) w => s.bar2Store w.1 w.2) { s with host := { s.host with writesWaiting := [] } }).releaseReads

/-- BAR2 requests that wait as a FAULT STOP begins are answered as it answers them: UR, or dropped and counted. -/
def State.refuseBar2 (s : State) : State :=
  let s := s.host.readsHeld.foldl (fun (s : State) _ => s.failRead) (s.host.writesWaiting.foldl (fun (s : State) _ => s.bump 0x104001) s)
  { s with host := { s.host with readsHeld := [], writesWaiting := [] } }

/-- Remove a remote read with its tags. -/
def State.dropRead (s : State) (r : Bar2Read) : State :=
  let s := r.tags.foldl State.dropTag s
  { s with host := { s.host with reads := s.host.reads.erase r } }

def State.readOf (s : State) (tag : Nat) : Option Bar2Read := s.host.reads.find? fun r => r.tags.contains tag

/-! ## Submission entries (R364, R365) -/

/-- Opcode, flags and the reserved bytes of an entry that must be 0. -/
def entryOp (bs : List Byte) : Nat := numAt bs 0 1
def entryFlags (bs : List Byte) : Nat := numAt bs 1 1

/-- The entry of a pair. -/
def State.entry? (s : State) (q e : Nat) : Option Entry := (s.pair q).entries.find? fun x => x.id == e

def Entry.host (x : Entry) : Nat := numAt x.bytes 8 8
def Entry.global_ (x : Entry) : Nat := numAt x.bytes 16 8
def Entry.length (x : Entry) : Nat := numAt x.bytes 24 4
def Entry.moved (x : Entry) : Nat := x.length - x.left

end Sys2Proof.Machine
end

