-- ==== Sys2Proof/Machine/Banks.lean ====
section
/-! DEFINITION. Program banks: swap requests and swaps (R117, R121), and the debug program write (R120). -/

namespace Sys2Proof.Machine

open Sys2Proof

/-- A write of 2020.01 (R117, R122), reserved bits ignored; none: refused. -/
def State.swapRequest (s : State) (v : Nat) : Option State :=
  let first := fieldOf 13 0 v
  let count := fieldOf 28 14 v
  let hives := (List.range 16).filter fun h => decide (first / 1024 ≤ h) && decide (h ≤ (first + count - 1) / 1024)
  if count = 0 ∨ first + count > 16384 ∨ (hives.any fun h => !s.hiveWorks h) then none
  else some ((List.range count).foldl (fun (s : State) k =>
    let c := s.comb (first + k)
    s.setComb (first + k) { c with swaps := c.swaps + 1 }) s)

/-- A comb performs its earliest swap: writes held for the bank that is now inactive are performed once no swap is left (R117), and the
altered mark of a bank that becomes inactive clears (R120). BAR2 reads that waited for held writes go on (R359). -/
def State.bankSwap (s : State) (n : Nat) : State :=
  let c := s.comb n
  if c.swaps = 0 ∨ !s.pow.powered ∨ !s.hiveWorks (n / 1024) then s
  else
    let old := c.bankB
    let c := { c with bankB := !old, swaps := c.swaps - 1 }.markAltered old false
    let ready := decide (c.swaps = 0)
    let held := if ready then c.heldWrites else []
    let s := s.setComb n { c with heldWrites := if ready then [] else c.heldWrites }
    let s := held.foldl (fun (s : State) w => (s.storePiece w.1 w.2).markBank n old false) s
    (s.bump 0x202004).releaseReads

def execBankSwap (comb : Nat) (s : State) : Host.Outcome State Fault Refusal := .next (s.bankSwap comb)

/-- A debug write of one command (R120); none: refused. True when it altered an active bank. -/
def State.debugWrite (s : State) (bs : List Byte) : Option (Bool × State) :=
  let n := numAt bs 0 2
  let b := numAt bs 2 1
  let index := numAt bs 4 2
  if n ≥ 16384 ∨ b > 1 ∨ index ≥ 2048 ∨ !s.hiveWorks (n / 1024) then none
  else
    let bank := decide (b = 1)
    let a := progAddr n bank (index * 16)
    let c := s.comb n
    if c.shownB = bank then
      let s := (s.storePiece a (slice bs 16 8)).storePiece (a + 8) (slice bs 24 8)
      let s := s.markBank n bank true
      let s := if s.combEmpty n then s else s.setComb n ((s.comb n).markAltered bank true)
      some (true, s.bump 0x202006)
    else
      let r := s.progWrite a (slice bs 16 8)
      some (false, (r.2.progWrite (a + 8) (slice bs 24 8)).2)

end Sys2Proof.Machine
end

