-- ==== Sys2Proof/Machine/Groups.lean ====
section
/-! DEFINITION. Collective groups (R309–R312), positions and ranks, post records and their checks (R313–R316), chunks and shards (R319),
and the transfers of each stream (R320). -/

namespace Sys2Proof.Machine

open Sys2Proof

/-! ## Group records (R309, R310) -/

/-- An axis descriptor. -/
structure Axis where
  dim : Nat
  first : Nat
  count : Nat
  stride : Nat
  deriving DecidableEq, Repr

def groupValid (v : W256) : Bool := bitOf v.toNat 255
def groupHub (v : W256) : Nat := fieldOf 254 254 v.toNat
def groupAxes (v : W256) : Nat := fieldOf 253 252 v.toNat + 1
def groupGeneration (v : W256) : Nat := fieldOf 251 236 v.toNat

/-- The descriptor word of axis `k`. -/
def axisWord (v : W256) (k : Nat) : Nat := fieldOf (63 - 16 * k) (48 - 16 * k) v.toNat

def axisOf (v : W256) (k : Nat) : Axis :=
  let w := axisWord v k
  ⟨fieldOf 15 14 w, fieldOf 13 10 w, fieldOf 9 6 w + 1, fieldOf 5 2 w⟩

/-- The axes of a group, in axis order. -/
def groupAxisList (v : W256) : List Axis := (List.range (groupAxes v)).map (axisOf v)

def State.group (s : State) (g : Nat) : Group := SMap.get {} s.coll.groups g
def State.setGroup (s : State) (n : Nat) (g : Group) : State := { s with coll := { s.coll with groups := SMap.put {} s.coll.groups n g } }

/-- The coordinate of position `p`. -/
def State.axisCoord (s : State) (a : Axis) (p : Nat) : Nat := (a.first + p * a.stride) % s.dimSize a.dim

/-- This module's position on an axis, if it has one (R311). -/
def State.axisPosition (s : State) (a : Axis) : Option Nat :=
  (List.range a.count).find? fun p => s.axisCoord a p == coordOf s.node a.dim

/-- The checks of R310 on a record with valid set. -/
def State.groupOk (s : State) (v : W256) : Bool :=
  let axes := groupAxisList v
  decide (fieldOf 235 64 v.toNat = 0)
    && (List.range 4).all (fun k => if k < groupAxes v then axisWord v k % 4 == 0 else axisWord v k == 0)
    && decide (axes.map Axis.dim).Nodup
    && axes.all fun a => decide (a.dim < s.dimCount) && decide (a.first < s.dimSize a.dim) && a.stride != 0
        && decide ((a.count - 1) * a.stride < s.dimSize a.dim) && (s.axisPosition a).isSome

/-- A collective as a reader of its group: counts n_k and own positions p_k (R311). -/
structure Ring where
  axes : List Axis
  counts : List Nat
  pos : List Nat
  deriving DecidableEq, Repr

def State.ring (s : State) (g : Nat) : Ring :=
  let axes := groupAxisList (s.group g).record
  ⟨axes, axes.map Axis.count, axes.map fun a => (s.axisPosition a).getD 0⟩

namespace Ring

def n (r : Ring) : Nat := r.counts.foldl (· * ·) 1
def count (r : Ring) (k : Nat) : Nat := r.counts.getD k 1
def p (r : Ring) (k : Nat) : Nat := r.pos.getD k 0
def rank (r : Ring) : Nat := (r.counts.zip r.pos).foldl (fun acc x => acc * x.1 + x.2) 0

/-- The positions of a rank, last axis fastest. -/
def positions (r : Ring) (rank : Nat) : List Nat :=
  (r.counts.foldr (fun c (x : Nat × List Nat) => (x.1 / c, (x.1 % c) :: x.2)) (rank, [])).2

/-- Positions moved by `i` places along a ring of `n`, with or against the positive direction. -/
def moved (n p i : Nat) (neg : Bool) : Nat := if neg then (p + (n - i % n)) % n else (p + i) % n

end Ring

/-- The node of the ring neighbour on axis `k`. -/
def State.neighbour (s : State) (r : Ring) (k : Nat) (neg : Bool) : Nat :=
  match r.axes[k]? with
  | none => s.node
  | some a => setField s.node (6 * a.dim) 6 (s.axisCoord a (Ring.moved a.count (r.p k) 1 neg))

/-- The distinct ring neighbours. -/
def State.neighbours (s : State) (r : Ring) : List Nat :=
  ((List.range r.axes.length).flatMap fun k =>
    if r.count k = 1 then [] else [s.neighbour r k false, s.neighbour r k true]).eraseDups

/-- Staging chunks reserved for a group: two for each direction of each axis with more than one position (R326). -/
def reservedFor (v : W256) : Nat := 4 * ((groupAxisList v).filter fun a => decide (1 < a.count)).length

/-! ## Reservations (R326) -/

/-- The requester of the sequencers (R203). -/
def seqRequester : Requester := ⟨6, 0⟩

/-- Return staging chunks to their pool. -/
def State.freeChunks (s : State) (hub : Nat) (as : List Nat) : State := as.foldl (fun s a => (s.freeHere ⟨3, hub⟩ a).2) s

/-- Take `n` buffers of a pool; stop at the first that fails. -/
def State.takeChunks (s : State) (p : Nat) : Nat → List Nat × State
  | 0 => ([], s)
  | n + 1 =>
    let a := s.alloc p
    if a.1 = 0 then ([], a.2) else let r := State.takeChunks a.2 p n; (a.1 :: r.1, r.2)

/-- May pool `p` serve as a staging pool: an enabled class-4 pool in the near store? -/
def State.stagingPoolOk (s : State) (p : Nat) : Bool :=
  let q := s.pool p
  q.state == 1 && q.cls == 4 && decide (q.base + q.count * q.size ≤ 0x800000000)

/-- Is a collective of the group active? -/
def State.groupBusy (s : State) (g : Nat) : Bool := s.coll.active.any fun c => c.group == g

/-- A record without its reserved bits: bits [235:64], and the two low bits of each axis descriptor (R9, R309). -/
def groupRecord (v : W256) : W256 :=
  BitVec.ofNat 256 ([0, 16, 32, 48].foldl (fun x lo => setField x lo 2 0) (setField v.toNat 64 172 0))

/-- A write of a group record (R310, R312, R326); false: refused with an access error, the group unchanged. The pool named now serves the
group from its definition on (R336). -/
def State.writeGroup (s : State) (g : Nat) (v : W256) : Bool × State :=
  let old := s.group g
  if s.groupBusy g then (false, s)
  else if !groupValid v then
    -- reserved bits of an undefining write are ignored (R9)
    (true, (s.freeChunks (groupHub old.record) old.reserved).setGroup g { record := groupRecord v })
  else if !s.groupOk v then (false, s)
  else
    let p := s.reg 0x501001
    if reservedFor v ≠ 0 ∧ !s.stagingPoolOk p then (false, s)
    else
      let r := s.takeChunks p (reservedFor v)
      if r.1.length < reservedFor v then (false, r.2.freeChunks (groupHub v) r.1)
      else (true, (r.2.freeChunks (groupHub old.record) old.reserved).setGroup g ⟨v, 0, r.1, p⟩)

/-- Group state (5000.03). -/
def State.groupState (s : State) (g : Nat) : List Byte :=
  let q := s.group g
  if !groupValid q.record then List.replicate 16 0
  else
    let r := s.ring g
    [1, 0] ++ natLE 2 (r.n - 1) ++ natLE 2 r.rank ++ [0, 0] ++ natLE 4 q.lastSeq
      ++ natLE 4 (s.coll.active.filter fun c => c.group == g).length

/-- Staging chunks held (5010.02). -/
def State.chunksHeld (s : State) : Nat :=
  (s.coll.groups.map fun e => e.2.reserved.length).sum
    + (s.coll.active.map fun c => (c.streams.map fun t => t.extra.length).sum).sum

/-- A write of a direct-channel record (R329); none: refused. The window lies in the near store or HBM, in multiples of 64 KiB; reserved
bits are ignored (R9). -/
def State.writeChannel (s : State) (n : Nat) (v : W256) : Option State :=
  let used := s.coll.active.any fun c => fieldOf 482 480 c.record.toNat == 4 + n
  let x := setField (setField v.toNat 0 64 0) 192 55 0
  if used ∨ fieldOf 127 64 x % 65536 ≠ 0 then none
  else if bitOf x 255 && !plainRegion (fieldOf 191 128 x) (fieldOf 127 64 x) then none
  else some { s with coll := { s.coll with channels := SMap.put 0 s.coll.channels n (BitVec.ofNat 256 x) } }

/-! ## Post records (R313, R314) -/

namespace Collective

def fld (c : Collective) (hi lo : Nat) : Nat := fieldOf hi lo c.record.toNat
def op (c : Collective) : Nat := c.fld 503 496
def etype (c : Collective) : Nat := c.fld 487 486
def rop (c : Collective) : Nat := c.fld 485 484
def tc (c : Collective) : Nat := 1 + c.fld 483 483
def channel (c : Collective) : Nat := c.fld 482 480
def root (c : Collective) : Nat := c.fld 479 464
def timeout (c : Collective) : Nat := c.fld 463 448
def elems (c : Collective) : Nat := c.fld 447 416
def input (c : Collective) : Nat := c.fld 383 320
def output (c : Collective) : Nat := c.fld 319 256
def countsAt (c : Collective) : Nat := c.fld 255 192
def completion (c : Collective) : Nat := c.fld 63 0

/-- Bytes of an element. -/
def width (c : Collective) : Nat := if c.etype = 0 ∨ c.etype = 3 then 4 else 2

/-- Granules of 32 elements. -/
def granules (c : Collective) : Nat := ceilDiv c.elems 32

/-- The operations with a reduction (R314). -/
def reduces (c : Collective) : Bool := c.op == 1 || c.op == 2 || c.op == 5
def gathers (c : Collective) : Bool := c.op == 1 || c.op == 3 || c.op == 4 || c.op == 5
def exchanges (c : Collective) : Bool := c.op == 6 || c.op == 7
def direct (c : Collective) : Bool := decide (4 ≤ c.channel)

/-- Bytes from the start of granule `lo` to the end of the granule before `hi`. -/
def span (c : Collective) (lo hi : Nat) : Nat := (min (hi * 32) c.elems - min (lo * 32) c.elems) * c.width

/-- The byte offset of granule `g`: its element index × width. -/
def granuleAt (c : Collective) (g : Nat) : Nat := g * 32 * c.width

end Collective

/-- The granules of a chunk of [lo, hi) (R319). -/
def chunkOf (lo hi n c : Nat) : Nat × Nat := (lo + (hi - lo) * c / n, lo + (hi - lo) * (c + 1) / n)

/-- The half of a chunk that travels in a direction. -/
def halfOf (x : Nat × Nat) (neg : Bool) : Nat × Nat :=
  let m := x.1 + ceilDiv (x.2 - x.1) 2
  if neg then (m, x.2) else (x.1, m)

/-- The range that a rank of positions `ps` works on before axis `k`: the nested chunks of the axes below `k`. -/
def rangeAt (granules : Nat) (counts ps : List Nat) : Nat → Nat × Nat
  | 0 => (0, granules)
  | k + 1 =>
    let r := rangeAt granules counts ps k
    chunkOf r.1 r.2 (counts.getD k 1) (ps.getD k 0)

/-- The shard of this rank, in granules. -/
def Collective.shard (c : Collective) (r : Ring) : Nat × Nat := rangeAt c.granules r.counts r.pos r.counts.length

/-- Bytes of input and output at this rank (R314); all-to-all-v sizes its input later (R315). -/
def Collective.inputBytes (c : Collective) (r : Ring) : Nat :=
  match c.op with
  | 1 | 2 | 5 => c.elems * c.width
  | 3 => c.span (c.shard r).1 (c.shard r).2
  | 4 => if c.root = r.rank then c.elems * c.width else 0
  | 6 => r.n * c.elems * c.width
  | _ => 0

def Collective.outputBytes (c : Collective) (r : Ring) : Nat :=
  match c.op with
  | 1 | 3 | 4 => c.elems * c.width
  | 2 => c.span (c.shard r).1 (c.shard r).2
  | 5 => if c.root = r.rank then c.elems * c.width else 0
  | 6 => r.n * c.elems * c.width
  | 7 => c.elems * c.width
  | _ => 0

/-- Must the record name an input, an output, a count array? -/
def Collective.namesInput (c : Collective) (r : Ring) : Bool := c.op != 8 && !(c.op == 4 && c.root != r.rank)
def Collective.namesOutput (c : Collective) (r : Ring) : Bool := c.op != 8 && !(c.op == 5 && c.root != r.rank)

/-- An address of a post record: 0 where the operation names none; else 64 B aligned, on this module, in the near store or HBM. -/
def State.postAddressOk (s : State) (named : Bool) (a len : Nat) : Bool :=
  if !named then a == 0
  else s.nodeValid (nodeOf a) && decide (nodeOf a = s.node) && a % 64 == 0 && plainRegion (localOf a) (max len 1)

/-- Do two regions share a byte? -/
def regionsMeet (a n b m : Nat) : Bool := decide (0 < n) && decide (0 < m) && overlap a n b m

/-- The status with which a post is refused, if it is (R316). -/
def State.postRefusal (s : State) (c : Collective) : Option Nat :=
  let g := s.group c.group
  let r := s.ring c.group
  let e := c.elems
  let ch := (SMap.get 0 s.coll.channels (c.channel - 4)).toNat
  let inLen := c.inputBytes r
  let outLen := c.outputBytes r
  if c.fld 511 504 ≠ 1 ∨ c.op = 0 ∨ 8 < c.op ∨ c.rop = 3 ∨ (1 ≤ c.channel ∧ c.channel ≤ 3) then some 0x10
  else if !groupValid g.record then some 0x11
  else if (if c.op = 8 then e ≠ 0 else if c.op = 6 then r.n * e > 2 ^ 32 - 1 else c.op ≠ 7 ∧ e = 0)
      ∨ (if c.op = 4 ∨ c.op = 5 then r.n ≤ c.root else c.root ≠ 0) ∨ (!c.reduces ∧ c.rop ≠ 0)
      ∨ (c.exchanges ∧ 4096 < r.n) then some 0x12
  else if !s.postAddressOk (c.namesInput r) c.input inLen ∨ !s.postAddressOk (c.namesOutput r) c.output outLen
      ∨ !s.postAddressOk (c.op == 7) c.countsAt (8 * r.n) ∨ !s.ownAddress c.completion 8
      ∨ regionsMeet (localOf c.input) inLen (localOf c.output) outLen then some 0x13
  else if c.direct ∧ (!bitOf ch 255 ∨ fieldOf 254 247 ch ≠ c.group ∨ ¬ (c.op = 3 ∨ c.op = 4)
      ∨ localOf c.output < fieldOf 191 128 ch ∨ fieldOf 191 128 ch + fieldOf 127 64 ch < localOf c.output + outLen) then some 0x14
  else if 64 ≤ s.coll.active.length then some 0x15
  else none

/-! ## Transfers (R319, R320) -/

/-- Do ranks of these positions take part in a broadcast along axis `k`: do their positions below `k` equal the root's? -/
def Collective.inBroadcast (c : Collective) (r : Ring) (k : Nat) : Bool :=
  (r.pos.take k) == ((r.positions c.root).take k)

/-- The halves a stream receives (`out` false) or sends (`out` true), in order, as granule ranges, empty ones left out. -/
def Collective.transfers (c : Collective) (r : Ring) (t : CollStream) (out : Bool) : List (Nat × Nat) :=
  let k := t.axis
  let n := r.count k
  let p := r.p k
  let back (i : Nat) : Nat := Ring.moved n p i (!t.negative)
  let range := rangeAt c.granules r.counts r.pos k
  let half (i : Nat) : Nat × Nat := halfOf (chunkOf range.1 range.2 n (back i)) t.negative
  let all :=
    if n ≤ 1 ∨ c.op = 8 then []
    else if t.phase = 0 then (List.range (n - 1)).map fun i => half (i + 1 + b2n (!out))
    else if t.phase = 1 ∧ c.op = 4 then
      let q := (r.positions c.root).getD k 0
      let halves := (List.range n).map fun i => halfOf (chunkOf 0 c.granules n i) t.negative
      if !c.inBroadcast r k then []
      else if out then (if Ring.moved n p 1 t.negative = q then [] else halves)
      else if p = q then [] else halves
    else if t.phase = 1 then (List.range (n - 1)).map fun i => half (i + b2n (!out))
    else []
  all.filter fun x => decide (x.1 < x.2)

/-- The route of a block from rank `src` to rank `dst` (R320): for each axis, the direction it takes. -/
def stepsTo (n a b : Nat) : Bool × Nat :=
  let up := (b + n - a) % n
  let down := (a + n - b) % n
  if down < up then (true, down) else (false, up)

/-- The stream (axis, negative) by which a block leaves the rank of positions `me`, if it passes there and goes on. -/
def leavesBy (counts me src dst : List Nat) : Option (Nat × Bool) :=
  (List.range counts.length).findSome? fun k =>
    let n := counts.getD k 1
    let a := src.getD k 0
    let b := dst.getD k 0
    let m := me.getD k 0
    let x := stepsTo n a b
    let along := if x.1 then (a + n - m) % n else (m + n - a) % n
    if me.take k = dst.take k ∧ me.drop (k + 1) = src.drop (k + 1) ∧ m ≠ b ∧ along < x.2 then some (k, x.1) else none

/-- The stream by which a block reaches the rank of positions `me`. -/
def arrivesBy (counts me src dst : List Nat) : Option (Nat × Bool) :=
  (List.range counts.length).findSome? fun k =>
    let n := counts.getD k 1
    let a := src.getD k 0
    let b := dst.getD k 0
    let m := me.getD k 0
    let x := stepsTo n a b
    let along := if x.1 then (a + n - m) % n else (m + n - a) % n
    if me.take k = dst.take k ∧ me.drop (k + 1) = src.drop (k + 1) ∧ 0 < along ∧ along ≤ x.2 then some (k, x.1) else none

namespace Collective

/-- A send count that is known; the uniform count of an all-to-all. -/
def sendCount (c : Collective) (src dst : Nat) : Nat :=
  if c.op = 6 then c.elems else (SMap.get none c.counts (src * 65536 + dst)).getD 0

/-- Are all send counts known? -/
def countsKnown (c : Collective) (n : Nat) : Bool :=
  c.op != 7 || (List.range n).all fun i => (List.range n).all fun j => (SMap.get none c.counts (i * 65536 + j)).isSome

/-- The offset of block `dst` in the input of `src`, its length, and its place in the output of `dst`. -/
def blockAt (c : Collective) (src dst : Nat) : Nat := ((List.range dst).map fun j => c.sendCount src j).sum * c.width
def blockLen (c : Collective) (src dst : Nat) : Nat := c.sendCount src dst * c.width
def blockPlace (c : Collective) (src dst : Nat) : Nat := ((List.range src).map fun i => c.sendCount i dst).sum * c.width

/-- The non-empty blocks (source, destination) that pass this rank by a stream, arriving or leaving. -/
def blocksBy (c : Collective) (r : Ring) (t : CollStream) (out : Bool) : List (Nat × Nat) :=
  (List.range r.n).flatMap fun i => ((List.range r.n).filter fun j =>
    c.blockLen i j != 0
      && (if out then leavesBy else arrivesBy) r.counts r.pos (r.positions i) (r.positions j) == some (t.axis, t.negative)).map fun j => (i, j)

/-- The chunks of the blocks that pass by an exchange stream, once the counts are known. -/
def blockChunks (c : Collective) (r : Ring) (t : CollStream) (out : Bool) : Nat :=
  if c.countsKnown r.n then ((c.blocksBy r t out).map fun b => ceilDiv (c.blockLen b.1 b.2) 65536).sum else 0

/-- Chunks a stream receives in all (R327): each transfer starts a new chunk. -/
def chunksIn (c : Collective) (r : Ring) (t : CollStream) : Nat :=
  if c.op = 8 then r.count t.axis - 1
  else if t.phase = 2 then c.blockChunks r t false
  else ((c.transfers r t false).map fun x => ceilDiv (c.span x.1 x.2) 65536).sum

/-- The streams of a collective. -/
def streamsOf (c : Collective) (r : Ring) : List CollStream :=
  let ks := (List.range r.counts.length).filter fun k => decide (1 < r.count k)
  let phase (ph : Nat) (ks : List Nat) : List CollStream :=
    ks.flatMap fun k => [{ axis := k, phase := ph, negative := false }, { axis := k, phase := ph, negative := true }]
  (if c.reduces || c.op == 8 then phase 0 ks else []) ++ (if c.gathers then phase 1 ks.reverse else [])
    ++ (if c.exchanges then phase 2 ks else [])

end Collective

end Sys2Proof.Machine
end

