-- ==== Sys2Proof/Machine/Collectives.lean ====
section
/-! DEFINITION. The collective sequencers (R313–R334): frames, grants, reductions, gathers, exchanges and barriers, completion, errors
and aborts. Data on its way is staged in the chunks of R326; intermediate sums lie in the output where it has room for them (log entry 24). -/

namespace Sys2Proof.Machine

open Sys2Proof

/-! ## Access to the active collectives -/

def State.coll? (s : State) (id : Nat) : Option Collective := s.coll.active.find? fun c => c.id == id

def State.mapColl (s : State) (id : Nat) (f : Collective → Collective) : State :=
  { s with coll := { s.coll with active := s.coll.active.map fun c => if c.id = id then f c else c } }

def State.mapStreamOf (s : State) (id i : Nat) (f : CollStream → CollStream) : State :=
  s.mapColl id fun c => { c with streams := c.streams.modify i f }

/-- The collective that a frame names (R318, R323). -/
def State.matchColl (s : State) (hub : Nat) (h : Hdr) : Option Collective :=
  s.coll.active.find? fun c => c.hub == hub && c.group == h.group && c.generation == h.tensor && c.sequence == h.seq

/-! ## Frames (R323–R325) -/

/-- A control or abort frame's header to a neighbour. -/
def State.collHeader (s : State) (c : Collective) (node kind units : Nat) : Hdr :=
  { destNode := node, destEp := 0x3100 + c.hub, srcNode := s.node, srcEp := 0x3100 + c.hub, kind := kind, group := c.group
    tensor := c.generation, seq := c.sequence, units := units }

/-- Byte 1 of a control frame. -/
def streamByte (t : CollStream) : Byte := BitVec.ofNat 8 (t.axis * 64 + t.phase * 16 + b2n t.negative * 8)

/-- Send a control frame of a stream to a neighbour on TC0 (R324). -/
def State.sendControl (s : State) (c : Collective) (t : CollStream) (node type : Nat) (word count : Nat) (tail : List Byte) : State :=
  let body : List Byte := [BitVec.ofNat 8 type, streamByte t, 0, 0] ++ natLE 4 word ++ natLE 4 count ++ List.replicate 52 0 ++ padTo 64 tail
  s.send (0x80 + c.hub) ⟨(s.collHeader c node 0x31 (body.length / 64)).encode, body⟩

/-- The frame of an ABORT (R325). -/
def State.abortFrameTo (s : State) (c : Collective) (node reason origin : Nat) : Frame :=
  ⟨(s.collHeader c node 0x32 1).encode, BitVec.ofNat 8 reason :: List.replicate 7 0 ++ natLE 3 origin ++ List.replicate 53 0⟩

/-- One ABORT to each ring neighbour. -/
def State.sendAborts (s : State) (c : Collective) (reason origin : Nat) : State :=
  (s.neighbours (s.ring c.group)).foldl (fun s x => s.send (0x80 + c.hub) (s.abortFrameTo c x reason origin)) s

/-- Send one data frame of stream `i` (R322, R323): frame f leaves on entry f mod L of the links toward the neighbour. -/
def State.sendData (s : State) (c : Collective) (i : Nat) (t : CollStream) (src offset : Nat) (bs : List Byte) : State :=
  let node := s.neighbour (s.ring c.group) t.axis t.negative
  let links := match s.direction node with
    | some (d, neg) => s.linksOf d neg
    | none => []
  let body := padTo 64 bs
  let h : Hdr := { s.collHeader c node 0x30 (body.length / 64) with
    tc := c.tc, sop := body.length - bs.length
    offset := t.axis * 2 ^ 62 + t.phase * 2 ^ 60 + b2n t.negative * 2 ^ 59 + src * 2 ^ 40 + offset % 2 ^ 40 }
  let f : Frame := ⟨h.encode, body⟩
  let port := 0x80 + c.hub
  let r : Route := match links[t.frames % links.length]? with
    | some l => s.linkRoute port l f.header
    | none => .discard 0x0D
  let s := match r with
    | .discard _ => s.forwardBy port r f (s.mirrorSet port false f.header) false s.now
    | _ => s.sendOn port r f
  s.mapStreamOf c.id i fun t => { t with frames := t.frames + 1 }

/-! ## Ending (R316, R317, R330, R333) -/

/-- Write the completion record of an accepted or refused post, and end the host entry that posted it. -/
def State.reportColl (s : State) (c : Collective) (status origin : Nat) : State :=
  let r := 2 ^ 63 + origin * 2 ^ 16 + status
  let s := s.writeRecord 3 seqRequester (Origin.sequencer c.hub) c.completion (natLE 8 r)
  match c.entry with
  | some (q, e) => s.endEntry q e status r
  | none => s

/-- Remove a collective: the buffers taken for its streams return to their pool. -/
def State.removeColl (s : State) (c : Collective) : State :=
  let s := s.freeChunks c.hub (c.streams.flatMap CollStream.extra)
  { s with coll := { s.coll with active := s.coll.active.filter fun d => d.id != c.id } }

/-- The output, and the receive counts, of a collective that ends early are undefined (R333). -/
def State.loseOutput (s : State) (c : Collective) : State :=
  let r := s.ring c.group
  let s := s.scribble (if c.namesOutput r then [(localOf c.output, c.outputBytes r)] else [])
  if c.op = 7 then s.scribble [(localOf c.countsAt + 4 * r.n, 4 * r.n)] else s

/-- A collective ends early: ABORTs with a reason, its outputs undefined, its record written unless it was before. -/
def State.endColl (s : State) (id status reason origin : Nat) : State :=
  match s.coll? id with
  | none => s
  | some c =>
    let s := (s.sendAborts c reason origin).removeColl c
    if c.reported then s
    else
      let s := s.contained.bump 0x502004
      (s.loseOutput c).reportColl c status (if status = 2 ∨ status = 5 then origin else 0)

/-- A data error at this module (R330). -/
def State.collFault (s : State) (id : Nat) : State := s.endColl id 1 3 s.node

/-! ## Values -/

/-- One addition or comparison of R321. -/
def Collective.combine (c : Collective) (a b : Nat) : Conv :=
  if c.etype = 3 then
    { bits := match c.rop with
        | 0 => (a + b) % 2 ^ 32
        | 1 => if toSigned 32 a < toSigned 32 b then b else a
        | _ => if toSigned 32 b < toSigned 32 a then b else a }
  else
    let code := match c.etype with
      | 0 => 0xA
      | 1 => 8
      | _ => 9
    match ffmtOf code with
    | none => { bits := 0 }
    | some f =>
      let x := f.decode a
      let y := f.decode b
      f.round (overflowOf code false c.fp16Inf) .rne (if c.rop = 0 then FVal.add false x y else FVal.pick (c.rop == 1) x y)

/-- Bytes as element words. -/
def Collective.wordsOf (c : Collective) (bs : List Byte) : List W32 :=
  (List.range (bs.length / c.width)).map fun i => BitVec.ofNat 32 (numAt bs (i * c.width) c.width)

def Collective.bytesOf (c : Collective) (ws : List W32) : List Byte := ws.flatMap fun w => natLE c.width w.toNat

/-- Read bytes of this module for a collective, or end it (R202, R330). -/
def State.collRead (s : State) (id a len : Nat) : Except State (State × List Byte) :=
  match s.memRead seqRequester [(a, len)] with
  | (s, .ok bs) => .ok (s, bs)
  | (s, .error _) => .error (s.collFault id)

/-- Write bytes of this module for a collective, or end it; one that has ended writes nothing (R333). -/
def State.collWrite (s : State) (id a : Nat) (bs : List Byte) : State :=
  if (s.coll? id).isNone then s
  else
    match s.memWrite seqRequester [(a, bs)] with
    | (s, none) => s
    | (s, some _) => s.collFault id

/-- The record of a stream's chunks: a transfer, or the block of an exchange, and the chunk's number in it. -/
def chunkKey (transfer idx : Nat) : Nat := transfer * 2 ^ 20 + idx

/-- The block (source, destination) of a chunk of an exchange. -/
def chunkBlock (key : Nat) : Nat × Nat := (key / 2 ^ 36, key / 2 ^ 20 % 65536)

/-- The key of a granule on an axis. -/
def granuleKey (k g : Nat) : Nat := k * 2 ^ 40 + g

/-- Where granule `g` of the input lies: an all-gather's input is the shard alone. -/
def Collective.inputAt (c : Collective) (r : Ring) (g : Nat) : Nat :=
  localOf c.input + (c.granuleAt g - (if c.op = 3 then c.granuleAt (c.shard r).1 else 0))

/-- Has the output room for every granule, so that intermediate sums lie in it (R320)? -/
def Collective.roomForSums (c : Collective) (r : Ring) : Bool := c.op == 1 || (c.op == 5 && c.root == r.rank)

/-- Where granule `g` of the output lies. -/
def Collective.outputAt (c : Collective) (r : Ring) (g : Nat) : Nat :=
  localOf c.output + (c.granuleAt g - (if c.op = 2 then c.granuleAt (c.shard r).1 else 0))

/-- The values of granule `g` at local address `a`. -/
def State.granuleIn (s : State) (c : Collective) (g a : Nat) : Except State (State × List W32) :=
  match s.collRead c.id a (c.span g (g + 1)) with
  | .ok (s, bs) => .ok (s, c.wordsOf bs)
  | .error s => .error s

/-- Values of granule `g` that are known: kept with the collective, or in the output. -/
def State.heldValue (s : State) (c : Collective) (r : Ring) (g : Nat) (ws : List W32) : Except State (State × List W32) :=
  if ws.isEmpty then s.granuleIn c g (c.outputAt r g) else .ok (s, ws)

/-- What this rank adds on axis `k` (R320): its input on the first ring, the sums of the ring before it on the others. None: not yet
formed. -/
def State.ownValue (s : State) (c : Collective) (r : Ring) (g : Nat) : Nat → Option (Except State (State × List W32))
  | 0 => some (s.granuleIn c g (c.inputAt r g))
  | k + 1 =>
    if r.count k = 1 then s.ownValue c r g k
    else (SMap.get none c.parts (granuleKey k g)).map (s.heldValue c r g)

/-- A result of this rank is known: it is written to the output where this rank has one (R314). -/
def State.setResult (s : State) (id g : Nat) (ws : List W32) : State :=
  match s.coll? id with
  | none => s
  | some c =>
    let r := s.ring c.group
    let known (s : State) (ws : List W32) : State := s.mapColl id fun c => { c with results := SMap.put none c.results g (some ws) }
    if c.namesOutput r then known (s.collWrite id (c.outputAt r g) (c.bytesOf ws)) [] else known s ws

/-- Sums formed on axis `k`: they lie in the output where it has room (R320). -/
def State.setSums (s : State) (c : Collective) (r : Ring) (k g : Nat) (vs : List W32) : State :=
  let here := c.roomForSums r
  (if here then s.collWrite c.id (c.outputAt r g) (c.bytesOf vs) else s).mapColl c.id fun c =>
    { c with arrived := SMap.put none c.arrived (granuleKey k g) none
             parts := SMap.put none c.parts (granuleKey k g) (some (if here then [] else vs)) }

/-- Add a staged partial sum on axis `k` where the own value is at hand, and pass on to the next ring (R158, R159). -/
def State.addAt (s : State) (id g : Nat) : Nat → Nat → State
  | 0, _ => s
  | fuel + 1, k =>
    match s.coll? id with
    | none => s
    | some c =>
      let r := s.ring c.group
      match SMap.get none c.arrived (granuleKey k g) with
      | none => s
      | some a =>
        match s.ownValue c r g k with
        | none => s
        | some (.error s) => s
        | some (.ok (s, own)) =>
          match s.granuleIn c g a with
          | .error s => s
          | .ok (s, ws) =>
            let sums := (ws.zip own).map fun x => c.combine x.1.toNat x.2.toNat
            let vs := sums.map fun x => BitVec.ofNat 32 x.bits
            let s := (s.countConvs sums).setSums c r k g vs
            match (List.range r.counts.length).find? fun j => decide (k < j) && decide (1 < r.count j) with
            | some j => s.addAt id g fuel j
            | none => if (c.shard r).1 ≤ g ∧ g < (c.shard r).2 then s.setResult id g vs else s

/-! ## Sending (R327) -/

/-- Gather values granule by granule; none: some are not yet known. -/
def State.collect (s : State) (c : Collective) (r : Ring) (t : CollStream) (first : Bool) : List Nat → Option (Except State (State × List Byte))
  | [] => some (.ok (s, []))
  | g :: gs =>
    let here : Option (Except State (State × List W32)) :=
      if t.phase = 1 then (SMap.get none c.results g).map (s.heldValue c r g)
      else if first then s.ownValue c r g t.axis
      else (SMap.get none c.parts (granuleKey t.axis g)).map (s.heldValue c r g)
    match here with
    | none => none
    | some (.error s) => some (.error s)
    | some (.ok (s, ws)) =>
      match s.collect c r t first gs with
      | some (.ok (s, bs)) => some (.ok (s, c.bytesOf ws ++ bs))
      | x => x

/-- Send the next frame of a ring stream; true when one was sent. -/
def State.sendRing (s : State) (c : Collective) (i : Nat) (t : CollStream) : Bool × State :=
  let r := s.ring c.group
  match (c.transfers r t true)[t.transfer]? with
  | none => (false, s)
  | some (lo, hi) =>
    if t.offset % 65536 = 0 ∧ t.got ≤ t.begun then (false, s)
    else
      let total := c.span lo hi
      let per := 4096 / (32 * c.width)
      let g := lo + t.offset / (32 * c.width)
      -- the first transfer of a reduce phase carries this rank's own addends
      let first := decide (halfOf (chunkOf (rangeAt c.granules r.counts r.pos t.axis).1 (rangeAt c.granules r.counts r.pos t.axis).2
        (r.count t.axis) (Ring.moved (r.count t.axis) (r.p t.axis) 1 (!t.negative))) t.negative = (lo, hi))
      match s.collect c r t first ((List.range (min per (hi - g))).map (· + g)) with
      | none => (false, s)
      | some (.error s) => (false, s)
      | some (.ok (s, bs)) =>
        let s := s.sendData c i t 0 (c.granuleAt g) bs
        let o := t.offset + bs.length
        (true, s.mapStreamOf c.id i fun t =>
          { t with begun := t.begun + b2n (decide (t.offset % 65536 = 0))
                   transfer := t.transfer + b2n (decide (o = total)), offset := if o = total then 0 else o })

/-- The key of an exchange frame. -/
def stageKey (src dst off : Nat) : Nat := (src * 65536 + dst) * 2 ^ 40 + off

/-- The bytes of a chunk of a stream. -/
def Collective.chunkBytes (c : Collective) (r : Ring) (t : CollStream) (key : Nat) : Nat :=
  let len := if t.phase = 2 then c.blockLen (chunkBlock key).1 (chunkBlock key).2
    else let x := (c.transfers r t false).getD (key / 2 ^ 20) (0, 0); c.span x.1 x.2
  min 65536 (len - key % 2 ^ 20 * 65536)

/-- The chunk an exchange stream begins next. What is already on this ring goes first. What enters the ring (a block of this rank, or one
that turns here) must leave a granted chunk empty, unless it lands at the neighbour or every chunk is granted: a ring that always has an
empty chunk never stops (R328; log entry 24). -/
def CollStream.nextChunk (t : CollStream) (c : Collective) (r : Ring) : Option Nat :=
  let at_ (rank : Nat) : Nat := (r.positions rank).getD t.axis 0
  let beyond := Ring.moved (r.count t.axis) (r.p t.axis) 1 t.negative
  let roomy := decide (t.begun + 2 ≤ t.got) || decide (c.blockChunks r t true ≤ t.got)
  if t.got ≤ t.begun then none
  else
    match t.queue.find? fun k => at_ (chunkBlock k).1 != r.p t.axis with
    | some k => some k
    | none => t.queue.find? fun k => roomy || at_ (chunkBlock k).2 == beyond

/-- Send the next frame of an exchange stream: the chunk at the front of its queue is sent whole before another is begun. -/
def State.sendBlock (s : State) (c : Collective) (i : Nat) (t : CollStream) : Bool × State :=
  let r := s.ring c.group
  match (if t.offset = 0 then t.nextChunk c r else t.queue.head?) with
  | none => (false, s)
  | some key =>
    let (src, dst) := chunkBlock key
    let len := c.chunkBytes r t key
    let m := min 4096 (len - t.offset)
    let off := key % 2 ^ 20 * 65536 + t.offset
    let at_ := c.blockAt src dst + off
    let here : Option (Except State (State × List Byte)) :=
      if src = r.rank then some (s.collRead c.id (localOf c.input + at_) m)
      else match SMap.get none c.staged (stageKey src dst off) with
        | some (some a) => some (s.collRead c.id a m)
        | _ => none
    match here with
    | none => (false, s)
    | some (.error s) => (false, s)
    | some (.ok (s, bs)) =>
      let s := s.sendData c i t src at_ bs
      let s := if src = r.rank then s
        else s.mapColl c.id fun c => { c with staged := SMap.put none c.staged (stageKey src dst off) (some none) }
      let o := t.offset + m
      (true, s.mapStreamOf c.id i fun t =>
        { t with begun := t.begun + b2n (decide (t.offset = 0))
                 transfer := t.transfer + b2n (decide (o = len)), offset := if o = len then 0 else o
                 queue := if o = len then t.queue.erase key else key :: t.queue.erase key })

/-- Has every rank's data before axis `k` passed here: are all barrier frames of the rings before it in? -/
def Collective.barrierReady (c : Collective) (r : Ring) (k : Nat) : Bool :=
  c.streams.all fun u => decide (k ≤ u.axis) || decide (r.count u.axis - 1 ≤ u.chunks.length)

/-- Send the next BARRIER of a stream: the i-th follows the (i − 1)-th that arrives on its ring (R320). -/
def State.sendBarrier (s : State) (c : Collective) (i : Nat) (t : CollStream) : Bool × State :=
  let r := s.ring c.group
  if t.transfer + 1 < r.count t.axis ∧ t.begun < t.got ∧ c.barrierReady r t.axis ∧ t.transfer ≤ t.chunks.length then
    let s := s.sendControl c t (s.neighbour r t.axis t.negative) 3 0 0 []
    (true, s.mapStreamOf c.id i fun t => { t with begun := t.begun + 1, transfer := t.transfer + 1 })
  else (false, s)

/-- Send what stream `i` can send. -/
def State.sendMore (s : State) (id i : Nat) : Nat → State
  | 0 => s
  | fuel + 1 =>
    match s.coll? id with
    | none => s
    | some c =>
      match c.streams[i]? with
      | none => s
      | some t =>
        -- a data frame waits for the sequencer's own credit (R237)
        if c.op ≠ 8 ∧ !s.admits (0x80 + c.hub) ⟨({ s.collHeader c s.node 0x30 64 with tc := c.tc } : Hdr).encode, List.replicate 4096 0⟩ then s
        else
          let x := if c.op = 8 then s.sendBarrier c i t else if t.phase = 2 then s.sendBlock c i t else s.sendRing c i t
          if x.1 then State.sendMore x.2 id i fuel else x.2

/-- A bound on the frames a stream can send with its grants. -/
def CollStream.budget (t : CollStream) : Nat := (t.got - t.begun + 1) * 16 + 1

/-! ## Granting (R326, R327) -/

/-- Are the contents of a received chunk added, written or sent on (R327)? A gather is sent on from the output, where there is one, so that
no chunk waits for this rank's own part (R328; log entry 24). -/
def Collective.chunkUsed (c : Collective) (r : Ring) (t : CollStream) (key : Nat) : Bool :=
  if t.phase = 2 then
    (List.range (ceilDiv (c.chunkBytes r t key) 4096)).all fun f =>
      SMap.get none c.staged (stageKey (chunkBlock key).1 (chunkBlock key).2 (key % 2 ^ 20 * 65536 + f * 4096)) == some none
  else
    let x := (c.transfers r t false).getD (key / 2 ^ 20) (0, 0)
    let a := x.1 + key % 2 ^ 20 * (65536 / (32 * c.width))
    let b := min x.2 (a + 65536 / (32 * c.width))
    (List.range (b - a)).all fun g =>
      if t.phase = 0 then (SMap.get none c.parts (granuleKey t.axis (a + g))).isSome else (SMap.get none c.results (a + g)).isSome

/-- Does a frame of this module's sequencers wait to leave it that `p` accepts? -/
def State.frameInside (s : State) (p : Hdr → Bool) : Bool :=
  let hit (q : Queued) : Bool := q.sequenced && p q.hdr
  s.net.queues.any (fun e => e.2.any hit) || s.net.stages.any fun e => e.2.queues.any fun x => x.2.any hit

/-- Has every frame taken from a chunk left this module? Only an exchange takes frames from chunks, for blocks that go on. -/
def State.chunkLeft (s : State) (c : Collective) (key : Nat) : Bool :=
  let lo := c.blockAt (chunkBlock key).1 (chunkBlock key).2 + key % 2 ^ 20 * 65536
  !s.frameInside fun h =>
    h.group == c.group && h.tensor == c.generation && h.seq == c.sequence && fieldOf 61 60 h.offset == 2
      && fieldOf 55 40 h.offset == (chunkBlock key).1 && decide (lo ≤ fieldOf 39 0 h.offset) && decide (fieldOf 39 0 h.offset < lo + 65536)

/-- At a non-root of a reduce a gathered chunk is neither added nor written (R320): has all of it been sent on around its ring, where it
goes on, and has it left this module? What other axes pass on later stays with the collective (log entry 24). -/
def State.chunkPassed (s : State) (c : Collective) (r : Ring) (t : CollStream) (key : Nat) : Bool :=
  let x := (c.transfers r t false).getD (key / 2 ^ 20) (0, 0)
  let a := x.1 + key % 2 ^ 20 * (65536 / (32 * c.width))
  let b := min x.2 (a + 65536 / (32 * c.width))
  let sent := match (c.transfers r t true).findIdx? fun y => decide (y = x) with
    | none => true
    | some m => decide (m < t.transfer) || (decide (m = t.transfer) && decide (c.span x.1 b ≤ t.offset))
  sent && !s.frameInside fun h =>
    h.group == c.group && h.tensor == c.generation && h.seq == c.sequence && fieldOf 63 62 h.offset == t.axis
      && fieldOf 61 60 h.offset == 1 && bitOf h.offset 59 == t.negative && decide (c.granuleAt a ≤ fieldOf 39 0 h.offset)
      && decide (fieldOf 39 0 h.offset < c.granuleAt b)

/-- Chunks of a stream that are free again: complete, used, and in no buffer. -/
def Collective.freed (c : Collective) (r : Ring) (t : CollStream) : Nat :=
  (t.chunks.filter fun e => c.op == 8
    || (decide (e.2 = c.chunkBytes r t e.1) && c.chunkUsed r t e.1 && (SMap.get none t.places e.1).isNone)).length

/-- Does stream `i` hold its group's reserved chunks: those of its axis and direction serve the group's active collective of lowest
sequence, its reduce stream while that receives and then its gather stream? -/
def State.holdsReserved (s : State) (c : Collective) (r : Ring) (t : CollStream) : Bool :=
  (s.coll.active.all fun d => d.group != c.group || decide (c.sequence ≤ d.sequence))
    && (t.phase != 1 || c.streams.all fun u =>
      !(u.phase == 0 && u.axis == t.axis && u.negative == t.negative) || decide (c.chunksIn r u ≤ c.freed r u))

/-- The group's reserved buffers of an axis and direction (R326). -/
def State.reservedPair (s : State) (c : Collective) (r : Ring) (t : CollStream) : List Nat :=
  let ks := (List.range r.counts.length).filter fun k => decide (1 < r.count k)
  ((s.group c.group).reserved.drop (4 * ks.idxOf t.axis + 2 * b2n t.negative)).take 2

/-- The buffers a stream may fill: the reserved ones it holds, and those it took. -/
def State.buffersOf (s : State) (c : Collective) (r : Ring) (t : CollStream) : List Nat :=
  (if !c.direct && s.holdsReserved c r t then s.reservedPair c r t else []) ++ t.extra

/-- Stage bytes at offset `o` of a chunk, whose first bytes take an empty buffer; none: it has none. -/
def State.stageBytes (s : State) (c : Collective) (r : Ring) (i : Nat) (t : CollStream) (key o : Nat) (bs : List Byte) : Option (Nat × State) :=
  let empty := (s.buffersOf c r t).find? fun a => !t.places.any fun e => e.2 == some a
  ((SMap.get none t.places key).orElse fun _ => empty).map fun a =>
    (localOf a + o, (s.mapStreamOf c.id i fun t => { t with places := SMap.put none t.places key (some a) }).collWrite c.id (localOf a + o) bs)

/-- Free the chunks of stream `i` that are used and whose frames have left, and return to their pool the buffers taken that no granted chunk
needs (R327). -/
def State.releaseChunks (s : State) (id i : Nat) : State :=
  match s.coll? id with
  | none => s
  | some c =>
    match c.streams[i]? with
    | none => s
    | some t =>
      let r := s.ring c.group
      let done (key : Nat) : Bool :=
        SMap.get 0 t.chunks key == c.chunkBytes r t key && c.chunkUsed r t key && (t.phase != 2 || s.chunkLeft c key)
          && (t.phase != 1 || c.namesOutput r || s.chunkPassed c r t key)
      let t := { t with places := t.places.filter fun e => !done e.1 }
      let spare := (s.buffersOf c r t).length - (t.given - c.freed r t)
      let idle := (t.extra.filter fun a => !t.places.any fun e => e.2 == some a).take spare
      (s.mapStreamOf id i fun u => { u with places := t.places, extra := u.extra.filter fun a => !idle.contains a }).freeChunks c.hub idle

/-- Grant stream `i` what it can be granted: up to two reserved chunks and two taken by ALLOC where all granted ones are begun. -/
def State.grantMore (s : State) (id i : Nat) : Nat → State
  | 0 => s
  | fuel + 1 =>
    match s.coll? id with
    | none => s
    | some c =>
      match c.streams[i]? with
      | none => s
      | some t =>
        let r := s.ring c.group
        let total := c.chunksIn r t
        let up := s.neighbour r t.axis (!t.negative)
        let grant (s : State) (n : Nat) : State :=
          (s.sendControl c t up 1 n 0 []).mapStreamOf id i fun t => { t with given := n, grantedAt := s.now }
        if total ≤ t.given then s
        else if c.direct then grant s total
        else
          let inUse := t.given - c.freed r t
          if inUse < (s.buffersOf c r t).length then State.grantMore (grant s (t.given + 1)) id i fuel
          else if t.extra.length < 2 ∧ t.given ≤ t.chunks.length then
            let p := (s.group c.group).pool
            let a := if s.stagingPoolOk p then s.alloc p else (0, s)
            if a.1 = 0 then a.2
            else State.grantMore (a.2.mapStreamOf id i fun t => { t with extra := t.extra ++ [a.1] }) id i fuel
          else s

/-! ## Progress -/

/-- Is everything received on every stream? -/
def Collective.allIn (c : Collective) (r : Ring) : Bool := c.streams.all fun t => decide (c.chunksIn r t ≤ c.freed r t)

/-- Is everything sent on every stream? -/
def Collective.allOut (c : Collective) (r : Ring) : Bool :=
  c.streams.all fun t =>
    if c.op = 8 then decide (r.count t.axis - 1 ≤ t.transfer)
    else if t.phase = 2 then c.countsKnown r.n && decide (c.blockChunks r t true ≤ t.transfer)
    else decide ((c.transfers r t true).length ≤ t.transfer)

/-- Has this rank's output been performed? -/
def Collective.outputDone (c : Collective) (r : Ring) : Bool :=
  if c.op = 8 then c.barrierReady r r.counts.length
  else if c.exchanges then
    c.countsKnown r.n && decide (((List.range r.n).map fun i => c.blockLen i r.rank).sum ≤ c.placed)
  else if !c.namesOutput r then c.allIn r && c.allOut r
  else
    let x := if c.op = 2 then c.shard r else (0, c.granules)
    (List.range (x.2 - x.1)).all fun g => (SMap.get none c.results (x.1 + g)).isSome

/-- Does a ring neighbour have no link left (R330)? -/
def State.cutOff (s : State) (c : Collective) : Bool :=
  (s.neighbours (s.ring c.group)).any fun x =>
    match s.direction x with
    | some (d, neg) => (s.linksOf d neg).isEmpty
    | none => false

/-- One pass over a collective: links, chunks to free, frames that can leave, grants, completion (R317). -/
def State.collPass (s : State) (id : Nat) : State :=
  match s.coll? id with
  | none => s
  | some c =>
    if s.cutOff c then s.endColl id 6 3 s.node
    else
      let s := (List.range c.streams.length).foldl (fun s i => s.releaseChunks id i) s
      let s := (List.range c.streams.length).foldl (fun s i =>
        s.sendMore id i (match (s.coll? id).bind fun c => c.streams[i]? with
          | some t => t.budget
          | none => 0)) s
      let s := (List.range c.streams.length).foldl (fun s i => s.grantMore id i 8) s
      match s.coll? id with
      | none => s
      | some c =>
        let r := s.ring c.group
        let s := if !c.reported && c.outputDone r then
            (((s.bump 0x502003).reportColl c 0 0).mapColl id fun c => { c with reported := true })
          else s
        if (c.reported || c.outputDone r) && c.allIn r && c.allOut r then
          match s.coll? id with
          | some c => s.removeColl c
          | none => s
        else s

/-- Passes over the collectives of a group until none of them ends. -/
def State.settle (s : State) (g : Nat) : Nat → State
  | 0 => s
  | fuel + 1 =>
    let ids := (s.coll.active.filter fun c => c.group == g).map Collective.id
    let s := ids.foldl State.collPass s
    if ((s.coll.active.filter fun c => c.group == g).map Collective.id) = ids then s else State.settle s g fuel

def State.settleGroup (s : State) (g : Nat) : State := s.settle g 65

/-- Passes over every group: after links or pools have changed. -/
def State.settleAll (s : State) : State := (s.coll.active.map Collective.group).eraseDups.foldl State.settleGroup s

/-! ## All-to-all-v counts (R315, R320) -/

/-- Send the known send counts of `src` on along the routes of its blocks, at most 1,008 to a frame. -/
def State.sendCounts (s : State) (c : Collective) (src : Nat) : State :=
  let r := s.ring c.group
  let hops := ((List.range r.n).filterMap fun j => leavesBy r.counts r.pos (r.positions src) (r.positions j)).eraseDups
  hops.foldl (fun s x =>
    let t : CollStream := { axis := x.1, phase := 2, negative := x.2 }
    (List.range (ceilDiv r.n 1008)).foldl (fun s f =>
      let m := min 1008 (r.n - 1008 * f)
      s.sendControl c t (s.neighbour r x.1 x.2) 2 (src + 1008 * f * 65536) m
        ((List.range m).flatMap fun j => natLE 4 (c.sendCount src (1008 * f + j)))) s) s

/-- Once every send count is known: receive counts are written, this rank's own block is copied, and its blocks are queued. -/
def State.startExchange (s : State) (id : Nat) : State :=
  match s.coll? id with
  | none => s
  | some c =>
    let r := s.ring c.group
    if !c.countsKnown r.n then s
    else
      let recv := (List.range r.n).map fun i => c.sendCount i r.rank
      if c.op = 7 ∧ c.elems < recv.sum then s.endColl id 7 3 s.node
      else
        let s := if c.op = 7 then s.collWrite id (localOf c.countsAt + 4 * r.n) (recv.flatMap (natLE 4)) else s
        let own (b : Nat × Nat) : List Nat :=
          (List.range (ceilDiv (c.blockLen b.1 b.2) 65536)).map (chunkKey (b.1 * 65536 + b.2))
        let s := (List.range c.streams.length).foldl (fun s i => s.mapStreamOf id i fun t =>
          { t with queue := ((c.blocksBy r t true).filter fun b => b.1 == r.rank).flatMap own }) s
        let len := c.blockLen r.rank r.rank
        if len = 0 ∨ (s.coll? id).isNone then s
        else
          match s.collRead id (localOf c.input + c.blockAt r.rank r.rank) len with
          | .error s => s
          | .ok (s, bs) =>
            (s.collWrite id (localOf c.output + c.blockPlace r.rank r.rank) bs).mapColl id fun c => { c with placed := c.placed + len }

/-- Read this rank's send counts (R315). -/
def State.readCounts (s : State) (id : Nat) : State :=
  match s.coll? id with
  | none => s
  | some c =>
    let r := s.ring c.group
    match s.collRead id (localOf c.countsAt) (4 * r.n) with
    | .error s => s
    | .ok (s, bs) =>
      let ns := (List.range r.n).map fun j => numAt bs (4 * j) 4
      let len := ns.sum * c.width
      let a := localOf c.input
      if ns.sum > 2 ^ 32 - 1 ∨ !plainRegion a len
          ∨ regionsMeet a len (localOf c.output) (c.outputBytes r) ∨ regionsMeet a len (localOf c.countsAt + 4 * r.n) (4 * r.n) then
        s.collFault id
      else
        let known (m : SMap (Option Nat)) : SMap (Option Nat) :=
          (List.range r.n).foldl (fun m j => SMap.put none m (r.rank * 65536 + j) (some (ns.getD j 0))) m
        let s := s.mapColl id fun c => { c with counts := known c.counts }
        match s.coll? id with
        | none => s
        | some c => (s.sendCounts c r.rank).startExchange id

/-! ## Posting (R313–R316, R331) -/

/-- What this rank knows from its own input when the collective begins. -/
def State.beginColl (s : State) (id : Nat) : State :=
  match s.coll? id with
  | none => s
  | some c =>
    let r := s.ring c.group
    if c.op = 7 then s.readCounts id
    else if c.op = 6 then s.startExchange id
    else
      let known := match c.op with
        | 3 => c.shard r
        | 4 => if c.root = r.rank then (0, c.granules) else (0, 0)
        | 8 => (0, 0)
        | _ => if r.n = 1 then (0, c.granules) else (0, 0)
      (List.range (known.2 - known.1)).foldl (fun s g =>
        match s.coll? id with
        | none => s
        | some c =>
          match s.ownValue c r (known.1 + g) 0 with
          | some (.ok (s, ws)) => s.setResult id (known.1 + g) ws
          | some (.error s) => s
          | none => s) s

/-- The stream of a frame's byte or offset fields. -/
def Collective.findStream (c : Collective) (axis phase : Nat) (neg : Bool) : Option Nat :=
  c.streams.findIdx? fun t => t.axis == axis && t.phase == phase && t.negative == neg

/-- Take a GRANT: the neighbour's cumulative count for the stream this rank sends (R324). -/
def State.takeGrant (s : State) (c : Collective) (p : List Byte) : Bool × State :=
  let b := numAt p 1 1
  match c.findStream (b / 64) (b / 16 % 4) (bitOf b 3) with
  | none => (false, s)
  | some i => (true, s.mapStreamOf c.id i fun t => { t with got := max t.got (numAt p 4 4) })

/-- Take a COUNTS frame: new counts are kept and, once its source's are complete, passed on. -/
def State.takeCounts (s : State) (c : Collective) (p : List Byte) : Bool × State :=
  let r := s.ring c.group
  let src := numAt p 4 2
  let first := numAt p 6 2
  let m := numAt p 8 4
  let complete (c : Collective) : Bool := (List.range r.n).all fun j => (SMap.get none c.counts (src * 65536 + j)).isSome
  if c.op ≠ 7 ∨ m = 0 ∨ 1008 < m ∨ r.n < first + m ∨ r.n ≤ src ∨ src = r.rank ∨ p.length < 64 + 4 * m ∨ complete c then (false, s)
  else
    let known (k : SMap (Option Nat)) : SMap (Option Nat) :=
      (List.range m).foldl (fun k j => SMap.put none k (src * 65536 + first + j) (some (numAt p (64 + 4 * j) 4))) k
    let s := s.mapColl c.id fun c => { c with counts := known c.counts }
    match s.coll? c.id with
    | none => (true, s)
    | some c => if complete c then (true, (s.sendCounts c src).startExchange c.id) else (true, s)

/-- An ABORT ends a matching collective (R331). -/
def State.takeAbort (s : State) (c : Collective) (p : List Byte) : State :=
  s.endColl c.id (if numAt p 0 1 = 1 then 2 else 5) (numAt p 0 1) (numAt p 8 3)

/-- A collective has just been accepted: a pending ABORT ends it at that moment (R331); else it begins, and takes its pending records. -/
def State.startColl (s : State) (c : Collective) : State :=
  let mine (x : PendingControl) : Bool :=
    let h := Hdr.of x.frame.header
    x.hub == c.hub && h.group == c.group && h.tensor == c.generation && h.seq == c.sequence
  let ps := s.coll.pending.filter mine
  let s := { s with coll := { s.coll with pending := s.coll.pending.filter fun x => !mine x } }
  match ps.find? PendingControl.abort with
  | some x => s.takeAbort c x.frame.payload
  | none => ps.foldl (fun s x =>
      match s.coll? c.id with
      | none => s
      | some c => if numAt x.frame.payload 0 1 = 2 then (s.takeCounts c x.frame.payload).2 else (s.takeGrant c x.frame.payload).2)
      (s.beginColl c.id)

/-- Post a collective; true when it is accepted (R316). -/
def State.postCollective (s : State) (record : W512) (entry : Option (Nat × Nat)) : Bool × State :=
  let n := fieldOf 495 488 record.toNat
  let g := s.group n
  let c : Collective :=
    { id := s.coll.nextId, group := n, generation := groupGeneration g.record, sequence := g.lastSeq + 1, hub := groupHub g.record
      record := record, entry := entry, started := s.now, fp16Inf := decide (s.reg 0x300003 = 1), streams := [] }
  match s.postRefusal c with
  | some st => (false, (s.bump 0x502002).reportColl c st 0)
  | none =>
    let c := { c with streams := c.streamsOf (s.ring n) }
    let s := (s.bump 0x502001).setGroup n { g with lastSeq := g.lastSeq + 1 }
    let s := { s with coll := { s.coll with active := s.coll.active ++ [c], nextId := s.coll.nextId + 1 } }
    (true, (s.startColl c).settleGroup n)

def cpostBody (x : Issue) : Cmd After := do
  let t ← Cmd.slot x.id
  let v ← Cmd.record512 x (t.pair (cmdA x.word).num)
  let s ← get
  let r := s.postCollective v none
  set r.2
  Cmd.mapSlot x.id fun t => t.put (cmdD x.word) (b2n r.1)
  pure .next

def execCpost (i : SlotId) (s : State) : Host.Outcome State Fault Refusal :=
  .next (runCommand s i (fun w => cmdOp w == 0x53) cpostBody)

/-! ## Frames received -/

/-- A frame that matches nothing or exceeds what was granted (R323). -/
def State.unmatched (s : State) (d : Delivered) : State := (s.refuseFrame d).bump 0x502005

/-- Keep a control or abort frame of a sequence not yet posted (R327). -/
def State.keepPending (s : State) (hub : Nat) (abort : Bool) (d : Delivered) : State :=
  let h := Hdr.of d.frame.header
  let g := s.group h.group
  if !(groupValid g.record && groupHub g.record == hub && groupGeneration g.record == h.tensor && decide (g.lastSeq < h.seq)) then s.unmatched d
  else
    let same := s.coll.pending.filter fun x => x.abort == abort && x.hub == hub
    let full := if abort then decide (4 ≤ (same.filter fun x => (Hdr.of x.frame.header).group == h.group).length) else decide (256 ≤ same.length)
    if full then (s.logDiscard 6 d.ingress d.port d.frame.header).bump 0x502006
    else { s with coll := { s.coll with pending := s.coll.pending ++ [⟨hub, abort, d.frame⟩] } }

/-- Data of a ring stream (R323): accepted where it fills granted chunks of a transfer, whole granules at a time (log entry 24). It is staged,
then added or written; with a direct channel it is written straight to the output (R329). -/
def State.ringData (s : State) (c : Collective) (i : Nat) (t : CollStream) (d : Delivered) (off : Nat) (bs : List Byte) : State :=
  let r := s.ring c.group
  let per := 32 * c.width
  let g := off / per
  match (c.transfers r t false).findIdx? fun x => decide (x.1 ≤ g) && decide (g < x.2) with
  | none => s.unmatched d
  | some j =>
    let x := (c.transfers r t false).getD j (0, 0)
    let hi := g + ceilDiv bs.length per
    let at_ := c.span x.1 g
    let key := chunkKey j (at_ / 65536)
    let fresh := SMap.get 0 t.chunks key == 0
    let seen := (List.range (hi - g)).any fun q =>
      if t.phase = 0 then (SMap.get none c.arrived (granuleKey t.axis (g + q))).isSome || (SMap.get none c.parts (granuleKey t.axis (g + q))).isSome
      else (SMap.get none c.results (g + q)).isSome
    let words (q : Nat) : List W32 := c.wordsOf (slice bs (q * per) (min per (bs.length - q * per)))
    if off % per ≠ 0 ∨ bs.length = 0 ∨ x.2 < hi ∨ bs.length ≠ c.span g hi ∨ 65536 < at_ % 65536 + bs.length ∨ seen
        ∨ (fresh ∧ t.given ≤ t.chunks.length) then s.unmatched d
    else
      match (if c.direct then some (0, s) else s.stageBytes c r i t key (at_ % 65536) bs) with
      | none => s.unmatched d
      | some (a, s) =>
        let s := s.mapStreamOf c.id i fun t => { t with chunks := SMap.modify 0 t.chunks key (· + bs.length) }
        (List.range (hi - g)).foldl (fun s q =>
          if t.phase = 1 then s.setResult c.id (g + q) (words q)
          else
            (s.mapColl c.id fun c => { c with arrived := SMap.put none c.arrived (granuleKey t.axis (g + q)) (some (a + q * per)) }).addAt
              c.id (g + q) 4 t.axis) s

/-- Data of an exchange stream: staged, then written at its destination, or sent on by the stream that leaves toward it. -/
def State.blockData (s : State) (c : Collective) (i : Nat) (t : CollStream) (d : Delivered) (src off : Nat) (bs : List Byte) : State :=
  let r := s.ring c.group
  match (if c.countsKnown r.n then (List.range r.n).find? fun j =>
      decide (c.blockAt src j ≤ off) && decide (off < c.blockAt src j + c.blockLen src j) else none) with
  | none => s.unmatched d
  | some dst =>
    let o := off - c.blockAt src dst
    let key := chunkKey (src * 65536 + dst) (o / 65536)
    let fresh := SMap.get 0 t.chunks key == 0
    if r.n ≤ src ∨ o % 4096 ≠ 0 ∨ bs.length ≠ min 4096 (c.blockLen src dst - o)
        ∨ arrivesBy r.counts r.pos (r.positions src) (r.positions dst) ≠ some (t.axis, t.negative)
        ∨ (SMap.get none c.staged (stageKey src dst o)).isSome ∨ (fresh ∧ t.given ≤ t.chunks.length) then s.unmatched d
    else
      match s.stageBytes c r i t key (o % 65536) bs with
      | none => s.unmatched d
      | some (a, s) =>
        let here := decide (dst = r.rank)
        let s := s.mapStreamOf c.id i fun t => { t with chunks := SMap.modify 0 t.chunks key (· + bs.length) }
        let s := s.mapColl c.id fun c => { c with
          staged := SMap.put none c.staged (stageKey src dst o) (some (if here then none else some a))
          placed := c.placed + (if here then bs.length else 0) }
        if here then s.collWrite c.id (localOf c.output + c.blockPlace src dst + o) bs
        else
          match (leavesBy r.counts r.pos (r.positions src) (r.positions dst)).bind fun x => c.findStream x.1 2 x.2 with
          | none => s
          -- a chunk joins the queue with its first frame
          | some j => if fresh then s.mapStreamOf c.id j fun u => { u with queue := u.queue ++ [key] } else s

/-- A COLLECTIVE DATA frame is received. -/
def State.collData (s : State) (hub : Nat) (d : Delivered) : State :=
  let h := Hdr.of d.frame.header
  match s.matchColl hub h with
  | none => s.unmatched d
  | some c =>
    let axis := fieldOf 63 62 h.offset
    let phase := fieldOf 61 60 h.offset
    let bs := d.frame.payload.take (d.frame.payload.length - h.sop)
    match c.findStream axis phase (bitOf h.offset 59) with
    | none => s.unmatched d
    | some i =>
      match c.streams[i]? with
      | none => s
      | some t =>
        if h.tc ≠ c.tc ∨ fieldOf 58 56 h.offset ≠ 0 ∨ 63 < h.sop ∨ (phase ≠ 2 ∧ fieldOf 55 40 h.offset ≠ 0) then s.unmatched d
        else
          (if phase = 2 then s.blockData c i t d (fieldOf 55 40 h.offset) (fieldOf 39 0 h.offset) bs
            else s.ringData c i t d (fieldOf 39 0 h.offset) bs).settleGroup c.group

/-- The sequencer of port 0x80 or 0x81. -/
def seqHub (port : Nat) : Option Nat := if port = 0x80 then some 0 else if port = 0x81 then some 1 else none

/-- Take the first delivered frame of a kind at a sequencer that `p` accepts. -/
def State.seqFrame (s : State) (port tc kind : Nat) (p : Frame → Bool) (f : State → Nat → Delivered → State) : State :=
  match seqHub port with
  | none => s
  | some hub =>
    if !s.pow.powered then s
    else
      match s.rxFind port tc (fun h x => h.kind == kind && p x) with
      | none => s
      | some d => f (s.consume d) hub d

def execCollectiveDataFrame (port tc : Nat) (s : State) : Host.Outcome State Fault Refusal :=
  .next (s.seqFrame port tc 0x30 (fun _ => true) State.collData)

def controlType (f : Frame) : Nat := numAt f.payload 0 1

/-- A GRANT, or a control frame of no known type, is received. -/
def State.grantReceived (s : State) (hub : Nat) (d : Delivered) : State :=
  if controlType d.frame ≠ 1 then s.unmatched d
  else
    match s.matchColl hub (Hdr.of d.frame.header) with
    | none => s.keepPending hub false d
    | some c =>
      let r := s.takeGrant c d.frame.payload
      if r.1 then r.2.settleGroup c.group else s.unmatched d

def State.countsReceived (s : State) (hub : Nat) (d : Delivered) : State :=
  match s.matchColl hub (Hdr.of d.frame.header) with
  | none => s.keepPending hub false d
  | some c =>
    let r := s.takeCounts c d.frame.payload
    if r.1 then r.2.settleGroup c.group else s.unmatched d

/-- A BARRIER takes a granted chunk of its stream. -/
def State.barrierReceived (s : State) (hub : Nat) (d : Delivered) : State :=
  let b := numAt d.frame.payload 1 1
  match s.matchColl hub (Hdr.of d.frame.header) with
  | none => s.unmatched d
  | some c =>
    match c.findStream (b / 64) (b / 16 % 4) (bitOf b 3) with
    | none => s.unmatched d
    | some i =>
      let n := ((c.streams[i]?).map fun t => t.chunks.length).getD 0
      let given := ((c.streams[i]?).map CollStream.given).getD 0
      if c.op ≠ 8 ∨ given ≤ n then s.unmatched d
      else (s.mapStreamOf c.id i fun t => { t with chunks := SMap.put 0 t.chunks n 1 }).settleGroup c.group

def execGrantFrame (port tc : Nat) (s : State) : Host.Outcome State Fault Refusal :=
  .next (s.seqFrame port tc 0x31 (fun f => controlType f != 2 && controlType f != 3) State.grantReceived)

def execCountsFrame (port tc : Nat) (s : State) : Host.Outcome State Fault Refusal :=
  .next (s.seqFrame port tc 0x31 (fun f => controlType f == 2) State.countsReceived)

def execBarrierFrame (port tc : Nat) (s : State) : Host.Outcome State Fault Refusal :=
  .next (s.seqFrame port tc 0x31 (fun f => controlType f == 3) State.barrierReceived)

def State.abortReceived (s : State) (hub : Nat) (d : Delivered) : State :=
  match s.matchColl hub (Hdr.of d.frame.header) with
  | none => s.keepPending hub true d
  | some c => (s.takeAbort c d.frame.payload).settleGroup c.group

def execAbortFrame (port tc : Nat) (s : State) : Host.Outcome State Fault Refusal :=
  .next (s.seqFrame port tc 0x32 (fun _ => true) State.abortReceived)

/-! ## Timers -/

/-- The latest GRANT of a stream is sent again 10 µs after it, while a granted chunk stays empty. -/
def State.grantResend (s : State) (id i at_ : Nat) : State :=
  match s.coll? id with
  | none => s
  | some c =>
    match c.streams[i]? with
    | none => s
    | some t =>
      if s.pow.powered ∧ t.chunks.length < t.given ∧ t.grantedAt + 10000 ≤ max s.now at_ then
        let s := s.at_ at_
        (s.sendControl c t (s.neighbour (s.ring c.group) t.axis (!t.negative)) 1 t.given 0 []).mapStreamOf id i fun t =>
          { t with grantedAt := s.now }
      else s

def execGrantResend (collective stream at_ : Nat) (s : State) : Host.Outcome State Fault Refusal :=
  .next (s.grantResend collective stream at_)

/-- The timeout of a post, in ms, expires before its completion (R330). -/
def State.collTimeout (s : State) (id at_ : Nat) : State :=
  match s.coll? id with
  | none => s
  | some c =>
    if s.pow.powered ∧ c.timeout ≠ 0 ∧ !c.reported ∧ c.started + c.timeout * 1000000 ≤ max s.now at_ then
      let s := s.at_ at_
      (s.endColl id 4 2 s.node).settleGroup c.group
    else s

def execCollectiveTimeout (collective at_ : Nat) (s : State) : Host.Outcome State Fault Refusal :=
  .next (s.collTimeout collective at_)

/-! ## Requests and other events -/

/-- A write of the abort request 5030.01; none: refused with an access error (R334). -/
def State.abortRequest (s : State) (v : Nat) : Option State :=
  match s.coll.active.find? fun c => c.group == v % 256 && c.sequence == v / 2 ^ 32 && !c.reported with
  | some c => some ((s.endColl c.id 3 4 s.node).settleGroup c.group)
  | none => none

/-- A warm reset is requested (R332): for every active collective an ABORT on every up link toward each ring neighbour. -/
def State.warmAborts (s : State) : State :=
  s.coll.active.foldl (fun s c =>
    (s.neighbours (s.ring c.group)).foldl (fun s x =>
      match s.direction x with
      | none => s
      | some (d, neg) => (s.linksOf d neg).foldl (fun (s : State) l =>
          let f := s.abortFrameTo c x 1 s.node
          { s with coll := { s.coll with left := s.coll.left ++ [(l, { f with header := onward f.header (s.linkSub (0x80 + c.hub) l 0) })] } }) s) s)
    { s with coll := { s.coll with left := [] } }

/-- The buffers that stream `t` uses: those its chunks fill, those it took, and the reserved ones while they serve its granted chunks. -/
def State.buffersUsed (s : State) (c : Collective) (t : CollStream) : List Nat :=
  let r := s.ring c.group
  t.places.filterMap Prod.snd ++ (if c.freed r t < t.given then s.buffersOf c r t else t.extra)

/-- A hive fails: each collective that uses staging chunks in it ends with status 0x01 (R334). -/
def State.hiveCollectives (s : State) (hive : Nat) : State :=
  let inHive (a : Nat) : Bool := decide (localOf a < 0x800000000) && decide (localOf a / 0x80000000 = hive)
  let hit := s.coll.active.filter fun c => c.streams.any fun t => (s.buffersUsed c t).any inHive
  (hit.foldl (fun s c => s.collFault c.id) s).settleAll

end Sys2Proof.Machine
end

