-- ==== Sys2Proof/Machine/Control.lean ====
section
/-! DEFINITION. The control commands and the ends of waits (R97, R103–R105, R108). -/

namespace Sys2Proof.Machine

open Sys2Proof

def execNop (i : SlotId) (s : State) : Host.Outcome State Fault Refusal := .next (runSlot s i 0x00 fun t _ => t)

/-- The body of SKIP (R103). -/
def skipBody (x : Issue) : Cmd After := do
  let t ← Cmd.slot x.id
  let target := x.ptr + 1 + cmdMods x.word % 256
  let top := match t.nest with
    | [] => 2047
    | n :: _ => (t.loop n).last + 1
  Cmd.require (decide (target ≤ top)) 0x08
  pure (.to target)

def execSkip (i : SlotId) (s : State) : Host.Outcome State Fault Refusal :=
  .next (runCommand s i (fun w => cmdOp w == 0x01) skipBody)

/-- The count of a LOOP (R97, R105). -/
def loopCount (t : Slot) (w : Nat) : Nat :=
  match cmdA w with
  | .none => fieldOf 47 16 (cmdMods w)
  | .lc n => (t.loop n).preset.toNat
  | o => t.value o

/-- The body of LOOP (R104). -/
def loopBody (x : Issue) : Cmd After := do
  let t ← Cmd.slot x.id
  let n := (cmdD x.word).num
  let len := cmdMods x.word % 256
  Cmd.require (!(t.loop n).active && decide (t.nest.length < 2)) 0x07
  Cmd.require (decide (x.ptr + len ≤ 2047)) 0x07
  Cmd.require (t.nest.all fun m => decide (x.ptr + len ≤ (t.loop m).last)) 0x07
  let c := loopCount t x.word
  if c = 0 then pure (.to (x.ptr + len + 1))
  else
    Cmd.mapSlot x.id fun t =>
      { t with
          loops := t.loops.setIfInBounds n
            { t.loop n with remaining := BitVec.ofNat 32 (c - 1), first := x.ptr + 1, last := x.ptr + len, active := true }
          nest := n :: t.nest }
    pure .next

def execLoop (i : SlotId) (s : State) : Host.Outcome State Fault Refusal :=
  .next (runCommand s i (fun w => cmdOp w == 0x02) loopBody)

/-- The body of BREAK (R104). -/
def breakBody (x : Issue) : Cmd After := do
  let t ← Cmd.slot x.id
  Cmd.require (!t.nest.isEmpty) 0x07
  pure .brk

def execBreak (i : SlotId) (s : State) : Host.Outcome State Fault Refusal :=
  .next (runCommand s i (fun w => cmdOp w == 0x03) breakBody)

/-- The body of HALT: with a held tile it halts with reason 0x20 (R141). -/
def haltBody (x : Issue) : Cmd After := do
  let t ← Cmd.slot x.id
  Cmd.require t.held.isNone 0x20
  Cmd.fail (cmdMods x.word % 256)

def execHalt (i : SlotId) (s : State) : Host.Outcome State Fault Refusal :=
  .next (runCommand s i (fun w => cmdOp w == 0x04) haltBody)

/-- Threads of the cell, other than `i`, that are ready to issue. One that is itself held by a YIELD is not (R108 does not say; DESIGN
CHOICE, log entry 34). -/
def State.readyOthers (s : State) (i : SlotId) : List Nat :=
  (List.range 4).filter fun j =>
    j != i.thread && (s.slot ⟨i.cell, j⟩).status == .ready && (s.slot ⟨i.cell, j⟩).yieldTo.isEmpty

/-- The body of YIELD (R108): the thread issues again once each of those has issued one command. -/
def yieldBody (x : Issue) : Cmd After := do
  Cmd.update fun s => s.setSlot x.id { s.slot x.id with yieldTo := s.readyOthers x.id }
  pure .next

def execYield (i : SlotId) (s : State) : Host.Outcome State Fault Refusal :=
  .next (runCommand s i (fun w => cmdOp w == 0x05) yieldBody)

/-! ## WAIT (R108) -/

/-- The thread begins to wait. -/
def Cmd.beginWait (x : Issue) (what : WaitFor) : Cmd After := fun s =>
  let t := s.slot x.id
  let w : Wait := ⟨what, s.now, fieldOf 31 16 (cmdMods x.word), (cmdD x.word).num⟩
  .error (.leave (s.setSlot x.id { t with status := .waiting w }))

/-- The condition ends the wait at issue. -/
def Cmd.waitMet (x : Issue) : Cmd After := do
  Cmd.mapSlot x.id fun t => t.setP (cmdD x.word).num true
  pure .next

/-- The body of a signal wait. -/
def waitSignalBody (x : Issue) : Cmd After := do
  let t ← Cmd.slot x.id
  Cmd.require t.held.isNone 0x20
  if t.signals ≥ 1 then
    Cmd.mapSlot x.id fun t => { t with signals := t.signals - 1 }
    Cmd.waitMet x
  else Cmd.beginWait x .signal

/-- Is a word a WAIT of the kind? Kind 0b11, which is reserved, is met by the signal wait's row. -/
def isWait (kind w : Nat) : Bool := cmdOp w == 0x06 && (cmdMods w % 4 == kind || (kind == 0 && cmdMods w % 4 == 3))

def execWaitSignal (i : SlotId) (s : State) : Host.Outcome State Fault Refusal :=
  .next (runCommand s i (isWait 0) waitSignalBody)

/-- The word of a memory wait: the near store or HBM of this module (R108). -/
def waitableAt (a : Nat) : Bool :=
  match place a with
  | .near _ => true
  | .hbm => true
  | _ => false

/-- The body of a memory wait. -/
def waitMemoryBody (x : Issue) : Cmd After := do
  let t ← Cmd.slot x.id
  Cmd.require t.held.isNone 0x20
  let a := t.pair (cmdA x.word).num
  if a % 4 ≠ 0 then Cmd.fail 0x12 a
  else
    let s ← get
    if nodeOf a ≠ s.node ∨ !waitableAt (localOf a) then Cmd.fail 0x10 a
    else
      let bs ← Cmd.readGlobal x [((a : Int), 4)]
      let b := t.value (cmdB x.word)
      let m := fieldOf 4 2 (cmdMods x.word)
      let sg := bitOf (cmdMods x.word) 5
      if (cmpFlag sg 32 (leNat bs) b).meets m then Cmd.waitMet x
      else Cmd.beginWait x (.memory a (BitVec.ofNat 32 b) m sg)

def execWaitMemory (i : SlotId) (s : State) : Host.Outcome State Fault Refusal :=
  .next (runCommand s i (isWait 1) waitMemoryBody)

/-- The body of a time wait. -/
def waitTimeBody (x : Issue) : Cmd After := do
  let t ← Cmd.slot x.id
  Cmd.require t.held.isNone 0x20
  let a := t.pair (cmdA x.word).num
  let s ← get
  if a ≤ s.now then Cmd.waitMet x else Cmd.beginWait x (.time a)

def execWaitTime (i : SlotId) (s : State) : Host.Outcome State Fault Refusal :=
  .next (runCommand s i (isWait 2) waitTimeBody)

/-- The command a slot has in progress, at its pointer. -/
def State.inProgress (s : State) (i : SlotId) : Issue :=
  match (s.slot i).cur with
  | some (w, b) => ⟨i, w, b, (s.slot i).ptr⟩
  | none => ⟨i, 0, (s.comb i.comb).bankB, (s.slot i).ptr⟩

/-- A wait ends: its predicate receives whether the condition ended it, and the thread is ready again. -/
def State.endWait (s : State) (i : SlotId) (w : Wait) (met : Bool) : State :=
  let x := s.inProgress i
  (s.setSlot i ((s.slot i).setP w.pred met)).retire x .next

/-- The wait of a slot on a running host side. -/
def State.waitOf (s : State) (i : SlotId) : Option Wait :=
  if s.running && decide (i.cell < 1048576) && decide (i.thread < 4) then
    match (s.slot i).status with
    | .waiting w => some w
    | _ => none
  else none

def State.signalWaitEnd (s : State) (i : SlotId) : State :=
  match s.waitOf i with
  | some w =>
    if w.what = .signal ∧ (s.slot i).signals ≥ 1 then
      (s.setSlot i { s.slot i with signals := (s.slot i).signals - 1 }).endWait i w true
    else s
  | none => s

def execSignalWaitEnd (i : SlotId) (s : State) : Host.Outcome State Fault Refusal := .next (s.signalWaitEnd i)

/-- A memory wait reads its word again (R108): an uncorrectable word halts the thread. -/
def State.memoryWaitReread (s : State) (i : SlotId) : State :=
  match s.waitOf i with
  | some w =>
    match w.what with
    | .memory a b m sg =>
      match s.memRead (Requester.ofThread i) [(localOf a, 4)] with
      | (s', .error e) => s'.haltAt (s'.inProgress i) (memReason e.cause) (s'.globalOf e.addr)
      | (s', .ok bs) => if (cmpFlag sg 32 (leNat bs) b.toNat).meets m then s'.endWait i w true else s'
    | _ => s
  | none => s

def execMemoryWaitReread (i : SlotId) (s : State) : Host.Outcome State Fault Refusal := .next (s.memoryWaitReread i)

def State.timeWaitEnd (s : State) (i : SlotId) (t : Nat) : State :=
  match s.waitOf i with
  | some w =>
    match w.what with
    | .time a => if a ≤ max s.now t then (s.at_ t).endWait i w true else s
    | _ => s
  | none => s

def execTimeWaitEnd (i : SlotId) (t : Nat) (s : State) : Host.Outcome State Fault Refusal := .next (s.timeWaitEnd i t)

def State.waitTimeout (s : State) (i : SlotId) (t : Nat) : State :=
  match s.waitOf i with
  | some w => if w.timeout ≠ 0 ∧ w.issued + w.timeout * 1000 ≤ max s.now t then (s.at_ t).endWait i w false else s
  | none => s

def execWaitTimeout (i : SlotId) (t : Nat) (s : State) : Host.Outcome State Fault Refusal := .next (s.waitTimeout i t)

/-! ## SIGNAL and FENCE -/

/-- Add 1 to the signal count of a slot; an empty slot discards it (R108). -/
def State.signalTo (s : State) (j : SlotId) : State :=
  if s.occupied j then s.setSlot j { s.slot j with signals := min ((s.slot j).signals + 1) 65535 } else s

/-- The body of SIGNAL. -/
def signalBody (x : Issue) : Cmd After := do
  let t ← Cmd.slot x.id
  let cell := t.value (cmdA x.word)
  let s ← get
  Cmd.require (decide (cell < 1048576) && s.hiveWorks (cell / 65536)) 0x10
  Cmd.update fun s => s.signalTo ⟨cell, cmdMods x.word % 4⟩
  pure .next

def execSignal (i : SlotId) (s : State) : Host.Outcome State Fault Refusal :=
  .next (runCommand s i (fun w => cmdOp w == 0x07) signalBody)

/-- Has the thread any request that its target has not answered? -/
def State.outstanding (s : State) (i : SlotId) : Bool :=
  s.net.tags.any fun e =>
    match e.2 with
    | some t => s.ofThread i t
    | none => false

/-- The body of FENCE (R80): local accesses are performed once no write is held; at system scope every request is answered too. -/
def fenceBody (x : Issue) : Cmd After := do
  let s ← get
  if s.writesHeld || (bitOf (cmdMods x.word) 0 && s.outstanding x.id) then Cmd.await x.id .remote
  else pure .next

def execFence (i : SlotId) (s : State) : Host.Outcome State Fault Refusal :=
  .next (runCommand s i (fun w => cmdOp w == 0x08) fenceBody)

end Sys2Proof.Machine
end

