-- ==== Sys2Proof/Machine/QueueService.lean ====
section
/-! DEFINITION. Queue service: transmission, the deficit round robin of each egress port (R249–R253), shapers (R255), frames held for
reordering (R265), frames discarded from queues (R246), and the credits a link receiver grants (R237–R239, R345). -/

namespace Sys2Proof.Machine

open Sys2Proof

/-! ## Transmission -/

/-- A queued copy is discarded with a reason: logged, answered where R228 asks, its cells freed. A mirror copy is only counted away. -/
def State.discardQueued (s : State) (reason : Nat) (port : Nat) (q : Queued) : State :=
  ((s.discardFrame reason q.ingress port q.frame.header).releaseMirror q).unref q.store

/-- A frame enters the other element by its bridge port (R216): the sessions and the policer there take it, and its cells are charged there
in place of where it was (R237, R256, R259). -/
def State.cross (s : State) (bridge : Nat) (q : Queued) : State :=
  let tc := q.hdr.tc
  let ids := s.mirrorSet bridge false q.frame.header
  let lose (s : State) : State :=
    (s.discardQueued 8 q.final q).mirrorAll ids q.frame s.now bridge q.final (s.depthAt q.final tc) false true
  if s.bestEffort tc ∧ ¬ s.policerOpen bridge tc then lose (s.bump 0x414002)
  else if s.bestEffort tc ∧ ¬ s.roomFor bridge q.channel q.cells then lose s
  else
    let s := s.policerSpend bridge tc (s.counted q.frame.payload.length)
    let y := s.newStore bridge q.channel q.cells 1
    let depth := y.2.depthAt q.final tc
    ((y.2.unref q.store).place1 bridge q.final { q with store := y.1, stored := q.stored || !ids.isEmpty }).mirrorAll ids q.frame s.now
      bridge q.final depth false false

/-- A frame starts transmission at a port (R241): a link holds it until it is acknowledged; the bridge hands it to the other element; a
hive or host port delivers it. `v` is the overhead of the visit it is sent in (R252). -/
def State.transmit (s : State) (port : Nat) (q : Queued) (v : Nat) : State :=
  let s := s.startSend port q v
  if port < 0x40 then s.holdOnLink port q
  else if port = 0x51 then s.cross 0x52 q
  else if port = 0x52 then s.cross 0x51 q
  else s.deliver port q

/-! ## Deficit round robin (R249–R252) -/

/-- The order of the four FIFOs of a TC: request 0, response 0, request 1, response 1. -/
def fifoOrder (i : Nat) : Nat := [0, 2, 1, 3].getD (i % 4) 0

/-- The head of a FIFO, if it is eligible (R250). -/
def State.eligible (s : State) (port ch : Nat) : Option Queued :=
  match s.queue port ch with
  | [] => none
  | q :: _ => if s.hasCredit port ch q.cells && s.shaperOpen port (ch / 4) then some q else none

/-- The next FIFO of a TC with an eligible head, after the one that sent last. -/
def State.nextFifo (s : State) (port tc last : Nat) : Option (Nat × Queued) :=
  (List.range 4).findSome? fun i =>
    let j := (last + 1 + i) % 4
    (s.eligible port (tc * 4 + fifoOrder j)).map fun q => (j, q)

/-- Walk the round until a frame is chosen: the FIFO position, the frame, and the scheduler after it. -/
def State.selectFrame (s : State) (port : Nat) : Nat → Drr → Option (Nat × Nat × Queued × Drr)
  | 0, _ => none
  | fuel + 1, d =>
    let t := d.pos % 8
    let holds := s.tcHolds port t
    let def_ := d.deficits.getD t 0
    let leave (x : Nat) : Drr := { d with visiting := false, pos := (t + 1) % 8, deficits := d.deficits.setIfInBounds t x }
    match s.nextFifo port t (d.lastFifo.getD t 3) with
    | none => s.selectFrame port fuel (leave (if holds then def_ else 0))
    | some (j, q) =>
      if !d.visiting then
        s.selectFrame port fuel
          { d with
            visiting := true, overhead := s.reg 0x411001
            deficits := d.deficits.setIfInBounds t (def_ + fieldOf (32 * t + 31) (32 * t) (s.reg 0x410002 port)) }
      else
        let n := countedBy d.overhead q.frame.payload.length
        if n ≤ def_ then
          some (t, j, q, { d with deficits := d.deficits.setIfInBounds t (def_ - n), lastFifo := d.lastFifo.setIfInBounds t j })
        else s.selectFrame port fuel (leave def_)

/-- The visit in progress ends: a TC that holds no frame loses its deficit (R249). -/
def Drr.leave (d : Drr) (holds : Bool) : Drr :=
  let t := d.pos % 8
  { d with visiting := false, pos := (t + 1) % 8, deficits := if holds then d.deficits else d.deficits.setIfInBounds t 0 }

def State.setDrr (s : State) (port : Nat) (d : Drr) : State := { s with net := { s.net with drr := SMap.put {} s.net.drr port d } }

/-- A port whose last frame has left chooses the next one. The visit to a TC goes on from frame to frame, so that a frame that came while the
last was on the wire is served in it (R267); it ends when no frame of the port is eligible. As a sequencer's frame leaves, the chunk it was
taken from may be freed (R327). -/
def State.egressSelect (s : State) (port : Nat) : State :=
  let d := SMap.get {} s.net.drr port
  if !s.portReady port then s
  else if (List.range 32).any fun ch => (s.eligible port ch).isSome then
    match s.selectFrame port 1000 d with
    | none => s
    | some (t, j, q, d) =>
      let ch := t * 4 + fifoOrder j
      let s := ((s.setQueue port ch ((s.queue port ch).drop 1)).setDrr port d).transmit port q d.overhead
      if q.sequenced then s.settleGroup q.hdr.group else s
  else if d.visiting then s.setDrr port (d.leave (s.tcHolds port (d.pos % 8)))
  else s

def execEgressSelect (port : Nat) (s : State) : Host.Outcome State Fault Refusal := .next (s.egressSelect port)

/-- The tokens of a shaper are brought up to date (R255). -/
def State.shaperTick (s : State) (port tc at_ : Nat) : State :=
  if !s.pow.powered ∨ 0x52 < port ∨ 7 < tc ∨ (s.bucketElement 0x412002 port tc).1 = 0 then s
  else
    let s := s.at_ at_
    { s with net := { s.net with
        shapers := SMap.put none s.net.shapers (port * 8 + tc) (some ⟨s.shaperTokens port tc, s.now⟩) } }

def execShaperTick (port tc at_ : Nat) (s : State) : Host.Outcome State Fault Refusal := .next (s.shaperTick port tc at_)

/-- Frames of an ingress port and TC held for reordering go alone after 10 µs (R265). -/
def State.reorderTimeout (s : State) (port tc at_ : Nat) : State :=
  let due (d : Delivered) : Bool :=
    decide (d.ingress = port) && decide ((Hdr.of d.frame.header).tc = tc) && decide (d.since + 10000 ≤ max s.now at_)
  if s.pow.powered ∧ s.net.reorder.any due then
    let s := s.at_ at_
    { s with net := { s.net with
        rx := s.net.rx ++ s.net.reorder.filter due, reorder := s.net.reorder.filter fun d => !due d } }
  else s

def execReorderTimeout (port tc at_ : Nat) (s : State) : Host.Outcome State Fault Refusal := .next (s.reorderTimeout port tc at_)

/-- Every held frame is delivered at once: the unlock is cleared (R267). -/
def State.releaseReorders (s : State) : State :=
  { s with net := { s.net with rx := s.net.rx ++ s.net.reorder, reorder := [] } }

/-- A write of the injection unlock or seed (R264, R265): the counts of frames seen restart, and clearing the unlock releases held
frames. -/
def State.restartInjection (s : State) : State :=
  let s := { s with net := { s.net with seen := [] } }
  if s.reg 0xC00001 = 0 then s.releaseReorders else s

/-! ## Credits granted (R237–R239, R345) -/

/-- The cumulative grant that the receiver of link `l` may give on a channel: what arrived, and on a lossless TC the free cells the channel
holds for itself and a maximum frame's cells of the shared pool while R238 allows, as long as the policer does (R256); on a best-effort TC a
fixed window of its guarantee (R239; log entry 25). Credits are withdrawn on entry into DORMANT (R429). -/
def State.grantFor (s : State) (l ch : Nat) : Nat :=
  let tc := ch / 4
  let k := s.link l
  let arrived := SMap.get 0 k.arrived ch
  let old := SMap.get 0 k.given ch
  if s.pow.draining then arrived
  else if s.bestEffortAt l tc then max old (arrived + s.guarantee tc / 4)
  else if !s.policerOpen l tc then old
  else max old (arrived + s.ownFree l ch + (if s.shareOpen l tc then 17 else 0))

/-- Grant what can be granted on the channels of a link, or on those of one TC; every changed grant is sent. -/
def State.updateCredits (s : State) (l : Nat) (resend : Bool := false) : State :=
  if !s.linkUp l then s
  else
    (List.range 32).foldl (fun (s : State) ch =>
      let g := s.grantFor l ch
      if g = SMap.get 0 (s.link l).given ch ∧ ¬ resend then s
      else (s.mapLink l fun k => { k with given := SMap.put 0 k.given ch g }).sendWord l 3 ch (g % 2 ^ 24)) s

/-- Every channel's grant is sent at least every 10 µs. -/
def State.creditRefresh (s : State) (l at_ : Nat) : State :=
  if s.pow.powered && s.linkUp l && decide ((s.link l).creditAt + 10000 ≤ max s.now at_) then
    let s := s.at_ at_
    (s.updateCredits l true).mapLink l fun k => { k with creditAt := s.now }
  else s

def execCreditRefresh (link at_ : Nat) (s : State) : Host.Outcome State Fault Refusal := .next (s.creditRefresh link at_)

/-- A policer's bucket refills; its lossless channels may be granted credit again, and frames that waited at a port of this module enter
(R256). -/
def State.policerAccrue (s : State) (port tc at_ : Nat) : State :=
  if !s.pow.powered ∨ 0x52 < port ∨ 7 < tc ∨ (s.bucketElement 0x413002 port tc).1 = 0 then s
  else
    let s := s.at_ at_
    let s := { s with net := { s.net with
      policers := SMap.put none s.net.policers (port * 8 + tc) (some ⟨s.policerTokens port tc, s.now⟩) } }
    if port < 0x40 then s.updateCredits port else s.admitAll

def execPolicerTokenAccrual (port tc at_ : Nat) (s : State) : Host.Outcome State Fault Refusal := .next (s.policerAccrue port tc at_)

/-! ## Frames discarded from queues (R246) -/

/-- Empty the queues of a port, forget its round, and drop what waits there to enter the switch. -/
def State.clearPort (s : State) (port : Nat) : State :=
  let s := { s with net := { s.net with
    queues := SMap.clearRange s.net.queues (port * 32) (port * 32 + 32)
    stages := SMap.clearRange s.net.stages (port * 8) (port * 8 + 8)
    drr := SMap.put {} s.net.drr port {}
    entering := s.net.entering.filter fun x => x.1 != port } }
  s

/-- Discard the MIRROR copies for a port that still wait for room (R261, R267). -/
def State.dropCopiesFor (s : State) (reason port : Nat) : State :=
  (s.net.copies.filter fun q => q.final == port).foldl (fun (s : State) q => (s.logDiscard reason 0x84 port q.frame.header).releaseMirror q)
    { s with net := { s.net with copies := s.net.copies.filter fun q => q.final != port } }

/-- Discard everything that waits at a port. -/
def State.dropPort (s : State) (reason port : Nat) : State :=
  (s.waiting port).foldl (fun s q => s.discardQueued reason port q) ((s.clearPort port).dropCopiesFor reason port)

/-- Discard the delivered frames that satisfy `p` and are not yet consumed, those held for reordering among them. -/
def State.dropDeliveredIf (s : State) (reason : Nat) (p : Delivered → Bool) : State :=
  let ds := s.net.rx.filter p ++ s.net.reorder.filter p
  let s := { s with net := { s.net with
    rx := s.net.rx.filter fun d => !p d, reorder := s.net.reorder.filter fun d => !p d } }
  ds.foldl (fun s d => (s.discardFrame reason d.ingress d.port d.frame.header).unref d.store) s

/-- Discard the frames delivered at a port. -/
def State.dropDelivered (s : State) (reason port : Nat) : State := s.dropDeliveredIf reason fun d => decide (d.port = port)

/-- Discard the frames held by the reorder rules of an ingress port: they are delivered nowhere (R267). -/
def State.dropReorders (s : State) (reason ingress : Nat) : State :=
  let mine (d : Delivered) : Bool := decide (d.ingress = ingress)
  let ds := s.net.reorder.filter mine
  ds.foldl (fun s d => (s.discardFrame reason d.ingress d.port d.frame.header).unref d.store)
    { s with net := { s.net with reorder := s.net.reorder.filter fun d => !mine d } }

/-- Take the frames that wait at the bridge and satisfy `p` off its queues: each with its bridge port, in queue order. -/
def State.takeBridged (s : State) (p : Queued → Bool) : List (Nat × Queued) × State :=
  let chans := [0x51, 0x52].flatMap fun b => (List.range 32).map fun ch => (b, ch)
  (chans.flatMap fun c => ((s.queue c.1 c.2).filter p).map fun q => (c.1, q),
    chans.foldl (fun (s : State) c => s.setQueue c.1 c.2 ((s.queue c.1 c.2).filter fun q => !p q)) s)

/-- Frames on the queues of the bridge that satisfy `p` are discarded (R246). -/
def State.dropBridged (s : State) (reason : Nat) (p : Queued → Bool) : State :=
  let x := s.takeBridged p
  x.1.foldl (fun s e => s.discardQueued reason e.1 e.2) x.2

/-- Frames on the queues of the bridge that are bound for a port are discarded (R246). -/
def State.dropBound (s : State) (reason final : Nat) : State := s.dropBridged reason fun q => decide (q.final = final)

end Sys2Proof.Machine
end

