-- ==== Sys2Proof/Machine/TimeTree.lean ====
section
/-! DEFINITION. The time tree (R476): the root, the parent of a module, and the state shown at 9040.01. -/

namespace Sys2Proof.Machine

open Sys2Proof

/-- Is this module the root of fabric time? -/
def State.isRoot (s : State) : Bool := decide (s.node = s.reg 0x904002 % 2 ^ 24)

/-- The depth the neighbour on link `l` last gave. -/
def State.depthOn (s : State) (l : Nat) : Nat := SMap.get 0xFF s.health.depths l

/-- The parent link: the lowest up link toward the root, else the lowest up link to a synchronised neighbour of least depth. -/
def State.parentLink (s : State) : Option Nat :=
  let toRoot := match s.direction (s.reg 0x904002 % 2 ^ 24) with
    | some (d, neg) => (s.linksOf d neg).head?
    | none => none
  toRoot <|> minBy s.depthOn ((List.range 64).filter fun l => s.linkUp l && decide (s.depthOn l ≠ 0xFF))

/-- The state and depth of 9040.01; a change of state posts event 0x0071. -/
def State.syncTo (s : State) (state depth : Nat) : State :=
  let old := s.health.syncState
  let s := { s with health := { s.health with syncState := state, depth := depth } }
  if state = old then s else s.postEvent 0x71 0 (state + depth * 2 ^ 8)

/-- The parent is chosen again; a root has none. -/
def State.reparent (s : State) : State :=
  if s.isRoot then
    let s := { s with health := { s.health with parent := none, lostSince := none, hold := 0 } }
    s.syncTo 3 0
  else
    let p := s.parentLink
    let s := if s.health.syncState = 3 then s.syncTo 0 0xFF else s
    let s := { s with health := { s.health with
      parent := p
      lostSince := if p.isSome then none else if s.health.lostSince.isSome then s.health.lostSince else some s.now } }
    if p.isSome && s.health.syncState == 0 then s.syncTo 1 0xFF else s

end Sys2Proof.Machine
end

