-- ==== Sys2Proof/Machine/Links.lean ====
section
/-! DEFINITION. Elater optics and the Kahild link layer: link states and training (R341, R342), credits, retry and handover (R344–R347),
lanes (R348, R349), lasers and rings (R350, R351). -/

namespace Sys2Proof.Machine

open Sys2Proof

/-! ## Lanes (R348, R349) -/

/-- The lanes that belong to a link: all eight, or a half of a split port. -/
def State.ownLanes (s : State) (l : Nat) : Nat :=
  if s.portSplit (l / 2) then (if l % 2 = 0 then 0x0F else 0xF0) else 0xFF

/-- Does lane `w` of a bank have a laser that meets its target (R350)? -/
def State.laserLit (s : State) (bank w : Nat) : Bool :=
  (List.range 2).any fun u =>
    match SMap.get none s.opt.lasers ((bank * 8 + w) * 2 + u) with
    | some l => decide (l.state = 1)
    | none => false

/-- The lanes of a port whose rings have failed. -/
def State.ringsDead (s : State) (port : Nat) : Nat :=
  (List.range 8).foldl (fun m i =>
    if (List.range 2).any fun t => SMap.get false s.opt.failedRings ((port * 8 + i) * 2 + t) then m + 2 ^ i else m) 0

/-- The lanes of a port with a working laser and working rings. -/
def State.portLanes (s : State) (port : Nat) : Nat :=
  let lit := (List.range 8).foldl (fun m i => if s.laserLit (port / 4) i then m + 2 ^ i else m) 0
  lit &&& (255 - s.ringsDead port)

/-- The lanes of a link with a working laser and working rings. -/
def State.workLanes (s : State) (l : Nat) : Nat := s.ownLanes l &&& s.portLanes (l / 2)

/-- Lanes of a fitted port that worked, as `before` says, and no longer do: each is lost, which posts its event (R350, R351, R468). -/
def State.lostLanes (s : State) (port before : Nat) : State :=
  if !s.portFitted port then s
  else
    ((List.range 8).filter fun i => bitOf before i && !bitOf (s.portLanes port) i).foldl
      (fun (s : State) i => s.postEvent 0x41 4 (port + i * 2 ^ 8)) s

/-- Does a lane mask meet R349: 7 or 8 lanes unsplit, all four split? -/
def State.lanesMeet (s : State) (l m : Nat) : Bool :=
  if s.portSplit (l / 2) then decide (m &&& s.ownLanes l = s.ownLanes l) else decide (7 ≤ popCount 8 m)

/-! ## State changes -/

/-- A link event (R468, code 0x0040). -/
def State.linkEvent (s : State) (l old new : Nat) : State := s.postEvent 0x40 0 (l + old * 2 ^ 8 + new * 2 ^ 16)

/-- Change a link's state code. -/
def State.linkTo (s : State) (l state : Nat) : State := s.mapLink l fun k => { k with state := state, changed := s.now }

/-- Another up link of the direction of link `l`, chosen by the rule of R232 for a frame (R246). -/
def State.rechoose (s : State) (l : Nat) (h : Hdr) : Option Nat :=
  let b := s.linkDir l
  s.chooseLink h h.sub ((s.linksOf (b / 16 % 4) (bitOf b 0)).filter (· ≠ l))

/-- Move a frame that waited at port `at_` for lost link `l`, or was sent on it, to another link of the direction: into its FIFO at once,
or, with `staged`, into its group stage. A multicast copy, or a mirror copy made here, is discarded: no other link takes it. -/
def State.moveFrame (s : State) (l at_ : Nat) (staged : Bool) (q : Queued) : Bool × State :=
  let h := q.hdr
  match (if h.mc ∨ (h.kind = 0x50 ∧ q.ingress = 0x84) then none else s.rechoose l h) with
  | some m => (true, s.enqueue at_ m q !staged)
  | none => (false, s.discardQueued 0x0D l q)

/-- The up links to the module that link `l` led to. -/
def State.siblings (s : State) (l : Nat) : List Nat :=
  match (s.link l).partner with
  | none => []
  | some p => (List.range 64).filter fun m => m != l && s.linkUp m && (match (s.link m).partner with
      | some q => q.node == p.node
      | none => false)

/-- Held frames discarded without a HANDOVER (R347). -/
def State.dropHeld (s : State) (l : Nat) : State :=
  let hs := (s.link l).held
  let s := s.mapLink l fun k => { k with held := [], handover := false, replayFrom := none }
  let s := s.linkCount l 12 hs.length
  hs.foldl (fun s h => if h.queued.void then s.unref h.queued.store else s.discardQueued 0x0D l h.queued) s

/-- Release the held frames below a sequence number. -/
def State.releaseHeld (s : State) (l next_ : Nat) : State :=
  let k := s.link l
  let below := k.held.takeWhile fun h => let d := (next_ + 65536 - h.seq) % 65536; decide (0 < d ∧ d ≤ 32768)
  if below.isEmpty then s
  else
    let s := s.setLink l { k with held := k.held.drop below.length, ackAt := s.now }
    below.foldl (fun s h => s.unref h.queued.store) s

/-- The next frame a replay would resend has been sent 16 times without an ACK (R346). -/
def Link.exhausted (k : Link) : Bool :=
  match k.replayFrom with
  | some n => k.held.any fun h => h.seq == n && decide (16 ≤ h.sends)
  | none => false

/-- Resend held frames from the replay point, in order and with the replay flag, once the frame in transmission has ended, as far as credit
covers them and the limit allows (R345, R346). A replay is never corrupted (R265). -/
def State.replayRun (s : State) (l : Nat) : Nat → State
  | 0 => s
  | fuel + 1 =>
    let k := s.link l
    match k.replayFrom with
    | none => s
    | some n =>
      match k.held.find? fun h => h.seq == n with
      | none => s.setLink l { k with replayFrom := none }
      | some h =>
        if k.exhausted || (SMap.get none s.net.busy l).isSome || !s.hasCredit l h.queued.channel h.queued.cells then s
        else
          let s := s.setLink l { k.charge h.queued.channel h.queued.cells with
            held := k.held.map fun x => if x.seq = n then { x with sends := x.sends + 1, corrupt := false } else x
            replayFrom := some ((n + 1) % 65536) }
          State.replayRun (s.linkCount l 6) l fuel

/-- The frame being cut through on link `e` ends as `f` makes it; a replay that waited for its end goes on. -/
def State.endCut (s : State) (e : Nat) (f : Queued → Queued) : State :=
  let s := { s with net := { s.net with busy := SMap.put none s.net.busy e none } }
  let s := s.mapLink e fun k => { k with
    held := k.held.map fun h => if h.queued.confirmed then h else { h with queued := { f h.queued with confirmed := true } } }
  s.replayRun e ((s.link e).held.length + 1)

/-- A cut-through frame whose ingress fails or is lost is completed downstream with stomp set (R235). -/
def State.stompCut (s : State) (a : Arriving) : State :=
  match (if a.cut then a.egress else none) with
  | none => s
  | some e => (s.bump 0x406006).endCut e fun q => { q with void := true }

/-- The frame being cut through on link `l` is the one it holds unconfirmed, and its last; without it the link holds the rest (R246). -/
def Link.withoutCut (k : Link) : Link :=
  { k with
    held := k.held.filter fun h => h.queued.confirmed
    nextSeq := match k.held.find? fun h => !h.queued.confirmed with
      | some h => h.seq
      | none => k.nextSeq }

/-- The frame being cut through on link `l` leaves it, which has gone: its cells are freed, and it is stored after all where it still
arrives, its way chosen again (R246). -/
def State.abandonCut (s : State) (l : Nat) : State :=
  let cut := SMap.get none s.net.busy l
  let s := { s with net := { s.net with
    busy := SMap.put none s.net.busy l none
    arriving := s.net.arriving.map fun (e : Nat × Option Arriving) => (e.1, e.2.map fun (a : Arriving) =>
      if a.cut && a.egress == some l then { a with cut := false, egress := none } else a) } }
  match cut with
  | some q => (s.mapLink l Link.withoutCut).unref q.store
  | none => s

/-- Has this module committed a geometry? -/
def State.committed (s : State) : Bool := decide (s.reg 0x601005 = 1)

/-- What this side of link `l` sends of itself in training (R342, R347). -/
def State.identityOf (s : State) (l : Nat) : PartnerId :=
  let k := s.link l
  let b := s.linkDir l
  let split := s.portSplit (l / 2)
  { node := s.node, link := l, split := split, upperHalf := split && decide (l % 2 = 1), lanes := BitVec.ofNat 8 (s.workLanes l)
    committed := s.committed, assigned := if bitOf b 7 then some (b / 16 % 4, bitOf b 0) else none
    nextExpected := k.expected, replays := k.handover && !k.held.isEmpty }

/-- A link trains on a lane set; `retrain`: a lane-set retrain, which keeps sequences, held frames and credits (R341, R342, R349). -/
def State.train (s : State) (l : Nat) (lanes : Byte) (retrain : Bool) : State :=
  let me := s.identityOf l
  (s.linkTo l 3).mapLink l fun k => { k with lanes := lanes, retrain := retrain, sent := some me }

/-- A dark or training link whose working lanes fall below R349 is lost (R341). -/
def State.loseDark (s : State) (l : Nat) : State :=
  let k := s.link l
  if (k.state = 2 ∨ k.state = 3) ∧ ¬ s.lanesMeet l (s.workLanes l) then (s.linkTo l 6).mapLink l fun k => { k with retrain := false } else s

/-- A link leaves up for state `code` (R341, R347): what waits for it moves, at its own port and at the bridge; what it holds awaits a
handover; a frame arriving on it is cut off; collectives and Service Requested follow; and in dark it is lost where its lanes no longer
meet R349. -/
def State.leaveUp (s : State) (l code : Nat) : State :=
  let was := s.link l
  let s := (s.linkTo l code).mapLink l fun k => { k with retrain := false, awaiting := false, replayFrom := none, leftAt := s.now }
  let arr := SMap.get none s.net.arriving l
  let s := { s with net := { s.net with arriving := SMap.put none s.net.arriving l none } }
  let s := match arr with
    | some a => s.stompCut a
    | none => s
  let s := s.abandonCut l
  let queued := (List.range 32).flatMap fun ch => s.queue l ch
  let staged := s.stagedAt l
  let bridged := (s.takeBridged fun q => decide (q.final = l)).1
  let s := ((s.takeBridged fun q => decide (q.final = l)).2).clearPort l
  let s := queued.foldl (fun s q => (s.moveFrame l l false q).2) s
  let s := staged.foldl (fun s q => (s.moveFrame l l true q).2) s
  let s := bridged.foldl (fun s e => (s.moveFrame l e.1 false e.2).2) s
  let s := s.mapLink l fun k => { k with handover := !k.held.isEmpty }
  let s := (s.siblings l).foldl (fun s m => s.sendWord m 4 l was.expected) s
  ((s.loseDark l).settleAll.reparent).updateService

/-- A link is lost (R346): from up, or during a lane-set retrain. -/
def State.linkLoss (s : State) (l : Nat) : State :=
  let k := s.link l
  if s.pow.powered ∧ (k.state = 4 ∨ (k.state = 3 ∧ k.retrain)) then (s.linkCount l 8).leaveUp l 2 else s

def execLinkLoss (link : Nat) (s : State) : Host.Outcome State Fault Refusal := .next (s.linkLoss link)

/-- A replay goes on; a frame that has been sent 16 times without an ACK loses the link (R346). -/
def State.replayOn (s : State) (l : Nat) : State :=
  let s := s.replayRun l ((s.link l).held.length + 1)
  if (s.link l).exhausted && (SMap.get none s.net.busy l).isNone then s.linkLoss l else s

/-- Start a replay from a sequence number. -/
def State.replay (s : State) (l n : Nat) : State := (s.mapLink l fun k => { k with replayFrom := some n }).replayOn l

/-- Lanes of the links of a port have lost their laser or ring: a link in dark or training that can no longer meet R349 is lost; an up
link retrains on what remains or leaves up. -/
def State.lanesDied (s : State) (l : Nat) : State :=
  let k := s.link l
  let w := s.workLanes l
  if !s.linkExists l then s
  else if k.state = 3 ∧ k.retrain ∧ ¬ s.lanesMeet l w then s.leaveUp l 6
  else if k.state = 4 then
    let m := k.lanes.toNat &&& w
    if m = k.lanes.toNat then s
    else if s.lanesMeet l m then s.train l (BitVec.ofNat 8 m) true
    else (s.linkCount l 8).leaveUp l 2
  else (s.loseDark l).updateService

/-! ## Enabling and splitting -/

/-- Take a link to disabled: queued frames move, held frames are handed over. -/
def State.disableLink (s : State) (l : Nat) : State :=
  let k := s.link l
  if k.state = 4 ∨ (k.state = 3 ∧ k.retrain) then s.leaveUp l 1 else s.linkTo l 1

/-- Bring a disabled link to dark; with too few working lanes it is lost at once (R341). -/
def State.darken (s : State) (l : Nat) : State :=
  if s.linkExists l then (s.mapLink l fun k => { k with state := 2, changed := s.now, failedAt := none, retrain := false }).loseDark l else s

/-- A link whose port changes its split state starts afresh, but for the frames it holds from before, which await their handover. -/
def Link.afresh (k : Link) : Link :=
  if k.handover then
    { partner := k.partner, held := k.held, nextSeq := k.nextSeq, handover := true, leftAt := k.leftAt }
  else {}

/-- The direction byte of a link in entry 6010.04 as it stands written. -/
def State.writtenDir (s : State) (l : Nat) : Nat := fieldOf (8 * l + 7) (8 * l) (s.reg 0x601004)

/-- A write of port control (6020.02), reserved bits ignored; none: refused (R3, R348). -/
def State.writePortControl (s : State) (p v : Nat) : Option State :=
  let v := v % 4
  let old := s.portControl p
  let split := decide (v / 2 ≠ old / 2 % 2)
  let assigned := bitOf (s.writtenDir (2 * p)) 7 || bitOf (s.writtenDir (2 * p + 1)) 7
  if !s.portFitted p then none
  else if split && assigned then none
  else
    let ls := (List.range 2).map (· + 2 * p)
    if split then
      let s := ls.foldl (fun s l => if s.linkExists l then s.disableLink l else s) s
      let s := ls.foldl (fun (s : State) l => s.mapLink l Link.afresh) (s.setReg 0x602002 v p)
      some (ls.foldl (fun s l => if bitOf v 0 then s.darken l else if s.linkExists l then s.linkTo l 1 else s) s).updateService
    else if bitOf v 0 = bitOf old 0 then some (s.setReg 0x602002 v p)
    else if bitOf v 0 then some (ls.foldl State.darken (s.setReg 0x602002 v p)).updateService
    else
      let s := ls.foldl (fun s l => if s.linkExists l then s.disableLink l else s) s
      some (s.setReg 0x602002 v p).updateService

/-! ## Training (R341, R342) -/

/-- Light on every lane of the required set starts training, from dark, or from miswired where the partner retrains. -/
def State.lightDetect (s : State) (l : Nat) (lanes : Byte) : State :=
  let k := s.link l
  let m := lanes.toNat &&& s.workLanes l
  if s.running && s.linkExists l && s.portEnabled (l / 2) && decide (k.state = 2 ∨ k.state = 5) && k.failedAt.isNone && s.lanesMeet l m then
    s.train l (BitVec.ofNat 8 m) false
  else s

def execLightDetect (link : Nat) (lanes : Byte) (s : State) : Host.Outcome State Fault Refusal := .next (s.lightDetect link lanes)

/-- The node next to this one in a direction. -/
def State.nextNode (s : State) (d : Nat) (neg : Bool) : Nat :=
  let n := s.dimSize d
  setField s.node (6 * d) 6 (Ring.moved n (coordOf s.node d) 1 neg)

/-- Do the checks of R342 pass? -/
def State.wiredRight (s : State) (l : Nat) (p : PartnerId) : Bool :=
  let b := s.linkDir l
  let neg := bitOf b 0
  (p.split == s.portSplit (l / 2)) && (!p.split || p.upperHalf == decide (l % 2 = 1))
    && (!(s.committed && p.committed && bitOf b 7)
      || (decide (p.node = s.nextNode (b / 16 % 4) neg) && p.assigned == some (b / 16 % 4, !neg)))

/-- A link comes up: credits restart, and so do the sequences of each direction, unless its sender resumes a replay of frames it holds from
before (R347). -/
def State.bringUp (s : State) (l : Nat) (p : PartnerId) : State :=
  let k := s.link l
  let again := k.handover && !k.held.isEmpty
  let s := (s.linkTo l 4).mapLink l fun k => { k with
    granted := [], charged := [], given := [], arrived := [], awaiting := false, replayFrom := none, creditAt := s.now
    nextSeq := if again then k.nextSeq else 0, expected := if p.replays then k.expected else 0, handover := false }
  let s := if again then (s.releaseHeld l p.nextExpected).replay l p.nextExpected else s
  s.updateCredits l

/-- Identities are exchanged in training, and shown from then on (R342); a link that was miswired trains again with a partner that retrains
or has committed its geometry anew. Where the checks fail it is miswired, on whatever lanes; else, on a lock on a lane set that meets R349,
it is up (R341); working lanes without lock are tried again later (R349), and a replay resumes from what the partner expects next (R352). -/
def State.trainingLock (s : State) (l : Nat) (lanes : Byte) (p : PartnerId) : State :=
  if !(s.running && decide ((s.link l).state = 3 ∨ (s.link l).state = 5)) then s
  else
    let m := lanes.toNat &&& s.workLanes l &&& p.lanes.toNat
    let s := if (s.link l).state = 5 then s.train l (BitVec.ofNat 8 m) false else s
    let s := s.mapLink l fun k => { k with partner := some p }
    let k := s.link l
    if !s.wiredRight l p then
      let s := s.mapLink l fun k => { k with lanes := BitVec.ofNat 8 m }
      let s := if k.retrain then s.leaveUp l 5 else s.linkTo l 5
      (s.linkEvent l 3 5).updateService
    else if !s.lanesMeet l m then s
    else
      let s := s.mapLink l fun k => { k with lanes := BitVec.ofNat 8 m, lostLanes := BitVec.ofNat 8 (s.workLanes l &&& (255 - m)) }
      if k.retrain then
        let s := (s.linkTo l 4).mapLink l fun k => { k with retrain := false }
        let s := (s.linkCount l 10).linkEvent l 3 4
        (if k.replayFrom.isSome then (s.releaseHeld l p.nextExpected).replay l p.nextExpected else s).reparent.updateService
      else ((s.bringUp l p).linkEvent l 3 4).reparent.updateService

def execTrainingLock (link : Nat) (lanes : Byte) (partner : PartnerId) (s : State) : Host.Outcome State Fault Refusal :=
  .next (s.trainingLock link lanes partner)

/-- No lock within 100 ms. -/
def State.trainingTimeout (s : State) (l at_ : Nat) : State :=
  let k := s.link l
  if s.pow.powered ∧ k.state = 3 ∧ k.changed + 100000000 ≤ max s.now at_ then
    let s := s.at_ at_
    let s := if k.retrain then s.leaveUp l 2 else s.linkTo l 2
    ((s.linkCount l 9).mapLink l fun k => { k with failedAt := some s.now }).updateService
  else s

def execTrainingTimeout (link at_ : Nat) (s : State) : Host.Outcome State Fault Refusal := .next (s.trainingTimeout link at_)

/-- A link that failed to train may try again after 100 ms. -/
def State.trainingRetry (s : State) (l at_ : Nat) : State :=
  let k := s.link l
  match k.failedAt with
  | some t =>
    if s.pow.powered ∧ k.state = 2 ∧ t + 100000000 ≤ max s.now at_ then (s.at_ at_).mapLink l fun k => { k with failedAt := none } else s
  | none => s

def execTrainingRetry (link at_ : Nat) (s : State) : Host.Outcome State Fault Refusal := .next (s.trainingRetry link at_)

/-- A lane has been without lock for 100 µs (R341, R349). -/
def State.laneLockLoss (s : State) (l lane at_ : Nat) : State :=
  let k := s.link l
  if s.pow.powered ∧ k.state = 4 ∧ lane < 8 ∧ bitOf k.lanes.toNat lane then
    let s := s.at_ at_
    let s := s.postEvent 0x41 4 (l / 2 + lane * 2 ^ 8)
    let m := k.lanes.toNat - 2 ^ lane
    let s := s.mapLink l fun k => { k with lostLanes := k.lostLanes ||| BitVec.ofNat 8 (2 ^ lane) }
    if s.lanesMeet l m then (s.train l (BitVec.ofNat 8 m) true).updateService
    else (s.linkCount l 8).leaveUp l 2
  else s

def execLaneLockLoss (link lane at_ : Nat) (s : State) : Host.Outcome State Fault Refusal := .next (s.laneLockLoss link lane at_)

/-- A lane lost for another reason than its laser or ring has held lock for a second: the link retrains to include it. -/
def State.laneRetry (s : State) (l lane at_ : Nat) : State :=
  let k := s.link l
  if s.pow.powered ∧ k.state = 4 ∧ lane < 8 ∧ bitOf k.lostLanes.toNat lane ∧ bitOf (s.workLanes l) lane
      ∧ k.changed + 1000000000 ≤ max s.now at_ then
    ((s.at_ at_).train l (k.lanes ||| BitVec.ofNat 8 (2 ^ lane)) true).updateService
  else s

def execLaneRetry (link lane at_ : Nat) (s : State) : Host.Outcome State Fault Refusal := .next (s.laneRetry link lane at_)

/-- The geometry is committed again: a miswired link trains again (R341). -/
def State.retrainMiswired (s : State) : State :=
  (List.range 64).foldl (fun s l => if (s.link l).state = 5 then s.train l (s.link l).lanes false else s) s

/-! ## Control words (R343–R347) -/

/-- An ACK releases the held frames below the next expected sequence number. -/
def State.ackReceive (s : State) (l n : Nat) : State :=
  if s.pow.powered && s.linkUp l then (s.releaseHeld l (n % 65536)).admitAll.settleAll else s

def execLinkAckReceive (link next_ : Nat) (s : State) : Host.Outcome State Fault Refusal := .next (s.ackReceive link next_)

/-- A NAK starts, or restarts, the replay. -/
def State.nakReceive (s : State) (l n : Nat) : State :=
  if s.pow.powered && s.linkUp l && (s.link l).held.any (fun h => h.seq == n % 65536) then s.replay l (n % 65536) else s

def execLinkNakReceive (link next_ : Nat) (s : State) : Host.Outcome State Fault Refusal := .next (s.nakReceive link next_)

/-- A CREDIT word sets a channel's cumulative grant; a replay that waited for credit goes on. -/
def State.creditReceive (s : State) (l ch g : Nat) : State :=
  if s.pow.powered && s.linkUp l && decide (ch < 32) then
    let s := s.mapLink l fun k => { k with granted := SMap.put 0 k.granted ch (g % 2 ^ 24) }
    s.replayOn l
  else s

def execLinkCreditReceive (link channel granted : Nat) (s : State) : Host.Outcome State Fault Refusal :=
  .next (s.creditReceive link channel granted)

/-- A HANDOVER for a lost link, named by the partner's number for it (log entry 25): held frames below its sequence number are released,
the rest requeued in sequence order. -/
def State.handoverReceive (s : State) (l lost n : Nat) : State :=
  if !(s.pow.powered && s.linkUp l) then s
  else
    match (List.range 64).find? fun m => (s.link m).handover && (match (s.link m).partner, (s.link l).partner with
        | some p, some q => p.node == q.node && p.link == lost
        | _, _ => false) with
    | none => s
    | some m =>
      let s := s.releaseHeld m (n % 65536)
      let hs := (s.link m).held
      let s := s.mapLink m fun k => { k with held := [], handover := false }
      hs.foldl (fun s h =>
        if h.queued.void then s.unref h.queued.store
        else
          let r := s.moveFrame m m false h.queued
          if r.1 then r.2.linkCount m 11 else r.2) s

def execHandoverReceive (link lost next_ : Nat) (s : State) : Host.Outcome State Fault Refusal := .next (s.handoverReceive link lost next_)

/-- The NAK is sent again every 20 µs while the receiver waits. -/
def State.nakResend (s : State) (l at_ : Nat) : State :=
  let k := s.link l
  if s.pow.powered && s.linkUp l && k.awaiting && decide (k.nakAt + 20000 ≤ max s.now at_) then
    let s := s.at_ at_
    ((s.mapLink l fun k => { k with nakAt := s.now }).sendWord l 2 k.expected 0).linkCount l 4
  else s

def execNakResendTimer (link at_ : Nat) (s : State) : Host.Outcome State Fault Refusal := .next (s.nakResend link at_)

/-- No ACK has advanced for 20 µs: replay from the oldest held frame. -/
def State.ackTimeout (s : State) (l at_ : Nat) : State :=
  let k := s.link l
  match k.held with
  | [] => s
  | h :: _ =>
    if s.pow.powered && s.linkUp l && decide (k.ackAt + 20000 ≤ max s.now at_) then
      let s := ((s.at_ at_).linkCount l 7).mapLink l fun k => { k with ackAt := max s.now at_ }
      s.replay l h.seq
    else s

def execAckTimeoutReplay (link at_ : Nat) (s : State) : Host.Outcome State Fault Refusal := .next (s.ackTimeout link at_)

/-- No HANDOVER within 100 µs of leaving up. -/
def State.handoverTimeout (s : State) (l at_ : Nat) : State :=
  let k := s.link l
  if s.pow.powered && k.handover && decide (k.leftAt + 100000 ≤ max s.now at_) then (s.at_ at_).dropHeld l else s

def execHandoverTimeout (link at_ : Nat) (s : State) : Host.Outcome State Fault Refusal := .next (s.handoverTimeout link at_)

/-! ## Lasers and rings (R350, R351, R355) -/

def laserKey (bank w u : Nat) : Nat := (bank * 8 + w) * 2 + u

def State.laser (s : State) (bank w u : Nat) : Laser := (SMap.get none s.opt.lasers (laserKey bank w u)).getD ⟨3, 0, 0, false⟩
def State.setLaser (s : State) (bank w u : Nat) (l : Laser) : State :=
  { s with opt := { s.opt with lasers := SMap.put none s.opt.lasers (laserKey bank w u) (some l) } }

/-- The active unit of a wavelength. -/
def State.activeUnit (s : State) (bank w : Nat) : Option Nat := (List.range 2).find? fun u => decide ((s.laser bank w u).state = 1)

/-- The links of a bank's four ports. -/
def bankLinks (bank : Nat) : List Nat := (List.range 8).map (· + 8 * bank)

/-- Is a link of the bank training? -/
def State.bankTraining (s : State) (bank : Nat) : Bool := (bankLinks bank).any fun l => decide ((s.link l).state = 3)

/-- Make unit `u` of a wavelength active in place of unit `v`, which takes state `leave_`. -/
def State.laserSwap (s : State) (bank w u v leave_ : Nat) : State :=
  let s := (s.setLaser bank w v { s.laser bank w v with state := leave_ }).setLaser bank w u { s.laser bank w u with state := 1 }
  ((s.bump 0x604005).postEvent 0x42 1 (bank + w * 2 ^ 4 + u * 2 ^ 8))

/-- Set one laser as measured, then swap or replace it (R350). -/
def State.adjustLaser (s : State) (bank : Nat) (r : LaserReading) : State :=
  let w := r.wavelength
  let u := r.unit
  let l := s.laser bank w u
  if 8 ≤ w ∨ 2 ≤ u ∨ l.state = 3 then s
  else
    let s := s.setLaser bank w u { l with bias := r.bias, hours := r.hours, meets := r.meets }
    let v := 1 - u
    let other := s.laser bank w v
    if !r.meets then
      -- a laser that fails: replaced by the standby, or by a retired laser that still meets the target
      if l.state = 1 ∧ (other.state = 0 ∨ (other.state = 2 ∧ other.meets)) then s.laserSwap bank w v u 3
      else s.setLaser bank w u { s.laser bank w u with state := 3 }
    else if l.state = 1 ∧ 1300 ≤ r.bias ∧ other.state = 0 ∧ !s.bankTraining bank then s.laserSwap bank w v u 2
    else s

/-- Forced swaps of a bank that waited for a port of it to finish training are made, where the standby is still ready (R350, R352). -/
def State.makeHeldSwaps (s : State) (bank : Nat) : State :=
  if s.bankTraining bank then s
  else
    let ws := (s.opt.swapsHeld.filter fun x => x.1 == bank).map Prod.snd
    let s := { s with opt := { s.opt with swapsHeld := s.opt.swapsHeld.filter fun x => x.1 != bank } }
    ws.foldl (fun s w =>
      match s.activeUnit bank w with
      | some u => if (s.laser bank w (1 - u)).state = 0 then s.laserSwap bank w (1 - u) u 2 else s
      | none => s) s

/-- A bias adjustment of a bank, every 100 ms. -/
def State.biasAdjust (s : State) (bank : Nat) (rs : List LaserReading) (at_ : Nat) : State :=
  if s.running && decide (bank < 8) && s.bankFitted bank && decide (SMap.get 0 s.opt.lastBias bank + 100000000 ≤ max s.now at_) then
    let s := s.at_ at_
    let s := { s with opt := { s.opt with lastBias := SMap.put 0 s.opt.lastBias bank s.now } }
    let ports := (List.range 4).map fun i => (4 * bank + i, s.portLanes (4 * bank + i))
    let s := (rs.foldl (fun s r => s.adjustLaser bank r) s).makeHeldSwaps bank
    let s := ports.foldl (fun (s : State) p => s.lostLanes p.1 p.2) s
    ((bankLinks bank).foldl State.lanesDied s).updateService
  else s

def execLaserBiasAdjust (bank : Nat) (readings : List LaserReading) (at_ : Nat) (s : State) : Host.Outcome State Fault Refusal :=
  .next (s.biasAdjust bank readings at_)

/-- A write of the forced swap (6040.04); none: refused: no ready standby. While a port of the bank is training the swap waits (R350, R352). -/
def State.forceSwap (s : State) (bank v : Nat) : Option State :=
  let w := v % 8
  match s.activeUnit bank w with
  | none => none
  | some u =>
    if s.bankFitted bank ∧ (s.laser bank w (1 - u)).state = 0 then
      if s.bankTraining bank then
        some { s with opt := { s.opt with swapsHeld := s.opt.swapsHeld.filter (· != (bank, w)) ++ [(bank, w)] } }
      else some (s.laserSwap bank w (1 - u) u 2).updateService
    else none

/-- A ring is recalibrated, every 100 ms: its heater's use in per mille, and whether it locks. One that runs out of range or cannot lock loses its
lane on that port (R351). -/
def State.ringCalibrate (s : State) (port lane : Nat) (transmit : Bool) (heater : Nat) (locks : Bool) (at_ : Nat) : State :=
  let k := (port * 8 + lane) * 2 + b2n (!transmit)
  if s.running && s.portFitted port && decide (lane < 8) && decide (SMap.get 0 s.opt.lastRing k + 100000000 ≤ max s.now at_) then
    let s := s.at_ at_
    let s := { s with opt := { s.opt with
      heaters := SMap.put 0 s.opt.heaters k (min heater 1000), lastRing := SMap.put 0 s.opt.lastRing k s.now } }
    if locks ∧ heater ≤ 1000 ∨ SMap.get false s.opt.failedRings k then s
    else
      let before := s.portLanes port
      let s := { s with opt := { s.opt with failedRings := SMap.put false s.opt.failedRings k true } }
      ((((s.bump 0x604006).lostLanes port before).lanesDied (2 * port)).lanesDied (2 * port + 1)).updateService
  else s

def execRingCalibration (port lane : Nat) (transmit : Bool) (heater : Nat) (locks : Bool) (at_ : Nat) (s : State) :
    Host.Outcome State Fault Refusal := .next (s.ringCalibrate port lane transmit heater locks at_)

/-- A laser record (R355). -/
def State.laserRecord (s : State) (bank w u : Nat) : Nat :=
  if !s.bankFitted bank then 0xFF * 2 ^ 56
  else let l := s.laser bank w u; l.state * 2 ^ 56 + l.bias % 65536 * 2 ^ 32 + l.hours % 2 ^ 32

/-- Link state (6020.03): 16 B per link. -/
def State.linkStateBytes (s : State) (l : Nat) : List Byte :=
  let k := s.link l
  if !s.portFitted (l / 2) then List.replicate 16 0
  else
    let p := match k.partner with
      | some p => (p.node, p.link)
      | none => (0, 0)
    [BitVec.ofNat 8 k.state, k.lanes, 0, 0] ++ natLE 3 p.1 ++ natLE 1 p.2 ++ natLE 8 k.changed

end Sys2Proof.Machine
end

