-- ==== Sys2Proof/Machine/Switch.lean ====
section
/-! DEFINITION. Frames that arrive on a link: header confirmation and cut-through (R227, R234), trailers, retry and stomps (R223, R235,
R346); and the memory agents: PUT, GET, ATOMIC and FREE requests and coalesced ACKs (R242, R243). -/

namespace Sys2Proof.Machine

open Sys2Proof

/-! ## Arrival on a link -/

def State.setArriving (s : State) (l : Nat) (a : Option Arriving) : State :=
  { s with net := { s.net with arriving := SMap.put none s.net.arriving l a } }

/-- The link receiver asks for frames again from the one it expects (R346). -/
def State.sendNak (s : State) (l : Nat) : State :=
  let k := s.link l
  ((s.setLink l { k with awaiting := true, nakAt := s.now }).sendWord l 2 k.expected 0).linkCount l 4

/-- The link receiver accepts the frame it expects. -/
def State.acceptFrame (s : State) (l : Nat) : State :=
  let n := ((s.link l).expected + 1) % 65536
  ((s.mapLink l fun k => { k with expected := n, awaiting := false }).sendWord l 1 n 0).linkCount l 1

/-- May a frame of header `w` be cut through from link `l` to link `e`, on sub-channel `sub` (R234, R239, R266)? -/
def State.mayCut (s : State) (l e sub : Nat) (replay : Bool) (w : W256) (sessions : List Nat) : Bool :=
  let h := Hdr.of w
  let cells := cellsOf (64 * h.units)
  decide (e < 0x40) && portEast l == portEast e && decide (s.linkSpeed e ≤ s.linkSpeed l) && !replay && sessions.isEmpty
    && (!s.bestEffortAt l h.tc || s.roomFor l h.channel cells) && s.cutReady e (onward w sub) cells

/-- A frame begins to leave on link `e` before its trailer has come: it is stored, sent and held there, its payload still to come (R234). -/
def State.beginCut (s : State) (l e sub : Nat) (w : W256) : State :=
  let h := Hdr.of w
  let y := s.newStore l h.channel (cellsOf (64 * h.units)) 1
  let q : Queued := ⟨⟨onward w sub, List.replicate (64 * h.units) 0⟩, l, e, y.1, false, false, false⟩
  let s := ((y.2.bump 0x406004).startSend e q (y.2.reg 0x411001)).holdOnLink e q
  { s with net := { s.net with busy := SMap.put none s.net.busy e (some q) } }

/-- A header arrives (R227, R346): the link decides whether it takes the frame; the checks are made and their failure discards it; the drop
rules see it confirmed (R265); else the policer judges a best-effort frame (R256), the route is latched, and a cut-through begins. -/
def State.headerConfirm (s : State) (l : Nat) (lh : LinkHeader) (w : W256) : State :=
  let k := s.link l
  let expected := decide (lh.seq % 65536 = k.expected)
  let a : Arriving :=
    { lh := lh, header := w, accepted := false, verdict := 0, route := .discard 0, egress := none, cut := false, sessions := []
      at_ := s.now }
  if !(s.pow.powered && s.linkUp l && (SMap.get none s.net.arriving l).isNone) then s
  else if k.awaiting && !(expected && lh.replay) then s.setArriving l (some a)
  else if !headerOk w then ((s.logDiscard 1 l 0xFF w).sendNak l).setArriving l (some { a with verdict := 1 })
  else if !expected then s.setArriving l (some { a with verdict := 2 })
  else
    let h := Hdr.of w
    let r := s.route l w
    let a := { a with accepted := true, sessions := s.mirrorSet l false w, route := r, egress := r.egress }
    match r with
    | .discard reason => (s.discardFrame reason l 0xFF w).setArriving l (some { a with verdict := reason })
    | _ =>
      let x := s.confirmCopies l w r
      let a := { a with route := x.1 }
      match x.1 with
      | .discard reason => x.2.setArriving l (some { a with verdict := reason })
      | _ =>
        if x.2.bestEffortAt l h.tc && !x.2.policerOpen l h.tc then
          ((x.2.bump 0x414002).discardFrame 8 l (a.egress.getD 0xFF) w).setArriving l (some { a with verdict := 8 })
        else
          match x.1 with
          | .link e sub =>
            if x.2.mayCut l e sub lh.replay w a.sessions then (x.2.beginCut l e sub w).setArriving l (some { a with cut := true })
            else x.2.setArriving l (some a)
          | _ => x.2.setArriving l (some a)

def execFrameHeaderConfirm (link : Nat) (lh : LinkHeader) (header : W256) (s : State) : Host.Outcome State Fault Refusal :=
  .next (s.headerConfirm link lh header)

/-- The route of a frame whose trailer is confirmed: the one latched with its header, chosen again where its link or endpoint has gone since
(R246). -/
def State.latchedRoute (s : State) (a : Arriving) : Route :=
  let h := Hdr.of a.header
  match a.route with
  | .link e sub =>
    if s.linkUp e then .link e sub
    else
      match s.rechoose e { h with sub := sub } with
      | some m => .link m sub
      | none => .discard 0x0D
  | .local_ p => if s.epWorks h.kind h.destEp then .local_ p else .discard 6
  | r => r

/-- A confirmed frame goes on its way; one being cut through completes; one whose header failed a check is done with, but for its mirror
sessions (R260, R263). -/
def State.forwardArrived (s : State) (l : Nat) (a : Arriving) (f : Frame) : State :=
  if a.verdict ≠ 0 then
    let egress := a.egress.getD 0xFF
    s.mirrorAll a.sessions f a.at_ l egress (s.depthAt egress (Hdr.of a.header).tc) false true
  else
    match (if a.cut then a.egress else none) with
    | some e =>
      let s := s.policerSpend l (Hdr.of a.header).tc (s.counted f.payload.length)
      (s.endCut e fun q => { q with frame := ⟨q.frame.header, f.payload⟩ }).replayOn e
    | none => s.forwardBy l (s.latchedRoute a) f a.sessions a.lh.replay a.at_

/-- The codewords corrected within a frame that arrives are counted at the link and among the corrected errors of all units (R461, R480): a
free number (log entry 12). -/
def State.countCorrected (s : State) (l : Nat) : State :=
  let n := Config.codewordsCorrected s.freeCtr
  (({ s with freeCtr := s.freeCtr + 1 } : State).linkCount l 2 n).bump 0xB02002 n

/-- A trailer arrives (R223, R235, R346). `codewordOk` says that no codeword of the frame was uncorrectable. -/
def State.trailerArrival (s : State) (l : Nat) (payload : List Byte) (trailer : W64) (codewordOk : Bool) : State :=
  match SMap.get none s.net.arriving l with
  | none => s
  | some a =>
    if !(s.pow.powered && s.linkUp l) then s
    else
      let h := Hdr.of a.header
      let f : Frame := ⟨a.header, payload⟩
      let egress := a.egress.getD 0xFF
      let s := (s.setArriving l none).countCorrected l
      let s := s.mapLink l fun k => { k with
        arrived := SMap.modify 0 k.arrived (chan a.lh.tc a.lh.response a.lh.sub) (· + cellsOf payload.length) }
      let s := if codewordOk then s else s.linkCount l 3
      let gone (s : State) : State :=
        (s.mirrorRecords a.sessions f a.at_ l egress (s.depthAt egress h.tc) false true).stompCut a
      let s :=
        if !a.accepted then
          if a.verdict = 1 then s
          else if a.verdict = 2 then (s.logDiscard 2 l 0xFF a.header).sendNak l
          else s.linkCount l 5
        else
          match (if codewordOk && decide (payload.length = 64 * h.units) then trailerVerdict f trailer else .corrupt) with
          | .corrupt => gone ((s.logDiscard 2 l egress a.header).sendNak l)
          | .stomped => gone ((s.acceptFrame l).logDiscard 3 l egress a.header)
          | .confirmed => (s.acceptFrame l).forwardArrived l a f
      s.updateCredits l

def execFrameTrailerArrival (link : Nat) (payload : List Byte) (trailer : W64) (codewordOk : Bool) (s : State) :
    Host.Outcome State Fault Refusal := .next (s.trailerArrival link payload trailer codewordOk)

/-! ## The memory agents (R242, R243) -/

/-- The response header to a request. -/
def State.responseHdr (s : State) (h : Hdr) (kind units : Nat) : Hdr :=
  { destNode := h.srcNode, destEp := h.srcEp, srcNode := s.node, srcEp := h.destEp, kind := kind, tc := h.tc, units := units, seq := h.seq }

/-- Send the ACK frame of a set. -/
def State.sendAck (s : State) (a : AckSet) : State :=
  let h : Hdr := { destNode := a.node, destEp := a.endpoint, srcNode := s.node, srcEp := 0, kind := 6, tc := a.tc }
  let body := natLE 4 a.tags.length ++ a.tags.flatMap (natLE 4)
  s.send a.source ⟨h.encode, padTo 64 body⟩

/-- Acknowledge a PUT: its tag joins those held for its source node and TC; 15 tags go at once. The frame goes to the endpoint of the first
tag, from the agent that served it (log entry 25). -/
def State.ackPut (s : State) (port : Nat) (h : Hdr) : State :=
  let mine (a : AckSet) : Bool := a.node == h.srcNode && a.tc == h.tc
  let old := s.net.acks.find? mine
  let a : AckSet := match old with
    | some a => { a with tags := a.tags ++ [h.seq] }
    | none => ⟨h.srcNode, h.tc, h.srcEp, port, [h.seq], s.now⟩
  let rest := s.net.acks.filter fun a => !mine a
  if 15 ≤ a.tags.length then ({ s with net := { s.net with acks := rest } } : State).sendAck a
  else { s with net := { s.net with acks := rest ++ [a] } }

/-- Held tags are sent once they have waited 1 µs. -/
def State.ackCoalesce (s : State) (node tc at_ : Nat) : State :=
  let due (a : AckSet) : Bool := a.node == node && a.tc == tc && decide (a.since + 1000 ≤ max s.now at_)
  if s.pow.powered && s.net.acks.any due then
    let s := s.at_ at_
    let hits := s.net.acks.filter due
    hits.foldl State.sendAck { s with net := { s.net with acks := s.net.acks.filter fun a => !due a } }
  else s

def execAckCoalesceTimeout (node tc at_ : Nat) (s : State) : Host.Outcome State Fault Refusal := .next (s.ackCoalesce node tc at_)

/-- Answer a request with an ERROR (R243): a contained error. -/
def State.failRequest (s : State) (port : Nat) (h : Hdr) (reason fault : Nat) : State :=
  s.contained.send port (s.errorFrame h reason fault)

/-- A memory agent takes the first request of a kind that waits at its port on a TC. -/
def State.agentFrame (s : State) (port tc kind : Nat) (f : State → Hdr → Frame → State) : State :=
  if s.pow.powered && (port == 0x82 || port == 0x83) then
    match s.take port tc kind with
    | none => s
    | some (h, x, s) => f s h x
  else s

/-- PUT: the data is written, and acknowledged. -/
def State.serverPut (port : Nat) (s : State) (h : Hdr) (f : Frame) : State :=
  let bs := f.payload.take (f.payload.length - h.sop)
  if 2 ^ 40 ≤ h.offset then s.failRequest port h 0x81 0
  else
    match s.memWrite ⟨4, h.srcNode⟩ [(h.offset, bs)] with
    | (s, none) => s.ackPut port h
    | (s, some e) => s.failRequest port h e.cause.code (s.globalOf e.addr)

/-- Would a write of part of [a, a + n) be held for the swap of a comb (R117)? -/
def State.heldForSwap (s : State) (a n : Nat) : Bool :=
  (List.range (n / 8)).any fun k =>
    match progOf (a + 8 * k) with
    | some (c, b) => s.hiveWorks (c / 1024) && decide ((s.comb c).swaps > 0) && (s.comb c).shownB != b
    | none => false

/-- Must the first PUT that waits at a port on a TC wait for the swap of a comb? Its write is accepted once the comb has swapped (R117), and
acknowledged once it has been performed (R79, R236). -/
def State.putWaits (s : State) (port tc : Nat) : Bool :=
  match s.take port tc 1 with
  | some (h, f, _) => s.heldForSwap h.offset (f.payload.length - h.sop)
  | none => false

def execPutFrame (port tc : Nat) (s : State) : Host.Outcome State Fault Refusal :=
  .next (if s.putWaits port tc then s else s.agentFrame port tc 1 (State.serverPut port))

/-- GET: the data returns in one GET DATA frame. R242 gives a GET 1 to 4,096 bytes and no outcome for another count: the model answers it
with an ERROR of reason 0x04 (DESIGN CHOICE, log entry 25). -/
def State.serverGet (port : Nat) (s : State) (h : Hdr) (f : Frame) : State :=
  let ret := numAt f.payload 0 8
  let n := numAt f.payload 8 4
  if n = 0 ∨ 4096 < n then s.failRequest port h 4 0
  else if 2 ^ 40 ≤ h.offset then s.failRequest port h 0x81 0
  else
    match s.memRead ⟨4, h.srcNode⟩ [(h.offset, n)] with
    | (s, .error e) => s.failRequest port h e.cause.code (s.globalOf e.addr)
    | (s, .ok bs) =>
      let body := padTo 64 bs
      s.send port ⟨({ s.responseHdr h 3 (body.length / 64) with sop := body.length - n, offset := ret } : Hdr).encode, body⟩

def execGetFrame (port tc : Nat) (s : State) : Host.Outcome State Fault Refusal :=
  .next (s.agentFrame port tc 2 (State.serverGet port))

/-- ATOMIC: the old value returns. -/
def State.serverAtomic (port : Nat) (s : State) (h : Hdr) (f : Frame) : State :=
  let m := numAt f.payload 0 1
  if !atomicAt h.offset (if bitOf m 2 then 8 else 4) then s.failRequest port h 0x84 (s.globalOf (h.offset % 2 ^ 40))
  else
    match s.atomicHere ⟨4, h.srcNode⟩ h.offset m (numAt f.payload 8 8) (numAt f.payload 16 8) with
    | (s, .error e) => s.failRequest port h e.cause.code (s.globalOf e.addr)
    | (s, .ok old) => s.send port ⟨(s.responseHdr h 5 1).encode, padTo 64 (natLE 8 old)⟩

def execAtomicFrame (port tc : Nat) (s : State) : Host.Outcome State Fault Refusal :=
  .next (s.agentFrame port tc 4 (State.serverAtomic port))

/-- FREE: the result returns. -/
def State.serverFree (port : Nat) (s : State) (h : Hdr) (f : Frame) : State :=
  let r := s.freeHere ⟨4, h.srcNode⟩ (numAt f.payload 0 8)
  r.2.send port ⟨(s.responseHdr h 9 1).encode, padTo 64 [BitVec.ofNat 8 r.1]⟩

def execFreeFrame (port tc : Nat) (s : State) : Host.Outcome State Fault Refusal :=
  .next (s.agentFrame port tc 8 (State.serverFree port))

end Sys2Proof.Machine
end

