-- ==== Sys2Proof/Machine/Failures.lean ====
section
/-! DEFINITION. Combs and hives that fail (R27, R28, R61, R463), and the reset levels below the module: hive and port resets and comb
drains (R372, R437, R438). -/

namespace Sys2Proof.Machine

open Sys2Proof

/-- Is the Swarm powered (R426, R427)? Start-up counts: a move that a reset met is completed during it (R463). -/
def State.swarmOn (s : State) : Bool :=
  s.pow.powered && !s.pow.warmHeld && (s.pow.state == 1 || s.pow.state == 2 || s.pow.startingUp)

/-- Every thread of combs [lo, hi) halts with reason 0x3F (R61, R437). -/
def State.haltCombs (s : State) (lo hi : Nat) : State :=
  let ids := (s.swarm.slots.filter fun e => decide (lo * 256 ≤ e.1) && decide (e.1 < hi * 256) && decide (e.2.status ≠ .empty)).map
    fun e => SlotId.ofKey e.1
  ids.foldl (fun s i => if s.occupied i then s.halt i 0x3F (bankCode (s.comb i.comb).bankB) (s.slot i).upcoming 0 0 else s) s

/-! ## Hives (R28) -/

/-- Threads of accepted launches that have not started on hive `h` never start (R72). -/
def Launch.loseHive (l : Launch) (h : Nat) : Launch :=
  let gone := l.targets.filter fun n => decide (n / 1024 = h) && !l.started.contains n
  { l with started := l.started ++ gone, lost := l.lost + (gone.map fun n => (l.threadsOn n).2).sum }

/-- A memory request for an address of node `n` that lies in hive `h` (R19, R28). -/
def Frame.forHive (f : Frame) (n h : Nat) : Bool :=
  let x := Hdr.of f.header
  isMemRequest x.kind && x.destNode == n && (match place (x.offset % 2 ^ 40) with
    | .near n => n == h
    | .hive n _ => n == h
    | .pad cell _ => cell / 65536 == h
    | _ => false)

/-- The frames in the switch for hive `h` are discarded: those for its port, and requests for its memory at the agents and on their way to
them (R246). -/
def State.dropHive (s : State) (reason h : Nat) : State :=
  let s := (s.dropPort reason (0x40 + h)).dropBridged reason fun q => q.final == 0x40 + h || q.frame.forHive s.node h
  s.dropDeliveredIf reason fun d => d.port == 0x40 + h || ((d.port == 0x82 || d.port == 0x83) && d.frame.forHive s.node h)

/-- Program writes held on combs [lo, hi) are dropped, with the swaps they wait for; BAR2 reads that waited for them go on. -/
def State.dropHeldWrites (s : State) (lo hi : Nat) : State :=
  let ns := (s.swarm.combs.filter fun e => decide (lo ≤ e.1) && decide (e.1 < hi)).map Prod.fst
  (ns.foldl (fun (s : State) n => s.setComb n { s.comb n with heldWrites := [], swaps := 0 }) s).releaseReads

/-- Hive `h` fails (R28, R72, R113, R212, R246, R334). -/
def State.failHive (s : State) (h : Nat) (bySpare : Bool) : State :=
  let s := { s with swarm := { s.swarm with
    hives := s.swarm.hives &&& ~~~ (BitVec.ofNat 16 (2 ^ h))
    hiveFailedBySpare := if bySpare then s.swarm.hiveFailedBySpare ||| BitVec.ofNat 16 (2 ^ h) else s.swarm.hiveFailedBySpare } }
  let s := s.haltCombs (h * 1024) (h * 1024 + 1024)
  let s := { s with swarm := { s.swarm with launches := s.swarm.launches.map fun l => l.loseHive h } }
  let s := (List.range 16).foldl (fun (s : State) p =>
    let q := s.pool p
    if q.enabled && decide (q.base < (h + 1) * 0x80000000) && decide (h * 0x80000000 < q.base + q.count * q.size) then s.faultPool p
    else s) s
  let s := (s.dropHive 6 h).dropHeldWrites (h * 1024) (h * 1024 + 1024)
  (((s.hiveCollectives h).contained).postEvent 0x23 4 h).updateService

def State.hiveFailure (s : State) (h : Nat) : State :=
  if s.pow.powered && s.hiveWorks h then s.failHive h false else s

def execHiveFailure (hive : Nat) (s : State) : Host.Outcome State Fault Refusal := .next (s.hiveFailure hive)

/-! ## Combs (R27, R61, R463) -/

/-- A physical comb fails: a mapped one loses its threads, so that a drain of it ends at once (R438, R478), and awaits its move; with no spare
left its hive fails. -/
def State.failComb (s : State) (n : Nat) : State :=
  let h := n / 1024
  let p := s.physicalOf n
  let none_ := decide (32 ≤ s.failedIn h)
  let s := s.contained.postEvent 0x22 2 (n + p * 2 ^ 16)
  let s := s.haltCombs n (n + 1)
  let s := { s with swarm := { s.swarm with failedCombs := SMap.put false s.swarm.failedCombs (h * 2048 + p) true } }
  if none_ then s.failHive h true
  else (s.setComb n { s.comb n with movePending := true, drained := (s.comb n).draining }).updateService

def State.combFailure (s : State) (n : Nat) : State :=
  if s.swarmOn && decide (n < 16384) && s.hiveWorks (n / 1024) && !(s.comb n).movePending then s.failComb n else s

def execCombFailure (comb : Nat) (s : State) : Host.Outcome State Fault Refusal := .next (s.combFailure comb)

/-- Does physical comb `p` of hive `h` carry a logical comb? -/
def State.combMapped (s : State) (h p : Nat) : Bool := (List.range 1024).any fun i => decide (s.physicalOf (h * 1024 + i) = p)

/-- The near store of a comb: 2 MiB (R22). -/
def combBase (n : Nat) : Nat := n * 0x200000

/-- Comb `n` moves to spare physical comb `p` (R27): its near store is copied; if a word of it is uncorrectable the whole range becomes
zero and the loss is recorded. Nothing else of the move can be seen: the pads of its cells keep their contents (R27; DEDUCED, log entry 4). -/
def State.moveComb (s : State) (n p : Nat) : State :=
  let h := n / 1024
  let old := s.physicalOf n
  let lo := combBase n
  let lost := SMap.anyIn s.mem.poison lo (lo + 0x200000) id
  let s := { s with swarm := { s.swarm with combMap := SMap.put none s.swarm.combMap n (some p) } }
  let s := s.setComb n { s.comb n with movePending := false }
  let detail := n + old * 2 ^ 16 + p * 2 ^ 32 + s.sparesIn h * 2 ^ 48
  let s := if lost then
      let s := { s with mem := { s.mem with
        bytes := SMap.clearRange s.mem.bytes lo (lo + 0x200000)
        soft := SMap.clearRange s.mem.soft lo (lo + 0x200000)
        poison := SMap.clearRange s.mem.poison lo (lo + 0x200000) } }
      s.contained.postEvent 0x21 2 detail
    else s.postEvent 0x20 0 detail
  s.updateService

/-- A pending move is performed, onto a spare that is unmapped and has not failed. -/
def State.combMove (s : State) (n p : Nat) : State :=
  if s.swarmOn && decide (n < 16384) && s.hiveWorks (n / 1024) && (s.comb n).movePending && s.combEmpty n && decide (p < 1056)
      && !s.combFailed (n / 1024) p && !s.combMapped (n / 1024) p then s.moveComb n p
  else s

def execCombMove (comb spare : Nat) (s : State) : Host.Outcome State Fault Refusal := .next (s.combMove comb spare)

/-! ## Comb drain (R438) -/

/-- A write of 9010.04, reserved bits ignored; none: refused, the range lies outside the combs. -/
def State.writeDrain (s : State) (v : Nat) : Option State :=
  let first := fieldOf 13 0 v
  let count := fieldOf 28 14 v
  let drain := bitOf v 32
  if count = 0 ∨ 16384 < first + count then none
  else
    let s := { s with swarm := { s.swarm with drainRange := (first, count) } }
    some ((List.range count).foldl (fun (s : State) k =>
      s.setComb (first + k) { s.comb (first + k) with draining := drain, drained := false }) s)

/-- What 9010.04 reads: bit 0 says that every comb of the last range is drained. -/
def State.drainStatus (s : State) : Nat :=
  let r := s.swarm.drainRange
  b2n (decide (r.2 ≠ 0) && (List.range r.2).all fun k => (s.comb (r.1 + k)).drained)

/-- A comb that is being drained has no occupied slot left. -/
def State.combDrained (s : State) (n : Nat) : State :=
  let c := s.comb n
  if s.pow.powered && decide (n < 16384) && c.draining && !c.drained && s.combEmpty n then s.setComb n { c with drained := true } else s

def execCombDrained (comb : Nat) (s : State) : Host.Outcome State Fault Refusal := .next (s.combDrained comb)

/-! ## Hive reset (R437, R440) -/

/-- Writes held for a bank that a reset meets are performed whole or not at all, 16 B at a time (R440): a free choice. -/
def State.settleWrites (s : State) (n : Nat) : State :=
  let c := s.comb n
  if c.heldWrites.isEmpty then s
  else
    let base := s.freeCtr
    let s := { s with freeCtr := s.freeCtr + 2 ^ 40 }
    c.heldWrites.foldl (fun (s : State) w => if Config.freeNat (base + w.1 / 16) % 2 = 0 then s else s.storePiece w.1 w.2) s

/-- A comb after a reset that reaches it: bank A active, no swap left, its pads lost; a drain and a move awaited stand. -/
def State.resetComb (s : State) (n : Nat) : State :=
  let s := s.settleWrites n
  let c := s.comb n
  s.setComb n { draining := c.draining, drained := c.drained, movePending := c.movePending, idleSince := s.now }

/-- Every comb of [lo, hi) that differs from its state at start-up; BAR2 reads that waited for writes held there go on. -/
def State.resetCombs (s : State) (lo hi : Nat) : State :=
  (((s.swarm.combs.filter fun e => decide (lo ≤ e.1) && decide (e.1 < hi)).map Prod.fst).foldl State.resetComb s)

/-- 9010.07: resets of kind 0 cold, 1 warm, 2 hive, 3 port. -/
def State.countReset (s : State) (kind : Nat) : State :=
  let v := s.reg 0x901007
  s.setReg 0x901007 (setField v (32 * kind) 32 (satAdd 32 (fieldOf (32 * kind + 31) (32 * kind) v) 1))

/-- The frames of a port's reset scope are discarded (R246, R267): those that wait at it or are bound for it, those delivered at it, and
those its reorder rules hold. -/
def State.resetPortFrames (s : State) (p : Nat) : State :=
  (((s.dropPort 0x0D p).dropBound 0x0D p).dropDelivered 0x0D p).dropReorders 0x0D p

/-- A write of 9010.02; none: refused. -/
def State.hiveReset (s : State) (h : Nat) : Option State :=
  if 16 ≤ h then none
  else
    let s := s.haltCombs (h * 1024) (h * 1024 + 1024)
    let s := s.resetPortFrames (0x40 + h)
    let s := s.hiveCollectives h
    some ((s.resetCombs (h * 1024) (h * 1024 + 1024)).releaseReads.losePadsOf h |>.countReset 2)

/-! ## The host port (R372, R394) -/

/-- The rest of the data of a DMA that is abandoned is undefined (R372): host memory, or what of its destination lies on this module. -/
def State.abandonDma (s : State) (x : Entry) : State :=
  if x.result.isSome then s
  else if entryOp x.bytes = 2 then let r := s.drawBytes x.left; r.2.setHostBytes (x.host + x.moved) r.1
  else if entryOp x.bytes = 1 then
    s.scribble (((splitNode (x.global_ + x.moved) x.left).filter fun g => decide (nodeOf g.1 = s.node)).map fun g => (localOf g.1, g.2))
  else s

def TagOwner.ofHost : TagOwner → Bool
  | .dma _ _ | .bar2Read | .bar2Write | .entryFree _ _ => true
  | _ => false

/-- Port 0x50 is reset: queue pairs, window base and MSI-X table return to their reset values, entries in progress are abandoned, frames
for host queue pairs are discarded, and roles raised by the host lapse. The configuration space is reset, but for the AER status. -/
def State.hostReset (s : State) : State :=
  let mine := s.net.tags.filterMap fun e =>
    match e.2 with
    | some t => if t.owner.ofHost then some e.1 else none
    | none => none
  let s := (s.host.pairs.flatMap fun e => e.2.entries).foldl State.abandonDma (mine.foldl State.dropTag s)
  let s := s.resetPortFrames 0x50
  let lapse (c : CtxState) : CtxState :=
    match c.ctx with
    | .bar0 | .qp _ => { c with role := 0 }
    | _ => c
  let keep (j : Job) : Bool :=
    match j.carrier with
    | .window | .entry .. => false
    | .management .. | .vdp .. | .hubRom => true
  { s with
    host := { s.host with
      pairs := s.host.pairs.foldl (fun m (e : Nat × QueuePair) => SMap.put {} m e.1 { nextEntry := e.2.nextEntry }) []
      windowBase := 0, msixTable := [], msixPending := [], reads := [], readsHeld := [], writesWaiting := [], goBusy := false, inL1 := false,
      pci := { errors := s.host.pci.errors }, lastTlp := s.now }
    dict := { s.dict with contexts := s.dict.contexts.map lapse, forwarded := [], jobs := s.dict.jobs.filter keep } }

/-- A link trains at a speed and width that R356 gives; others leave it as it was. -/
def State.pcieTrain (s : State) : HostResetCause → State
  | .linkDown speed width =>
    if 1 ≤ speed ∧ speed ≤ 5 ∧ [1, 2, 4, 8, 16].contains width then { s with host := { s.host with speed := speed, width := width } } else s
  | .flr | .hotReset => s

/-- FLR, a hot reset and a link-down event reset the host port. -/
def execHostPortReset (cause : HostResetCause) (s : State) : Host.Outcome State Fault Refusal :=
  .next (if s.pow.powered then (s.hostReset.countReset 3).pcieTrain cause else s)

/-! ## Port reset (R437) -/

/-- A link goes to disabled and then to dark, with fresh credits and sequences; a lost link is lost no more. The frames on its port are
discarded (R246, R440). -/
def State.resetLink (s : State) (l : Nat) : State :=
  if !s.linkExists l then s
  else
    let s := (s.resetPortFrames l).disableLink l
    let s := s.mapLink l fun k => { k with
      granted := [], charged := [], given := [], arrived := [], awaiting := false
      nextSeq := if k.handover then k.nextSeq else 0, expected := if k.handover then k.expected else 0 }
    (if s.portEnabled (l / 2) then s.darken l else s).updateService

/-- A write of 9010.03; none: refused. -/
def State.portReset (s : State) (p : Nat) : Option State :=
  if 0x50 < p then none
  else
    let s := s.countReset 3
    if p < 0x40 then some (s.resetLink p)
    else if p < 0x50 then some (s.resetPortFrames p)
    else some s.hostReset

end Sys2Proof.Machine
end

