-- ==== Sys2Proof/Machine/HostQueues.lean ====
section
/-! DEFINITION. The host interface: the window base (R360), queue pairs and doorbells (R361–R363), submission entries (R364–R366),
completion entries and interrupts (R367, R368, R370), received frames (R369), L1 (R373). -/

namespace Sys2Proof.Machine

open Sys2Proof

/-- A remote read unanswered for 5 ms: its GETs are out, or it is still held. -/
def State.bar2Timeout (s : State) (tag at_ : Nat) : State :=
  let late (arrived : Nat) : Bool := s.pow.powered && decide (arrived + 5000000 ≤ max s.now at_)
  match s.readOf tag, s.host.readsHeld.find? fun r => r.tag == some tag with
  | some r, _ => if late r.arrived then ((((s.at_ at_).dropRead r).barFault .completerAbort).complete .abort).tlp else s
  | none, some r =>
    if late r.arrived then
      let s := (s.at_ at_).dropTag tag
      (((({ s with host := { s.host with readsHeld := s.host.readsHeld.erase r } } : State).barFault .completerAbort).complete .abort)).tlp
    else s
  | none, none => s

def execBar2RemoteReadTimeout (tag at_ : Nat) (s : State) : Host.Outcome State Fault Refusal := .next (s.bar2Timeout tag at_)

/-- Window base bits [63:30]; the others are reserved. -/
def State.writeWindow (s : State) (v : W64) : State :=
  if s.hostUp then
    let s := s.tlp
    { s with host := { s.host with windowBase := BitVec.ofNat 64 (v.toNat / 2 ^ 30 * 2 ^ 30) } }
  else s

def execWindowBaseWrite (v : W64) (s : State) : Host.Outcome State Fault Refusal := .next (s.writeWindow v)

/-! ## Queue pairs (R361–R363) -/

namespace QueuePair

def fld (p : QueuePair) (hi lo : Nat) : Nat := fieldOf hi lo p.config.toNat
def sqBase (p : QueuePair) : Nat := p.fld 511 448
def cqBase (p : QueuePair) : Nat := p.fld 447 384
def sqSize (p : QueuePair) : Nat := 2 ^ (p.fld 383 380 + 4)
def cqSize (p : QueuePair) : Nat := 2 ^ (p.fld 379 376 + 4)
def vector (p : QueuePair) : Nat := p.fld 375 365
def pool (p : QueuePair) : Nat := p.fld 361 358

/-- A slot of the CQ is released. -/
def cqFree (p : QueuePair) : Bool := decide (p.cqUsed < p.cqSize)

end QueuePair

/-- A write of pair `q`'s register (R361, R362). -/
def State.writePair (s : State) (q : Nat) (v : Nat) : State :=
  let p := s.pair q
  let cfg := v / 2 ^ 358 * 2 ^ 358
  let new : QueuePair := { config := BitVec.ofNat 512 cfg, nextEntry := p.nextEntry }
  let bad := decide (new.sqBase % 4096 ≠ 0) || decide (new.cqBase % 4096 ≠ 0) || decide (12 < new.fld 383 380) || decide (12 < new.fld 379 376)
    || (new.receive && decide ((s.pool new.pool).state ≠ 1))
  if p.state = 3 then s
  else if p.state = 1 ∨ p.state = 2 then
    if bitOf v 364 then s
    else
      s.setPair q { p with config := BitVec.ofNat 512 (setField p.config.toNat 364 1 0), state := 3, sqTail := p.head, latched := none }
  else if !bitOf v 364 then s.setPair q { p with config := BitVec.ofNat 512 cfg }
  else if bad then s.setPair q { p with fault := 3 }
  else s.setPair q { new with state := 1 }

def State.pairRow (s : State) (q : Nat) (f : State → State) : State := if s.hostUp && decide (q < 256) then f s.tlp else s

def execQueuePairEnable (q : Nat) (v : W512) (s : State) : Host.Outcome State Fault Refusal :=
  .next (s.pairRow q fun s => s.writePair q v.toNat)

def execQueuePairDisable (q : Nat) (s : State) : Host.Outcome State Fault Refusal :=
  .next (s.pairRow q fun s => s.writePair q (setField (s.pair q).config.toNat 364 1 0))

/-- A draining pair whose started entries have completed is disabled; a faulted one writes no CQ entry (R363). -/
def State.pairDrained (s : State) (q : Nat) : State :=
  let p := s.pair q
  let done := if p.fault = 0 then p.entries.isEmpty else p.entries.all fun x => x.result.isSome
  if s.pow.powered ∧ q < 256 ∧ p.state = 3 ∧ done then s.setPair q { p with state := 0, entries := [] } else s

def execQueuePairDrained (q : Nat) (s : State) : Host.Outcome State Fault Refusal := .next (s.pairDrained q)

/-- An SQ tail takes effect (R363). -/
def State.setTail (s : State) (q tail : Nat) : State :=
  let p := s.pair q
  if p.state ≠ 1 then s
  else if p.sqSize ≤ tail then s.setPair q { p with state := 2, fault := 1 }
  else s.setPair q { p with sqTail := tail }

/-- In DORMANT and on the way back the write is latched (R373). -/
def State.tailDoorbell (s : State) (q : Nat) (v : Nat) : State :=
  let t := v % 65536
  if s.pow.state = 3 ∨ s.pow.state = 4 then s.setPair q { s.pair q with latched := some t } else s.setTail q t

def execSqTailDoorbell (q : Nat) (v : W64) (s : State) : Host.Outcome State Fault Refusal :=
  .next (s.pairRow q fun s => s.tailDoorbell q v.toNat)

/-- Doorbells latched in DORMANT take effect. -/
def State.releaseDoorbells (s : State) : State :=
  (s.host.pairs.map Prod.fst).foldl (fun (s : State) q =>
    match (s.pair q).latched with
    | some t => (s.setPair q { s.pair q with latched := none }).setTail q t
    | none => s) s

/-- A CQ head releases the entries below it. -/
def State.headDoorbell (s : State) (q : Nat) (v : Nat) : State :=
  let p := s.pair q
  let h := v % 65536
  if p.state = 0 then s
  else
    let n := (h + p.cqSize - p.cqHead % p.cqSize) % p.cqSize
    s.setPair q { p with cqHead := h, cqUsed := p.cqUsed - n }

def execCqHeadDoorbell (q : Nat) (v : W64) (s : State) : Host.Outcome State Fault Refusal :=
  .next (s.pairRow q fun s => s.headDoorbell q v.toNat)

/-! ## Submission entries (R364, R365) -/

/-- The bytes an opcode uses from byte 8 on, as (from, to) of what is reserved. -/
def entryReserved (op : Nat) : List Seg :=
  if op = 0 then [(8, 56)]
  else if op = 1 ∨ op = 2 ∨ op = 5 then [(28, 36)]
  else if op = 3 then [(8, 24)]
  else if op = 4 ∨ op = 6 then [(16, 48)]
  else []

def entryLegal (bs : List Byte) : Bool :=
  decide (entryOp bs ≤ 6) && decide (entryFlags bs < 4) && numAt bs 2 2 == 0 && (entryReserved (entryOp bs)).all fun g => numAt bs g.1 g.2 == 0

/-- Ready for a new entry of pair `q` (R363, R365, R427)? -/
def State.canStart (s : State) (q : Nat) : Bool :=
  let p := s.pair q
  s.hostUp && decide (q < 256) && s.pow.state == 1 && p.state == 1 && decide (p.head ≠ p.sqTail)
    && decide (p.cqUsed + (p.entries.filter fun x => x.result.isSome).length < p.cqSize)

/-- The bytes of the next entry. -/
def State.nextEntryBytes (s : State) (q : Nat) : List Byte := s.hostBytes ((s.pair q).sqBase + (s.pair q).head * 64) 64

/-- Take the next entry of a pair: it is now started, under its number. -/
def State.takeEntry (s : State) (q left : Nat) : Nat × State :=
  let p := s.pair q
  let x : Entry := ⟨p.nextEntry, s.nextEntryBytes q, left, none⟩
  (p.nextEntry, s.setPair q { p with
    head := (p.head + 1) % p.sqSize, entries := p.entries ++ [x], nextEntry := p.nextEntry + 1 })

/-- Must the next entry of pair `q` wait for the entries before it (R365)? A DMA to the module has not completed while a write is held. -/
def State.fenced (s : State) (q : Nat) : Bool :=
  bitOf (entryFlags (s.nextEntryBytes q)) 0
    && (s.pair q).entries.any fun x => x.result.isNone || (entryOp x.bytes == 1 && s.writesHeld)

/-- Start the next entry of pair `q` when its opcode is `op`: a malformed one ends at once with status 0x10, the others do `f`. -/
def State.startEntry (s : State) (q : Nat) (op : Nat → Bool) (f : State → Nat → List Byte → State) : State :=
  let bs := s.nextEntryBytes q
  if !s.canStart q ∨ !op (entryOp bs) ∨ s.fenced q then s
  else
    let r := s.tlp.takeEntry q 0
    if entryLegal bs then f r.2 r.1 bs else r.2.endEntry q r.1 0x10 0

/-- An entry not listed in R365 is completed by this row too. -/
def execSqNop (q : Nat) (s : State) : Host.Outcome State Fault Refusal :=
  .next (s.startEntry q (fun op => op == 0 || decide (6 < op)) fun s e _ => s.endEntry q e 0 0)

/-! ## TLPs (R356, R366) -/

/-- Cut `len` bytes from address `a` into parts of at most `m` bytes that cross no 4 KiB boundary: offset and length of each. -/
def tlpsOf (m : Nat) : Nat → Nat → Nat → Nat → List Seg
  | 0, _, _, _ => []
  | fuel + 1, a, off, len =>
    if len = 0 then []
    else
      let n := min (min m len) (4096 - (a + off) % 4096)
      (off, n) :: tlpsOf m fuel a (off + n) (len - n)

/-- The parts of a transfer of `len` bytes with host address `a`. -/
def hostTlps (m a len : Nat) : List Seg := tlpsOf m (len / m + len / 4096 + 2) a 0 len

/-- The Max Payload Size, of which 512 B is the largest supported, and the largest read request (R356). -/
def State.maxPayload (s : State) : Nat := 128 * 2 ^ min 2 s.host.pci.maxPayload
def State.maxRead (s : State) : Nat := 128 * 2 ^ min 5 s.host.pci.maxRead

/-- The module reads host memory: the bytes; the TLPs of the request are `State.tlp`. -/
def State.hostRead (s : State) (a n : Nat) : List Byte := (hostTlps s.maxRead a n).flatMap fun p => s.hostBytes (a + p.1) p.2

/-- The module writes host memory. -/
def State.hostWrite (s : State) (a : Nat) (bs : List Byte) : State :=
  (hostTlps s.maxPayload a bs.length).foldl (fun (s : State) p => s.tlp.setHostBytes (a + p.1) (slice bs p.1 p.2)) s

/-! ## DMA (R366, R368) -/

/-- An entry ends with an error of R368: a contained error. -/
def State.failEntry (s : State) (q e status detail : Nat) : State :=
  s.contained.endEntry q e status detail

/-- The status of a failed local access. -/
def MemCause.dmaStatus : MemCause → Nat
  | .data => 0x12
  | .refused => 0x14
  | _ => 0x11

/-- The first piece of a program-store write of `n` bytes at `a` that meets an active bank. -/
def State.refusedPiece (s : State) (a n : Nat) : Option Nat :=
  ((List.range (n / 8)).map fun i => a + 8 * i).find? fun x =>
    match progOf x with
    | some (c, b) => (s.comb c).shownB == b
    | none => false

/-- How many bytes before a failing offset have been moved: a free number. -/
def State.movedBytes (s : State) (n : Nat) : Nat × State :=
  let d := s.draw
  (d.1 % (n + 1), d.2)

/-- Write DMA data at a local address; the failing address and its cause where it fails. Of what lies before it a free number of bytes is
moved, none after it (R368). -/
def State.dmaWrite (s : State) (q a : Nat) (bs : List Byte) : State × Option MemErr :=
  let who : Requester := ⟨2, q⟩
  let fault := s.firstWriteFault [(a, bs.length)] [(a, bs.length)]
  let refused := if (fault.map MemErr.cause) = some .rights then none else s.refusedPiece a bs.length
  match (match fault, refused with
    | some e, some r => if e.addr ≤ r then some e else some ⟨.refused, r⟩
    | none, some r => some ⟨.refused, r⟩
    | f, none => f) with
  | none => ((s.memWrite who [(a, bs)]).1, none)
  | some e =>
    let s := if e.cause = .refused then s.bump 0x202003 else s.accessFailed who e 1
    let m := s.movedBytes (e.addr - a)
    let n := if (progOf a).isSome then m.1 / 8 * 8 else m.1
    let w : WSeg := (a, bs.take n)
    let s := if (m.2.firstWriteFault [WSeg.seg w] [WSeg.seg w]).isNone then (m.2.storeSeg w).2 else m.2
    (s, some e)

/-- Read DMA data at a local address. -/
def State.dmaRead (s : State) (q a n : Nat) : State × List Byte × Option MemErr :=
  let who : Requester := ⟨2, q⟩
  match s.firstReadFault [(a, n)] with
  | none =>
    let r := s.memRead who [(a, n)]
    (r.1, r.2.toOption.getD [], none)
  | some e =>
    let m := (s.accessFailed who e 0).movedBytes (e.addr - a)
    let r := m.2.memRead who [(a, m.1)]
    (r.1, r.2.toOption.getD [], some e)

/-- `n` more bytes of a DMA have been moved. -/
def State.dmaMoved (s : State) (q e n : Nat) : State :=
  let p := s.pair q
  s.setPair q { p with entries := p.entries.map fun x => if x.id = e then { x with left := x.left - n } else x }

/-- Go on with a DMA: the part that lies here at once, and one request at a time to another node, so that nothing beyond a failing
address is moved. The fuel bounds the nodes it meets. -/
def State.dmaRun (s : State) (q e : Nat) : Nat → State
  | 0 => s
  | fuel + 1 =>
    match s.entry? q e with
    | none => s
    | some x =>
      let toModule := entryOp x.bytes == 1
      let t := if toModule then s.tlp else s
      let a := x.global_ + x.moved
      let h := x.host + x.moved
      if x.result.isSome then s
      else if x.left = 0 then s.endEntry q e 0 0
      else if 2 ^ 64 ≤ a ∨ !s.nodeValid (nodeOf a) then s.failEntry q e 0x11 (a % 2 ^ 64)
      else
        let n := min x.left (2 ^ 40 - localOf a)
        if nodeOf a = s.node then
          let r := if toModule then t.dmaWrite q (localOf a) (s.hostRead h n)
            else let d := s.dmaRead q (localOf a) n; (d.1.hostWrite h d.2.1, d.2.2)
          match r.2 with
          | some er => r.1.failEntry q e er.cause.dmaStatus (s.globalOf er.addr)
          | none => State.dmaRun (r.1.dmaMoved q e n) q e fuel
        else
          let tag : Tag := { plainTag (.dma q e) 5 with here := some h }
          let k := min n (4096 - (if toModule then localOf a else h) % 4096)
          if toModule then t.sendPut (Origin.queuePair q) tag (nodeOf a) (localOf a) 0 (s.hostRead h k)
          else s.sendGet (Origin.queuePair q) tag (nodeOf a) (localOf a) h k

/-- Start a DMA; a length of 0 is not among those of R365. -/
def State.startDma (s : State) (q e : Nat) (bs : List Byte) : State :=
  let n := numAt bs 24 4
  if n = 0 then s.endEntry q e 0x10 0
  else
    let p := s.pair q
    let s := s.setPair q { p with entries := p.entries.map fun x => if x.id = e then { x with left := n } else x }
    s.dmaRun q e 4

def execSqDmaToModule (q : Nat) (s : State) : Host.Outcome State Fault Refusal :=
  .next (s.startEntry q (· == 1) fun s e bs => s.startDma q e bs)

def execSqDmaToHost (q : Nat) (s : State) : Host.Outcome State Fault Refusal :=
  .next (s.startEntry q (· == 2) fun s e bs => s.startDma q e bs)

/-! ## LAUNCH, POST and FREE -/

def execSqLaunch (q : Nat) (s : State) : Host.Outcome State Fault Refusal :=
  .next (s.startEntry q (· == 3) fun s e bs => s.postLaunch (BitVec.ofNat 256 (numAt bs 32 32)) (.entry q e))

/-- A POST reads its record, 64 B aligned in the near store or HBM of this module (R313). -/
def State.startPost (s : State) (q e : Nat) (bs : List Byte) : State :=
  let a := numAt bs 8 8
  if nodeOf a ≠ s.node ∨ a % 64 ≠ 0 ∨ !plainRegion (localOf a) 64 then s.failEntry q e 0x11 a
  else
    match s.memRead ⟨2, q⟩ [(localOf a, 64)] with
    | (s, .error er) => s.failEntry q e er.cause.dmaStatus (s.globalOf er.addr)
    | (s, .ok rec) => (s.postCollective (BitVec.ofNat 512 (leNat rec)) (some (q, e))).2

def execSqPost (q : Nat) (s : State) : Host.Outcome State Fault Refusal :=
  .next (s.startEntry q (· == 4) fun s e bs => s.startPost q e bs)

/-- A FREE of a buffer here, or of one on another node (R211). -/
def State.startFree (s : State) (q e : Nat) (bs : List Byte) : State :=
  let a := numAt bs 8 8
  if a = 0 ∨ nodeOf a = s.node ∨ !s.nodeValid (nodeOf a) then
    let r := s.freeHere ⟨2, q⟩ a
    r.2.endEntry q e 0 r.1
  else s.sendFree (Origin.queuePair q) (plainTag (.entryFree q e) 5) a

def execSqFree (q : Nat) (s : State) : Host.Outcome State Fault Refusal :=
  .next (s.startEntry q (· == 6) fun s e bs => s.startFree q e bs)

/-! ## Completion entries (R367, R370) -/

/-- Write a CQ entry in the next slot; the phase flips with each pass. -/
def State.writeCq (s : State) (q word status kind detail : Nat) (interrupt : Bool) : State :=
  let p := s.pair q
  let bs := natLE 4 word ++ [BitVec.ofNat 8 status, BitVec.ofNat 8 (b2n p.phase * 128 + kind)] ++ natLE 2 p.head ++ natLE 8 detail
  let s := s.hostWrite (p.cqBase + p.tail * 16) bs
  let t := (p.tail + 1) % p.cqSize
  let s := s.setPair q { p with tail := t, cqUsed := p.cqUsed + 1, phase := if t = 0 then !p.phase else p.phase }
  if interrupt then s.sendMsix p.vector else s

/-- A started entry that has ended gets its CQ entry; the writes of a DMA, whatever its status, must have been performed (R366). -/
def State.entryComplete (s : State) (q e : Nat) : State :=
  let p := s.pair q
  match p.entries.find? fun x => x.id == e with
  | none => s
  | some x =>
    match x.result with
    | none => s
    | some (status, detail) =>
      if s.hostUp ∧ (p.state = 1 ∨ (p.state = 3 ∧ p.fault = 0)) ∧ p.cqFree ∧ ¬ (entryOp x.bytes = 1 ∧ s.writesHeld) then
        let s := s.setPair q { p with entries := p.entries.filter fun y => y.id != e }
        s.writeCq q (numAt x.bytes 4 4) status 0 detail (!bitOf (entryFlags x.bytes) 1)
      else s

def execSqEntryComplete (q entry : Nat) (s : State) : Host.Outcome State Fault Refusal := .next (s.entryComplete q entry)

/-- What the module reports of a read that fails (R371). -/
def readReport : HostReadFailure → AerReport
  | .timeout => .completionTimeout
  | .unsupported => .unsupportedRequest
  | .abort => .completerAbort
  | .poisoned => .poisoned

/-- Bytes of a DMA to another node that have been read, and are on their way. -/
def State.dmaSent (s : State) (q e : Nat) : Nat :=
  (s.net.tags.map fun t =>
    match t.2 with
    | some g => if g.owner = .dma q e then g.count else 0
    | none => 0).sum

/-- A read of host memory has had no completion for 50 ms, or one that is UR, CA or poisoned (R368, R371): of a DMA in progress, the first
byte not yet read; or of the next entry of its pair, where either the entry itself (fault 0x02) or, once it may start, the data it names was
read: a free choice. -/
def State.hostReadFails (s : State) (q e at_ : Nat) (how : HostReadFailure) : State :=
  let p := s.pair q
  if !s.hostUp then s
  else
    match s.entry? q e with
    | some x =>
      let next := x.moved + s.dmaSent q e
      if x.result.isSome ∨ entryOp x.bytes ≠ 1 ∨ x.length ≤ next then s
      else
        let mine := s.net.tags.filterMap fun t =>
          match t.2 with
          | some g => if g.owner = .dma q e then some t.1 else none
          | none => none
        ((mine.foldl State.dropTag (s.at_ at_)).aer (readReport how)).failEntry q e 0x13 (x.host + next)
    | none =>
      if e ≠ p.nextEntry ∨ !s.canStart q then s
      else
        let bs := s.nextEntryBytes q
        let d := ((s.at_ at_).aer (readReport how)).draw
        let n := numAt bs 24 4
        if (entryOp bs = 5 ∨ (entryOp bs = 1 ∧ n ≠ 0)) ∧ entryLegal bs ∧ !s.fenced q ∧ d.1 % 2 = 1 then
          let r := d.2.takeEntry q 0
          let a := numAt bs 16 8
          let here := entryOp bs = 1 ∧ nodeOf a = s.node
          let m := r.2.movedBytes (if here then n - 1 else 0)
          let w := if here then
              (m.2.dmaWrite q (localOf a) (m.2.hostRead (numAt bs 8 8) m.1)).1
            else m.2
          w.failEntry q e 0x13 (numAt bs 8 8 + m.1)
        else d.2.setPair q { p with state := 2, fault := 2 }

def execHostReadCompletionTimeout (q entry : Nat) (at_ : HostReadEnd) (s : State) : Host.Outcome State Fault Refusal :=
  .next (s.hostReadFails q entry at_.at_ at_.how)

/-! ## Received frames (R369) -/

def isReceived (h : Hdr) (_ : Frame) : Bool := h.kind == 0x10 || h.kind == 0x50

/-- Discard a delivered frame for want of a buffer or slot. -/
def State.discardReceived (s : State) (d : Delivered) : State :=
  ((s.consume d).logDiscard 6 d.ingress d.port d.frame.header).bump 0x104003

/-- Does the pair of an endpoint take a frame of this kind? -/
def QueuePair.takes (p : QueuePair) (kind : Nat) : Bool :=
  p.state == 1 && (if kind = 0x50 then p.mirror else p.receive)

/-- A frame waits for buffer and slot: it holds back the host port's credit on its channel. -/
def State.holdReceived (s : State) (d : Delivered) : State :=
  { s with net := { s.net with rx := s.net.rx.map fun x => if x = d then { x with waiting := true } else x } }

/-- The first frame for a host queue pair on a TC is placed in a buffer, or discarded; on a lossless TC it waits for buffer and slot. -/
def State.hostReceive (s : State) (tc : Nat) : State :=
  if !(s.hostUp && s.pow.state != 3 && s.pow.state != 5) then s
  else
    match s.rxFind 0x50 tc isReceived with
    | none => s
    | some d =>
      let h := Hdr.of d.frame.header
      let q := h.destEp % 256
      let p := s.pair q
      if !p.takes h.kind then (s.consume d).logDiscard 6 d.ingress d.port d.frame.header
      else if !p.cqFree then (if s.bestEffort tc then s.discardReceived d else s.holdReceived d)
      else
        let b := s.alloc p.pool
        let n := d.frame.payload.length
        if b.1 = 0 then (if s.bestEffort tc then b.2.discardReceived d else b.2.holdReceived d)
        else if b.2.bufferSize b.1 < 64 + n then
          ((b.2.freeHere ⟨2, q⟩ b.1).2.consume d).logDiscard 6 d.ingress d.port d.frame.header
        else
          match b.2.memWrite ⟨5, 0⟩ [(localOf b.1, natLE 32 d.frame.header.toNat), (localOf b.1 + 64, d.frame.payload)] with
          | (s, none) => (s.consume d).writeCq q n 0 1 b.1 true
          | (s, some _) => ((s.freeHere ⟨2, q⟩ b.1).2.consume d).logDiscard 6 d.ingress d.port d.frame.header

def execHostReceiveFrame (tc : Nat) (s : State) : Host.Outcome State Fault Refusal := .next (s.hostReceive tc)

/-- Is there no slot or no buffer for a received frame that its pair takes (R369)? -/
def State.noPlace (s : State) (d : Delivered) : Bool :=
  let h := Hdr.of d.frame.header
  let p := s.pair (h.destEp % 256)
  p.takes h.kind && (!p.cqFree || (s.alloc p.pool).1 == 0)

/-- A lossless frame that has waited 1 ms and still has no buffer or slot is discarded. -/
def State.receiveTimeout (s : State) (tc at_ : Nat) : State :=
  match s.rxFind 0x50 tc isReceived with
  | none => s
  | some d =>
    if s.hostUp ∧ !s.bestEffort tc ∧ s.noPlace d ∧ d.since + 1000000 ≤ max s.now at_ then (s.at_ at_).discardReceived d else s

def execHostReceiveTimeout (tc at_ : Nat) (s : State) : Host.Outcome State Fault Refusal := .next (s.receiveTimeout tc at_)

/-! ## L1 (R373) -/

/-- 16 µs without a TLP in either direction, where the host has enabled ASPM L1. -/
def State.enterL1 (s : State) (at_ : Nat) : State :=
  if s.hostUp ∧ s.host.pci.aspmL1 ∧ !s.host.inL1 ∧ s.host.lastTlp + 16000 ≤ max s.now at_ then
    let s := s.at_ at_
    { s with host := { s.host with inL1 := true } }
  else s

def execPcieL1Entry (at_ : Nat) (s : State) : Host.Outcome State Fault Refusal := .next (s.enterL1 at_)

end Sys2Proof.Machine
end

