-- ==== Sys2Proof/Machine/Responses.lean ====
section
/-! DEFINITION. Answers to the module's own memory requests (R242, R243): GET DATA, ATOMIC RESULT, ACK, ERROR and FREE RESULT frames, and
what each requester does with them (R25, R202, R275, R359, R365, R494). An answer that no outstanding request matches is consumed
without effect (log entry 25). -/

namespace Sys2Proof.Machine

open Sys2Proof

/-- Take the first delivered answer of a kind. -/
def State.answerFrame (s : State) (port tc kind : Nat) (f : State → Hdr → Frame → State) : State :=
  if s.pow.powered then
    match s.take port tc kind with
    | none => s
    | some (h, x, s) => f s h x
  else s

/-- The outstanding request a tag names, if it is of this kind and went to this node. -/
def State.request (s : State) (tag kind node : Nat) : Option Tag :=
  (s.tag tag).filter fun t => t.kind == kind && t.node == node

/-- Give a thread bytes its command waits for. -/
def State.giveThread (s : State) (i : SlotId) (at_ : Nat) (bs : List Byte) : State :=
  s.setSlot i { s.slot i with fetched := State.putBytes (s.slot i).fetched at_ bs }

/-- Bytes that a command in progress reads as an index tile: of its pad, of this module, or fetched from another node; none where one has
not come yet. -/
def State.seenBytes (s : State) (i : SlotId) (d : Desc) (g : Range') : Option (List Byte) :=
  let a := g.1.toNat
  if !d.global then some (s.padBytes i.cell a g.2)
  else if nodeOf a = s.node then some (s.rawBytes (localOf a) g.2)
  else (List.range g.2).mapM fun k => SMap.get none (s.slot i).fetched (a + k)

/-- The destination in memory or in the pad of a command in progress (R93): COMMIT's is that of the held tile, SCATTER's the rows its index
tile names; DLOAD writes descriptors, and a speculative multiply its held tile. -/
def State.destOf (s : State) (i : SlotId) (w : Nat) : Option Dest :=
  let t := s.slot i
  let op := cmdOp w
  if op = 0x34 then t.held.map fun h => (Desc.of h.dest).dest
  else if op = 0x29 ∨ (0x30 ≤ op ∧ op ≤ 0x32 ∧ bitOf (cmdMods w) 1) then none
  else
    match cmdD w with
    | .d n =>
      let d := Desc.of (t.desc n)
      if op = 0x23 then
        let b := t.tile (cmdB w)
        (s.seenBytes i b (b.rowAt 0 0, b.rowBytes)).map fun bs =>
          ⟨d.global, (((List.range b.cols).map fun j => numAt bs (4 * j) 4).filter fun k => decide (k < d.rows)).map fun k =>
            (d.rowAt 0 k, d.rowBytes)⟩
      else some d.dest
    | _ => none

/-- The destination of the command that a thread has in progress is undefined (R93): its local bytes. -/
def State.undefineDest (s : State) (i : SlotId) : State :=
  let t := s.slot i
  match t.status, t.cur with
  | .remote, some (w, _) => ((s.destOf i w).map fun d => s.undefineBytes i.cell d).getD s
  | _, _ => s

/-- The thread of a failed request halts (R25), if it still runs. -/
def State.threadFault (s : State) (i : SlotId) (t : Tag) (reason fault : Nat) : State :=
  if s.occupied i && s.ofThread i t then
    let x := s.inProgress i
    (s.undefineDest i).haltAt x reason fault
  else s

/-- Data for a destination of this thread's GET: its pad, or memory here. -/
def State.getTo (s : State) (i : SlotId) (t : Tag) (pad : Bool) (bs : List Byte) : State :=
  match t.here with
  | none => s
  | some a =>
    if !(s.occupied i && s.ofThread i t) then s
    else if pad then
      match s.padWrite i.cell [(a, bs)] with
      | some s => s
      | none => s.padFatal i.cell
    else
      match s.memWrite (Requester.ofThread i) [(a, bs)] with
      | (s, none) => s
      | (s, some e) => s.threadFault i t (memReason e.cause) (s.globalOf e.addr)

/-- Bytes of a remote BAR2 read; it completes with its last. -/
def State.bar2Data (s : State) (tag : Nat) (t : Tag) (bs : List Byte) : State :=
  match s.readOf tag with
  | none => s
  | some r =>
    let r' : Bar2Read := { r with tags := r.tags.filter (· ≠ tag), bytes := State.putBytes r.bytes (t.here.getD 0) bs }
    if r'.tags.isEmpty then
      let out := (List.range r.length).map fun k => (SMap.get none r'.bytes (r.address + k)).getD 0
      ((s.dropRead r).complete (.data out)).tlp
    else { s with host := { s.host with reads := s.host.reads.map fun x => if x = r then r' else x } }

/-- GET DATA. -/
def State.getData (s : State) (h : Hdr) (f : Frame) : State :=
  match s.request h.seq 2 h.srcNode with
  | none => s
  | some t =>
    let bs := slice (f.payload.take (f.payload.length - h.sop)) 0 t.count
    let s := s.dropTag h.seq
    match t.owner with
    | .threadGet i => if s.occupied i && s.ofThread i t then s.giveThread i (t.here.getD 0) bs else s
    | .threadGetTo i pad => s.getTo i t pad bs
    | .dma q e =>
      match s.entry? q e with
      | some x => if x.result.isSome then s else ((s.hostWrite (t.here.getD 0) bs).dmaMoved q e t.count).dmaRun q e 4
      | none => s
    | .bar2Read => s.bar2Data h.seq t bs
    | _ => s

def execGetDataFrame (port tc : Nat) (s : State) : Host.Outcome State Fault Refusal := .next (s.answerFrame port tc 3 State.getData)

/-- ATOMIC RESULT. -/
def State.atomicResult (s : State) (h : Hdr) (f : Frame) : State :=
  match s.request h.seq 4 h.srcNode with
  | none => s
  | some t =>
    let s := s.dropTag h.seq
    match t.owner with
    | .threadAtom i => if t.here.isSome && s.occupied i && s.ofThread i t then s.giveThread i answerKey (slice f.payload 0 8) else s
    | _ => s

def execAtomicResultFrame (port tc : Nat) (s : State) : Host.Outcome State Fault Refusal := .next (s.answerFrame port tc 5 State.atomicResult)

/-- FREE RESULT. -/
def State.freeResult (s : State) (h : Hdr) (f : Frame) : State :=
  match s.request h.seq 8 h.srcNode with
  | none => s
  | some t =>
    let s := s.dropTag h.seq
    match t.owner with
    | .threadFree i => if s.occupied i && s.ofThread i t then s.giveThread i answerKey (slice f.payload 0 1 ++ List.replicate 7 0) else s
    | .entryFree q e => s.endEntry q e 0 (numAt f.payload 0 1)
    | _ => s

def execFreeResultFrame (port tc : Nat) (s : State) : Host.Outcome State Fault Refusal := .next (s.answerFrame port tc 9 State.freeResult)

/-- One acknowledged PUT. -/
def State.acknowledge (s : State) (node tag : Nat) : State :=
  match s.request tag 1 node with
  | none => s
  | some t =>
    let s := s.dropTag tag
    match t.owner with
    | .dma q e =>
      match s.entry? q e with
      | some x => if x.result.isSome then s else (s.dmaMoved q e t.count).dmaRun q e 4
      | none => s
    | _ => s

/-- ACK: up to 15 tags. -/
def State.acks (s : State) (h : Hdr) (f : Frame) : State :=
  (List.range (min (numAt f.payload 0 1) 15)).foldl (fun s i => s.acknowledge h.srcNode (numAt f.payload (4 + 4 * i) 4)) s

def execAckFrame (port tc : Nat) (s : State) : Host.Outcome State Fault Refusal := .next (s.answerFrame port tc 6 State.acks)

/-- ERROR: the requester of the request learns of its failure. Where the frame names no address, the request's target is meant. -/
def State.errorAnswer (s : State) (h : Hdr) (f : Frame) : State :=
  let tag := numAt f.payload 4 4
  match s.request tag (numAt f.payload 1 1) h.srcNode with
  | none => s
  | some t =>
    let named := numAt f.payload 8 8
    let fault := if named = 0 then t.node * 2 ^ 40 + t.remote else named
    match t.owner with
    | .bar2Read =>
      match s.readOf tag with
      | some r => (s.dropRead r).failRead.tlp
      | none => s.dropTag tag
    | _ =>
      let s := s.dropTag tag
      match t.owner with
      | .threadGet i | .threadGetTo i _ | .threadPut i | .threadAtom i | .threadFree i => s.threadFault i t 0x11 fault
      | .dma q e | .entryFree q e => s.failEntry q e 0x15 fault
      | .bar2Write => s.barFault .unsupportedRequest
      | .stream k => s.mapStream k fun x => { x with dataError := true }
      | .record kind => s.recordFailed kind (t.node * 2 ^ 40 + t.remote) (numAt f.payload 0 1)
      | .bar2Read => s

def execErrorFrame (port tc : Nat) (s : State) : Host.Outcome State Fault Refusal := .next (s.answerFrame port tc 7 State.errorAnswer)

end Sys2Proof.Machine
end

