-- ==== Sys2Proof/Machine/Health.lean ====
section
/-! DEFINITION. Scarab's scrubs and row repair (R201, R458–R460), the telemetry ring's samples and interrupts (R469–R471), counter snapshots
(R472–R474) and fabric time (R475, R476). -/

namespace Sys2Proof.Machine

open Sys2Proof

/-! ## Scrubs (R460) -/

/-- HBM codewords and near-store words in a full pass. -/
def hbmCodewords : Nat := 576 * 2 ^ 30 / 64
def nearWords : Nat := 0x800000000 / 8

/-- The scrub has read the word at `i` of a pass of `n`: how far it is, and whether a pass is complete. -/
def scrubStep (i n : Nat) : Nat × Nat := if i + 1 = n then (0, 1) else (i + 1, 0)

/-- An uncorrectable word is logged with consumer 0 and stays as it is. -/
def State.scrubBad (s : State) (a : Nat) : State :=
  let w := wordOf a
  let s := { s with mem := { s.mem with poison := SMap.put false s.mem.poison w true } }
  s.logMemory ⟨0, 0⟩ w 0

/-- A pool whose ring or bitmap holds the codeword at `a` becomes faulted (R212). -/
def State.faultHolders (s : State) (a : Nat) : State :=
  (List.range 16).foldl (fun (s : State) p =>
    let q := s.pool p
    if q.enabled && decide (q.meta < wordOf a + 64) && decide (wordOf a < q.meta + q.metaBytes) then s.faultPool p else s) s

/-- Scarab's read corrects the word at `w`: an error found in it, or one that the state holds, is counted and written back. -/
def State.scrubCorrected (s : State) (w : Nat) : State :=
  ({ s with mem := { s.mem with soft := SMap.put false s.mem.soft w false } } : State).countCorrection w

/-- Does a scrub correct the word: it finds an error that the code corrects, or the state holds one? -/
def State.scrubCorrects (s : State) (w : Nat) (f : ScrubFinding) : Bool := f == .corrected || SMap.get false s.mem.soft w

/-- Scarab reads the HBM codeword at local address `a`. -/
def State.scrubHbm (s : State) (a : Nat) (f : ScrubFinding) : State :=
  if !(s.running && inHbm a 1) then s
  else
    let w := wordOf a
    let s := if s.poisoned w || f == .uncorrectable then (s.scrubBad w).faultHolders w
      else if s.scrubCorrects w f then s.scrubCorrected w
      else s
    let p := scrubStep ((w - hbmBase) / 64) hbmCodewords
    { s with health := { s.health with hbmPos := p.1, hbmPasses := satAdd 64 s.health.hbmPasses p.2 } }

def execHbmScrub (address : Nat) (found : ScrubFinding) (s : State) : Host.Outcome State Fault Refusal := .next (s.scrubHbm address found)

/-- Scarab reads the near-store word at local address `a`. -/
def State.scrubNear (s : State) (a : Nat) (f : ScrubFinding) : State :=
  if !(s.running && decide (a < 0x800000000) && s.hiveWorks (a / 0x80000000)) then s
  else
    let w := wordOf a
    let s := if s.poisoned w || f == .uncorrectable then s.scrubBad w
      else if s.scrubCorrects w f then s.scrubCorrected w
      else s
    let p := scrubStep (w / 8) nearWords
    { s with health := { s.health with nearPos := p.1, nearPasses := satAdd 64 s.health.nearPasses p.2 } }

def execNearStoreScrub (address : Nat) (found : ScrubFinding) (s : State) : Host.Outcome State Fault Refusal :=
  .next (s.scrubNear address found)

/-- Scarab reads a program-store word. -/
def State.scrubProgram (s : State) (a : Nat) (f : ScrubFinding) : State :=
  match progOf a with
  | none => s
  | some (n, _) =>
    if !(s.running && s.hiveWorks (n / 1024)) then s
    else if s.poisoned a || f == .uncorrectable then s.scrubBad a
    else if s.scrubCorrects (wordOf a) f then s.scrubCorrected (wordOf a)
    else s

def execProgramStoreScrub (address : Nat) (found : ScrubFinding) (s : State) : Host.Outcome State Fault Refusal :=
  .next (s.scrubProgram address found)

/-! ## Row repair (R201) -/

/-- A candidate row whose uncorrectable codewords have all been overwritten is copied to a spare row and remapped, until a reset or an entry
to DORMANT makes the remap permanent. -/
def State.repairRow (s : State) (row : Nat) : State :=
  let bad := s.mem.poison.any fun e => inHbm e.1 1 && e.2 && decide (Config.rowOf e.1 = row)
  if s.running && SMap.get false s.mem.candidates row && !bad && decide (s.mem.rowsRepaired < Config.spareRowsAtManufacture) then
    let s := { s with mem := { s.mem with
      candidates := SMap.put false s.mem.candidates row false
      rowCorrections := SMap.put 0 s.mem.rowCorrections row 0
      rowsRepaired := s.mem.rowsRepaired + 1
      remapped := SMap.put false s.mem.remapped row true } }
    let a := Config.rowFirst row
    ((s.bump 0x702002).postEvent 0x11 1 (s.stackOf a % 8 + s.globalOf a / 2 ^ 8 * 2 ^ 8)).updateService
  else s

def execHbmRowRepair (row : Nat) (s : State) : Host.Outcome State Fault Refusal := .next (s.repairRow row)

/-- 7020.01: spare rows left, per cent of those at manufacture. -/
def State.repairPercent (s : State) : Nat :=
  100 * (Config.spareRowsAtManufacture - s.mem.rowsRepaired) / Config.spareRowsAtManufacture

/-! ## Rings (R262, R469) -/

/-- A ring of N = 2^n records of `size` bytes at a local HBM base. -/
def ringFits (base n size : Nat) : Bool := decide (base % 64 = 0) && inHbm base (2 ^ n * size)

/-- A write of a ring's control entry (4300.02 or B040.02), reserved bits ignored; none: refused. Enabling sets P and C to 0. While the
capture ring is enabled no write of its control is taken (R262). R469 has only the base of the telemetry ring follow that rule: a write that
disables it is taken, another refused (log entry 32). -/
def State.writeRing (s : State) (key lo hi size v : Nat) : Option State :=
  let on := bitOf (s.reg (key + 1)) 7
  let en := bitOf v 7
  let n := v % 32
  if on then (if en ∨ key = 0x430001 then none else some (s.setReg (key + 1) (v % 32)))
  else if !en then some (s.setReg (key + 1) (v % 32))
  else if lo ≤ n ∧ n ≤ hi ∧ ringFits (s.reg key) n size then
    some (((s.setReg (key + 1) (128 + n)).setReg (key + 2) 0).setReg (key + 3) 0)
  else none

/-- A write of a ring's consumer index; none: refused. -/
def State.writeConsumer (s : State) (key v : Nat) : Option State :=
  let c := s.reg (key + 1)
  let n := if bitOf c 7 then 2 ^ (c % 32) else 0
  if (s.reg (key + 2) + 2 ^ 32 - v) % 2 ^ 32 ≤ n then some (s.setReg (key + 3) v) else none

/-! ## Samples (R471) -/

/-- The island's last telemetry push, or NaN words when none has arrived for 2 s. -/
def State.pushedWord (s : State) (i : Nat) : Nat :=
  if s.pow.telemetry.isEmpty ∨ s.pow.telemetryAt + 2000000000 ≤ s.now then 0x7FC00000 else numAt s.pow.telemetry i 4

/-- A sample record. -/
def State.sample (s : State) (m : SampleFigures) (level at_ : Nat) : State :=
  let period := s.reg 0xB04005
  if s.running && decide (period ≠ 0) && decide (s.health.sampledAt + period * 1000000 ≤ max s.now at_) then
    let s := s.at_ at_
    let s := { s with health := { s.health with sampledAt := s.now } }
    let bs := natLE 4 m.inputPower.toNat ++ natLE 2 m.hottest.toNat ++ natLE 1 level ++ [0] ++ natLE 4 (s.pushedWord 4)
      ++ natLE 4 (s.pushedWord 8) ++ natLE 4 m.slots.toNat ++ natLE 4 m.hbmMiB.toNat ++ natLE 4 m.opticalMiB.toNat
    s.postEvent 1 0 (leNat bs)
  else s

/-- The event vector's message that waited for the end of 10 µs (R470). -/
def State.deferredVector (s : State) (at_ : Nat) : State :=
  match s.health.vectorAt with
  | some t => if s.pow.powered ∧ s.health.vectorWaiting ∧ t + 10000 ≤ max s.now at_ then (s.at_ at_).eventMessage else s
  | none => s

def execEventVectorDeferred (at_ : Nat) (s : State) : Host.Outcome State Fault Refusal := .next (s.deferredVector at_)

/-! ## Fabric time (R475, R476) -/

/-- A TIME frame of this module: type, and fields t1 to t3 or T. -/
def State.timePayload (s : State) (type : Nat) (f : List Nat) : List Byte :=
  let depth := if 2 ≤ s.health.syncState then s.health.depth else 0xFF
  padTo 64 ([BitVec.ofNat 8 type, BitVec.ofNat 8 depth, 0, 0] ++ natLE 3 (s.reg 0x904002) ++ [0] ++ f.flatMap (natLE 8))

def State.timeHeader (s : State) (node : Nat) : Hdr :=
  { destNode := node, destEp := 0x3201, srcNode := s.node, srcEp := 0x3201, kind := 0x41, tc := 0 }

/-- Send a TIME frame on a link, to the neighbour there. -/
def State.sendTime (s : State) (l node : Nat) (bs : List Byte) : State :=
  let f : Frame := ⟨(s.timeHeader node).encode, bs⟩
  s.sendOn 0x85 (s.linkRoute 0x85 l f.header) f

/-- Fabric time in units of 0.25 ns (log entry 27). -/
def State.quarters (s : State) : Nat := s.now * 4 % 2 ^ 64

/-- Every 1 ms a module that is not the root asks its parent for the time. -/
def State.delayRequest (s : State) (at_ : Nat) : State :=
  if !s.running ∨ max s.now at_ < s.health.requestedAt + 1000000 then s
  else
    let s := s.at_ at_
    let s := { s with health := { s.health with requestedAt := s.now } }
    let s := s.reparent
    match s.health.parent with
    | none => s
    | some l =>
      match (s.link l).partner with
      | none => s
      | some p => s.sendTime l p.node (s.timePayload 1 [s.quarters])

def execDelayRequestTimer (at_ : Nat) (s : State) : Host.Outcome State Fault Refusal := .next (s.delayRequest at_)

/-- Take the first TIME frame of a type at the time agent. -/
def State.timeFrame (s : State) (type : Nat) (f : State → Delivered → State) : State :=
  if s.pow.powered then
    match s.rxFind 0x85 0 fun h x => h.kind == 0x41 && numAt x.payload 0 1 == type with
    | none => s
    | some d => f (s.consume d) d
  else s

/-- What a TIME frame says of its sender's depth. -/
def State.heardDepth (s : State) (d : Delivered) : State :=
  if d.ingress < 0x40 then
    { s with health := { s.health with depths := SMap.put 0xFF s.health.depths d.ingress (numAt d.frame.payload 1 1) } }
  else s

/-- A neighbour asks: the answer carries its t1, and when the request arrived and the answer left. -/
def State.delayAsked (t2 t3 : Nat) (s : State) (d : Delivered) : State :=
  let s := s.heardDepth d
  let bs := s.timePayload 2 [numAt d.frame.payload 8 8, t2, t3]
  if d.ingress < 0x40 then s.sendTime d.ingress (Hdr.of d.frame.header).srcNode bs
  else s.send 0x85 ⟨(s.timeHeader (Hdr.of d.frame.header).srcNode).encode, bs⟩

def execDelayRequestFrame (t2 t3 : Nat) (s : State) : Host.Outcome State Fault Refusal := .next (s.timeFrame 1 (State.delayAsked t2 t3))

/-- The parent's answer arrived at t4 of this module's time: offset and delay, and how fabric time moves. Steering of the rate moves no
count of this model (log entry 27). -/
def State.delayAnswered (t4 : Nat) (s : State) (d : Delivered) : State :=
  let s := s.heardDepth d
  if s.health.parent ≠ some d.ingress ∨ s.isRoot then s
  else
    let p := d.frame.payload
    let t1 : Int := numAt p 8 8
    let t2 : Int := numAt p 16 8
    let t3 : Int := numAt p 24 8
    let off := ((t2 - t1) - ((t4 : Int) - t3)) / 2
    let dly := ((t2 - t1) + ((t4 : Int) - t3)) / 2
    let s := { s with health := { s.health with offset := off, delay := dly.toNat } }
    let depth := s.depthOn d.ingress
    let ahead : Nat := (-off).toNat / 4
    let s := if 4000 < off then s.stepTime (s.now + off.toNat / 4)
      else if off < -40000 then { s with health := { s.health with hold := ahead } }
      else s
    if depth = 0xFF then s.syncTo 1 0xFF
    else if 4000 < off ∨ off < -40000 then s.syncTo 1 (depth + 1)
    else s.syncTo 2 (depth + 1)

def execDelayResponseFrame (t4 : Nat) (s : State) : Host.Outcome State Fault Refusal := .next (s.timeFrame 2 (State.delayAnswered t4))

/-- No parent for 10 ms: free-running. Fabric time lies in the always-on domain, so that this holds in DORMANT too. -/
def State.parentLost (s : State) (at_ : Nat) : State :=
  match s.health.lostSince with
  | some t =>
    if s.pow.powered ∧ !s.isRoot ∧ t + 10000000 ≤ max s.now at_ then (s.at_ at_).syncTo 0 0xFF else s
  | none => s

def execParentLossTimeout (at_ : Nat) (s : State) : Host.Outcome State Fault Refusal := .next (s.parentLost at_)

/-- A write of 9040.04; none: refused. -/
def State.setTime (s : State) (t : Nat) : Option State := if s.isRoot ∧ s.now < t then some (s.stepTime t) else none

/-- 9040.01. -/
def State.syncBytes (s : State) : List Byte :=
  let h := s.health
  [BitVec.ofNat 8 h.syncState, BitVec.ofNat 8 h.depth, BitVec.ofNat 8 (h.parent.getD 0), 0] ++ natLE 4 (ofInt 32 h.offset) ++ natLE 4 h.delay
    ++ List.replicate 4 0

/-! ## Snapshots (R472–R474) -/

/-- Schedule a snapshot at T: the status with which it is refused, or 0. -/
def State.scheduleSnapshot (s : State) (t : Nat) : Nat × State :=
  if t < s.now + 10000 then (6, s)
  else if s.health.snapshot.isSome then (7, s)
  else (0, ({ s with health := { s.health with snapshot := some t } } : State).setReg 0xB05003 1)

/-- A write of B050.01: a snapshot here, and on every module of the group at B050.05. -/
def State.requestSnapshot (s : State) (t : Nat) : Nat × State :=
  let r := s.scheduleSnapshot t
  let g := s.reg 0xB05005
  if r.1 ≠ 0 then r
  else if g < 4096 ∧ bitOf (s.groupEntry g) 127 then
    let h : Hdr := { s.timeHeader 0 with mc := true, group := g }
    (0, r.2.send 0x85 ⟨h.encode, r.2.timePayload 3 [0, 0, 0, t]⟩)
  else r

/-- A SNAPSHOT frame; a refused one is counted. -/
def State.snapshotHeard (s : State) (d : Delivered) : State :=
  let r := s.scheduleSnapshot (numAt d.frame.payload 32 8)
  if r.1 = 0 then r.2 else s.bump 0xB05006

def execSnapshotFrame (s : State) : Host.Outcome State Fault Refusal := .next (s.timeFrame 3 State.snapshotHeard)

def isCounter (key : Nat) : Bool :=
  match entryOf key with
  | some e => e.counter
  | none => false

/-- Keys of 4200.06, 4200.07 and 5810.04, whose counts are held with their units. -/
def contextCounts (c : DispatchContext) : Nat := leNat (c.counts.toList.flatMap (natLE 8))

/-- Every counter is copied to its shadow, by entry and unit. -/
def State.copyCounters (s : State) : SMap Nat :=
  let m : SMap Nat := s.dict.regs.foldl (fun m e =>
    match e.2 with
    | some v => if isCounter (e.1 / 65536) then SMap.put 0 m e.1 v else m
    | none => m) []
  let m := s.net.mirrors.foldl (fun m e =>
    SMap.put 0 (SMap.put 0 m (0x420006 * 65536 + e.1) e.2.made) (0x420007 * 65536 + e.1) e.2.dropped) m
  s.eng.contexts.foldl (fun m e => SMap.put 0 m (0x581004 * 65536 + e.1) (contextCounts e.2)) m

/-- Fabric time has reached the T of the pending snapshot. -/
def State.takeSnapshot (s : State) (at_ : Nat) : State :=
  match s.health.snapshot with
  | none => s
  | some t =>
    if !s.pow.powered ∨ max s.now at_ < t then s
    else
      let s := s.at_ at_
      let s := { s with health := { s.health with snapshot := none } }
      if s.pow.state = 1 ∨ s.pow.state = 2 then
        let id := (s.reg 0xB05002 + 1) % 2 ^ 32
        let s := { s with dict := { s.dict with shadows := s.copyCounters } }
        (((s.setReg 0xB05002 id).setReg 0xB05003 0).setReg 0xB05004 t).postEvent 0x72 0 (id + t * 2 ^ 64)
      else s.setReg 0xB05003 2

def execSnapshotTake (at_ : Nat) (s : State) : Host.Outcome State Fault Refusal := .next (s.takeSnapshot at_)

end Sys2Proof.Machine
end

