-- ==== Sys2Proof/Machine/Values.lean ====
section
/-! DEFINITION. What a dictionary entry accepts: reserved bits (R9), types (R378) and the rules each entry states (R50, R85, R149, R175, R195,
R215, R247, R253, R257, R264, R336, R354, R401, R424, R441, R480). -/

namespace Sys2Proof.Machine

open Sys2Proof

/-! ## F32 values as rationals -/

/-- The value of an F32 word; none for NaN and the infinities. -/
def f32Rat (v : Nat) : Option Rat :=
  match f32Val (BitVec.ofNat 32 v) with
  | .num neg m e =>
    let q : Rat := if e ≥ 0 then ((m * 2 ^ e.toNat : Nat) : Rat) else mkRat m (2 ^ (-e).toNat)
    some (if neg then -q else q)
  | _ => none

/-- The F32 word nearest to a rational. -/
def ratF32 (q : Rat) : Nat :=
  if q.num = 0 then 0 else (FFmt.fp32.roundTo .wide .rne (decide (q.num < 0)) q.num.natAbs q.den 0).bits

def nanF32 : Nat := 0x7FC00000

/-- The F32 word of a reading that may be missing. -/
def optF32 : Option Rat → Nat
  | some q => ratF32 q
  | none => nanF32

/-- Is a word a NaN? -/
def isNanF32 (v : Nat) : Bool := decide (v / 2 ^ 23 % 256 = 255) && decide (v % 2 ^ 23 ≠ 0)

/-! ## Reserved bits -/

/-- Clear bits [hi:lo]. -/
def clearBits (hi lo v : Nat) : Nat := setField v lo (hi + 1 - lo) 0

/-- Clear several bit ranges. -/
def clearAll (rs : List (Nat × Nat)) (v : Nat) : Nat := rs.foldl (fun v r => clearBits r.1 r.2 v) v

/-- The reserved bits of a value, which the module ignores and returns as 0 (R9). -/
def reservedBits : Nat → List (Nat × Nat)
  | 0x202001 => [(63, 29)]
  | 0x303001 => [(63, 38)]
  | 0x404002 => [(125, 64)]
  | 0x405002 => [(31, 24)]
  | 0x420002 => [(9, 0)]
  | 0x503001 => [(31, 8)]
  | 0x580009 => [(15, 12)]
  | 0x581002 => [(431, 384), (95, 64)]
  | 0x582002 => [(468, 464), (407, 384), (159, 128), (63, 0)]
  | 0x601002 => [(31, 18)]
  | 0x601003 => [(31, 24)]
  | 0x602002 => [(7, 2)]
  | 0x604004 => [(7, 3)]
  | 0x710001 => [(222, 168), (127, 104), (63, 32)]
  | 0x801001 => [(63, 48)]
  | 0x904002 => [(31, 24)]
  | 0xA01001 => [(31, 18)]
  | 0xC01001 => [(15, 11)]
  | 0xC01002 => [(62, 61), (54, 53), (46, 45), (39, 0)]
  | _ => []

/-- A link-direction byte keeps its assigned bit, dimension and sign (R247). -/
def cleanDirs (v : Nat) : Nat := leNat ((natLE 64 v).map fun b => b &&& 0xB1)

/-- A value without its reserved bits. -/
def cleanValue (key v : Nat) : Nat :=
  if key = 0x601004 then cleanDirs v else clearAll (reservedBits key) v

/-! ## Rules -/

/-- Entries whose rule is a range of an unsigned value. -/
def rangeOf : Nat → Option (Nat × Nat)
  | 0x101002 => some (3, 3)
  | 0x208001 => some (0, 2)
  | 0x208002 => some (0, 8)
  | 0x300001 => some (0, 1)
  | 0x302001 => some (0, 8)
  | 0x303002 => some (0, 4095)
  | 0x304002 => some (0, 16)
  | 0x304003 => some (1, 15)
  | 0x404001 => some (0, 4095)
  | 0x405001 => some (0, 1)
  | 0x420001 => some (0, 7)
  | 0x420005 => some (64, 65536)
  | 0x501001 => some (0, 15)
  | 0x504001 => some (0, 3)
  | 0x581001 => some (0, 4095)
  | 0x582001 => some (0, 4095)
  | 0x602001 => some (0, 31)
  | 0x604001 => some (0, 7)
  | 0x700001 => some (0, 72)
  | 0x702003 => some (1, 255)
  | 0x801003 => some (1, 255)
  | 0x801004 => some (1, 255)
  | 0x802001 => some (0, 2)
  | 0x902001 => some (1000, 3900)
  | 0xB00101 => some (0, 15)
  | _ => none

/-- Entries whose rule is a range of an F32 value, in tenths. -/
def f32RangeOf : Nat → Option (Nat × Nat)
  | 0x802002 => some (200, 550)
  | 0x802003 => some (1, 1000)
  | 0x802004 => some (10, 36000)
  | 0x802005 => some (0, 1000)
  | 0x802007 => some (300, 700)
  | 0x802008 => some (0, 600)
  | 0x802009 => some (10, 1000000)
  | _ => none

/-- What a port select accepts (R269). -/
def portSelect (p : Nat) : Bool := decide (p ≤ 0x52)

/-- A quantum (R253). -/
def quantumOk (q : Nat) : Bool := decide (256 ≤ q) && decide (q ≤ 1048576) && decide (q % 4 = 0)

/-- A shaper or policer element of a port (R257). -/
def State.elementOk (s : State) (p e : Nat) : Bool :=
  let rate := e / 2 ^ 32
  let burst := e % 2 ^ 32
  if rate = 0 then decide (burst = 0)
  else decide (rate ≤ s.portSpeed p) && decide (4160 ≤ burst) && decide (burst ≤ 16777216)

/-- An injection rule for port × 8 + TC (R264). -/
def ruleOk (u v : Nat) : Bool :=
  let n (lo : Nat) : Bool := decide (1 ≤ fieldOf (lo + 4) lo v) && decide (fieldOf (lo + 4) lo v ≤ 24)
  (!bitOf v 63 || n 56) && (!bitOf v 55 || (n 48 && decide (u / 8 < 0x40))) && (!bitOf v 47 || n 40)

/-- Does the entry accept a value (without its reserved bits) for unit `u`? Only what its type and its own row state. -/
def State.valueOk (s : State) (key u v : Nat) : Bool :=
  match rangeOf key with
  | some (lo, hi) => decide (lo ≤ v) && decide (v ≤ hi)
  | none =>
    match f32RangeOf key with
    | some (lo, hi) =>
      (match f32Rat v with
        | some q => decide ((lo : Rat) ≤ q * 10) && decide (q * 10 ≤ (hi : Rat))
        | none => false)
    | none =>
      match key with
      | 0x204001 => v == 0 || (decide (10 ≤ v) && decide (v ≤ 10000))
      | 0x208003 => decide (v / 2 ^ 10 % 32 ≠ 31)
      | 0x410001 | 0x412001 | 0x413001 => portSelect v
      | 0x410002 => (List.range 8).all fun t => quantumOk (fieldOf (32 * t + 31) (32 * t) v)
      | 0x410102 => quantumOk v
      | 0x412002 | 0x413002 => (List.range 8).all fun t => s.elementOk u (fieldOf (64 * t + 63) (64 * t) v)
      | 0x602002 => s.portFitted u
      | 0x604003 => s.bankFitted u && decide (v < 2)
      | 0x801001 => bitOf v 41 && !bitOf v 40
      | 0xB04005 => v == 0 || (decide (10 ≤ v) && decide (v ≤ 60000))
      | 0xB05005 => decide (v < 4096) || v == 0xFFFF
      | 0xC01001 => portSelect (v / 8)
      | 0xC01002 => ruleOk u v
      | _ =>
        if 0x401001 ≤ key ∧ key ≤ 0x401008 then decide (64 ≤ v) && decide (v ≤ 1024) && decide (v % 4 = 0)
        else if 0x401101 ≤ key ∧ key ≤ 0x401108 then decide (-4 ≤ toSigned 16 v) && decide (toSigned 16 v ≤ 3)
        else
          match entryOf key with
          | some e =>
            (match e.type with
              | .bool => decide (v < 2)
              | .f32 => !isNanF32 v
              | _ => true)
          | none => false

/-! ## The configuration store at a load (R395, R396) -/

/-- The valid image of higher generation. -/
def State.newestImage (s : State) : Option StoreSlot :=
  let a := s.dict.slots.getD 0 ⟨false, 0, []⟩
  let b := s.dict.slots.getD 1 ⟨false, 0, []⟩
  if a.valid && (!b.valid || decide (b.generation ≤ a.generation)) then some a
  else if b.valid then some b
  else none

/-- Is an entry served by the island? -/
def onIsland (key : Nat) : Bool := decide (0x80 ≤ key / 65536) && decide (key / 65536 < 0x90)

def isRws (key : Nat) : Bool :=
  match entryOf key with
  | some e => e.access == .rws
  | none => false

/-- The image as what its digest covers. -/
def StoreSlot.contents (i : StoreSlot) : Nat × List (Nat × Nat) :=
  (i.generation, i.values.filterMap fun e => e.2.map fun v => (e.1, v))

/-- Load the stored values of one side (the island's entries, or all others): values the present rules refuse give the default, and are
counted. -/
def State.loadStored (s : State) (island : Bool) : State :=
  let vs : List (Nat × Nat) := match s.newestImage with
    | some i => i.contents.2
    | none => []
  let r := (vs.filter fun (e : Nat × Nat) => onIsland (e.1 / 65536) == island && isRws (e.1 / 65536)).foldl (fun (r : Nat × State) (e : Nat × Nat) =>
    if r.2.valueOk (e.1 / 65536) (e.1 % 65536) e.2 then (r.1, r.2.setReg (e.1 / 65536) e.2 (e.1 % 65536))
    else (r.1 + 1, r.2)) (0, s)
  let s := r.2.setReg 0x105005 (min r.1 (2 ^ 32 - 1))
  s.setReg 0x105002 (if s.newestImage.isNone then 3 else if s.reg 0x105002 = 1 then 1 else 0)

/-! ## The torus geometry (R245) -/

/-- May the geometry be applied? -/
def State.geometryOk (s : State) : Bool :=
  let dims := s.reg 0x601002
  let at_ := s.reg 0x601003
  let dirs := s.reg 0x601004
  let count := fieldOf 17 16 dims + 1
  let size (d : Nat) : Nat := fieldOf (4 * d + 3) (4 * d) dims + 1
  ((List.range 4).all fun d => decide (coordOf at_ d < size d) && (decide (d < count) || decide (size d = 1)))
    && (List.range 64).all fun l =>
      let b := fieldOf (8 * l + 7) (8 * l) dirs
      !bitOf b 7 || (s.linkExists l && decide (b / 16 % 4 < count))

/-- 6010.02–6010.04 are applied at once; the node identifier follows. -/
def State.applyGeometry (s : State) : State :=
  ({ s with net := { s.net with
      dims := BitVec.ofNat 32 (s.reg 0x601002), coords := BitVec.ofNat 32 (s.reg 0x601003)
      dirs := BitVec.ofNat 512 (s.reg 0x601004) } } : State).setReg 0x601005 1

/-- A write of 6010.05; none: refused. A miswired link trains again, and the time tree follows. -/
def State.commitGeometry (s : State) : Option State :=
  if s.geometryOk then some s.applyGeometry.retrainMiswired.reparent else none

/-- A geometry that a reset has loaded is in force when R245 accepts it. -/
def State.loadGeometry (s : State) : State :=
  if s.reg 0x601002 = 0 ∧ s.reg 0x601003 = 0 ∧ s.reg 0x601004 = 0 then s
  else if s.geometryOk then s.applyGeometry
  else s

end Sys2Proof.Machine
end

