-- ==== Sys2Proof/Machine/Resets.lean ====
section
/-! DEFINITION. Cold and warm resets, power loss, the boot chain and start-up (R198, R332, R395, R425, R435, R436, R439, R440, R444, R462–R464). -/

namespace Sys2Proof.Machine

open Sys2Proof

/-! ## What a reset keeps -/

/-- Dictionary values that the module holds through a warm or cold reset: the island's entries, the store's, reset cause and counts, and
thermal trips since manufacture; through a warm reset also the snapshot ID and its time (R474). -/
def keptEntry (cold : Bool) (key : Nat) : Bool :=
  onIsland key || [0x105002, 0x105003, 0x901006, 0x901007, 0x903003].contains key || (!cold && [0xB05002, 0xB05004].contains key)

/-- The dictionary of the host side at a reset: contexts lose roles and selectors, held writes and messages under way are lost. -/
def Dictionary.reset (d : Dictionary) (cold : Bool) : Dictionary :=
  let field (c : CtxState) : Bool := match c.ctx with
    | .field _ => true
    | _ => false
  let ofField (j : Job) : Bool := match j.ctx with
    | .field _ => true
    | _ => false
  { d with
    regs := d.regs.filter fun e => keptEntry cold (e.1 / 65536)
    shadows := if cold then [] else d.shadows
    contexts := (d.contexts.filter field).map fun c => { c with role := 0, selectors := [], last := 0, challenge := none, challengeAfter := 0 }
    forwarded := [], jobs := d.jobs.filter ofField, quotes := [], heldWrites := []
    repeats := d.repeats.filter fun r => d.jobs.any fun j => j.carrier == .vdp r.1 r.2 }

/-- A COMMIT that a reset meets leaves the old image or the new one, whole (R396): a free choice. -/
def State.settleCommit (s : State) : State :=
  match s.dict.committing with
  | none => s
  | some i =>
    let d := s.draw
    let newest := s.newestImage
    let at_ := if (s.dict.slots.getD 0 ⟨false, 0, []⟩).valid && decide (newest = some (s.dict.slots.getD 0 ⟨false, 0, []⟩)) then 1 else 0
    let s := { d.2 with dict := { d.2.dict with
      committing := none
      slots := if d.1 % 2 = 1 then d.2.dict.slots.setIfInBounds at_ i else d.2.dict.slots } }
    s.setReg 0x105002 0

/-- The ABORTs of a warm reset leave, and collectives end without a record: what they were writing is undefined (R332, R333). -/
def State.endCollectives (s : State) : State := s.coll.active.foldl (fun (s : State) c => if c.reported then s else s.loseOutput c) s

/-- Program writes that a reset meets (R440), and bank A on every comb: what remains of a comb is a move awaited. -/
def State.resetSwarm (s : State) (cold : Bool) : State :=
  let s := s.resetCombs 0 16384
  let s := (List.range 16).foldl State.losePadsOf s
  { s with swarm := {
      combs := (s.swarm.combs.filter fun e => e.2.movePending).map fun e => (e.1, ({ movePending := true } : Comb))
      nextLaunch := s.swarm.nextLaunch, pads := s.swarm.pads, padGen := s.swarm.padGen, combMap := s.swarm.combMap
      failedCombs := s.swarm.failedCombs, hives := BitVec.allOnes 16, hiveFailedBySpare := s.swarm.hiveFailedBySpare
      multiplies := s.swarm.multiplies, resetAt := if cold then 0 else s.now } }

/-- What a cold reset leaves in the near stores of combs whose move it met: the move copies it before the near store is zeroed (R463). -/
def State.awaitingMove {α : Type} (s : State) (m : SMap α) : SMap α :=
  m.filter fun e => decide (e.1 < hbmBase) && (s.comb (e.1 / 0x200000)).movePending

/-- Memory at a reset: zeros with valid check bits at a cold one, once the moves that wait are made; HBM alone at a warm one that brings in another hub-local size (R198). -/
def State.resetMemory (s : State) (cold : Bool) (size : Nat) : State :=
  let zero := decide (size ≠ s.mem.hubLocal)
  { s with mem := {
      bytes := if cold then s.awaitingMove s.mem.bytes else if zero then SMap.clearRange s.mem.bytes hbmBase hbmEnd else s.mem.bytes
      poison := if cold then s.awaitingMove s.mem.poison else if zero then SMap.clearRange s.mem.poison hbmBase hbmEnd else s.mem.poison
      soft := if cold then s.awaitingMove s.mem.soft else if zero then SMap.clearRange s.mem.soft hbmBase hbmEnd else s.mem.soft
      hubLocal := size, rowsRepaired := s.mem.rowsRepaired, remappedForGood := s.mem.settleRows.remappedForGood } }

/-- The links of fitted ports, as port control has them, in one state. -/
def State.linksIn (s : State) (state : Nat) : SMap Link :=
  ((List.range 64).filter s.linkExists).map fun l => (l, { state := state, changed := s.now })

/-- The host side at a reset, before start-up: RWS entries loaded, memory as the level leaves it, every unit at its reset value. After a
FAULT STOP that a warm reset ends, Scarab's passes go on where they stopped (R458; DEDUCED, log entry 28). What a host DMA had not moved is
undefined (R372, R440). -/
def State.resetUnits (s : State) (cold : Bool) : State :=
  let s := (s.host.pairs.flatMap fun e => e.2.entries).foldl State.abandonDma s
  let pending := s.health.snapshot.isSome
  let resumes := !cold && s.pow.state == 5
  let s := s.resetSwarm cold
  let s := { s with dict := s.dict.reset cold, isl := if cold then s.isl.moveClock s.now 0 else s.isl, now := if cold then 0 else s.now }
  let s := s.loadStored false
  let s := if pending then s.setReg 0xB05003 2 else s
  let s := s.resetMemory cold (s.reg 0x700001)
  let s := s.setReg 0x700002 (s.reg 0x700001)
  let s := { s with
    num := {}, net := {}, eng := {}
    coll := { left := s.coll.left, nextId := s.coll.nextId }
    opt := { s.opt with
      lastBias := if resumes then s.opt.lastBias else [], lastRing := if resumes then s.opt.lastRing else [], swapsHeld := [] }
    host := { memory := s.host.memory, msixSent := s.host.msixSent, aer := s.host.aer, completions := s.host.completions
              inReset := s.host.inReset, speed := s.host.speed, width := s.host.width, lastTlp := s.now }
    health := { fatal := if cold then 0 else s.health.fatal, eventSeq := if cold then 0 else s.health.eventSeq, lostSince := some s.now
                sampledAt := if resumes then s.health.sampledAt else 0
                hbmPos := if resumes then s.health.hbmPos else 0, nearPos := if resumes then s.health.nearPos else 0
                hbmPasses := if resumes then s.health.hbmPasses else 0, nearPasses := if resumes then s.health.nearPasses else 0 } }
  let s := { s with opt := { s.opt with links := s.linksIn 1 } }
  s.loadGeometry

/-! ## The channels of the barrier (R407) -/

/-- A message of the barrier (R407): a 4 B header of type, sequence number and payload length, the payload, and a CRC-16 over both. -/
def crossingBytes (kind seq : Nat) (payload : List Byte) : List Byte :=
  let m := natLE 1 kind ++ natLE 1 seq ++ natLE 2 payload.length ++ payload
  m ++ natLE 2 (crc16 m).toNat

def Crossing.kind (m : Crossing) : Nat := numAt m.bytes 0 1
def Crossing.payload (m : Crossing) : List Byte := slice m.bytes 4 (numAt m.bytes 2 2)

/-- A message to the island (R407); it is lost where the island is unpowered. -/
def State.toIsland (s : State) (kind : Nat) (bs : List Byte) (job : Nat := 0) : State :=
  if !s.isl.powered then s
  else
    { s with isl := { s.isl with
        toIsland := s.isl.toIsland ++ [⟨crossingBytes kind s.isl.hostSeq bs, job⟩], hostSeq := (s.isl.hostSeq + 1) % 256 } }

/-- A message to the host side; it is lost where the host side is unpowered. -/
def State.toHost (s : State) (kind : Nat) (bs : List Byte) (job : Nat := 0) : State :=
  if !s.pow.powered then s
  else
    { s with isl := { s.isl with
        toHost := s.isl.toHost ++ [⟨crossingBytes kind s.isl.islandSeq bs, job⟩], islandSeq := (s.isl.islandSeq + 1) % 256 } }

/-- The hub ROM reads the rollback floors from the island through a dictionary request message (R452). -/
def State.romAsks (s : State) : State :=
  if !s.isl.powered then s
  else
    let item : List Byte := [1, 0, 0x30, 0xA0, 1, 0, 0, 0] ++ natLE 4 0 ++ natLE 4 4
    let m := [1, 1] ++ natLE 2 24 ++ natLE 3 s.node ++ [1] ++ item
    let id := s.dict.nextJob
    let s := { s with dict := { s.dict with nextJob := id + 1, jobs := s.dict.jobs ++ [(⟨id, .hubRom, .bar0, m.take 8, [item], []⟩ : Job)] } }
    s.toIsland 1 m id

/-! ## Boot and resets of the host side -/

/-- The boot chain of the host side, and the configuration measured at its load (R444, R450, R452). -/
def State.bootHostSide (s : State) : State :=
  let b := s.trust.bootHost
  let t := { b.2 with staging := none }
  let t := if s.isl.powered && t.island.running.isSome then
      t.extendIsland 2 (configDigest (s.newestImage.map StoreSlot.contents))
    else t
  let s := { s with trust := t }.romAsks
  if b.1 then s.bump32 0xA02004 else s

/-- A cold (or warm) reset with its cause for 9010.06: until STARTUP_COMPLETE the host side starts up. A reset that ends a FAULT STOP keeps
the cause the stop gave (log entry 28). With 9010.05 at 1, PERST# held asserted holds the start-up (R439). -/
def State.resetHostSide (s : State) (cold : Bool) (cause : Nat) : State :=
  let stopped := decide (s.pow.state = 5)
  let s := if cold then s else s.warmAborts.endCollectives
  let s := (s.settleCommit.resetUnits cold).countReset (if cold then 0 else 1)
  let s := if stopped then s else s.setReg 0x901006 cause
  let s := { s with pow := {
      input := s.pow.input, enJoined := s.pow.enJoined, powered := true, state := if stopped then 5 else 1
      inputLevel := if s.pow.input = 1 then 30 else 100, temps := s.pow.temps, perst := s.pow.perst, warmHeld := s.pow.warmHeld || (s.pow.perst && decide (s.reg 0x901005 = 1))
      startingUp := true, startupCold := cold, sleptAt := if stopped then s.pow.sleptAt else 0, tripDie := s.pow.tripDie, stopRecord := if stopped then s.pow.stopRecord else 0 } }
  s.bootHostSide

/-- Drop what the field interface keeps (R421): kept responses, field contexts, messages and quotes of theirs. -/
def State.dropField (s : State) : State :=
  let other (c : Ctx) : Bool := match c with
    | .field _ => false
    | _ => true
  { s with
    dict := { s.dict with
      kept := [], repeats := [], contexts := s.dict.contexts.filter fun (k : CtxState) => other k.ctx, jobs := s.dict.jobs.filter fun (j : Job) => other j.ctx }
    isl := { s.isl with quotes := s.isl.quotes.filter fun (q : IslandQuote) => q.ctx.isNone } }

/-- Both sources are absent: identity key, diagnostic log and state are lost. -/
def State.loseIsland (s : State) : State :=
  if s.pow.powered ∨ s.isl.fieldSupply ∨ !s.isl.powered then s
  else
    let s := s.settleCommit.dropField
    { s with
      isl := { powered := false, resets := s.isl.resets }
      dict := { s.dict with regs := s.dict.regs.filter fun e => !onIsland (e.1 / 65536) } }

/-- Every host-side domain stops and holds nothing (R425). A COMMIT that is under way is finished by an island on field supply (R491); an
island on host-side power alone goes with it (R402). -/
def State.powerLoss (s : State) : State :=
  if !s.pow.powered then s
  else
    let s := (if s.isl.fieldSupply then s else s.settleCommit).resetUnits true
    let s := { s with
      mem := { s.mem with bytes := [], poison := [], soft := [] }
      opt := { s.opt with links := [] }
      trust := { s.trust with hostSlots := Vector.replicate 16 0, banks := Vector.replicate 4 {}, staging := none, measuring := none }
      isl := { s.isl with toHost := [], toIsland := [] }
      host := { s.host with inReset := s.pow.perst } }
    { s with pow := { input := s.pow.input, enJoined := s.pow.enJoined, powered := false, state := 0, perst := s.pow.perst } }.loseIsland

/-! ## Start-up (R439, R463, R464) -/

/-- A spare that is unmapped and has not failed, chosen freely. -/
def State.pickSpare (s : State) (h : Nat) : Option Nat × State :=
  let free := (List.range 1056).filter fun p => !s.combFailed h p && !s.combMapped h p
  let d := s.draw
  (free[d.1 % max 1 free.length]?, d.2)

/-- Moves that are pending are completed before any thread starts. -/
def State.finishMoves (s : State) : State :=
  let ns := (s.swarm.combs.filter fun e => e.2.movePending && s.hiveWorks (e.1 / 1024)).map Prod.fst
  ns.foldl (fun (s : State) n =>
    let r := s.pickSpare (n / 1024)
    match r.1 with
    | some p => r.2.moveComb n p
    | none => r.2) s

/-- A physical comb fails its self-test; one that carries no logical comb is a spare the less. -/
def State.combFailsTest (s : State) (h p : Nat) : State :=
  if s.combFailed h p ∨ !s.hiveWorks h then s
  else
    match (List.range 1024).find? fun i => decide (s.physicalOf (h * 1024 + i) = p) with
    | some i => s.failComb (h * 1024 + i)
    | none => ({ s with swarm := { s.swarm with failedCombs := SMap.put false s.swarm.failedCombs (h * 2048 + p) true } } : State).updateService

/-- The findings of start-up: hives, combs and engines that fail. -/
def State.selfTest (s : State) (t : SelfTest) : State :=
  let s := (List.range 16).foldl (fun (s : State) h =>
    if s.swarm.hiveFailedBySpare.getLsbD h then s.failHive h true
    else if !bitOf t.hivesPass h then s.failHive h false
    else s) s
  let s := t.combFailures.foldl (fun (s : State) f => s.combFailsTest f.1 f.2) s
  let s := (List.range 32).foldl (fun (s : State) e => if bitOf t.enginesPass e then s else s.engineDisable e) s
  s.finishMoves

/-- 1020.01 read 0x01 when ACTIVE was reached: the host side goes to ENTERING at once (R427). -/
def State.enterIfAsked (s : State) : State :=
  if s.pow.request = 1 ∧ s.pow.state = 1 then { s with pow := { s.pow with state := 2 } } else s

/-- Every enabled link goes from disabled to dark. -/
def State.darkenAll (s : State) : State :=
  (List.range 64).foldl (fun (s : State) l => if s.portEnabled (l / 2) then s.darken l else s) s

/-- Scarab's periods are of ACTIVE time (R458): what it last did moves by the time that passed since it stopped. -/
def State.resumeScarab (s : State) : State :=
  let d := s.now - s.pow.sleptAt
  { s with
    health := { s.health with sampledAt := s.health.sampledAt + d }
    opt := { s.opt with
      lastBias := s.opt.lastBias.map fun e => (e.1, e.2 + d), lastRing := s.opt.lastRing.map fun e => (e.1, e.2 + d) } }

/-- The near stores are zero after the start-up of a cold reset (R435, R463). -/
def State.zeroNear (s : State) : State :=
  { s with mem := { s.mem with
    bytes := SMap.clearRange s.mem.bytes 0 hbmBase
    poison := SMap.clearRange s.mem.poison 0 hbmBase
    soft := SMap.clearRange s.mem.soft 0 hbmBase } }

/-- Start-up is over: ACTIVE. The end of a FAULT STOP for a module-fatal cause is recorded (R462). -/
def State.startupDone (s : State) (t : SelfTest) : State :=
  if !(s.pow.powered && s.pow.startingUp && !s.pow.warmHeld && s.trust.host.running.isSome) then s
  else
    let r := s.pow.stopRecord
    let s := s.selfTest t
    let s := if s.pow.startupCold then s.zeroNear else s
    let s := if s.pow.state = 5 then s.resumeScarab else s
    let s := { s with pow := { s.pow with state := 1, startingUp := false, stopRecord := 0 } }
    let s := if r = 0 then s else s.postEvent 0x80 3 r.toNat
    s.darkenAll.reparent.updateService.releaseBar2.enterIfAsked

def execStartupComplete (test : SelfTest) (s : State) : Host.Outcome State Fault Refusal := .next (s.startupDone test)

end Sys2Proof.Machine
end

