-- ==== Sys2Proof/Machine/Power.lean ====
section
/-! DEFINITION. Power, clocks and reset: the input (R425, R485), power states (R427–R429), the arithmetic clock (R430, R433), FAULT STOP
(R431, R434, R462) and the resets of the module (R435, R436, R439). -/

namespace Sys2Proof.Machine

open Sys2Proof

/-! ## The clock level (R430) -/

/-- N: the level in force (9020.02). -/
def State.level (s : State) : Nat := min (min s.pow.throttle s.pow.inputLevel) (min s.pow.capLevel s.pow.thermalLevel)

/-- The arithmetic clock in MHz (9020.03). -/
def State.clockMHz (s : State) : Nat := 27 * s.level

/-- The cap level follows the Swarm's estimated power. -/
def State.capTo (s : State) (level : Nat) : State :=
  if s.pow.powered ∧ 10 ≤ level ∧ level ≤ 100 then { s with pow := { s.pow with capLevel := level } } else s

def execPowerCapLevelUpdate (level : Nat) (s : State) : Host.Outcome State Fault Refusal := .next (s.capTo level)

def execTelemetrySample (m : SampleFigures) (at_ : Nat) (s : State) : Host.Outcome State Fault Refusal := .next (s.sample m s.level at_)

/-! ## The input (R425, R485) -/

/-- The input moves within the range in which the host side runs; code 3 is a lost input. A host side that has no power since a power loss
starts as the input rises through 44 V. -/
def State.inputTo (s : State) (code : Nat) : State :=
  if s.pow.input = 3 then s
  else
    let t : State := { s with pow := { s.pow with input := code, inputLevel := if code = 1 then 30 else 100 } }
    if s.pow.input = 1 ∧ code ≠ 1 ∧ !s.pow.powered ∧ s.pow.enJoined then t.resetHostSide true 0 else t

def execInputNormal (s : State) : Host.Outcome State Fault Refusal := .next (s.inputTo 0)
def execInputLow (s : State) : Host.Outcome State Fault Refusal := .next (s.inputTo 1)
def execInputHigh (s : State) : Host.Outcome State Fault Refusal := .next (s.inputTo 2)

/-- An input that was lost rises through 44 V: a cold reset, if EN is joined. -/
def State.inputRises (s : State) : State :=
  if s.pow.input ≠ 3 then s
  else
    let s := { s with pow := { s.pow with input := 0 } }
    if s.pow.enJoined then s.resetHostSide true 0 else s

def execInputRise (s : State) : Host.Outcome State Fault Refusal := .next s.inputRises

def execInputPowerLoss (s : State) : Host.Outcome State Fault Refusal :=
  let s := s.powerLoss
  .next { s with pow := { s.pow with input := 3 } }

def execEnBreak (s : State) : Host.Outcome State Fault Refusal :=
  let s := s.powerLoss
  .next { s with pow := { s.pow with enJoined := false } }

/-- EN mates: start-up runs when the input has reached 44 V (R439). -/
def State.enMates (s : State) : State :=
  let s := { s with pow := { s.pow with enJoined := true } }
  if s.pow.powered ∨ s.pow.input = 3 ∨ s.pow.input = 1 then s else s.resetHostSide true 0

def execEnMate (s : State) : Host.Outcome State Fault Refusal := .next s.enMates

/-! ## Power states (R427–R429) -/

/-- Work held since 1020.01 asked for DORMANT is released (host entries wait on the state alone). -/
def State.releaseWork (s : State) : State :=
  { s with swarm := { s.swarm with launches := s.swarm.launches.map fun l => { l with held := false } } }

/-- Credits follow a change of the entry sequence. -/
def State.creditAll (s : State) : State := (List.range 64).foldl (fun (s : State) l => s.updateCredits l) s

/-- 1020.01 becomes `v` (0 ACTIVE, 1 DORMANT). -/
def State.setRequest (s : State) (v : Nat) : State :=
  let s := { s with pow := { s.pow with request := v } }
  if v = 1 then (if s.pow.startingUp then s else s.enterIfAsked)
  else if s.pow.state = 2 then ({ s with pow := { s.pow with state := 1, draining := false } } : State).releaseWork.creditAll
  else if s.pow.state = 3 then { s with pow := { s.pow with state := 4, wokenAt := s.now } }
  else s

/-- A dispatch context that does not keep the host side from sleeping. -/
def DispatchContext.quiet (c : DispatchContext) : Bool := c.state == 0 || c.state == 3 || (c.state == 1 && c.next == 0)

/-- Is the host side quiescent (R428)? Row repair is one step here, so none is in progress. -/
def State.quiescent (s : State) : Bool :=
  (s.swarm.slots.all fun e => e.2.status == .empty) && s.coll.active.isEmpty && s.eng.streams.isEmpty
    && (s.eng.contexts.all fun e => e.2.quiet) && (s.host.pairs.all fun e => e.2.entries.all fun x => x.result.isSome && decide (e.2.fault ≠ 0))
    && s.mem.pools.all fun e => e.2.state != 3

/-- Does the switch buffer hold no frame? -/
def State.bufferEmpty (s : State) : Bool := s.net.refs.isEmpty && s.net.rx.isEmpty && s.net.entering.isEmpty && s.net.copies.isEmpty

/-- Every link goes disabled; frames still held are discarded. -/
def State.closeLinks (s : State) : State :=
  let s := (List.range 0x86).foldl (fun (s : State) p => (s.dropPort 0x0D p).dropDelivered 0x0D p) s
  let s := (List.range 64).foldl (fun (s : State) l => if (s.link l).held.isEmpty then s else s.dropHeld l) s
  (List.range 64).foldl (fun (s : State) l => if s.linkExists l then s.disableLink l else s) s |>.updateService

/-- The entry sequence ends: DORMANT. The pads are lost as in a gated comb (R83). -/
def State.enterDormant (s : State) : State :=
  let s := s.closeLinks
  let s := (List.range 16).foldl State.losePadsOf s
  let s := s.setReg 0x102102 (min ((s.now - s.pow.enteredAt) / 1000) (2 ^ 32 - 1))
  { s with pow := { s.pow with state := 3, draining := false, sleptAt := s.now }, mem := s.mem.settleRows, host := { s.host with inL1 := true } }

/-- A quiescent host side runs the entry sequence: credits are withdrawn, and once the buffer is empty the rest follows. -/
def State.entryRuns (s : State) : State :=
  if !(s.pow.powered && s.pow.state == 2 && s.quiescent) then s
  else
    let s : State := if s.pow.draining then s
      else ({ s with pow := { s.pow with draining := true, enteredAt := s.now } } : State).creditAll
    if s.bufferEmpty then s.enterDormant else s

def execQuiescenceReached (s : State) : Host.Outcome State Fault Refusal := .next s.entryRuns

/-- 2 ms into entry the frames still held go. -/
def State.entryTimeout (s : State) (at_ : Nat) : State :=
  if s.pow.powered && s.pow.state == 2 && s.pow.draining && decide (s.pow.enteredAt + 2000000 ≤ max s.now at_) then (s.at_ at_).enterDormant
  else s

def execEntryDrainTimeout (at_ : Nat) (s : State) : Host.Outcome State Fault Refusal := .next (s.entryTimeout at_)

/-- The wake sequence is complete: ACTIVE, with the writes held in DORMANT applied by `apply`. -/
def State.wakes (s : State) (at_ : Nat) (apply : State → State) : State :=
  if !(s.pow.powered && s.pow.state == 4) then s
  else
    let s := s.at_ at_
    let s := s.setReg 0x102101 (min ((s.now - s.pow.wokenAt) / 1000) (2 ^ 32 - 1))
    let s := { s.resumeScarab with pow := { s.pow with state := 1 } }
    (apply s.darkenAll).releaseBar2.releaseDoorbells.releaseWork.reparent.updateService.enterIfAsked

/-! ## FAULT STOP (R434, R462) -/

/-- Threads, collectives, streams and entries stop at once, with no record of it; what a collective was writing is undefined (R333). The
lasers go off and links are disabled; the host port reports the stop. -/
def State.faultStop (s : State) (cause : Nat) : State :=
  let s := s.endCollectives
  let s := (s.setReg 0x901006 cause).refuseBar2.aer .internalFatal
  let s := ({ s with opt := { s.opt with links := s.linksIn 1 } } : State).reparent.updateService
  { s with
    swarm := { s.swarm with slots := [], launches := [], ports := [], roomQueue := [] }
    num := { s.num with transfer := none }
    net := { s.net with
      queues := [], stages := [], arriving := [], busy := [], rx := [], refs := [], charges := [], shared := [], tags := [], acks := []
      reorder := [], modes := [], entering := [], copies := [] }
    eng := { s.eng with streams := [] }
    coll := { s.coll with active := [], pending := [] }
    host := { s.host with
      pairs := s.host.pairs.foldl (fun m (e : Nat × QueuePair) => SMap.put {} m e.1 { e.2 with entries := [] }) []
      inL1 := false, lastTlp := s.now }
    pow := { s.pow with state := 5, startingUp := false, draining := false, sleptAt := s.now } }

/-- May a stop begin: not in one, or in the start-up that ends one? -/
def State.canStop (s : State) : Bool := s.pow.powered && (s.pow.state != 5 || s.pow.startingUp)

/-- A junction reaches 110 °C: the island is told at once, and again until it reports the trip (R407). In the FAULT STOP of a fatal error
the trip is counted and told too, and holds a warm reset back (R434); in that of a trip nothing is new. -/
def State.trip (s : State) (die : Nat) (temp : Int) : State :=
  if !(s.pow.powered && (s.canStop || !s.pow.tripped) && decide (die < 26) && decide (11000 ≤ temp)) then s
  else
    let s := s.bump32 0x903003
    let s := if s.canStop then s.faultStop 4 else s
    ({ s with pow := { s.pow with temps := s.pow.temps.setIfInBounds die temp, tripDie := some die, tripped := true } } : State).toIsland 8
      [BitVec.ofNat 8 die]

def execThermalTrip (die : Nat) (temp : Int) (s : State) : Host.Outcome State Fault Refusal := .next (s.trip die temp)

/-- The fatal record (R462). -/
def fatalRecord (cause unit time : Nat) : W256 := BitVec.ofNat 256 (cause * 2 ^ 248 + unit * 2 ^ 240 + time % 2 ^ 64 * 2 ^ 128)

/-- A module-fatal error writes its record. -/
def State.fatal (s : State) (cause unit : Nat) : State :=
  if s.canStop && decide (1 ≤ cause) && decide (cause ≤ 4) && decide (unit ≤ 0x12) then
    let r := fatalRecord cause unit s.now
    ({ s with health := { s.health with fatal := r }, pow := { s.pow with stopRecord := r } } : State).faultStop 5
  else s

def execModuleFatal (cause unit : Nat) (s : State) : Host.Outcome State Fault Refusal := .next (s.fatal cause unit)

/-- The PLL of a hive or hub loses lock in ACTIVE (R431). -/
def execPllLockLoss (unit : Nat) (s : State) : Host.Outcome State Fault Refusal :=
  .next (if s.pow.state = 1 ∧ !s.pow.startingUp ∧ unit < 0x12 then s.fatal 1 unit else s)

/-! ## Temperatures and the thermal level (R433) -/

def State.hot (s : State) : Bool := s.pow.temps.toList.any fun t => decide (10000 ≤ t)
def State.cool (s : State) : Bool := s.pow.temps.toList.all fun t => decide (t ≤ 9800)

/-- The level moves to `l`; a period of throttling is counted as it begins (log entry 28). -/
def State.thermalTo (s : State) (l : Nat) : State :=
  let s := if l < 100 && !s.pow.throttling then s.bump 0x903002 else s
  let s := { s with pow := { s.pow with thermalLevel := l, thermalSince := s.now, throttling := decide (l < 100) } }
  s.postEvent 0x73 0 l

/-- The level moves by 10 when it is due. -/
def State.thermalMoves (s : State) : State :=
  if s.hot && decide (10 < s.pow.thermalLevel) && decide (s.pow.thermalSince + 100000 ≤ s.now) then s.thermalTo (s.pow.thermalLevel - 10)
  else if s.cool && decide (s.pow.thermalLevel < 100) && decide (s.pow.thermalSince + 1000000 ≤ s.now) then
    s.thermalTo (s.pow.thermalLevel + 10)
  else s

/-- The dies report their temperatures: at 110 °C the host side stops (R434), else the level may move. -/
def State.thermalStep (s : State) (temps : List Int) (at_ : Nat) : State :=
  if !s.pow.powered then s
  else
    let s := s.at_ at_
    let s := { s with pow := { s.pow with temps := Vector.ofFn fun (i : Fin 26) => temps.getD i.val 0 } }
    if !s.canStop ∧ s.pow.tripped then s
    else
      match (List.range 26).find? fun i => decide (11000 ≤ temps.getD i 0) with
      | some d => s.trip d (temps.getD d 0)
      | none => if s.canStop then s.thermalMoves else s

def execThermalLevelStep (temps : List Int) (at_ : Nat) (s : State) : Host.Outcome State Fault Refusal := .next (s.thermalStep temps at_)

/-! ## Resets of the module (R434–R436, R439) -/

/-- A warm reset; after a thermal trip it waits until every die reads 100 °C or less. PERST# resets the host port meanwhile (R491). -/
def State.warmStart (s : State) (cause : Nat) : State :=
  if !s.canStop ∧ s.pow.tripped ∧ (s.pow.temps.toList.any fun t => decide (10000 < t)) then
    let s := if cause = 3 then s.hostReset.countReset 3 else s
    { s with pow := { s.pow with tripHold := true } }
  else s.resetHostSide false cause

/-- The dies have cooled: a held warm reset proceeds. -/
def State.tripReleased (s : State) : State :=
  if s.pow.powered && s.pow.tripHold && s.pow.temps.toList.all (fun t => decide (t ≤ 10000)) then s.resetHostSide false 1 else s

def execTripResetRelease (s : State) : Host.Outcome State Fault Refusal := .next s.tripReleased

/-- PERST# is asserted: the host port is held in reset, and with 9010.05 at 1 the module in a warm one. -/
def State.perstAsserted (s : State) : State :=
  if s.pow.perst then s
  else if !s.pow.powered then { s with host := { s.host with inReset := true }, pow := { s.pow with perst := true } }
  else
    let warm := decide (s.reg 0x901005 = 1)
    let s := { s with host := { s.host with inReset := true }, pow := { s.pow with perst := true, warmHeld := warm } }
    if warm then s.warmStart 3 else s.hostReset.countReset 3

def execPerstAssert (s : State) : Host.Outcome State Fault Refusal := .next s.perstAsserted

/-- PERST# is released. -/
def State.perstReleased (s : State) : State :=
  if s.pow.perst then
    { s with host := { s.host with inReset := false, lastTlp := s.now }, pow := { s.pow with perst := false, warmHeld := false } }
  else s

def execPerstDeassert (s : State) : Host.Outcome State Fault Refusal := .next s.perstReleased

/-- A write of 9010.01, the service role being checked: none: refused. -/
def State.moduleReset (s : State) (service : Bool) (v : Nat) : Option State :=
  if v = 1 then some (s.warmStart 1)
  else if v = 2 ∧ service then some (s.resetHostSide true 2)
  else none

end Sys2Proof.Machine
end

