-- ==== Sys2Proof/Machine/Trust.lean ====
section
/-! DEFINITION. Measured start and attestation: service events (R445), bank measurements (R446, R447), quotes (R448, R449, R451) and firmware
updates (R453). -/

namespace Sys2Proof

/-- The path code of a context: 1 H, 2 F, 3 W. -/
def Ctx.path : Ctx → Nat
  | .bar0 | .qp _ => 1
  | .node _ => 2
  | .field _ => 3

end Sys2Proof

namespace Sys2Proof.Machine

open Sys2Proof

/-! ## Service events (R445) -/

/-- Host slot 5 is extended by an event record: kind 1 unlock, 2 write, of what was written (or the challenge). -/
def State.serviceEvent (s : State) (kind : Nat) (c : Ctx) (role key : Nat) (what : List Byte) : State :=
  let bs := [BitVec.ofNat 8 kind, BitVec.ofNat 8 c.path, BitVec.ofNat 8 role, 0] ++ natLE 2 (key / 256) ++ natLE 1 key ++ [0]
    ++ natLE 8 s.now ++ sha3 what
  { s with trust := s.trust.extendHost 5 (sha3 bs) }

/-! ## Bank measurements (R446, R447) -/

/-- The bytes of a bank: every write accepted so far, which one held for a swap is not (R117). -/
def State.bankBytes (s : State) (n : Nat) (b : Bool) : List Byte := s.rawBytes (progAddr n b 0) 32768

/-- A write of A010.01, reserved bits ignored: its status. The contents are those of this instant, and the slot is extended when the
measurement finishes. -/
def State.measure (s : State) (v : Nat) : Nat × State :=
  let n := fieldOf 13 0 v
  let b := bitOf v 14
  let j := fieldOf 17 16 v
  if !s.hiveWorks (n / 1024) then (6, s)
  else if s.trust.measuring.isSome then (7, s)
  else
    let d := sha3 (natLE 2 n ++ [BitVec.ofNat 8 (b2n b), 0, 0, 0, 0, 0] ++ s.bankBytes n b)
    (0, { s with trust := { s.trust with measuring := some { slot := j, comb := n, bankB := b, digest := d } } })

/-- The four bank records (A010.02). -/
def State.bankRecords (s : State) : List Byte :=
  s.trust.banks.toList.flatMap fun r => natLE 2 r.comb ++
    [BitVec.ofNat 8 (b2n r.bankB), BitVec.ofNat 8 (b2n r.measured + 2 * b2n r.changed + 4 * b2n r.altered)] ++ natLE 4 r.measurements

/-! ## Quotes (R442, R448, R449, R451) -/

/-- The identity status (A000.05): does the derived key match the certificate? -/
def State.identityGood (s : State) : Bool := Config.certificateKey == identityKey s.trust.islandBoot

/-- Can the island answer: powered, its firmware running? -/
def State.islandUp (s : State) : Bool := s.isl.powered && s.trust.island.running.isSome

/-- Rollback floors (A030.01). -/
def State.floorBytes (s : State) : List Byte := natLE 2 s.trust.floors.1 ++ natLE 2 s.trust.floors.2

/-- Island and host halves of the firmware versions (A000.04). -/
def State.islandVersions (s : State) : List Byte := natLE 4 (Config.romVersion 0).toNat ++ natLE 4 (imageVersion s.trust.island.image)
def State.hostVersions (s : State) : List Byte := natLE 4 (Config.romVersion 1).toNat ++ natLE 4 (imageVersion s.trust.host.image)

def slotsBytes {n : Nat} (v : Vector W256 n) : List Byte := v.toList.flatMap fun w => natLE 32 w.toNat

/-- The dictionary digest (R449). -/
def State.dictionaryDigest (s : State) : List Byte :=
  let e (key i : Nat) (bs : List Byte) : List Byte := natLE 2 (key / 256) ++ [BitVec.ofNat 8 key, BitVec.ofNat 8 i] ++ bs
  sha3 (e 0x103101 0 (natLE 1312 (s.reg 0x103101)) ++ e 0x103102 0 ((List.range 32).map Config.vendorKeyDigestByte)
    ++ ((List.range 4).flatMap fun i => e 0x504002 i (natLE 32 (SMap.get 0 s.coll.channels i).toNat))
    ++ e 0xC00001 0 (natLE 1 (s.reg 0xC00001)) ++ e 0x901005 0 (natLE 1 (s.reg 0x901005)) ++ e 0xA03001 0 s.floorBytes)

/-- The host side's part: a body with the island's fields zero. -/
def State.hostPart (s : State) (nonce : List Byte) : List Byte :=
  let marks (f : BankRecord → Bool) : Nat := b2n (s.trust.banks.toList.any f)
  let flags := b2n (decide (s.health.service ≠ 0)) + 2 + 4 * marks BankRecord.changed + 8 * marks BankRecord.altered
  [0x4C, 0x57, 0x58, 0x51, 1, BitVec.ofNat 8 flags, 0, 0] ++ List.replicate 8 0 ++ slice nonce 0 32 ++ natLE 8 s.now
    ++ natLE 8 s.node ++ List.replicate 256 0 ++ slotsBytes s.trust.hostSlots ++ List.replicate 8 0 ++ s.hostVersions ++ List.replicate 16 0
    ++ s.dictionaryDigest ++ s.bankRecords ++ List.replicate 96 0

/-- How long ago the last time-sync message arrived, by the island's clock (R405). -/
def State.syncAge (s : State) : Nat := s.isl.syncAge + (s.now - s.isl.lastSync)

/-- The island's time (R405): that of the last message, and what has passed since within 50 ppm: a free part. -/
def State.islandTime (s : State) : Nat × State :=
  let passed := s.syncAge
  let slack := passed / 20000
  if slack = 0 then (s.isl.time + passed, s)
  else let d := s.draw; (s.isl.time + passed + d.1 % (2 * slack + 1) - slack, d.2)

/-- Has no time-sync message arrived for 2 s (8000.01 bit 1)? -/
def State.unsynced (s : State) : Bool := decide (2000000000 ≤ s.syncAge)

/-- The body of module `node` when the host side did not answer, at the island's time (R449). -/
def emptyPart (node : Nat) (nonce : List Byte) (time : Nat) : List Byte :=
  [0x4C, 0x57, 0x58, 0x51, 1, 0, 0, 0] ++ List.replicate 8 0 ++ slice nonce 0 32 ++ natLE 8 time ++ natLE 8 node ++ List.replicate 960 0

/-- The island fills in its fields: the body of a quote. -/
def State.quoteBody (s : State) (part : List Byte) : List Byte :=
  let f5 : Byte := (part.getD 5 0) ||| BitVec.ofNat 8 (b2n s.isl.leakLatched)
  slice part 0 5 ++ [f5] ++ slice part 6 2 ++ natLE 4 s.trust.boots ++ slice part 12 52 ++ slotsBytes s.trust.islandSlots
    ++ slice part 320 512 ++ s.islandVersions ++ slice part 840 184

/-- It signs the body with the identity key: the whole quote. -/
def State.signQuote (s : State) (part : List Byte) : List Byte × State :=
  let body := s.quoteBody part
  (body ++ mldsaSign (identityPair s.trust.islandBoot) body ((List.range 32).map (Config.signRandom s.freeCtr)), { s with freeCtr := s.freeCtr + 1 })

/-- A quote in the fragments that cross the barrier: tag, index, count and up to 1,532 B. -/
def quoteFragments (tag : Nat) (q : List Byte) : List (List Byte) :=
  let n := ceilDiv q.length 1532
  (List.range n).map fun i => natLE 2 tag ++ [BitVec.ofNat 8 i, BitVec.ofNat 8 n] ++ (q.drop (1532 * i)).take 1532

/-- A quote in progress holds its context's entry for 150 ms (R456). -/
def QuoteJob.open_ (q : QuoteJob) (c : Ctx) (now : Nat) : Bool := q.ctx == c && decide (now < q.asked + 150000000)

def IslandQuote.open_ (q : IslandQuote) (c : Ctx) (now : Nat) : Bool := q.ctx == some c && decide (now < q.asked + 150000000)

/-- A nonce written to A040.01: the status. The quote forms on the side the context reaches first. -/
def State.askQuote (s : State) (c : Ctx) (nonce : List Byte) : Nat × State :=
  if !s.islandUp || !s.identityGood then (9, s)
  else if (s.dict.quotes.any fun q => q.open_ c s.now) || (s.isl.quotes.any fun q => q.open_ c s.now) then (7, s)
  else
    let tag := s.trust.nextQuote % 65536
    let s := { s with
      trust := { s.trust with nextQuote := s.trust.nextQuote + 1 }
      dict := { s.dict with contexts := s.dict.contexts.map fun (k : CtxState) => if k.ctx = c then { k with quote := none } else k } }
    if c.path = 3 then
      let job : IslandQuote := { tag := tag, ctx := some c, nonce := nonce, asked := s.now }
      (0, ({ s with isl := { s.isl with quotes := (s.isl.quotes.filter fun (q : IslandQuote) => q.ctx != some c) ++ [job] } } : State).toHost 9
        (natLE 2 tag ++ [0, 0] ++ nonce))
    else
      let job : QuoteJob := ⟨tag, c, nonce, s.now, []⟩
      (0, ({ s with dict := { s.dict with quotes := (s.dict.quotes.filter fun (q : QuoteJob) => q.ctx != c) ++ [job] } } : State).toIsland 9
        (natLE 2 tag ++ [0, 0] ++ s.hostPart nonce))

/-- A context's quote is ready. -/
def State.giveQuote (s : State) (c : Ctx) (q : List Byte) : State :=
  { s with dict := { s.dict with contexts := s.dict.contexts.map fun (k : CtxState) => if k.ctx = c then { k with quote := some q } else k } }

/-- The island signs quotes in the order in which they were asked for (R451), up to the first that still lacks the host side's part; one for
the host side crosses back. -/
def State.signQuotes (s : State) : List IslandQuote → State
  | [] => { s with isl := { s.isl with quotes := [] } }
  | q :: rest =>
    match q.part with
    | none => { s with isl := { s.isl with quotes := q :: rest } }
    | some part =>
      let r := s.signQuote part
      let s := match q.ctx with
        | some c => r.2.giveQuote c r.1
        | none => (quoteFragments q.tag r.1).foldl (fun (s : State) f => s.toHost 0x0A f) r.2
      s.signQuotes rest

/-- The host side's part of a quote of the field path has come, or its want is settled. -/
def State.partOf (s : State) (tag : Nat) (part : List Byte) : State :=
  s.signQuotes (s.isl.quotes.map fun (q : IslandQuote) => if q.tag = tag ∧ q.ctx.isSome ∧ q.part.isNone then { q with part := some part } else q)

/-- No part from the host side within 100 ms: the island signs the first quote that waits for one without it. -/
def State.hostSilent (s : State) (at_ : Nat) : State :=
  match s.isl.quotes.find? fun q => q.part.isNone with
  | none => s
  | some j => if s.islandUp && decide (j.asked + 100000000 ≤ max s.now at_) then
      let t := (s.at_ at_).islandTime
      t.2.partOf j.tag (emptyPart s.node j.nonce t.1)
    else s

def execAttestationHostTimeout (at_ : Nat) (s : State) : Host.Outcome State Fault Refusal := .next (s.hostSilent at_)

/-! ## Firmware updates (R453) -/

def State.component (s : State) (c : Nat) : Component := if c = 1 then s.trust.host else s.trust.island

def State.setComponent (s : State) (c : Nat) (x : Component) : State :=
  { s with trust := if c = 1 then { s.trust with host := x } else { s.trust with island := x } }

/-- The inactive slot, which a stage writes and an activate marks active. -/
def Component.target (c : Component) : Nat := 1 - c.active

/-- May a stage write it? Not while its image runs: between an activate of the bundle and the reset that boots it neither slot is free
(R453: the active slot stays, and no stage goes into the slot that runs; DEDUCED, log entry 33). -/
def Component.stageable (c : Component) : Bool := c.running != some c.target

def Component.setSlot (c : Component) (i : Nat) (f : FirmwareSlot) : Component := { c with slots := c.slots.setIfInBounds i f }

/-- The bytes of an image placed at a global address, as far as its header gives a length that fits; none: an address or data error. R203
names no consumer for such a read: an uncorrectable word is logged with consumer 0x05 and identity 0 (DESIGN CHOICE, log entry 19). -/
def State.placedImage (s : State) (comp a : Nat) : State × Option (List Byte) :=
  if nodeOf a ≠ s.node ∨ a % 64 ≠ 0 ∨ !plainRegion (localOf a) 64 then (s, none)
  else
    match s.memRead ⟨5, 0⟩ [(localOf a, 64)] with
    | (s, .error _) => (s, none)
    | (s, .ok h) =>
      let n := imageLength h
      if slotBytes comp < n then (s, some h)
      else if !plainRegion (localOf a) n then (s, none)
      else
        match s.memRead ⟨5, 0⟩ [(localOf a, n)] with
        | (s, .error _) => (s, none)
        | (s, .ok bs) => (s, some bs)

/-- The blocks in which an island image crosses: its offset and up to 1,532 B. -/
def imageBlocks (bs : List Byte) : List (List Byte) :=
  (List.range (ceilDiv bs.length 1532)).map fun i => natLE 4 (1532 * i) ++ (bs.drop (1532 * i)).take 1532

/-- Stage: the image is read and travels to the inactive slot, which holds no valid image from here on. -/
def State.stageImage (s : State) (comp : Nat) : State :=
  match s.placedImage comp (s.reg 0xA02001) with
  | (s, none) => s.setReg 0xA02003 0x13
  | (s, some bs) =>
    let x := s.component comp
    let s := s.setComponent comp { x.setSlot x.target ⟨[], false⟩ with staged := false }
    let s := ({ s with trust := { s.trust with staging := some (comp, bs) } } : State).setReg 0xA02003 1
    if comp = 2 then
      (imageBlocks bs).foldl (fun (s : State) b => s.toIsland 0x0B b) ({ s with isl := { s.isl with blocks := [] } } : State)
    else s

/-- The bytes that blocks hold; what no block brought is zero. -/
def assembleBlocks (n : Nat) (bs : List (Nat × List Byte)) : List Byte :=
  bs.foldl (fun m b => (m.take b.1 ++ b.2 ++ m.drop (b.1 + b.2.length)).take n) (List.replicate n 0)

/-- The status of an image for a component (R452), as A020.03 reports it. -/
def State.imageStatus (s : State) (comp : Nat) (bs : List Byte) : Nat :=
  if !imageShape comp bs then 0x12
  else if !imageSigned bs then 0x10
  else if imageSecurity bs < (if comp = 1 then s.trust.floors.1 else s.trust.floors.2) then 0x11
  else 0

/-- Staging finishes: the image is checked in its slot. Blocks still on their way must have arrived first. -/
def State.stageDone (s : State) : State :=
  match s.trust.staging with
  | none => s
  | some (comp, sent) =>
    if !s.pow.powered || (decide (comp = 2) && s.isl.toIsland.any fun m => m.kind == 0x0B) then s
    else
      let bs := if comp = 2 then assembleBlocks sent.length s.isl.blocks else sent
      let st := s.imageStatus comp bs
      let x := s.component comp
      let s := s.setComponent comp { x.setSlot x.target ⟨bs, decide (st = 0)⟩ with staged := decide (st = 0) }
      ({ s with trust := { s.trust with staging := none }, isl := { s.isl with blocks := [] } } : State).setReg 0xA02003 st

def execFwStageDone (s : State) : Host.Outcome State Fault Refusal := .next s.stageDone

/-- Confirm: the floor rises to the security version of the running image. -/
def State.confirm (s : State) (comp : Nat) : State :=
  let sv := imageSecurity (s.component comp).image
  { s with trust := { s.trust with floors := if comp = 1 then (max s.trust.floors.1 sv, s.trust.floors.2) else (s.trust.floors.1, max s.trust.floors.2 sv) } }

end Sys2Proof.Machine
end

