-- ==== Sys2Proof/Machine/Island.lean ====
section
/-! DEFINITION. The Cicada island: power and reset (R402–R405), measurements and wiring faults (R408–R413), cooling control (R414–R417), the leak
response (R418, R419), the service output (R411), the field interface (R421) and the messages it sends (R407). -/

namespace Sys2Proof.Machine

open Sys2Proof

/-! ## Power (R402–R404) -/

/-- The fast clock runs until 10 ms after the last event served. -/
def State.wakeFast (s : State) : State := { s with isl := { s.isl with fastUntil := s.now + 10000000 } }

/-- Is a voltage on FV+ one the island runs on? -/
def fieldGood (v : Rat) : Bool := decide (18 ≤ v) && decide (v ≤ 32)

/-- The field supply comes or goes; the source changes without a reset. Where neither is left the island loses its power (R402). -/
def State.changeSource (s : State) (v : Rat) : State :=
  ({ s with isl := { s.isl with fieldSupply := fieldGood v, supply := v } } : State).loseIsland

/-- A changeover is what a comparator of the supply finds, and so starts the fast clock (R404; DEDUCED, log entry 30). -/
def execIslandSourceChangeover (fieldVolts : Rat) (s : State) : Host.Outcome State Fault Refusal := 
  let s := s.changeSource fieldVolts
  .next (if s.isl.powered then s.wakeFast else s)

/-- The field interface restarts with its settings. -/
def State.restartField (s : State) : State :=
  let s := s.dropField
  { s with isl := { s.isl with
      fieldSettings := (s.reg 0x801001, s.reg 0x801002, s.reg 0x801003, s.reg 0x801004, decide (s.reg 0x801102 = 1)) } }

/-- A setting of 8020 as a number. -/
def State.cool8020 (s : State) (sub : Nat) : Rat := (f32Rat (s.reg (0x802000 + sub))).getD 0

/-- In REMOTE the demand is 8020.05 as written (R414, R416), but for a thermal trip (R420). -/
def State.remoteDemand (s : State) : State :=
  if s.isl.mode = 2 ∧ s.isl.tripped.isNone then { s with isl := { s.isl with demand := s.cool8020 5 } } else s

/-- The island resets: boot chain, RWS entries of its own, field interface; the diagnostic log stays, diagnostics and leak latch do not.
The clearing of diagnostics by a reset is not logged (DESIGN CHOICE, log entry 30). -/
def State.resetIsland (s : State) : State :=
  let s := { s with dict := { s.dict with regs := s.dict.regs.filter fun e => !onIsland (e.1 / 65536) } }
  let b := s.trust.bootIsland (s.newestImage.map StoreSlot.contents)
  let s := { s with
    trust := b.2
    isl := { fieldSupply := s.isl.fieldSupply, time := s.isl.time, lastSync := s.isl.lastSync, syncAge := s.isl.syncAge, hostState := s.isl.hostState
             log := s.isl.log, resets := satAdd 32 s.isl.resets 1 } }
  let s := if b.1 then s.bump32 0xA02004 else s
  if b.2.island.running.isNone then s
  else
    let s := (s.loadStored true).restartField
    ({ s with isl := { s.isl with mode := s.reg 0x802001 } } : State).remoteDemand

/-- Power returns after both sources were absent. -/
def execIslandReset (s : State) : Host.Outcome State Fault Refusal :=
  .next (if !s.isl.powered && (s.isl.fieldSupply || s.pow.powered) then s.resetIsland else s)

def execIslandPowerLoss (s : State) : Host.Outcome State Fault Refusal := .next s.loseIsland

/-! ## Outputs (R411, R412, R418, R419) -/

def State.diag (s : State) (code : Nat) : Bool := s.isl.active.getLsbD code

/-- The throttle level of the island's message. -/
def State.islandLevel (s : State) : Nat := if s.isl.leakLatched || s.isl.protection then 30 else 100

/-- Does SVC_OUT conduct? It works on field supply only. -/
def State.svcOut (s : State) : Bool :=
  let asked := s.isl.hostService || s.isl.leakLatched
  let test := match s.isl.svcTestUntil with
    | some t => decide (s.now < t)
    | none => false
  s.islandUp && s.isl.fieldSupply && !s.diag 0x03 && s.isl.svcOverload.isNone && (test || (asked != decide (s.reg 0x805001 = 1)))

/-- Is the valve loop driven: a mode that drives, a supply of 16–32 V, no pin at supply? -/
def State.valveDriven (s : State) : Bool :=
  s.islandUp && decide (s.isl.mode ≠ 0) && decide (16 ≤ s.isl.supply) && decide (s.isl.supply ≤ 32) && !s.diag 0x03 && !s.diag 0x42

/-- The loop current in mA that the drive asks for; with code 0x41 it is limited to 24 mA (R412). -/
def State.loopCurrent (s : State) : Rat :=
  let x := if s.valveDriven then 4 + 16 * s.isl.demand / 100 else 0
  if s.diag 0x41 then min 24 x else x

/-- Is the element of RTD1 (base code 0x10) or RTD2 (0x18) excited? Not while a pin of it is at supply (R412). -/
def State.rtdExcited (s : State) (base : Nat) : Bool := s.islandUp && !s.diag (base + 3)

/-! ## Messages of every 100 ms and every 1 s (R407) -/

/-- A field-path write asks for DORMANT, or a latched leak does (R418). -/
def State.dormantStands (s : State) : Bool := s.isl.dormantRequest || (s.isl.leakLatched && decide (s.reg 0x802006 = 1))

def State.sendCooling (s : State) : State :=
  s.toHost 4 ([BitVec.ofNat 8 s.isl.mode, BitVec.ofNat 8 (b2n s.isl.leakLatched), BitVec.ofNat 8 (b2n s.isl.protection),
    BitVec.ofNat 8 (b2n s.isl.tripped.isSome)] ++ natLE 4 (ratF32 s.isl.demand))

def State.sendLevel (s : State) : State := s.toHost 7 [BitVec.ofNat 8 s.islandLevel]
def State.sendIslandFlag (s : State) : State := s.toHost 0x0C [BitVec.ofNat 8 (b2n s.isl.leakLatched)]
def State.sendDormant (s : State) : State := if s.dormantStands && s.isl.hostState == 1 then s.toHost 6 [] else s

/-- No wake goes while a leak asks for DORMANT (R422). -/
def State.sendWake (s : State) : State :=
  if s.isl.wakeRequest && s.isl.hostState == 3 && !(s.isl.leakLatched && decide (s.reg 0x802006 = 1)) then s.toHost 5 [] else s

/-- The measurements of 8040 and the active diagnostics. -/
def State.sendTelemetry (s : State) : State :=
  s.toHost 3 (natLE 4 (optF32 s.isl.inlet) ++ natLE 4 (optF32 s.isl.outlet) ++ natLE 4 (optF32 s.isl.flow) ++ natLE 4 (ratF32 s.isl.demand)
    ++ natLE 4 (ratF32 s.isl.valveCurrent) ++ natLE 4 (s.isl.leakOhm.getD 0xFFFFFFFF) ++ natLE 4 (ratF32 s.isl.supply)
    ++ natLE 32 s.isl.active.toNat)

/-- What the host side reports of itself: ACTIVE, DORMANT or fault stop. -/
def State.hostStateCode (s : State) : Nat := if s.pow.state = 5 then 5 else if s.pow.state = 3 ∨ s.pow.state = 4 then 3 else 1

/-- The host side's messages of every 100 ms; a thermal trip is told until it is reported back. -/
def State.hostMessages (s : State) : State :=
  let s := { s with pow := { s.pow with sentAt := s.now } }
  let s := (s.toIsland 0x0C (natLE 4 s.health.service.toNat)).toIsland 0x0D (natLE 8 s.now ++ [BitVec.ofNat 8 s.hostStateCode])
  match s.pow.tripDie with
  | some d => s.toIsland 8 [BitVec.ofNat 8 d]
  | none => s

def State.islandMessages (s : State) : State :=
  let s := { s with isl := { s.isl with sentAt := s.now } }
  s.sendCooling.sendLevel.sendIslandFlag.sendWake.sendDormant

/-- Each side sends what is due. -/
def State.stateTimer (s : State) (at_ : Nat) : State :=
  let t := max s.now at_
  let island := s.islandUp && decide (s.isl.sentAt + 100000000 ≤ t)
  let push := s.islandUp && decide (s.isl.pushedAt + 1000000000 ≤ t)
  let host := s.pow.powered && !s.pow.startingUp && decide (s.pow.sentAt + 100000000 ≤ t)
  if !(island || push || host) then s
  else
    let s := s.at_ at_
    let s := if island then s.islandMessages else s
    let s := if push then ({ s with isl := { s.isl with pushedAt := s.now } } : State).sendTelemetry else s
    if host then s.hostMessages else s

def execBarrierStateTimer (at_ : Nat) (s : State) : Host.Outcome State Fault Refusal := .next (s.stateTimer at_)

/-! ## Conversions (R408–R410) -/

/-- The resistance of a PT1000 element at a temperature in m°C (IEC 60751). -/
def ptOhm (t : Int) : Rat :=
  let x : Rat := (t : Rat) / 1000
  let r := 1 + 39083 * x / 10000000 - 5775 * x * x / 10000000000
  1000 * (if t < 0 then r - 4183 * (x - 100) * x * x * x / 1000000000000000 else r)

/-- Bisect the temperature in m°C between two bounds. -/
def ptBisect (r : Rat) : Nat → Int → Int → Int
  | 0, lo, _ => lo
  | n + 1, lo, hi =>
    let mid := (lo + hi) / 2
    if ptOhm mid ≤ r then ptBisect r n mid hi else ptBisect r n lo mid

/-- The temperature of an element in °C, to 1 m°C. -/
def ptCelsius (r : Rat) : Rat := (ptBisect r 21 (-200000) 850000 : Rat) / 1000

/-- Element resistance: R(A–C) − R(A–B). -/
def element (ac : Option Rat) (ab : Rat) : Option Rat := ac.map (· - ab)

/-- Conditions of one RTD with its first code (R412). -/
def rtdConditions (base : Nat) (ac : Option Rat) (ab : Rat) (pin : Bool) : List (Nat × Bool) :=
  [(base, match element ac ab with
      | none => true
      | some e => decide (2000 < e)),
   (base + 1, match element ac ab with
      | none => false
      | some e => decide (e < 500)),
   (base + 2, decide (200 < ab)), (base + 3, pin)]

/-- The conditions present at a tick; `valveLow` says that the loop current has been below half the demanded one for 200 ms. -/
def tickConditions (m : FieldReadings) (valveLow : Bool) : List (Nat × Bool) :=
  let v := m.fieldVolts
  [(0x01, decide (v < 16)), (0x02, decide (16 ≤ v) && decide (v < 18)), (0x03, decide (32 < v)), (0x04, decide (v < -1))]
    ++ rtdConditions 0x10 m.rtd1AC m.rtd1AB m.rtd1PinAbove5 ++ rtdConditions 0x18 m.rtd2AC m.rtd2AB m.rtd2PinAbove5
    ++ [(0x20, m.flowAbove20),
        (0x30, match m.leakOhm with
          | none => true
          | some r => decide (15000 < r)),
        (0x31, match m.leakOhm with
          | none => false
          | some r => decide (r < 100)),
        (0x32, m.leakPinAbove5), (0x40, valveLow), (0x41, decide (m.valveVolts < 1) && decide (4 ≤ m.valveMilliamp)),
        (0x42, m.valvePinAbove30), (0x50, m.svcOverload), (0x60, m.t1sShort), (0x61, m.t1sAtSupply), (0x62, m.t1sOpen)]

/-! ## Diagnostics (R412, R413) -/

/-- The appearance or clearing of a code is recorded. -/
def State.logDiag (s : State) (code : Nat) (raised : Bool) : State :=
  let t := s.islandTime
  let s := t.2
  let r := t.1 % 2 ^ 64 * 2 ^ 64 + code * 2 ^ 56 + b2n raised * 2 ^ 55 + b2n s.unsynced * 2 ^ 54
  let bit := BitVec.ofNat 256 (2 ^ code)
  { s with isl := { s.isl with
      log := logAppend 64 s.isl.log (BitVec.ofNat 128 r)
      active := if raised then s.isl.active ||| bit else s.isl.active &&& ~~~ bit } }

/-- A condition at a tick: raised at the second tick in a row, cleared at the tenth without it. -/
def State.condition (s : State) (code : Nat) (present : Bool) : State :=
  let n := if present then SMap.get 0 s.isl.present code + 1 else 0
  let a := if present then 0 else SMap.get 0 s.isl.absent code + 1
  let s := { s with isl := { s.isl with
    present := SMap.put 0 s.isl.present code (min n 2), absent := SMap.put 0 s.isl.absent code (min a 10) } }
  if present ∧ 2 ≤ n ∧ !s.diag code then s.logDiag code true
  else if !present ∧ 10 ≤ a ∧ s.diag code then
    let s := s.logDiag code false
    if 0x60 ≤ code ∧ code ≤ 0x62 then s.restartField else s
  else s

/-! ## Measurement ticks (R409, R410, R417, R418) -/

/-- A temperature, NaN while a code of its RTD is active. -/
def State.rtdReading (s : State) (base : Nat) (ac : Option Rat) (ab : Rat) : Option Rat :=
  if (List.range 4).any fun k => s.diag (base + k) then none else (element ac ab).map ptCelsius

/-- The frequency of pulses of these ages in ns, newest first (R410): over the last 1 s, or over the last pulse interval where that is longer,
up to 10 s; 0 without a pulse for 10 s. -/
def pulseRate (ages : List Nat) : Rat :=
  match ages with
  | [] => 0
  | a :: rest =>
    if 10000000000 ≤ a then 0
    else
      match rest with
      | b :: _ =>
        if 1000000000 < b - a ∧ b - a ≤ 10000000000 then 1000000000 / (b - a : Nat) else (ages.filter fun x => decide (x < 1000000000)).length
      | [] => (ages.filter fun x => decide (x < 1000000000)).length

/-- The pulses that R410 looks back on: those of the last second, and the last two. -/
def pulsesKept (ages : List Nat) : List Nat := ages.take 2 ++ (ages.drop 2).filter fun x => decide (x < 1000000000)

/-- Flow in L/min. -/
def State.flowReading (s : State) : Option Rat := if s.diag 0x20 then none else some (pulseRate s.isl.pulses * 60 / s.cool8020 9)

/-- Since when the loop current has been below half the demanded one (R412). -/
def State.lowSince (s : State) (m : FieldReadings) : Option Nat :=
  if s.valveDriven && decide (2 * m.valveMilliamp < s.loopCurrent) then some (s.isl.valveLow.getD s.now) else none

/-- The leak is latched: SVC_OUT, the service flag, throttle 30 and, where asked for, the dormant request follow at once. -/
def State.latchLeak (s : State) : State :=
  if s.isl.leakLatched then s
  else ({ s with isl := { s.isl with leakLatched := true } } : State).sendIslandFlag.sendLevel.sendDormant

/-- The rope: wet below 7 kΩ, or short; nothing is learnt of a broken one or one at supply. -/
def State.ropeTick (s : State) (m : FieldReadings) : State :=
  let known := match m.leakOhm with
    | none => false
    | some r => decide (r ≤ 15000) && !m.leakPinAbove5
  let wet := known && match m.leakOhm with
    | none => false
    | some r => decide (r < 7000)
  let n := if wet then s.isl.wetTicks + 1 else 0
  let s := { s with isl := { s.isl with wet := if known then wet else s.isl.wet, wetTicks := min n 2 } }
  if 2 ≤ n then s.latchLeak else s

/-- The coolant protection. -/
def State.protectTick (s : State) : State :=
  let hot := match s.isl.outlet with
    | some t => decide (s.cool8020 7 < t)
    | none => false
  let slow := match s.isl.flow with
    | some f => decide (f < s.cool8020 8) && decide (s.cool8020 8 ≠ 0)
    | none => false
  let n := if hot || slow then s.isl.overTicks + 1 else 0
  let c := if hot || slow then 0 else s.isl.clearTicks + 1
  let s := { s with isl := { s.isl with overTicks := min n 2, clearTicks := min c 10 } }
  if 2 ≤ n ∧ !s.isl.protection then ({ s with isl := { s.isl with protection := true } } : State).sendLevel
  else if 10 ≤ c then { s with isl := { s.isl with protection := false } }
  else s

/-- A measurement tick with the island powered by one of its sources. -/
def State.tickMeasures (s : State) (m : FieldReadings) : State :=
  let s := { s with isl := { s.isl with
    tickAt := s.now, valveCurrent := m.valveMilliamp, leakOhm := m.leakOhm, valveLow := s.lowSince m
    pulses := pulsesKept (m.flowPulses ++ s.isl.pulses.map (· + (s.now - s.isl.tickAt)))
    svcOverload := if m.svcOverload && s.isl.svcOverload.isNone then some s.now else s.isl.svcOverload } }
  let low := match s.isl.valveLow with
    | some t => decide (t + 200000000 ≤ s.now)
    | none => false
  let s := (tickConditions m low).foldl (fun (s : State) c => s.condition c.1 c.2) s
  let s := { s with isl := { s.isl with
    inlet := s.rtdReading 0x10 m.rtd1AC m.rtd1AB, outlet := s.rtdReading 0x18 m.rtd2AC m.rtd2AB, flow := s.flowReading } }
  (s.ropeTick m).protectTick

/-- A measurement tick. -/
def State.measureTick (s : State) (m : FieldReadings) (at_ : Nat) : State :=
  if !(s.islandUp && decide (s.isl.tickAt + 99000000 ≤ max s.now at_)) then s
  else
    let s := (s.at_ at_).changeSource m.fieldVolts
    if s.isl.powered then s.wakeFast.tickMeasures m else s

def execMeasurementTick (m : FieldReadings) (at_ : Nat) (s : State) : Host.Outcome State Fault Refusal := .next (s.measureTick m at_)

/-- A write of 8020.0A; none: refused. -/
def State.clearLeak (s : State) (v : Nat) : Option State :=
  if v ≠ 1 ∨ s.isl.wet ∨ s.diag 0x30 ∨ s.diag 0x31 ∨ s.diag 0x32 then none
  else some { s with isl := { s.isl with leakLatched := false } }

/-! ## Cooling control (R414–R416, R420) -/

/-- The PI loop with T, from the integral I: (d, I). -/
def piStep (t sp kp ti i : Rat) : Rat × Rat :=
  let e := t - sp
  let trial := i + e / 2
  let u := kp * (e + trial / ti)
  let r : Rat × Rat := if 100 < u ∧ 0 < e then (100, i) else if u < 0 ∧ e < 0 then (0, i) else (u, trial)
  (min 100 (max 0 r.1), r.2)

/-- LOCAL: without a reading the demand is 100; on entry the integral continues the demand in force. -/
def State.coolLocal (s : State) : State :=
  match s.isl.outlet with
  | none => { s with isl := { s.isl with demand := 100, seeded := false } }
  | some t =>
    let kp := s.cool8020 3
    let ti := s.cool8020 4
    let i := if s.isl.seeded ∧ s.isl.mode = 1 then s.isl.integral else s.isl.demand * ti / kp
    let r := piStep t (s.cool8020 2) kp ti i
    { s with isl := { s.isl with demand := r.1, integral := r.2, seeded := true } }

/-- A PI tick. -/
def State.piTick (s : State) (at_ : Nat) : State :=
  if !(s.islandUp && decide (s.isl.piAt + 495000000 ≤ max s.now at_)) then s
  else
    let s := s.at_ at_
    let mode := s.reg 0x802001
    let s : State :=
      if mode = 0 then { s with isl := { s.isl with seeded := false } }
      else if s.isl.tripped.isSome then { s with isl := { s.isl with demand := 100, seeded := false } }
      else if mode = 1 then s.coolLocal
      else { s with isl := { s.isl with seeded := false } }
    ({ s with isl := { s.isl with mode := mode, piAt := s.now } } : State).remoteDemand

def execPiTick (at_ : Nat) (s : State) : Host.Outcome State Fault Refusal := .next (s.piTick at_)

/-! ## The service output (R411, R412) -/

/-- A write of 8050.02; none: refused. -/
def State.testService (s : State) (v : Nat) : Option State :=
  if v ≠ 1 then none else some { s with isl := { s.isl with svcTestUntil := some (s.now + 5000000000) } }

def State.testEnds (s : State) (at_ : Nat) : State :=
  match s.isl.svcTestUntil with
  | some t =>
    if t ≤ max s.now at_ then let s := s.at_ at_; { s with isl := { s.isl with svcTestUntil := none } } else s
  | none => s

def execServiceOutputTestEnd (at_ : Nat) (s : State) : Host.Outcome State Fault Refusal := .next (s.testEnds at_)

def State.svcRetry (s : State) (at_ : Nat) : State :=
  match s.isl.svcOverload with
  | some t =>
    if t + 1000000000 ≤ max s.now at_ then let s := s.at_ at_; { s with isl := { s.isl with svcOverload := none } } else s
  | none => s

def execSvcOutRetry (at_ : Nat) (s : State) : Host.Outcome State Fault Refusal := .next (s.svcRetry at_)

/-! ## Island time (R405) -/

/-- Two seconds have passed without a time-sync message; 8000.01 shows it from then on. -/
def State.syncLost (s : State) (at_ : Nat) : State :=
  if s.islandUp ∧ 2000000000 ≤ (s.at_ at_).syncAge then s.at_ at_ else s

def execTimeSyncLost (at_ : Nat) (s : State) : Host.Outcome State Fault Refusal := .next (s.syncLost at_)

/-! ## Messages received (R407) -/

/-- Is a type in the table of R407 for its direction, and a payload length one of that type (log entry 31)? -/
def crossingFits (toIsland : Bool) (kind n : Nat) : Bool :=
  match kind with
  | 1 | 2 => decide (24 ≤ n)
  | 3 => !toIsland && n == 60
  | 4 => !toIsland && n == 8
  | 5 | 6 => !toIsland && n == 0
  | 7 => !toIsland && n == 1
  | 8 => toIsland && n == 1
  | 9 => if toIsland then n == 1028 else n == 36
  | 0x0A => if toIsland then n == 1028 else decide (4 < n) && decide (n ≤ 1536)
  | 0x0B => toIsland && decide (4 < n) && decide (n ≤ 1536)
  | 0x0C => if toIsland then n == 4 else n == 1
  | 0x0D => toIsland && n == 9
  | _ => false

/-- Does a receiver take a message as it arrives: type, length and CRC are right (R407)? -/
def crossingOk (toIsland : Bool) (bs : List Byte) : Bool :=
  let n := numAt bs 2 2
  crossingFits toIsland (numAt bs 0 1) n && bs.length == 6 + n && numAt bs (4 + n) 2 == (crc16 (bs.take (4 + n))).toNat

/-- A message as it arrives: one that the channel damages has a bit of its CRC inverted. -/
def Crossing.received (m : Crossing) (intact : Bool) : List Byte :=
  if intact then m.bytes else m.bytes.dropLast ++ [m.bytes.getLastD 0 ^^^ 1]

/-- The message at the head of the channel to the host side, if it is of a kind: one that is not right is dropped and counted at 8000.03. -/
def State.hostGets (s : State) (kind : Nat) (intact : Bool) (f : State → Crossing → State) : State :=
  match s.isl.toHost with
  | [] => s
  | m :: rest =>
    if m.kind ≠ kind then s
    else
      let s := { s with isl := { s.isl with toHost := rest } }
      if !s.pow.powered then s else if crossingOk false (m.received intact) then f s m else s.bump 0x800003

/-- Does the island hear messages of a kind: its firmware all, its boot ROM in recovery those of the dictionary and of firmware (R452)? -/
def State.islandHears (s : State) (kind : Nat) : Bool := s.islandUp || (s.isl.powered && [1, 2, 0x0B].contains kind)

/-- The same for the channel to the island; a message starts its fast clock. -/
def State.islandGets (s : State) (kind : Nat) (intact : Bool) (f : State → Crossing → State) : State :=
  match s.isl.toIsland with
  | [] => s
  | m :: rest =>
    if m.kind ≠ kind then s
    else
      let s := { s with isl := { s.isl with toIsland := rest } }
      if !s.islandHears kind then s else if crossingOk true (m.received intact) then f s.wakeFast m else s.wakeFast.bump 0x800003

def execTelemetryPushMsg (intact : Bool) (s : State) : Host.Outcome State Fault Refusal :=
  .next (s.hostGets 3 intact fun s m => { s with pow := { s.pow with telemetry := m.payload, telemetryAt := s.now } })

def execCoolingStateMsg (intact : Bool) (s : State) : Host.Outcome State Fault Refusal :=
  .next (s.hostGets 4 intact fun s m =>
    { s with pow := { s.pow with cooling := m.payload, tripDie := if numAt m.payload 3 1 = 1 then none else s.pow.tripDie } })

def execWakeMsg (intact : Bool) (s : State) : Host.Outcome State Fault Refusal := .next (s.hostGets 5 intact fun s _ => s.setRequest 0)

def execDormantRequestMsg (intact : Bool) (s : State) : Host.Outcome State Fault Refusal :=
  .next (s.hostGets 6 intact fun s _ => s.setRequest 1)

def execThrottleMsg (intact : Bool) (s : State) : Host.Outcome State Fault Refusal :=
  .next (s.hostGets 7 intact fun s m => { s with pow := { s.pow with throttle := numAt m.payload 0 1 } })

/-- The trip is logged once, and the valve opens at once in LOCAL and REMOTE (R420). -/
def State.tripHeard (s : State) (die : Nat) : State :=
  let s := if s.isl.tripped.isSome then s else s.logDiag 0x80 true
  { s with isl := { s.isl with tripped := some die, demand := if s.isl.mode = 0 then s.isl.demand else 100 } }

def execThermalTripMsg (intact : Bool) (s : State) : Host.Outcome State Fault Refusal :=
  .next (s.islandGets 8 intact fun s m => s.tripHeard (numAt m.payload 0 1))

def execServiceFlagMsg (toIsland intact : Bool) (s : State) : Host.Outcome State Fault Refusal :=
  .next (if toIsland then
    s.islandGets 0x0C intact fun s m => { s with isl := { s.isl with hostService := decide (leNat m.payload ≠ 0) } }
  else
    s.hostGets 0x0C intact fun s m =>
      ({ s with pow := { s.pow with islandService := decide (leNat m.payload ≠ 0) } } : State).updateService)

/-- Fabric time and host state arrive: a request that is satisfied stands no longer, and a trip ends with ACTIVE. -/
def State.syncHeard (s : State) (m : Crossing) : State :=
  let st := numAt m.payload 8 1
  let s := { s with isl := { s.isl with
    time := numAt m.payload 0 8, lastSync := s.now, syncAge := 0, hostState := st
    wakeRequest := s.isl.wakeRequest && st != 1, dormantRequest := s.isl.dormantRequest && st != 3 } }
  if s.isl.tripped.isSome ∧ st = 1 then
    let s := s.logDiag 0x80 false
    ({ s with isl := { s.isl with tripped := none } } : State).remoteDemand
  else s

def execTimeSyncMsg (intact : Bool) (s : State) : Host.Outcome State Fault Refusal := .next (s.islandGets 0x0D intact State.syncHeard)

/-! ## Attestation and firmware messages (R451, R453) -/

/-- The other side is asked for its part: the island signs the host's body in its turn, or the host side forms its part for the island. -/
def execAttestationRequestMsg (toIsland intact : Bool) (s : State) : Host.Outcome State Fault Refusal :=
  .next (if toIsland then
    s.islandGets 9 intact fun s m => s.signQuotes
      (s.isl.quotes ++ [{ tag := numAt m.payload 0 2, ctx := none, asked := s.now, part := some (slice m.payload 4 1024) }])
  else
    s.hostGets 9 intact fun s m => s.toIsland 0x0A (slice m.payload 0 2 ++ [0, 1] ++ s.hostPart (slice m.payload 4 32)))

/-- A fragment of a quote arrives for a context of the host side. -/
def State.fragmentHeard (s : State) (m : Crossing) : State :=
  let tag := numAt m.payload 0 2
  match s.dict.quotes.find? fun q => q.tag == tag with
  | none => s
  | some q =>
    let q := { q with fragments := q.fragments ++ [(numAt m.payload 2 1, m.payload.drop 4)] }
    let n := numAt m.payload 3 1
    let parts := (List.range n).map fun i => q.fragments.find? fun f => f.1 == i
    let others := s.dict.quotes.filter fun (j : QuoteJob) => j.tag != tag
    if parts.all Option.isSome then
      ({ s with dict := { s.dict with quotes := others } } : State).giveQuote q.ctx (parts.flatMap fun f => (f.map Prod.snd).getD [])
    else { s with dict := { s.dict with quotes := others ++ [q] } }

/-- The host side's part arrives at the island. -/
def State.partHeard (s : State) (m : Crossing) : State :=
  s.partOf (numAt m.payload 0 2) (m.payload.drop 4)

def execAttestationQuoteMsg (toIsland intact : Bool) (s : State) : Host.Outcome State Fault Refusal :=
  .next (if toIsland then s.islandGets 0x0A intact State.partHeard else s.hostGets 0x0A intact State.fragmentHeard)

def execFirmwareImageBlockMsg (intact : Bool) (s : State) : Host.Outcome State Fault Refusal :=
  .next (s.islandGets 0x0B intact fun s m =>
    { s with isl := { s.isl with blocks := s.isl.blocks ++ [(numAt m.payload 0 4, m.payload.drop 4)] } })

end Sys2Proof.Machine
end

