-- ==== Sys2Proof/Machine/Entries.lean ====
section
/-! DEFINITION. Names of dictionary entries (R377, R384, R472), requester contexts (R380, R381, R394), descriptions (R385), and what every entry
reads (the entry tables of the chapters). -/

namespace Sys2Proof.Machine

open Sys2Proof

/-! ## Names -/

/-- An entry by its name: its row, whether the name is that of its shadow, and for the entries of a pool which one. -/
structure Named where
  entry : DictEntry
  shadow : Bool
  pool : Nat
  deriving DecidableEq, Repr

/-- The row that index and subindex name. Pool p has index 7100 + p; a counter's shadow stands at its subindex + 0x80. -/
def resolve (index sub : Nat) : Option Named :=
  let pool := if 0x7100 ≤ index ∧ index ≤ 0x710F then index - 0x7100 else 0
  let i := index - pool
  match entryOf (i * 256 + sub) with
  | some e => some ⟨e, false, pool⟩
  | none =>
    if sub < 0x80 then none
    else
      match entryOf (i * 256 + sub - 0x80) with
      | some e => if e.counter then some ⟨e, true, pool⟩ else none
      | none => none

/-- Every name, as index × 256 + subindex. -/
def allNames : List Nat :=
  dictTable.flatMap fun e =>
    let ks := if e.key / 256 = 0x7100 then (List.range 16).map fun p => e.key + p * 256 else [e.key]
    ks.flatMap fun k => if e.counter then [k, k + 0x80] else [k]

/-- The first name after one, in increasing order. -/
def nextName (n : Nat) : Option Nat := minBy id (allNames.filter fun k => decide (n < k))

/-- The element size of a value (R387): the seed table's stores are of 8 B. -/
def DictEntry.element (e : DictEntry) : Nat := if e.key = 0x301002 then 8 else e.size

/-- The 16 B of a description (R385). -/
def Named.describe (n : Named) : List Byte :=
  let e := n.entry
  [BitVec.ofNat 8 e.type.code, BitVec.ofNat 8 (if n.shadow then 1 else e.access.code), BitVec.ofNat 8 e.paths,
    BitVec.ofNat 8 (if n.shadow then 0 else e.role)] ++ natLE 4 e.size ++ natLE 4 e.element
    ++ [BitVec.ofNat 8 (if n.shadow then 0 else b2n e.selector + 2 * b2n e.counter), 0, 0, 0]

/-! ## Contexts (R380, R381, R394) -/

def CtxState.fresh (c : Ctx) (now : Nat) : CtxState := ⟨c, 0, [], now, none, 0, none⟩

def State.context (s : State) (c : Ctx) : CtxState := (s.dict.contexts.find? fun k => k.ctx == c).getD (CtxState.fresh c s.now)

def State.setContext (s : State) (k : CtxState) : State :=
  { s with dict := { s.dict with contexts := (s.dict.contexts.filter fun (x : CtxState) => x.ctx != k.ctx) ++ [k] } }

def roleIdle : Nat := 1800000000000

/-- The role in force: a raised one lapses after 30 minutes without a request. -/
def State.roleOf (s : State) (c : Ctx) : Nat :=
  let k := s.context c
  if k.last + roleIdle ≤ s.now then 0 else k.role

/-- How many contexts of a path are kept. -/
def pathLimit (path : Nat) : Nat := if path = 2 then 32 else 16

/-- A full table gives up the context that has been idle longest. -/
def evict (ks : List CtxState) (path : Nat) : List CtxState :=
  let same := ks.filter fun k => k.ctx.path == path
  if path = 1 ∨ same.length < pathLimit path then ks
  else
    match minBy id (same.map CtxState.last) with
    | some t => ks.eraseP fun k => k.ctx.path == path && k.last == t
    | none => ks

/-- A request arrives from a context. -/
def State.touch (s : State) (c : Ctx) : State :=
  let role := s.roleOf c
  let k := { s.context c with role := role, last := s.now }
  let s := if s.dict.contexts.any fun x => x.ctx == c then s
    else { s with dict := { s.dict with contexts := evict s.dict.contexts c.path } }
  s.setContext k

/-- A selector's value in a context. -/
def State.selected (s : State) (c : Ctx) (key : Nat) : Nat := (SMap.get none (s.context c).selectors key).getD (dfltOf key)

/-- The unit an access reaches. -/
def State.unitOf (s : State) (c : Ctx) (n : Named) : Nat := if n.entry.unitOf = 0 then n.pool else s.selected c n.entry.unitOf

/-! ## Values -/

/-- Records of a log, oldest first. -/
def logBytes {w : Nat} (n : Nat) (l : List (BitVec w)) : List Byte := l.flatMap fun r => natLE n r.toNat

/-- The ordering code (R490). -/
def orderingCode : Grade → List Byte
  | .full => [0x4C, 0x57, 0x58, 0x2D, 0x53, 0x4B, 0x44, 0x31, 0x36, 0x2D, 0x46]
  | .reduced => [0x4C, 0x57, 0x58, 0x2D, 0x53, 0x4B, 0x44, 0x31, 0x36, 0x2D, 0x54]

/-- One of the 36 upper-case letters and digits. -/
def serialChar (b : Byte) : Byte := let n := b.toNat % 36; BitVec.ofNat 8 (if n < 10 then 0x30 + n else 0x41 + n - 10)

/-- The PCI identity (R493). -/
def State.pciIdentity (s : State) : Nat :=
  let v := Config.pciVendorId.toNat
  v + Config.pciDeviceId.toNat * 2 ^ 16 + v * 2 ^ 32 + (match s.grade with
    | .full => 1
    | .reduced => 2) * 2 ^ 48

/-- Expected lost misses (R149): U × Ms ÷ Ss, rounded once. -/
def State.lostMisses (s : State) : Nat :=
  if s.reg 0x208103 = 0 then 0 else ratF32 (mkRat (s.reg 0x208105 * s.reg 0x208104) (s.reg 0x208103))

/-- Active banks as shown (R117), one bit per logical comb. -/
def State.activeBanks (s : State) : List Byte :=
  (List.range 2048).map fun i => BitVec.ofNat 8 ((List.range 8).map fun b => b2n (s.comb (8 * i + b)).shownB * 2 ^ b).sum

/-- Expert home state (5820.03). -/
def State.homeBytes (s : State) (e : Nat) : List Byte :=
  let h := s.home e
  [BitVec.ofNat 8 h.state, 0, 0, 0] ++ natLE 4 (min h.closes.length (2 ^ 32 - 1)) ++ natLE 4 (min h.parts (2 ^ 32 - 1))
    ++ natLE 4 (min (h.closes.map fun c => c.2.1).sum (2 ^ 32 - 1))

/-- When the sensors of power-gated units were last read: entries of such units read as they stood at DORMANT entry (R397). -/
def State.sensedAt (s : State) : Nat := if s.pow.state = 3 ∨ s.pow.state = 4 then s.pow.sleptAt else s.now

/-- Scarab's measured share of the HBM bandwidth (B000.02), 0 at a reset; it is at most 10 per mille (R459). -/
def State.scarabShare (s : State) : Nat :=
  if s.sensedAt = s.swarm.resetAt then 0 else Config.reading 0xB00002 s.sensedAt % 11

/-- Input energy since the cold reset (9000.04) at a time: what each second of fabric time drew, a free number (log entry 12), adds up. -/
def inputEnergy (t : Nat) : Nat :=
  min (2 ^ 64 - 1) ((List.range (t / 1000000000)).map fun k => Config.reading 0x900004 k % 4096).sum

/-- Lane optics (6030.02). -/
def State.laneBytes (s : State) (p : Nat) : List Byte :=
  let heater (i t : Nat) : List Byte := natLE 2 (SMap.get 0 s.opt.heaters ((p * 8 + i) * 2 + t))
  ((List.range 8).flatMap fun i => natLE 2 (Config.reading (0x603002 * 256 + p * 8 + i) s.sensedAt))
    ++ ((List.range 8).flatMap fun i => heater i 0) ++ ((List.range 8).flatMap fun i => heater i 1) ++ List.replicate 16 0

/-- Scrub progress (B000.01). -/
def State.scrubBytes (s : State) : List Byte :=
  natLE 8 s.health.hbmPasses ++ natLE 8 s.health.nearPasses ++ natLE 4 (s.health.hbmPos * 1000 / hbmCodewords)
    ++ natLE 4 (s.health.nearPos * 1000 / nearWords) ++ List.replicate 8 0

/-- Failed combs of a hive (B001.03). -/
def State.failedBytes (s : State) (h : Nat) : List Byte :=
  (List.range 136).map fun i => BitVec.ofNat 8 ((List.range 8).map fun b => b2n (s.combFailed h (8 * i + b)) * 2 ^ b).sum

/-- What a value reads, as bytes; `u` is the unit. A read of a counter not named here, or of a stored value, gives the value kept. -/
def State.valueOf (s : State) (c : Ctx) (e : DictEntry) (u : Nat) : List Byte :=
  let n (v : Nat) : List Byte := natLE e.size v
  match e.key with
  | 0x100001 => orderingCode s.grade
  | 0x100002 => n s.pciIdentity
  | 0x100003 => (List.range 16).map fun i => serialChar (Config.serialByte i)
  | 0x100004 => n (max 1 (Config.hardwareRevision.toNat / 256) * 256 + max 1 (Config.hardwareRevision.toNat % 256))
  | 0x102001 => n s.pow.request
  | 0x102002 => n s.pow.state
  | 0x103003 => n (s.roleOf c)
  | 0x103102 => (List.range 32).map Config.vendorKeyDigestByte
  | 0x104004 => n (s.host.speed + s.host.width * 2 ^ 4 + b2n s.host.inL1 * 2 ^ 10)
  | 0x105003 => n (match s.newestImage with
      | some i => i.generation
      | none => 0)
  | 0x105004 => n (if s.dict.images = 0 then 0 else Config.storeWear s.dict.images % 256)
  | 0x200001 => n s.swarm.hives.toNat
  | 0x202002 => s.activeBanks
  | 0x205001 => slice (logBytes 32 s.swarm.haltLog) 0 2048
  | 0x20810A => n s.lostMisses
  | 0x301002 => (List.range 65536).flatMap fun t => natLE 8 (s.seedOf t)
  | 0x303003 => n (s.record u).bits
  | 0x403001 => n (s.freeShared false)
  | 0x403002 => n (s.freeShared true)
  | 0x404002 => n (s.groupEntry u)
  | 0x406001 => slice (logBytes 32 s.net.discards) 0 2048
  | 0x406003 => (List.range 16).flatMap fun r => natLE 8 (s.reg e.key r)
  | 0x414001 => (List.range 8).flatMap fun t => natLE 8 (SMap.get 0 s.net.sentByTc (u * 8 + t))
  | 0x420002 => n (s.mirror u).control.toNat
  | 0x420003 => n (s.mirror u).value.toNat
  | 0x420004 => n (s.mirror u).mask.toNat
  | 0x420005 => n (s.mirror u).allowance
  | 0x420006 => n (s.mirror u).made
  | 0x420007 => n (s.mirror u).dropped
  | 0x500002 => n (s.group u).record.toNat
  | 0x500003 => s.groupState u
  | 0x501002 => n s.chunksHeld
  | 0x504002 => n (SMap.get 0 s.coll.channels u).toNat
  | 0x580001 => n s.eng.working.toNat
  | 0x580101 => (List.range 32).flatMap fun g => natLE 4 (4194304 - s.scratchUsed g)
  | 0x581002 => n (s.ctx u).record.toNat
  | 0x581003 => n ((s.ctx u).state + 128 * b2n (s.ctx u).rearm)
  | 0x581004 => n (contextCounts (s.ctx u))
  | 0x582002 => n (s.expert u)
  | 0x582003 => s.homeBytes u
  | 0x600001 => n ((List.range 32).map fun p => b2n (s.portFitted p) * 2 ^ p).sum
  | 0x601001 => n s.node
  | 0x602003 => s.linkStateBytes (2 * u) ++ s.linkStateBytes (2 * u + 1)
  | 0x603001 => (List.range 32).flatMap fun i => natLE 8 (s.reg e.key (2 * u * 16 + i))
  | 0x603002 => s.laneBytes u
  | 0x604002 => (List.range 16).flatMap fun i => natLE 8 (s.laserRecord u (i / 2) (i % 2))
  | 0x701003 => slice (logBytes 32 s.mem.log) 0 2048
  | 0x702001 => n s.repairPercent
  | 0x702004 => n (s.mem.candidates.filter fun x => x.2).length
  | 0x710001 => n (s.pool u).record.toNat
  | 0x710002 => n (s.pool u).state
  | 0x710003 => n (s.pool u).free
  | 0x720001 => slice (logBytes 32 s.mem.rejections) 0 2048
  | 0x800001 => n (b2n s.isl.fieldSupply + 2 * b2n s.unsynced + 4 * b2n s.pow.powered)
  | 0x800002 => n s.isl.resets
  | 0x80200B => n (b2n s.isl.leakLatched + 2 * b2n s.isl.wet + 4 * b2n s.isl.protection)
  | 0x803001 => n s.isl.active.toNat
  | 0x803002 => slice (logBytes 16 s.isl.log) 0 1024
  | 0x804001 => n (optF32 s.isl.inlet)
  | 0x804002 => n (optF32 s.isl.outlet)
  | 0x804003 => n (optF32 s.isl.flow)
  | 0x804004 => n (ratF32 s.isl.demand)
  | 0x804005 => n (ratF32 s.isl.valveCurrent)
  | 0x804006 => n (s.isl.leakOhm.getD 0xFFFFFFFF)
  | 0x804007 => n (ratF32 s.isl.supply)
  | 0x900001 | 0x900002 | 0x900003 => n (Config.reading e.key s.now)
  | 0x900004 => n (inputEnergy s.now)
  | 0xB00002 => n s.scarabShare
  | 0x900005 => n (b2n (decide (s.pow.input = 1)) + 2 * b2n (decide (s.pow.input = 2)))
  | 0x901004 => n s.drainStatus
  | 0x902002 => n s.level
  | 0x902003 => n s.clockMHz
  | 0x903001 => s.pow.temps.toList.flatMap fun t => natLE 2 (ofInt 16 t)
  | 0x904001 => s.syncBytes
  | 0x904003 => n s.now
  | 0xA00001 => n s.trust.boots
  | 0xA00002 => slotsBytes s.trust.islandSlots
  | 0xA00003 => slotsBytes s.trust.hostSlots
  | 0xA00004 => s.islandVersions ++ s.hostVersions ++ List.replicate 16 0
  | 0xA00005 => n (b2n (!s.identityGood))
  | 0xA01002 => s.bankRecords
  | 0xA03001 => s.floorBytes
  | 0xA04002 => slice ((s.context c).quote.getD []) 0 3444
  | 0xA05001 => slice Config.certificate 0 4096
  | 0xA05002 => identityKey s.trust.islandBoot
  | 0xB00001 => s.scrubBytes
  | 0xB00102 => (List.range 1024).flatMap fun i => natLE 2 (s.physicalOf (u * 1024 + i))
  | 0xB00103 => s.failedBytes u
  | 0xB00104 => (List.range 16).flatMap fun h => natLE 2 (s.sparesIn h)
  | 0xB01000 => n s.health.service.toNat
  | 0xB02001 => n s.health.fatal.toNat
  | 0xB03002 => slice (logBytes 64 s.health.events) 0 4096
  | 0xC01002 => n (SMap.get 0 s.net.rules u).toNat
  | _ => n (if e.selector then s.selected c e.key else s.reg e.key u)

/-- What a counter's shadow reads (R472). -/
def State.shadowOf (s : State) (e : DictEntry) (u : Nat) : List Byte :=
  let one (i : Nat) : Nat := SMap.get 0 s.dict.shadows (e.key * 65536 + i)
  if e.key = 0x406003 then (List.range 16).flatMap fun r => natLE 8 (one r)
  else if e.key = 0x603001 then (List.range 32).flatMap fun i => natLE 8 (one (2 * u * 16 + i))
  else natLE e.size (one u)

/-! ## Challenges (R393) -/

def challengeLife : Nat := 60000000000

/-- A read of 1030.01 creates the context's challenge; none within a second of a failed write. -/
def State.challenge (s : State) (c : Ctx) : Option (List Byte × State) :=
  let k := s.context c
  if s.now < k.challengeAfter then none
  else
    let n := s.dict.challenges
    let bs := (List.range 32).map (Config.nonceByte n) ++ natLE 3 s.node ++ [BitVec.ofNat 8 c.path] ++ List.replicate 12 0
    let s := { s with dict := { s.dict with challenges := n + 1 } }
    some (bs, s.setContext { k with challenge := some (bs, s.now) })

/-- The live challenge of a context. -/
def State.liveChallenge (s : State) (c : Ctx) : Option (List Byte) :=
  match (s.context c).challenge with
  | some (bs, t) => if s.now < t + challengeLife then some bs else none
  | none => none

/-- A read of the whole value, with the status where it fails: reading a challenge creates it, and a tensor record rolls (R180). -/
def State.readWhole (s : State) (c : Ctx) (m : Named) : Except Nat (List Byte) × State :=
  let u := s.unitOf c m
  if m.shadow then (.ok (s.shadowOf m.entry u), s)
  else if m.entry.key = 0x103001 then
    match s.challenge c with
    | some (bs, s) => (.ok bs, s)
    | none => (.error 7, s)
  else if m.entry.key = 0x303003 then let s := s.rollRecord u; (.ok (s.valueOf c m.entry u), s)
  else if m.entry.key = 0xA04002 ∧ (s.context c).quote.isNone then (.error 7, s)
  else (.ok (s.valueOf c m.entry u), s)

end Sys2Proof.Machine
end

