-- ==== Sys2Proof/Machine/Writes.lean ====
section
/-! DEFINITION. What a write to each dictionary entry does (the entry tables of the chapters), unlocking (R393, R394) and the configuration
store (R396). Each answers a status of R386 with the state after it. -/

namespace Sys2Proof.Machine

open Sys2Proof

/-- The outcome of a write: performed, or refused with status 0x06 when there is no next state. -/
def orRefused (s : State) : Option State → Nat × State
  | some t => (0, t)
  | none => (6, s)

/-- A recorded service write (R445). -/
def State.recorded (r : Nat × State) (c : Ctx) (role key : Nat) (bs : List Byte) : Nat × State :=
  if r.1 = 0 then (0, r.2.serviceEvent 2 c role key bs) else r

/-! ## Power request (R407, R418, R427) -/

/-- 1020.01: on the W path it travels as a wake or dormant request; 0x00 is refused on the others while a leak asks for DORMANT. -/
def State.writeRequest (s : State) (c : Ctx) (v : Nat) : Nat × State :=
  if 1 < v then (6, s)
  else if c.path = 3 then (0, { s with isl := { s.isl with wakeRequest := decide (v = 0), dormantRequest := decide (v = 1) } })
  else if v = 0 ∧ s.isl.leakLatched ∧ s.reg 0x802006 = 1 then (6, s)
  else (0, s.setRequest v)

/-! ## Roles (R393, R394) -/

/-- "LWX-DICT-UNLOCK". -/
def unlockText : List Byte := [0x4C, 0x57, 0x58, 0x2D, 0x44, 0x49, 0x43, 0x54, 0x2D, 0x55, 0x4E, 0x4C, 0x4F, 0x43, 0x4B]

/-- Does an unlock response verify against a challenge? The vendor's public key is the one in the firmware image. -/
def State.unlockGood (s : State) (ch bs : List Byte) : Bool :=
  let role := numAt bs 0 1
  let m := unlockText ++ [BitVec.ofNat 8 role] ++ ch
  let sig := slice bs 12 2420
  let serviceKey := s.reg 0x103101
  numAt bs 1 11 == 0
    && ((decide (role = 1) && decide (serviceKey ≠ 0) && mldsaVerify (natLE 1312 serviceKey) m sig)
      || (decide (role = 2) && mldsaVerify (slice s.trust.host.image 64 1312) m sig))

/-- A write of 1030.02 fails: whatever challenge the context has is used up, and its next is given no sooner than 1 s later. -/
def State.unlockFails (s : State) (c : Ctx) : State :=
  s.setContext { s.context c with challenge := none, challengeAfter := s.now + 1000000000 }

/-- A write of 1030.02: each challenge serves one. -/
def State.unlock (s : State) (c : Ctx) (bs : List Byte) : Nat × State :=
  match s.liveChallenge c with
  | none => (4, s.unlockFails c)
  | some ch =>
    if s.unlockGood ch bs then
      let role := numAt bs 0 1
      (0, (s.setContext { s.context c with challenge := none, role := role }).serviceEvent 1 c role 0 ch)
    else (4, (s.unlockFails c).bump 0x103103)

/-- A write of 1030.04. -/
def State.lock (s : State) (c : Ctx) (v : Nat) : Nat × State :=
  if v = 1 then (0, s.setContext { s.context c with role := 0 }) else (6, s)

/-- 1031.01: while it holds a key only a raised role changes it. -/
def State.writeServiceKey (s : State) (c : Ctx) (role v : Nat) (bs : List Byte) : Nat × State :=
  if role = 0 ∧ s.reg 0x103101 ≠ 0 then (4, s) else State.recorded (0, s.setReg 0x103101 v) c role 0x103101 bs

/-! ## Units -/

/-- A mirror control word that R258 accepts. -/
def State.mirrorOk (s : State) (v : Nat) : Bool :=
  let a := fieldOf 49 42 v
  !bitOf v 63
    || (decide (fieldOf 61 60 v ≠ 3) && decide (fieldOf 59 58 v ≠ 0) && decide (fieldOf 57 50 v ≤ 0x52)
      && (a == 0x50 || (decide (a < 0x40) && s.linkExists a)) && (!bitOf v 62 || bitOf (s.reg 0x430002) 7))

/-- Buckets of a port follow new elements: one that is turned on starts full, one already on keeps its tokens up to the new burst. -/
def State.retuned (s : State) (key u v : Nat) (m : SMap (Option Bucket)) : SMap (Option Bucket) :=
  (List.range 8).foldl (fun m t =>
    let old := s.bucketElement key u t
    let e := v / 2 ^ (64 * t) % 2 ^ 64
    let k := u * 8 + t
    if old.1 = 0 ∨ e / 2 ^ 32 = 0 then SMap.put none m k none
    else SMap.put none m k (some ⟨min (bucketNow (SMap.get none m k) old.1 old.2 s.now) (e % 2 ^ 32 * 8000 : Nat), s.now⟩)) m

def State.writeShapers (s : State) (u v : Nat) : State :=
  ({ s with net := { s.net with shapers := s.retuned 0x412002 u v s.net.shapers } } : State).setReg 0x412002 v u

def State.writePolicers (s : State) (u v : Nat) : State :=
  ({ s with net := { s.net with policers := s.retuned 0x413002 u v s.net.policers } } : State).setReg 0x413002 v u

/-- A transfer request (R187). -/
def State.requestTransfer (s : State) (v : Nat) : Nat × State :=
  let a := s.reg 0x303301
  if s.num.transfer.isSome then (7, s)
  else if v ≠ 1 ∧ v ≠ 2 then (6, s)
  else if nodeOf a ≠ s.node ∨ a % 64 ≠ 0 ∨ !plainRegion (localOf a) imageBytes then (0, s.setReg 0x303303 0x10)
  else
    let r := if v = 1 then s.exportRecords a else s.importRecords a
    (0, ({ r.2 with num := { r.2.num with transfer := some ⟨decide (v = 1), a, r.1⟩ } } : State).setReg 0x303303 1)

/-- A transfer finishes: 3033.03 reports its status. -/
def State.transferDone (s : State) : State :=
  match s.num.transfer with
  | none => s
  | some t =>
    if s.running then ({ s with num := { s.num with transfer := none } } : State).setReg 0x303303 t.result else s

def execScaleTransferDone (s : State) : Host.Outcome State Fault Refusal := .next s.transferDone

/-- 5800.09 names a stream by its handle. -/
def State.detach (s : State) (h : Nat) : Option State :=
  if s.eng.streams.any fun t => t.handle == h then some (s.endStream h 2) else none

/-- A firmware command (R453). -/
def State.fwCommand (s : State) (role v : Nat) : Nat × State :=
  let comp := v / 16
  let op := v % 16
  let x := s.component comp
  if (comp ≠ 1 ∧ comp ≠ 2) ∨ op = 0 ∨ 3 < op then (6, s)
  else if op ≠ 2 ∧ role = 0 then (4, s)
  else if s.trust.staging.isSome then (7, s)
  else if !s.isl.powered ∧ (comp = 2 ∨ op = 3) then (9, s)
  else if op = 1 then (if x.stageable then (0, s.stageImage comp) else (6, s))
  else if op = 3 then (if x.running.isNone then (6, s) else (0, s.confirm comp))
  else if !x.staged then (6, s)
  else
    let s := s.setComponent comp { x with active := x.target, staged := false }
    (0, if comp = 2 then s.resetIsland else s)

/-- 6030.01: the counters of both links of a port. -/
def State.clearLinks (s : State) (p : Nat) : State :=
  (List.range 32).foldl (fun (s : State) i => s.setReg 0x603001 0 (2 * p * 16 + i)) s

/-- A write that clears a counter of unit `u`. -/
def State.clearCounter (s : State) (key u : Nat) : State :=
  match key with
  | 0x406003 => (List.range 16).foldl (fun (s : State) r => s.setReg key 0 r) s
  | 0x420006 => s.setMirror u { s.mirror u with made := 0 }
  | 0x420007 => s.setMirror u { s.mirror u with dropped := 0 }
  | 0x581004 => s.setCtx u { s.ctx u with counts := Vector.replicate 8 0 }
  | 0x603001 => s.clearLinks u
  | _ => s.setReg key 0 u

/-! ## The configuration store (R396) -/

/-- The slot that does not hold the newest valid image. -/
def State.otherSlot (s : State) : Nat :=
  let a := s.dict.slots.getD 0 ⟨false, 0, []⟩
  if a.valid && decide (s.newestImage = some a) then 1 else 0

/-- An image with the next generation is being written. -/
def State.startCommit (s : State) (values : SMap (Option Nat)) : State :=
  let g := match s.newestImage with
    | some i => i.generation + 1
    | none => 1
  ({ s with dict := { s.dict with committing := some ⟨true, g, values⟩, images := s.dict.images + 1 } } : State).setReg 0x105002 1

/-- The image is written and verified, or found bad, in which case the old one stays in force. -/
def State.commitDone (s : State) (good : Bool) : State :=
  match s.dict.committing with
  | none => s
  | some i =>
    let j := s.otherSlot
    ({ s with dict := { s.dict with
        committing := none, slots := s.dict.slots.setIfInBounds j { i with valid := good } } } : State).setReg 0x105002 (if good then 0 else 2)

def execStoreCommitDone (verified : Bool) (s : State) : Host.Outcome State Fault Refusal :=
  .next (if s.isl.powered then s.commitDone verified else s)

/-- Every RWS value in force, for every unit. -/
def State.valuesInForce (s : State) : SMap (Option Nat) := s.dict.regs.filter fun e => isRws (e.1 / 65536)

/-- A write of 1050.01; REVERT writes each value by `put`. -/
def State.storeCommand (s : State) (role v : Nat) (put : State → Nat → Nat → Nat → State) : Nat × State :=
  if !s.isl.powered then (9, s)
  else if s.dict.committing.isSome then (7, s)
  else if v = 1 then (0, s.startCommit s.valuesInForce)
  else if v = 2 then
    let image := match s.newestImage with
      | some i => i.values
      | none => []
    let ks := (s.valuesInForce.map Prod.fst) ++ (image.map Prod.fst).filter fun k => (SMap.get none s.dict.regs k).isNone && isRws (k / 65536)
    (0, ks.foldl (fun (s : State) k => put s (k / 65536) (k % 65536) ((SMap.get none image k).getD (dfltOf (k / 65536)))) s)
  else if v = 3 then (if role = 0 then (4, s) else (0, s.startCommit []))
  else (6, s)

/-! ## Writes -/

/-- A write to an entry of a fitted, served unit: `v` is the value without reserved bits, `bs` what was written. -/
def State.act (s : State) (c : Ctx) (role key u v : Nat) (bs : List Byte) : Nat × State :=
  match key with
  | 0x102001 => s.writeRequest c v
  | 0x103002 => s.unlock c bs
  | 0x103004 => s.lock c v
  | 0x103101 => s.writeServiceKey c role v bs
  | 0x202001 => orRefused s (s.swapRequest v)
  | 0x202005 =>
    match s.debugWrite bs with
    | some r => State.recorded (0, r.2) c role key bs
    | none => (6, s)
  | 0x300105 => if v = 0 then (0, s.setReg key 0) else (6, s)
  | 0x303001 => orRefused s (s.recordControl v)
  | 0x303302 => s.requestTransfer v
  | 0x404002 => (0, { s with net := { s.net with groups := SMap.put 0 s.net.groups u (BitVec.ofNat 128 v) } })
  | 0x412002 => if s.valueOk key u v then (0, s.writeShapers u v) else (6, s)
  | 0x413002 => if s.valueOk key u v then (0, s.writePolicers u v) else (6, s)
  | 0x420002 => if s.mirrorOk v then (0, s.setMirror u { s.mirror u with control := BitVec.ofNat 64 v }) else (6, s)
  | 0x420003 => (0, s.setMirror u { s.mirror u with value := BitVec.ofNat 256 v })
  | 0x420004 => (0, s.setMirror u { s.mirror u with mask := BitVec.ofNat 256 v })
  | 0x420005 => if s.valueOk key u v then (0, s.setMirror u { s.mirror u with allowance := v }) else (6, s)
  | 0x430001 => if bitOf (s.reg 0x430002) 7 then (6, s) else (0, s.setReg key v)
  | 0x430002 => orRefused s (s.writeRing 0x430001 10 24 80 v)
  | 0x430004 => orRefused s (s.writeConsumer 0x430001 v)
  | 0x500002 => let r := s.writeGroup u (BitVec.ofNat 256 v); (if r.1 then 0 else 6, r.2)
  | 0x503001 => orRefused s (s.abortRequest v)
  | 0x504002 =>
    match s.writeChannel u (BitVec.ofNat 256 v) with
    | some t => State.recorded (0, t) c role key bs
    | none => (6, s)
  | 0x580009 => orRefused s (s.detach v)
  | 0x581002 => orRefused s (s.writeContext u (BitVec.ofNat 512 v))
  | 0x582002 => orRefused s (s.writeExpert u (BitVec.ofNat 512 v))
  | 0x601005 => if v = 1 then orRefused s s.commitGeometry else (6, s)
  | 0x602002 => orRefused s (s.writePortControl u v)
  | 0x604004 => orRefused s (s.forceSwap u v)
  | 0x710001 => orRefused s (s.writePool u (BitVec.ofNat 256 v))
  | 0x801101 => if v = 1 then (0, s.restartField) else (6, s)
  | 0x802005 => if s.valueOk key u v then (0, (s.setReg key v).remoteDemand) else (6, s)
  | 0x80200A => orRefused s (s.clearLeak v)
  | 0x805002 => orRefused s (s.testService v)
  | 0x901001 => if v = 2 ∧ role = 0 then (4, s) else orRefused s (s.moduleReset (decide (role ≠ 0)) v)
  | 0x901002 => orRefused s (s.hiveReset v)
  | 0x901003 => orRefused s (s.portReset v)
  | 0x901004 => orRefused s (s.writeDrain v)
  | 0x904002 => (0, (s.setReg key v).reparent)
  | 0x904004 => orRefused s (s.setTime v)
  | 0xA01001 => s.measure v
  | 0xA02002 => s.fwCommand role v
  | 0xA04001 => s.askQuote c bs
  | 0xB04001 => if bitOf (s.reg 0xB04002) 7 then (6, s) else (0, s.setReg key v)
  | 0xB04002 => orRefused s (s.writeRing 0xB04001 8 20 64 v)
  | 0xB04004 => orRefused s (s.writeConsumer 0xB04001 v)
  | 0xB05001 => s.requestSnapshot v
  | 0xC00001 => if 1 < v then (6, s) else State.recorded (0, (s.setReg key v).restartInjection) c role key bs
  | 0xC00002 => (0, (s.setReg key v).restartInjection)
  | 0xC01002 =>
    if s.reg 0xC00001 = 1 ∧ s.valueOk key u v then
      (0, { s with net := { s.net with rules := SMap.put 0 s.net.rules u (BitVec.ofNat 64 v) } })
    else (6, s)
  | _ =>
    if isCounter key then (if v = 0 then (0, s.clearCounter key u) else (6, s))
    else if !s.valueOk key u v then (6, s)
    else
      match entryOf key with
      | some e =>
        if e.selector then
          let k := s.context c
          (0, s.setContext { k with selectors := SMap.put none k.selectors key (some v) })
        else (0, s.setReg key v u)
      | none => (1, s)

/-- Is a power-gated unit the entry's (R397, R426)? Selectors belong to the dictionary agent. -/
def gatedKey (key : Nat) : Bool :=
  let i := key / 256
  let selector := match entryOf key with
    | some e => e.selector
    | none => false
  !selector
    && !((decide (0x1000 ≤ i) && decide (i < 0x2000) && i != 0x1010) || (decide (0x8000 ≤ i) && decide (i < 0x9000))
      || (decide (0x9000 ≤ i) && decide (i < 0xA000) && key != 0x901002 && key != 0x901003 && key != 0x901004)
      || (decide (0xA000 ≤ i) && decide (i < 0xB000) && key != 0xA01001 && key != 0xA02002))

/-- A write, where the power state lets it be performed: held for an RWS entry of a gated unit in DORMANT, else unavailable (R397). STORE and
its REVERT go through `act` below. -/
def State.actIn (s : State) (c : Ctx) (role key u v : Nat) (bs : List Byte) : Nat × State :=
  let st := s.pow.state
  if !gatedKey key ∨ st = 1 ∨ st = 2 then s.act c role key u v bs
  else if isRws key ∧ st ≠ 5 then
    if s.valueOk key u v then (0, { s with dict := { s.dict with heldWrites := s.dict.heldWrites ++ [(key * 65536 + u, v)] } })
    else (6, s)
  else (9, s)

/-- One value of a REVERT, or one held in DORMANT, under the entry's own rules; where they refuse it, the value in force stays. -/
def State.putValue (c : Ctx) (role : Nat) (s : State) (key u v : Nat) : State :=
  let n := match entryOf key with
    | some e => e.size
    | none => 0
  (s.actIn c role key u v (natLE n v)).2

/-- Any write, 1050.01 included. -/
def State.perform (s : State) (c : Ctx) (role key u v : Nat) (bs : List Byte) : Nat × State :=
  if key = 0x105001 then s.storeCommand role v (State.putValue c role) else s.actIn c role key u v bs

/-- Writes held in DORMANT are applied on return to ACTIVE. -/
def State.applyHeld (s : State) : State :=
  let ws := s.dict.heldWrites
  let s := { s with dict := { s.dict with heldWrites := [] } }
  ws.foldl (fun (s : State) w => State.putValue .bar0 0 s (w.1 / 65536) (w.1 % 65536) w.2) s

def execWakeComplete (at_ : Nat) (s : State) : Host.Outcome State Fault Refusal := .next (s.wakes at_ State.applyHeld)

end Sys2Proof.Machine
end

