-- ==== Sys2Proof/Machine/Dictionary.lean ====
section
/-! DEFINITION. Items of the dictionary (R377–R387, R397) and the writes that have a row of their own. -/

namespace Sys2Proof.Machine

open Sys2Proof

/-! ## Availability (R397, R452) -/

/-- Entries the trust chapter places on the island. -/
def islandPlaced (key : Nat) : Bool :=
  [0xA00001, 0xA00002, 0xA00004, 0xA00005, 0xA03001, 0xA04001, 0xA04002, 0xA05001, 0xA05002].contains key

/-- Entries served in recovery (R452). -/
def recoveryKey (key : Nat) : Bool := (decide (0x100001 ≤ key) && decide (key ≤ 0x100005)) || key / 2 ^ 20 == 0xA || key == 0x901001

/-- Is the host side's boot ROM in recovery? -/
def State.recovery (s : State) : Bool := s.pow.startingUp && s.trust.host.running.isNone

/-- Is the island's boot ROM in recovery? The field path then reaches only what it serves. -/
def State.islandRecovery (s : State) : Bool := s.isl.powered && s.trust.island.running.isNone

/-- Is an entry's unit powered and running for this path? -/
def State.served (s : State) (c : Ctx) (key : Nat) : Bool :=
  if c.path == 3 && s.islandRecovery && !recoveryKey key then false
  else if onIsland key then s.islandUp
  else if islandPlaced key && c.path == 3 then s.isl.powered
  else
    s.pow.powered && !s.pow.warmHeld && (!s.pow.startingUp || (s.recovery && recoveryKey key)) && (!islandPlaced key || s.isl.powered)

/-- Entries of ports and banks that the grade lacks read as not fitted and refuse writes (R3, R354). Link state and laser inventory have
codes of their own for it, and read with them. -/
def State.fitted (s : State) (key u : Nat) : Bool :=
  if key = 0x602002 ∨ key = 0x603001 ∨ key = 0x603002 then s.portFitted u
  else if key = 0x604003 ∨ key = 0x604004 then s.bankFitted u
  else true

/-- Is the unit of an entry a port of a hive that has failed (R397)? No chapter keeps the service settings and counts of such a port
readable; rules stay readable (R264), and what R463 lists of a failed hive does (log entry 32). -/
def State.unitFailed (s : State) (key u : Nat) : Bool :=
  [0x410002, 0x412002, 0x413002, 0x414001].contains key && decide (0x40 ≤ u) && decide (u < 0x50) && !s.hiveWorks (u - 0x40)

/-! ## Items -/

/-- The answer to an item: status, the name it is about, type code, access class, data. -/
structure Answer where
  status : Nat
  name : Nat
  type : Nat := 0
  access : Nat := 0
  data : List Byte := []
  deriving DecidableEq, Repr

def Named.access (m : Named) : Nat := if m.shadow then 1 else m.entry.access.code

def Named.answer (m : Named) (status name : Nat) (data : List Byte) : Answer :=
  ⟨status, name, m.entry.type.code, m.access, if status = 0 then data else []⟩

/-- May the path reach the entry for this access? The step counter is written on paths H and F alone (R175). -/
def Named.pathOk (m : Named) (path : Nat) (write : Bool) : Bool :=
  bitOf m.entry.paths (path - 1) && !(write && m.entry.key == 0x301001 && path == 3)

def DType.ranged : DType → Bool
  | .str | .blob => true
  | _ => false

/-- A READ. -/
def State.readItem (s : State) (c : Ctx) (m : Named) (off len : Nat) : Nat × List Byte × State :=
  let key := m.entry.key
  if !m.pathOk c.path false then (2, [], s)
  else if !m.shadow && m.entry.access == .wo then (3, [], s)
  else if !s.fitted key (s.unitOf c m) then (8, [], s)
  else if !s.served c key ∨ s.unitFailed key (s.unitOf c m) then (9, [], s)
  else if !m.entry.type.ranged && (off != 0 || len != m.entry.size) then (5, [], s)
  else if m.entry.type == .blob && decide (m.entry.size < off + len) then (5, [], s)
  else
    match s.readWhole c m with
    | (.error st, s) => (st, [], s)
    | (.ok bs, s) => if bs.length < off + len then (5, [], s) else (0, (bs.drop off).take len, s)

/-- The seeds of a range of whole elements, one store each. -/
def State.writeSeeds (s : State) (off : Nat) (bs : List Byte) : State :=
  (List.range (bs.length / 8)).foldl (fun (s : State) i => s.setSeed (off / 8 + i) (BitVec.ofNat 64 (numAt bs (8 * i) 8))) s

/-- A WRITE. -/
def State.writeItem (s : State) (c : Ctx) (m : Named) (off : Nat) (bs : List Byte) : Nat × State :=
  let key := m.entry.key
  let u := s.unitOf c m
  let role := s.roleOf c
  let el := m.entry.element
  if !m.pathOk c.path true then (2, s)
  else if m.shadow || m.entry.access == .ro then (3, s)
  else if role < m.entry.role then (4, s)
  else if !s.fitted key u then (8, s)
  else if !s.served c key ∨ s.unitFailed key u then (9, s)
  else if el < m.entry.size then
    if off % el ≠ 0 ∨ bs.length % el ≠ 0 ∨ bs = [] ∨ m.entry.size < off + bs.length then (5, s)
    else if s.pow.state = 1 ∨ s.pow.state = 2 then (0, s.writeSeeds off bs)
    else (9, s)
  else if off ≠ 0 ∨ bs.length ≠ m.entry.size then (5, if key = 0x103002 then s.unlockFails c else s)
  else s.perform c role key u (cleanValue key (leNat bs)) bs

/-- One item (R382): operation 1 READ, 2 WRITE, 3 DESCRIBE, 4 DESCRIBE NEXT; `bad` says that a reserved byte is set. -/
def State.answerItem (s : State) (c : Ctx) (op index sub off len : Nat) (data : List Byte) (bad : Bool) : Answer × State :=
  let name := index * 256 + sub
  let vendor := decide (s.roleOf c = 2)
  if bad || op == 0 || decide (4 < op) || (decide (3 ≤ op) && len != 0) then (⟨0x0A, name, 0, 0, []⟩, s)
  else if op = 4 then
    match nextName name with
    | none => (⟨1, name, 0, 0, []⟩, s)
    | some n =>
      match resolve (n / 256) (n % 256) with
      | some m => (m.answer 0 n m.describe, s)
      | none => (⟨1, name, 0, 0, []⟩, s)
  else if 0xF000 ≤ index ∧ !vendor then (⟨4, name, 0, 0, []⟩, s)
  else
    match resolve index sub with
    | none => (⟨1, name, 0, 0, []⟩, s)
    | some m =>
      if op = 3 then (m.answer 0 name m.describe, s)
      else if op = 1 then
        let r := s.readItem c m off len
        (m.answer r.1 name r.2.1, r.2.2)
      else
        let r := s.writeItem c m off data
        (m.answer r.1 name [], r.2)

/-- The 16 B header of a response item and its data, padded to 8 B (R385). -/
def Answer.bytes (a : Answer) (op off : Nat) : List Byte :=
  [BitVec.ofNat 8 op, BitVec.ofNat 8 a.status] ++ natLE 2 (a.name / 256) ++ [BitVec.ofNat 8 a.name, BitVec.ofNat 8 a.type, BitVec.ofNat 8 a.access, 0]
    ++ natLE 4 off ++ natLE 4 a.data.length ++ padTo 8 a.data

/-- Perform an item and give its response; a failed one is counted at 1060.01. -/
def State.item (s : State) (c : Ctx) (op index sub off len : Nat) (data : List Byte) (bad : Bool) : List Byte × State :=
  let r := s.answerItem c op index sub off len data bad
  (r.1.bytes op off, if r.1.status = 0 then r.2 else r.2.bump 0x106001)

/-- The item as it stands in a message (R384). -/
def State.itemOf (s : State) (c : Ctx) (it : List Byte) : List Byte × State :=
  let len := numAt it 12 4
  s.item c (numAt it 0 1) (numAt it 2 2) (numAt it 4 1) (numAt it 8 4) len ((it.drop 16).take len)
    (numAt it 1 1 != 0 || numAt it 5 3 != 0)

/-! ## Rows of one item -/

/-- Can a context's carrier bring an item? -/
def State.reachable (s : State) (c : Ctx) : Bool :=
  match c with
  | .bar0 => s.pow.powered && !s.pow.warmHeld && !s.host.inReset && (!s.pow.startingUp || s.recovery)
  | .qp _ => s.hostUp
  | .node _ => s.running
  | .field _ => s.isl.powered

/-- An item that arrives from a context is performed, and its response kept for that context. -/
def State.itemRow (s : State) (c : Ctx) (op index sub off len : Nat) (data : List Byte) : State :=
  if !s.reachable c then s
  else
    let r := (s.touch c).item c op index sub off len data false
    { r.2 with dict := { r.2.dict with response := some (c, r.1) } }

/-- A write of a whole value of `n` bytes. -/
def State.writeRow (s : State) (c : Ctx) (index sub n v : Nat) : State := s.itemRow c 2 index sub 0 n (natLE n v)

/-- A write of bytes. -/
def State.writeBytes (s : State) (c : Ctx) (index sub : Nat) (bs : List Byte) : State := s.itemRow c 2 index sub 0 bs.length bs

def execDictRead (c : Ctx) (index subindex offset length : Nat) (s : State) : Host.Outcome State Fault Refusal :=
  .next (s.itemRow c 1 index subindex offset length [])

def execDictWrite (c : Ctx) (index subindex offset : Nat) (data : List Byte) (s : State) : Host.Outcome State Fault Refusal :=
  .next (s.itemRow c 2 index subindex offset data.length data)

def execDictDescribe (c : Ctx) (index subindex : Nat) (s : State) : Host.Outcome State Fault Refusal :=
  .next (s.itemRow c 3 index subindex 0 0 [])

def execDictDescribeNext (c : Ctx) (index subindex : Nat) (s : State) : Host.Outcome State Fault Refusal :=
  .next (s.itemRow c 4 index subindex 0 0 [])

/-- A write to an entry without a row of its own. -/
def execRegisterWrite (c : Ctx) (index subindex offset : Nat) (data : List Byte) (s : State) : Host.Outcome State Fault Refusal :=
  .next (s.itemRow c 2 index subindex offset data.length data)

/-! ### Roles and the store -/

def execUnlockChallengeRead (c : Ctx) (s : State) : Host.Outcome State Fault Refusal := .next (s.itemRow c 1 0x1030 1 0 48 [])

def execUnlockResponseWrite (c : Ctx) (data : List Byte) (s : State) : Host.Outcome State Fault Refusal := .next (s.writeBytes c 0x1030 2 data)

def execLockWrite (c : Ctx) (v : Byte) (s : State) : Host.Outcome State Fault Refusal := .next (s.writeRow c 0x1030 4 1 v.toNat)

/-- A challenge unused for 60 s expires. -/
def State.challengeGone (s : State) (c : Ctx) (at_ : Nat) : State :=
  match (s.dict.contexts.find? fun k => k.ctx == c) with
  | some k =>
    (match k.challenge with
    | some (_, t) => if t + challengeLife ≤ max s.now at_ then (s.at_ at_).setContext { k with challenge := none } else s
    | none => s)
  | none => s

def execChallengeExpiry (c : Ctx) (at_ : Nat) (s : State) : Host.Outcome State Fault Refusal := .next (s.challengeGone c at_)

/-- A raised role lapses after 30 minutes without a request. -/
def State.roleLapses (s : State) (c : Ctx) (at_ : Nat) : State :=
  match (s.dict.contexts.find? fun k => k.ctx == c) with
  | some k => if k.role ≠ 0 ∧ k.last + roleIdle ≤ max s.now at_ then (s.at_ at_).setContext { k with role := 0 } else s
  | none => s

def execRoleTimeout (c : Ctx) (at_ : Nat) (s : State) : Host.Outcome State Fault Refusal := .next (s.roleLapses c at_)

def execStoreCommit (c : Ctx) (s : State) : Host.Outcome State Fault Refusal := .next (s.writeRow c 0x1050 1 1 1)
def execStoreRevert (c : Ctx) (s : State) : Host.Outcome State Fault Refusal := .next (s.writeRow c 0x1050 1 1 2)
def execStoreClear (c : Ctx) (s : State) : Host.Outcome State Fault Refusal := .next (s.writeRow c 0x1050 1 1 3)

/-! ### Programs, records, pools -/

def execBankSwapRequest (c : Ctx) (v : W64) (s : State) : Host.Outcome State Fault Refusal := .next (s.writeRow c 0x2020 1 8 v.toNat)

def execDebugProgramWrite (c : Ctx) (data : List Byte) (s : State) : Host.Outcome State Fault Refusal := .next (s.writeBytes c 0x2020 5 data)

/-- A binding write or a change of mode bits: bit 36 set, bit 37 clear. -/
def execRecordBind (c : Ctx) (v : W64) (s : State) : Host.Outcome State Fault Refusal :=
  .next (s.writeRow c 0x3030 1 8 (setField v.toNat 36 2 1))

/-- Bits 36 and 37 clear. -/
def execRecordUnbind (c : Ctx) (v : W64) (s : State) : Host.Outcome State Fault Refusal :=
  .next (s.writeRow c 0x3030 1 8 (setField v.toNat 36 2 0))

/-- Bit 37 set. -/
def execRecordClearAlarms (c : Ctx) (v : W64) (s : State) : Host.Outcome State Fault Refusal :=
  .next (s.writeRow c 0x3030 1 8 (setField v.toNat 37 1 1))

def execScaleExport (c : Ctx) (s : State) : Host.Outcome State Fault Refusal := .next (s.writeRow c 0x3033 2 1 1)
def execScaleImport (c : Ctx) (s : State) : Host.Outcome State Fault Refusal := .next (s.writeRow c 0x3033 2 1 2)

def execPoolRecordWrite (c : Ctx) (pool : Nat) (v : W256) (s : State) : Host.Outcome State Fault Refusal :=
  .next (s.writeRow c (0x7100 + pool) 1 32 v.toNat)

/-! ### Switch, engines, collectives -/

def execGeometryCommit (c : Ctx) (v : Byte) (s : State) : Host.Outcome State Fault Refusal := .next (s.writeRow c 0x6010 5 1 v.toNat)
def execCaptureRingEnable (c : Ctx) (v : Byte) (s : State) : Host.Outcome State Fault Refusal := .next (s.writeRow c 0x4300 2 1 v.toNat)
def execInjectionUnlockWrite (c : Ctx) (v : Byte) (s : State) : Host.Outcome State Fault Refusal := .next (s.writeRow c 0xC000 1 1 v.toNat)
def execStreamDetach (c : Ctx) (v : BitVec 16) (s : State) : Host.Outcome State Fault Refusal := .next (s.writeRow c 0x5800 9 2 v.toNat)
def execContextRecordWrite (c : Ctx) (v : W512) (s : State) : Host.Outcome State Fault Refusal := .next (s.writeRow c 0x5810 2 64 v.toNat)

/-- A group record with valid set. -/
def execGroupDefine (c : Ctx) (v : W256) (s : State) : Host.Outcome State Fault Refusal :=
  .next (s.writeRow c 0x5000 2 32 (setField v.toNat 255 1 1))

/-- A group record with valid clear. -/
def execGroupUndefine (c : Ctx) (v : W256) (s : State) : Host.Outcome State Fault Refusal :=
  .next (s.writeRow c 0x5000 2 32 (setField v.toNat 255 1 0))

def execCollectiveAbortRequest (c : Ctx) (v : W64) (s : State) : Host.Outcome State Fault Refusal := .next (s.writeRow c 0x5030 1 8 v.toNat)

/-! ### Ports and lasers -/

/-- Port control with the enable bit set. -/
def execPortEnable (c : Ctx) (v : Byte) (s : State) : Host.Outcome State Fault Refusal :=
  .next (s.writeRow c 0x6020 2 1 (setField v.toNat 0 1 1))

/-- Port control with the enable bit clear. -/
def execPortDisable (c : Ctx) (v : Byte) (s : State) : Host.Outcome State Fault Refusal :=
  .next (s.writeRow c 0x6020 2 1 (setField v.toNat 0 1 0))

def execPortSplit (c : Ctx) (v : Byte) (s : State) : Host.Outcome State Fault Refusal := .next (s.writeRow c 0x6020 2 1 v.toNat)
def execForcedSwap (c : Ctx) (v : Byte) (s : State) : Host.Outcome State Fault Refusal := .next (s.writeRow c 0x6040 4 1 v.toNat)

/-! ### Power and resets -/

def execPowerRequestDormant (c : Ctx) (s : State) : Host.Outcome State Fault Refusal := .next (s.writeRow c 0x1020 1 1 1)
def execPowerRequestActive (c : Ctx) (s : State) : Host.Outcome State Fault Refusal := .next (s.writeRow c 0x1020 1 1 0)
def execWarmReset (c : Ctx) (s : State) : Host.Outcome State Fault Refusal := .next (s.writeRow c 0x9010 1 1 1)
def execColdResetRequest (c : Ctx) (s : State) : Host.Outcome State Fault Refusal := .next (s.writeRow c 0x9010 1 1 2)
def execHiveReset (c : Ctx) (v : Byte) (s : State) : Host.Outcome State Fault Refusal := .next (s.writeRow c 0x9010 2 1 v.toNat)
def execPortReset (c : Ctx) (v : Byte) (s : State) : Host.Outcome State Fault Refusal := .next (s.writeRow c 0x9010 3 1 v.toNat)

/-- 9010.04 with bit 32 set. -/
def execCombDrain (c : Ctx) (v : W64) (s : State) : Host.Outcome State Fault Refusal :=
  .next (s.writeRow c 0x9010 4 8 (setField v.toNat 32 1 1))

/-- 9010.04 with bit 32 clear. -/
def execCombRestart (c : Ctx) (v : W64) (s : State) : Host.Outcome State Fault Refusal :=
  .next (s.writeRow c 0x9010 4 8 (setField v.toNat 32 1 0))

/-! ### The island, trust and telemetry -/

def execLeakClear (c : Ctx) (v : Byte) (s : State) : Host.Outcome State Fault Refusal := .next (s.writeRow c 0x8020 0x0A 1 v.toNat)
def execServiceOutputTest (c : Ctx) (v : Byte) (s : State) : Host.Outcome State Fault Refusal := .next (s.writeRow c 0x8050 2 1 v.toNat)
def execFieldRestart (c : Ctx) (v : Byte) (s : State) : Host.Outcome State Fault Refusal := .next (s.writeRow c 0x8011 1 1 v.toNat)
def execMeasureBank (c : Ctx) (v : W32) (s : State) : Host.Outcome State Fault Refusal := .next (s.writeRow c 0xA010 1 4 v.toNat)
def execQuoteNonceWrite (c : Ctx) (nonce : List Byte) (s : State) : Host.Outcome State Fault Refusal := .next (s.writeBytes c 0xA040 1 nonce)

/-- A020.02 with the stage command of the component in bits [7:4]. -/
def execFwStage (c : Ctx) (v : Byte) (s : State) : Host.Outcome State Fault Refusal :=
  .next (s.writeRow c 0xA020 2 1 (setField v.toNat 0 4 1))

def execFwActivate (c : Ctx) (v : Byte) (s : State) : Host.Outcome State Fault Refusal :=
  .next (s.writeRow c 0xA020 2 1 (setField v.toNat 0 4 2))

def execFwConfirm (c : Ctx) (v : Byte) (s : State) : Host.Outcome State Fault Refusal :=
  .next (s.writeRow c 0xA020 2 1 (setField v.toNat 0 4 3))

def execTelemetryRingEnable (c : Ctx) (v : Byte) (s : State) : Host.Outcome State Fault Refusal := .next (s.writeRow c 0xB040 2 1 v.toNat)
def execSnapshotRequest (c : Ctx) (t : W64) (s : State) : Host.Outcome State Fault Refusal := .next (s.writeRow c 0xB050 1 8 t.toNat)
def execSetFabricTime (c : Ctx) (t : W64) (s : State) : Host.Outcome State Fault Refusal := .next (s.writeRow c 0x9040 4 8 t.toNat)

end Sys2Proof.Machine
end

