-- ==== Sys2Proof/Machine/Messages.lean ====
section
/-! DEFINITION. Dictionary messages (R383–R386, R389) and their carriers: the BAR0 window (R388), queue entries (R389), management frames (R390),
VDP frames (R391, R392), and the messages of the barrier (R407). -/

namespace Sys2Proof.Machine

open Sys2Proof

/-! ## Messages (R383–R385, R389) -/

/-- The items of a message, each with its data. -/
def parseItems : Nat → List Byte → Option (List (List Byte))
  | 0, bs => if bs.isEmpty then some [] else none
  | n + 1, bs =>
    let d := if numAt bs 0 1 = 2 then ceilDiv (numAt bs 12 4) 8 * 8 else 0
    if bs.length < 16 + d then none else (parseItems n (bs.drop (16 + d))).map (bs.take (16 + d) :: ·)

/-- The items of a request, or the message status with which it fails. `exact_`: the carrier gives the message's own length. -/
def parseMessage (bs : List Byte) (exact_ : Bool) : Except Nat (List (List Byte)) :=
  let n := numAt bs 2 2
  let count := numAt bs 1 1
  if bs.length < 8 then .error 2
  else if numAt bs 0 1 ≠ 1 then .error 1
  else if count = 0 ∨ 16 < count ∨ bs.length < n ∨ (exact_ ∧ n ≠ bs.length) then .error 2
  else
    match parseItems count ((bs.take n).drop 8) with
    | some is => .ok is
    | none => .error 2

/-- The bytes of data a response item is counted at. -/
def itemReply (it : List Byte) : Nat :=
  let op := numAt it 0 1
  if op = 1 then ceilDiv (numAt it 12 4) 8 * 8 else if op = 3 ∨ op = 4 then 16 else 0

/-- The response length, known before any item is performed. -/
def replyLength (is : List (List Byte)) : Nat := 8 + (is.map fun it => 16 + itemReply it).sum

/-- A response: header of this node, and items. -/
def State.reply (s : State) (count status : Nat) (body : List Byte) : List Byte :=
  [1, BitVec.ofNat 8 count] ++ natLE 2 (8 + body.length) ++ natLE 3 s.node ++ [BitVec.ofNat 8 status] ++ body

def State.failMessage (s : State) (status : Nat) : List Byte := s.reply 0 status []

/-- A request that names another node than this. -/
def State.elsewhere (s : State) (bs : List Byte) : Bool := !bitOf (numAt bs 7 1) 0 && numAt bs 4 3 != s.node

/-! ## Giving responses to their carriers -/

/-- The response buffer and status of the window (R388). -/
def State.windowReply (s : State) (bs : List Byte) : State :=
  { s with host := { s.host with
      response := (List.range bs.length).foldl (fun m i => SMap.put 0 m i (bs.getD i 0)) s.host.response
      goBusy := false, goStatus := numAt bs 7 1, goLength := bs.length } }

/-- The response of a queue entry, as far as its capacity goes, and its end (R389). -/
def State.entryReply (s : State) (q e : Nat) (bs : List Byte) : State :=
  match s.entry? q e with
  | none => s
  | some x => (s.hostWrite (numAt x.bytes 16 8) (bs.take (numAt x.bytes 26 2))).endEntry q e 0 (bs.length + numAt bs 7 1 * 2 ^ 32)

/-- A management frame from the agent of this module. -/
def State.sendManagement (s : State) (kind node tag : Nat) (bs : List Byte) : State :=
  let body := padTo 64 bs
  let h : Hdr := { destNode := node, destEp := 0x3200, srcNode := s.node, srcEp := 0x3200, kind := kind, units := body.length / 64, seq := tag }
  s.send Origin.management.port ⟨h.encode, body⟩

/-- A VDP response, kept for its context (R391, R392), and sent once more for each duplicate that came while it was being formed (R398). -/
def State.vdpReply (s : State) (mac seq : Nat) (bs : List Byte) : State :=
  let f := [0x56, 0x44, 1, 2] ++ natLE 2 seq ++ [0, 0] ++ bs
  let others := s.dict.kept.filter fun (k : Nat × Nat × List Byte) => k.1 != mac
  let again := s.dict.repeats.filter fun r => r == (mac, seq)
  { s with
    dict := { s.dict with kept := others ++ [(mac, seq, f)], repeats := s.dict.repeats.filter fun r => r != (mac, seq) }
    isl := { s.isl with fieldSent := s.isl.fieldSent ++ List.replicate (1 + again.length) (mac, f) } }

def State.give (s : State) (k : Carrier) (bs : List Byte) : State :=
  match k with
  | .window => s.windowReply bs
  | .entry q e => s.entryReply q e bs
  | .management node tag => s.sendManagement 0x42 node tag bs
  | .vdp mac seq => s.vdpReply mac seq bs
  | .hubRom => s

/-! ## Performing messages (R382, R407) -/

/-- Does an item lie on the other side of the barrier from its carrier? One whose unit does not answer fails where it is. -/
def State.crosses (s : State) (c : Ctx) (it : List Byte) : Bool :=
  let op := numAt it 0 1
  if op ≠ 1 ∧ op ≠ 2 then false
  else
    match resolve (numAt it 2 2) (numAt it 4 1) with
    | none => false
    | some m =>
      let key := m.entry.key
      let island := onIsland key || (c.path == 3 && (islandPlaced key || (key == 0x102001 && op == 2)))
      (island != (c.path == 3)) && s.served c key

/-- Perform the items of a job in order until one crosses: what is left, and the response so far. -/
def State.runItems (s : State) (c : Ctx) : List (List Byte) → List Byte → List (List Byte) × List Byte × State
  | [], done => ([], done, s)
  | it :: rest, done =>
    if s.crosses c it then (it :: rest, done, s)
    else
      let r := s.itemOf c it
      State.runItems r.2 c rest (done ++ r.1)

/-- Go on with a job: a dictionary request crosses with its next item, or the response is given. -/
def State.runJob (s : State) (j : Job) : State :=
  let r := s.runItems j.ctx j.items j.done
  let s := r.2.2
  match r.1 with
  | [] => s.give j.carrier (s.reply (numAt j.header 1 1) 0 r.2.1)
  | it :: _ =>
    let s := { s with dict := { s.dict with jobs := s.dict.jobs ++ [{ j with items := r.1, done := r.2.1 }] } }
    let m := [1, 1] ++ natLE 2 (8 + it.length) ++ natLE 3 s.node ++ [1] ++ it
    if j.ctx.path = 3 then s.toHost 1 m j.id else s.toIsland 1 m j.id

/-- A message that is served here starts. -/
def State.startMessage (s : State) (k : Carrier) (c : Ctx) (bs : List Byte) (is : List (List Byte)) : State :=
  let id := s.dict.nextJob
  let s := { s with dict := { s.dict with nextJob := id + 1 } }
  (s.touch c).runJob ⟨id, k, c, slice bs 0 8, is, []⟩

/-- The job a crossing belongs to is taken up. -/
def State.takeJob (s : State) (id : Nat) : Option (Job × State) :=
  match s.dict.jobs.find? fun j => j.id == id with
  | some j => some (j, { s with dict := { s.dict with jobs := s.dict.jobs.filter fun (x : Job) => x.id != id } })
  | none => none

/-- A dictionary request that has crossed is performed, and its result crosses back. -/
def State.crossed (s : State) (island : Bool) (m : Crossing) : State :=
  match s.dict.jobs.find? fun j => j.id == m.job with
  | none => s
  | some j =>
    let r := s.itemOf j.ctx (m.payload.drop 8)
    let bs := r.2.reply 1 0 r.1
    if island then r.2.toHost 2 bs m.job else r.2.toIsland 2 bs m.job

/-- A dictionary result has crossed: its job goes on. -/
def State.resultBack (s : State) (m : Crossing) : State :=
  match s.takeJob m.job with
  | some (j, s) => s.runJob { j with items := j.items.drop 1, done := j.done ++ m.payload.drop 8 }
  | none => s

def execBarrierDictRequest (toIsland intact : Bool) (s : State) : Host.Outcome State Fault Refusal :=
  .next (if toIsland then s.islandGets 1 intact fun s m => s.crossed true m else s.hostGets 1 intact fun s m => s.crossed false m)

def execBarrierDictResult (toIsland intact : Bool) (s : State) : Host.Outcome State Fault Refusal :=
  .next (if toIsland then s.islandGets 2 intact State.resultBack else s.hostGets 2 intact State.resultBack)

/-! ## The host's carriers (R388–R390) -/

/-- A message of the host: served here, forwarded to its target, or failed; whatever becomes of it, its context has made a request (R394). -/
def State.hostMessage (s : State) (k : Carrier) (c : Ctx) (bs : List Byte) (capacity : Nat) : State :=
  match parseMessage bs true with
  | .error st => (s.touch c).give k (s.failMessage st)
  | .ok is =>
    let n := replyLength is
    if capacity < n then (s.touch c).give k (s.failMessage 2)
    else if !s.elsewhere bs then s.startMessage k c bs is
    else if !s.nodeValid (numAt bs 4 3) then (s.touch c).give k (s.failMessage 3)
    else if 4096 < bs.length ∨ 4096 < n then (s.touch c).give k (s.failMessage 2)
    else
      let s := s.touch c
      let tag := s.dict.nextJob % 2 ^ 32
      let f : Forwarder := match k with
        | .entry q e => .entry q e
        | _ => .window
      let w : Forwarded := ⟨tag, s.now, numAt bs 4 3, f⟩
      let s := { s with dict := { s.dict with
        nextJob := s.dict.nextJob + 1, forwarded := s.dict.forwarded ++ [w] } }
      s.sendManagement 0x40 (numAt bs 4 3) tag bs

/-- The window: a write of go while busy is ignored and counted. -/
def State.windowGo (s : State) (n : Nat) : State :=
  if !s.reachable .bar0 then s
  else
    let s := s.tlp
    if s.host.goBusy then s.bump 0x106002
    else
      let s := { s with host := { s.host with goBusy := true } }
      if n < 16 ∨ 65535 < n then (s.touch .bar0).give .window (s.failMessage 2)
      else s.hostMessage .window .bar0 ((List.range n).map fun i => SMap.get 0 s.host.request i) 65535

def execDictWindowGo (length : W32) (s : State) : Host.Outcome State Fault Refusal := .next (s.windowGo length.toNat)

def execSqDictionary (q : Nat) (s : State) : Host.Outcome State Fault Refusal :=
  .next (s.startEntry q (· == 5) fun s e bs =>
    s.hostMessage (.entry q e) (.qp q) (s.hostRead (numAt bs 8 8) (numAt bs 24 2)) (min 65535 (numAt bs 26 2)))

/-! ## The fabric (R390) -/

/-- A forwarded message is served in its source's context. -/
def State.managed (s : State) : State :=
  if !s.running then s
  else
    match s.take 0x84 0 0x40 with
    | none => s
    | some (h, f, s) =>
      let k := Carrier.management h.srcNode h.seq
      match parseMessage f.payload false with
      | .error st => (s.touch (.node h.srcNode)).give k (s.failMessage st)
      | .ok is =>
        if 4096 < replyLength is then (s.touch (.node h.srcNode)).give k (s.failMessage 2) else s.startMessage k (.node h.srcNode) f.payload is

def execManagementFrame (s : State) : Host.Outcome State Fault Refusal := .next s.managed

/-- The response of a forwarded message reaches its host carrier. -/
def State.answer (s : State) (f : Forwarded) (bs : List Byte) : State :=
  let s := { s with dict := { s.dict with forwarded := s.dict.forwarded.erase f } }
  match f.who with
  | .window => s.give .window bs
  | .entry q e => s.give (.entry q e) bs

def State.managementResult (s : State) : State :=
  if !s.running then s
  else
    match s.take 0x84 0 0x42 with
    | none => s
    | some (h, f, s) =>
      match s.dict.forwarded.find? fun x => x.tag == h.seq && x.target == h.srcNode with
      | some x => s.answer x (f.payload.take (numAt f.payload 2 2))
      | none => s

def execManagementResultFrame (s : State) : Host.Outcome State Fault Refusal := .next s.managementResult

/-- No result within 10 ms. -/
def State.remoteTimeout (s : State) (tag at_ : Nat) : State :=
  match s.dict.forwarded.find? fun x => x.tag == tag with
  | some x => if s.pow.powered ∧ x.sent + 10000000 ≤ max s.now at_ then (s.at_ at_).answer x (s.failMessage 4) else s
  | none => s

def execDictRemoteTimeout (tag at_ : Nat) (s : State) : Host.Outcome State Fault Refusal := .next (s.remoteTimeout tag at_)

/-! ## The field network (R391, R392) -/

/-- Is the VDP header right, and does the message fit its frame? -/
def vdpOk (bs : List Byte) : Bool :=
  let n := numAt bs 10 2
  decide (16 ≤ bs.length) && slice bs 0 4 == [0x56, 0x44, 1, 1] && decide (8 ≤ n) && decide (8 + n ≤ bs.length) && decide (n ≤ 1480)

/-- Is the original of a request still being performed? -/
def State.vdpBusy (s : State) (mac seq : Nat) : Bool := s.dict.jobs.any fun j => j.carrier == .vdp mac seq

/-- A request is answered from the kept response when it repeats the last sequence of its context, else performed. -/
def State.vdpRequest (s : State) (mac : Nat) (bs : List Byte) : State :=
  let seq := numAt bs 4 2
  let known := s.dict.contexts.any fun k => k.ctx == .field mac
  match (if known then s.dict.kept.find? fun (k : Nat × Nat × List Byte) => k.1 == mac && k.2.1 == seq else none) with
  | some k => { s.touch (.field mac) with isl := { s.isl with fieldSent := s.isl.fieldSent ++ [(mac, k.2.2)] } }
  | none =>
    let m := bs.drop 8
    if s.vdpBusy mac seq then
      let s := s.touch (.field mac)
      { s with dict := { s.dict with repeats := s.dict.repeats ++ [(mac, seq)] } }
    else
      match parseMessage m false with
      | .error st => (s.touch (.field mac)).give (.vdp mac seq) (s.failMessage st)
      | .ok is =>
        if 1480 < replyLength is then (s.touch (.field mac)).give (.vdp mac seq) (s.failMessage 2)
        else if s.elsewhere m then (s.touch (.field mac)).give (.vdp mac seq) (s.failMessage 3)
        else s.startMessage (.vdp mac seq) (.field mac) m is

def State.vdpFrame (s : State) (mac : Nat) (bs : List Byte) : State :=
  if !s.isl.powered then s
  else
    let s := s.wakeFast.bump 0x801005
    if vdpOk bs then s.vdpRequest mac bs else s.bump 0x801006

def execVdpFrame (mac : Nat) (payload : List Byte) (s : State) : Host.Outcome State Fault Refusal := .next (s.vdpFrame mac payload)

end Sys2Proof.Machine
end

