-- ==== Sys2Proof/Machine/HostPort.lean ====
section
/-! DEFINITION. Host requests as the endpoint decodes them: the configuration space (R356, R357), BAR0 (R358), BAR2 (R359), with the errors
of R371. -/

namespace Sys2Proof.Machine

open Sys2Proof

/-- Byte `i` of a value. -/
def byteOf (v i : Nat) : Byte := BitVec.ofNat 8 (v / 2 ^ (8 * i))

/-- A value with bytes written at byte `o`. -/
def withBytes (v o : Nat) (bs : List Byte) : Nat := setField v (8 * o) (8 * bs.length) (leNat bs)

/-! ## The configuration space (R356, R357) -/

/-- The doubleword at an offset, laid out as the PCIe Base Specification has it (PRESUMED, log entry 26): a type 0 header, the PCI Express
capability at 0x40, MSI-X at 0x80 and AER at 0x100. Everything else reads 0: what R356 marks absent is absent. -/
def State.configWord (s : State) (o : Nat) : Nat :=
  let p := s.host.pci
  match o with
  | 0x00 => s.pciIdentity % 2 ^ 32
  | 0x04 => p.command + 0x10 * 2 ^ 16
  | 0x08 => 0x120000 * 2 ^ 8 + max 1 (Config.hardwareRevision.toNat / 256) % 256
  | 0x10 => p.bar0.toNat % 2 ^ 32 + 4
  | 0x14 => p.bar0.toNat / 2 ^ 32
  | 0x18 => 0xC
  | 0x1C => p.bar2.toNat / 2 ^ 32
  | 0x2C => s.pciIdentity / 2 ^ 32
  | 0x34 => 0x40
  -- PCI Express: endpoint; FLR, role-based error reporting, extended tags, payloads of 512 B
  | 0x40 => 0x00028010
  | 0x44 => 2 ^ 28 + 2 ^ 15 + 2 ^ 5 + 2
  | 0x48 => p.maxPayload * 2 ^ 5 + p.maxRead * 2 ^ 12
  -- ×16 at 32 GT/s, ASPM L1 with exit latency 0b011
  | 0x4C => 5 + 16 * 2 ^ 4 + 2 * 2 ^ 10 + 3 * 2 ^ 15
  | 0x50 => b2n p.aspmL1 * 2 + s.host.speed * 2 ^ 16 + s.host.width * 2 ^ 20
  -- 10-bit tags, completer and requester
  | 0x64 => 3 * 2 ^ 16
  | 0x6C => 0x3E
  -- MSI-X: 2,048 vectors, their table and pending bits in BAR0
  | 0x80 => 0x11 + (2047 + b2n p.msixMask * 2 ^ 14 + b2n p.msixEnable * 2 ^ 15) * 2 ^ 16
  | 0x84 => 0x00200000
  | 0x88 => 0x00208000
  | 0x100 => 0x00020001
  | 0x104 => p.errors.toNat
  | _ => 0

/-- Vectors that are pending and no longer masked send their messages. -/
def State.sendPending (s : State) : State :=
  (s.host.msixPending.map Prod.fst).foldl (fun (s : State) v =>
    if s.host.pci.msixEnable && !s.msixMasked v then
      ({ s with host := { s.host with msixPending := SMap.put false s.host.msixPending v false } } : State).sendMsix v
    else s) s

/-- A doubleword is written, `v` the value as the bytes written have changed it. Read-only bits keep their values; a 1 written to an AER
status bit clears it, `written` telling which were. -/
def State.configSet (s : State) (o v written : Nat) : State :=
  let p := s.host.pci
  let put (p : PciConfig) : State := { s with host := { s.host with pci := p } }
  match o with
  | 0x04 => put { p with command := v % 2 ^ 16 &&& 0x0546 }
  | 0x10 => put { p with bar0 := BitVec.ofNat 64 (p.bar0.toNat / 2 ^ 32 * 2 ^ 32 + v / 2 ^ 26 * 2 ^ 26) }
  | 0x14 => put { p with bar0 := BitVec.ofNat 64 (v * 2 ^ 32 + p.bar0.toNat % 2 ^ 32) }
  | 0x1C => put { p with bar2 := BitVec.ofNat 64 (v / 2 ^ 4 * 2 ^ 36) }
  | 0x48 =>
    let s := put { p with maxPayload := fieldOf 7 5 v, maxRead := fieldOf 14 12 v }
    if bitOf v 15 then s.hostReset.countReset 3 else s
  | 0x50 => put { p with aspmL1 := bitOf v 1 }
  | 0x80 => (put { p with msixEnable := bitOf v 31, msixMask := bitOf v 30 }).sendPending
  | 0x104 => put { p with errors := p.errors &&& ~~~BitVec.ofNat 32 written }
  | _ => s

/-- Does a configuration request lie within one doubleword? -/
def configOk (o n : Nat) : Bool := decide (0 < n) && decide (o % 4 + n ≤ 4) && decide (o + n ≤ 4096)

def State.configRead (s : State) (o n : Nat) : State :=
  if configOk o n then s.complete (.data ((List.range n).map fun i => byteOf (s.configWord (o / 4 * 4)) (o % 4 + i))) else s.failRead

def State.configWrite (s : State) (o : Nat) (bs : List Byte) : State :=
  if configOk o bs.length then
    let d := o / 4 * 4
    s.configSet d (withBytes (s.configWord d) (o % 4) bs) (withBytes 0 (o % 4) bs)
  else s.barFault .unsupportedRequest

/-! ## BAR0 (R358) -/

/-- The register of pair `q` as it reads (R361). -/
def State.pairRegister (s : State) (q : Nat) : Nat :=
  let p := s.pair q
  p.config.toNat + p.head * 2 ^ 328 + p.tail * 2 ^ 312 + p.state * 2 ^ 304 + p.fault * 2 ^ 296

/-- The status register of the dictionary window (R388). -/
def State.goRegister (s : State) : Nat := b2n s.host.goBusy * 2 ^ 63 + s.host.goStatus * 2 ^ 32 + s.host.goLength

/-- The byte at a BAR0 offset. Doorbells and go, which the host writes, read 0, as reserved offsets do (log entry 26). -/
def State.bar0Byte (s : State) (o : Nat) : Byte :=
  if o < 0x10000 then SMap.get 0 s.host.request o
  else if o < 0x20000 then SMap.get 0 s.host.response (o - 0x10000)
  else if 0x20008 ≤ o ∧ o < 0x20010 then byteOf s.goRegister (o - 0x20008)
  else if 0x100000 ≤ o ∧ o < 0x104000 then byteOf (s.pairRegister ((o - 0x100000) / 64)) (o % 64)
  else if 0x120000 ≤ o ∧ o < 0x120008 then byteOf s.host.windowBase.toNat (o - 0x120000)
  else if 0x120008 ≤ o ∧ o < 0x12000A then byteOf s.host.eventVector.toNat (o - 0x120008)
  else if 0x200000 ≤ o ∧ o < 0x208000 then byteOf (s.msixEntry ((o - 0x200000) / 16)).toNat (o % 16)
  else if 0x208000 ≤ o ∧ o < 0x208100 then
    BitVec.ofNat 8 ((List.range 8).map fun b => b2n (SMap.get false s.host.msixPending ((o - 0x208000) * 8 + b)) * 2 ^ b).sum
  else 0

/-- A write of an MSI-X table entry: a vector that is masked no longer sends what is pending. -/
def State.writeMsix (s : State) (o : Nat) (bs : List Byte) : State :=
  let v := (o - 0x200000) / 16
  let e := BitVec.ofNat 128 (withBytes (s.msixEntry v).toNat (o % 16) bs)
  ({ s with host := { s.host with
      msixTable := SMap.put (BitVec.ofNat 128 (2 ^ 96)) s.host.msixTable v e } } : State).sendPending

/-- A write in the dictionary window: of the request buffer, where no request is busy, or of go (R388). -/
def State.writeDictWindow (s : State) (o : Nat) (bs : List Byte) : State :=
  if o < 0x10000 then
    if s.host.goBusy then s.bump 0x106002
    else
      { s with host := { s.host with
          request := (List.range bs.length).foldl (fun m i => SMap.put 0 m (o + i) (bs.getD i 0)) s.host.request } }
  else if o = 0x20000 then s.windowGo (leNat (bs.take 4))
  else s

/-- A write outside the window, at an offset that is a multiple of its size; at a reserved offset it is ignored. -/
def State.writeBar0Register (s : State) (o : Nat) (bs : List Byte) : State :=
  if 0x100000 ≤ o ∧ o < 0x104000 then
    let q := (o - 0x100000) / 64
    s.writePair q (withBytes (s.pair q).config.toNat (o % 64) bs)
  else if 0x110000 ≤ o ∧ o < 0x111000 ∧ o % 16 = 0 then s.tailDoorbell ((o - 0x110000) / 16) (leNat bs)
  else if 0x110000 ≤ o ∧ o < 0x111000 ∧ o % 16 = 8 then s.headDoorbell ((o - 0x110000) / 16) (leNat bs)
  else if 0x120000 ≤ o ∧ o < 0x120008 then
    s.writeWindow (BitVec.ofNat 64 (withBytes s.host.windowBase.toNat (o - 0x120000) bs))
  else if o = 0x120008 then { s with host := { s.host with eventVector := BitVec.ofNat 16 (leNat bs % 2048) } }
  else if 0x200000 ≤ o ∧ o < 0x208000 then s.writeMsix o bs
  else s

/-- Is a BAR0 access aligned, of 4 B or 8 B, and inside the BAR? -/
def bar0Ok (o n : Nat) : Bool := (n == 4 || n == 8) && o % n == 0 && decide (o + n ≤ 0x4000000)

def State.bar0Read (s : State) (o n : Nat) : State :=
  if bar0Ok o n then s.complete (.data ((List.range n).map fun i => s.bar0Byte (o + i))) else s.failRead

/-- While the boot ROM is in recovery the dictionary window alone takes writes (R452). -/
def State.bar0Write (s : State) (o : Nat) (bs : List Byte) : State :=
  if !bar0Ok o bs.length then s.barFault .unsupportedRequest
  else if o < 0x100000 then s.writeDictWindow o bs
  else if s.hostUp then s.writeBar0Register o bs
  else s

/-! ## Host requests -/

/-- Does the endpoint take a request for a target? -/
def State.hostTakes (s : State) : HostTarget → Bool
  | .bar2 => s.pow.powered && !s.pow.warmHeld && !s.host.inReset
  | .bar0 | .config => s.reachable .bar0

/-- Does the endpoint answer a configuration request with Configuration Request Retry Status: while start-up goes on (R439; log entry
28)? -/
def State.retries (s : State) (target : HostTarget) : Bool :=
  target == .config && s.pow.powered && s.pow.startingUp && !s.recovery && !s.pow.warmHeld && !s.host.inReset

def execBar2Read (offset : HostOffset) (length : Nat) (s : State) : Host.Outcome State Fault Refusal :=
  .next (if s.retries offset.target then s.complete .retry
    else if !s.hostTakes offset.target then s
    else
      match offset with
      | ⟨.bar2, o⟩ => s.tlp.bar2Read o length
      | ⟨.bar0, o⟩ => s.tlp.bar0Read o length
      | ⟨.config, o⟩ => s.tlp.configRead o length)

/-- A poisoned write is dropped and reported (R371). -/
def execBar2Write (offset : HostOffset) (data : HostData) (s : State) : Host.Outcome State Fault Refusal :=
  .next (if s.retries offset.target then s.complete .retry
    else if !s.hostTakes offset.target then s
    else if data.poisoned then s.tlp.aer .poisoned
    else
      match offset with
      | ⟨.bar2, o⟩ => s.tlp.bar2Write o data.bytes
      | ⟨.bar0, o⟩ => s.tlp.bar0Write o data.bytes
      | ⟨.config, o⟩ => s.tlp.configWrite o data.bytes)

end Sys2Proof.Machine
end

