-- ==== Sys2Proof/Machine/Scalar.lean ====
section
/-! DEFINITION. The scalar and counter commands (R98, R106, R107). -/

namespace Sys2Proof.Machine

open Sys2Proof

/-- MOV: the value of operand a, or the immediate [63:0] when a is none. -/
def movSlot (t : Slot) (w : Nat) : Slot := t.put (cmdD w) (if (cmdA w).isNone then cmdMods w else t.value (cmdA w))

def execMov (i : SlotId) (s : State) : Host.Outcome State Fault Refusal := .next (runSlot s i 0x10 movSlot)

def addSlot (t : Slot) (w : Nat) : Slot := t.put (cmdD w) ((t.value (cmdA w) + t.value (cmdB w)) % 2 ^ 32)

def execAdd (i : SlotId) (s : State) : Host.Outcome State Fault Refusal := .next (runSlot s i 0x11 addSlot)

def subSlot (t : Slot) (w : Nat) : Slot := t.put (cmdD w) ((t.value (cmdA w) + 2 ^ 32 - t.value (cmdB w)) % 2 ^ 32)

def execSub (i : SlotId) (s : State) : Host.Outcome State Fault Refusal := .next (runSlot s i 0x12 subSlot)

def mulSlot (t : Slot) (w : Nat) : Slot := t.put (cmdD w) (t.value (cmdA w) * t.value (cmdB w) % 2 ^ 32)

def execMul (i : SlotId) (s : State) : Host.Outcome State Fault Refusal := .next (runSlot s i 0x13 mulSlot)

/-- The four bitwise functions of LOGIC and PLOGIC on `w`-bit values. -/
def logicFn (w f a b : Nat) : Nat :=
  let x := BitVec.ofNat w a
  let y := BitVec.ofNat w b
  (match f with
    | 0 => x &&& y
    | 1 => x ||| y
    | 2 => x ^^^ y
    | _ => x &&& ~~~y).toNat

def logicSlot (t : Slot) (w : Nat) : Slot :=
  t.put (cmdD w) (logicFn 32 (cmdMods w % 4) (t.value (cmdA w)) (t.value (cmdB w)))

def execLogic (i : SlotId) (s : State) : Host.Outcome State Fault Refusal := .next (runSlot s i 0x14 logicSlot)

/-- SHIFT by b mod 32. -/
def shiftFn (f a b : Nat) : Nat :=
  let x := BitVec.ofNat 32 a
  (match f with
    | 0 => x <<< (b % 32)
    | 1 => x >>> (b % 32)
    | _ => x.sshiftRight (b % 32)).toNat

def shiftSlot (t : Slot) (w : Nat) : Slot :=
  t.put (cmdD w) (shiftFn (cmdMods w % 4) (t.value (cmdA w)) (t.value (cmdB w)))

def execShift (i : SlotId) (s : State) : Host.Outcome State Fault Refusal := .next (runSlot s i 0x15 shiftSlot)

/-- CMP: the comparator's one flag, and the predicate by the mask (R106). -/
def cmpSlot (t : Slot) (w : Nat) : Slot :=
  let m := cmdMods w
  let f := cmpFlag (bitOf m 1) 32 (t.value (cmdA w)) (t.value (cmdB w))
  ({ t with cmp := t.cmp.setIfInBounds (m % 2) f } : Slot).put (cmdD w) (b2n (f.meets (fieldOf 4 2 m)))

def execCmp (i : SlotId) (s : State) : Host.Outcome State Fault Refusal := .next (runSlot s i 0x16 cmpSlot)

def plogicSlot (t : Slot) (w : Nat) : Slot :=
  t.put (cmdD w) (logicFn 1 (cmdMods w % 4) (t.value (cmdA w)) (t.value (cmdB w)))

def execPlogic (i : SlotId) (s : State) : Host.Outcome State Fault Refusal := .next (runSlot s i 0x17 plogicSlot)

/-- NEXT (R107): the thread's next item into c0. -/
def State.nextItem (s : State) (i : SlotId) : State :=
  let t := s.slot i
  match s.launch? t.launch with
  | none => s.setSlot i (t.setC 0 0xFFFFFFFF)
  | some l =>
    let r := l.deliver t i.comb
    (s.setSlot i r.1).mapLaunch t.launch fun _ => r.2

def nextBody (x : Issue) : Cmd After := do
  Cmd.update fun s => s.nextItem x.id
  Cmd.mapSlot x.id fun t => t.put (cmdD x.word) (b2n (decide (t.creg 0 ≠ 0xFFFFFFFF)))
  pure .next

def execNext (i : SlotId) (s : State) : Host.Outcome State Fault Refusal :=
  .next (runCommand s i (fun w => cmdOp w == 0x18) nextBody)

/-- DSET: the descriptor with one field replaced (R98). -/
def dsetSlot (t : Slot) (w : Nat) : Slot :=
  let n := (cmdD w).num
  let d := (t.desc n).toNat
  let a := (cmdA w).num
  let s := t.value (cmdA w)
  t.setD n (match cmdMods w % 16 with
    | 0 => setField d 192 64 (t.pair a)
    | 1 => setField d 160 32 s
    | 2 => setField d 128 32 s
    | 3 => setField d 112 16 s
    | 4 => setField d 96 16 s
    | 5 => setField d 64 32 s
    | _ => setField d 0 64 (t.pair a))

def execDset (i : SlotId) (s : State) : Host.Outcome State Fault Refusal := .next (runSlot s i 0x19 dsetSlot)

/-- DOFF: the descriptor with b × m added to its base modulo 2^64; a plain copy when b is none. -/
def doffSlot (t : Slot) (w : Nat) : Slot :=
  let d := (t.desc (cmdA w).num).toNat
  let off := if (cmdB w).isNone then 0 else t.value (cmdB w) * (cmdMods w % 2 ^ 32) % 2 ^ 64
  t.setD (cmdD w).num (setField d 192 64 (fieldOf 255 192 d + off))

def execDoff (i : SlotId) (s : State) : Host.Outcome State Fault Refusal := .next (runSlot s i 0x1A doffSlot)

end Sys2Proof.Machine
end

