-- ==== Sys2Proof/Machine/Dispatch.lean ====
section
/-! DEFINITION. The effect of each command on everything but the queue: one arm per command, each a direct call of its meaning. -/

namespace Sys2Proof.Machine

open Sys2Proof

/-- The effect of a command. -/
def exec (i : Instr) (s : State) : Host.Outcome State Fault Refusal :=
  match i with
  | .nop slot => Sys2Proof.Machine.execNop slot s
  | .skip slot => Sys2Proof.Machine.execSkip slot s
  | .loop slot => Sys2Proof.Machine.execLoop slot s
  | .break_ slot => Sys2Proof.Machine.execBreak slot s
  | .halt slot => Sys2Proof.Machine.execHalt slot s
  | .yield slot => Sys2Proof.Machine.execYield slot s
  | .waitSignal slot => Sys2Proof.Machine.execWaitSignal slot s
  | .waitMemory slot => Sys2Proof.Machine.execWaitMemory slot s
  | .waitTime slot => Sys2Proof.Machine.execWaitTime slot s
  | .signalWaitEnd slot => Sys2Proof.Machine.execSignalWaitEnd slot s
  | .memoryWaitReread slot => Sys2Proof.Machine.execMemoryWaitReread slot s
  | .timeWaitEnd slot at_ => Sys2Proof.Machine.execTimeWaitEnd slot at_ s
  | .waitTimeout slot at_ => Sys2Proof.Machine.execWaitTimeout slot at_ s
  | .signal slot => Sys2Proof.Machine.execSignal slot s
  | .fence slot => Sys2Proof.Machine.execFence slot s
  | .mov slot => Sys2Proof.Machine.execMov slot s
  | .add slot => Sys2Proof.Machine.execAdd slot s
  | .sub slot => Sys2Proof.Machine.execSub slot s
  | .mul slot => Sys2Proof.Machine.execMul slot s
  | .logic slot => Sys2Proof.Machine.execLogic slot s
  | .shift slot => Sys2Proof.Machine.execShift slot s
  | .cmp slot => Sys2Proof.Machine.execCmp slot s
  | .plogic slot => Sys2Proof.Machine.execPlogic slot s
  | .next slot => Sys2Proof.Machine.execNext slot s
  | .dset slot => Sys2Proof.Machine.execDset slot s
  | .doff slot => Sys2Proof.Machine.execDoff slot s
  | .load slot => Sys2Proof.Machine.execLoad slot s
  | .store slot => Sys2Proof.Machine.execStore slot s
  | .gather slot => Sys2Proof.Machine.execGather slot s
  | .scatter slot => Sys2Proof.Machine.execScatter slot s
  | .ldr slot => Sys2Proof.Machine.execLdr slot s
  | .str slot => Sys2Proof.Machine.execStr slot s
  | .atom slot => Sys2Proof.Machine.execAtom slot s
  | .alloc slot => Sys2Proof.Machine.execAlloc slot s
  | .free slot => Sys2Proof.Machine.execFree slot s
  | .dload slot => Sys2Proof.Machine.execDload slot s
  | .copy slot => Sys2Proof.Machine.execCopy slot s
  | .mma slot => Sys2Proof.Machine.execMma slot s
  | .mma24 slot => Sys2Proof.Machine.execMma24 slot s
  | .mmasa slot => Sys2Proof.Machine.execMmasa slot s
  | .predict slot => Sys2Proof.Machine.execPredict slot s
  | .commit slot => Sys2Proof.Machine.execCommit slot s
  | .pack slot => Sys2Proof.Machine.execPack slot s
  | .vop slot => Sys2Proof.Machine.execVop slot s
  | .vcmp slot => Sys2Proof.Machine.execVcmp slot s
  | .vsel slot => Sys2Proof.Machine.execVsel slot s
  | .vshuf slot => Sys2Proof.Machine.execVshuf slot s
  | .vfma slot => Sys2Proof.Machine.execVfma slot s
  | .vsfu slot => Sys2Proof.Machine.execVsfu slot s
  | .vcvt slot => Sys2Proof.Machine.execVcvt slot s
  | .tcvt slot => Sys2Proof.Machine.execTcvt slot s
  | .tew slot => Sys2Proof.Machine.execTew slot s
  | .tred slot => Sys2Proof.Machine.execTred slot s
  | .ttopk slot => Sys2Proof.Machine.execTtopk slot s
  | .put slot => Sys2Proof.Machine.execPut slot s
  | .get slot => Sys2Proof.Machine.execGet slot s
  | .send slot => Sys2Proof.Machine.execSend slot s
  | .cpost slot => Sys2Proof.Machine.execCpost slot s
  | .dispatch slot => Sys2Proof.Machine.execDispatch slot s
  | .sattach slot => Sys2Proof.Machine.execSattach slot s
  | .seed slot => Sys2Proof.Machine.execSeed slot s
  | .step slot => Sys2Proof.Machine.execStep slot s
  | .scale slot => Sys2Proof.Machine.execScale slot s
  | .time slot => Sys2Proof.Machine.execTime slot s
  | .ident slot => Sys2Proof.Machine.execIdent slot s
  | .specMultiplyRoomStart slot => Sys2Proof.Machine.execSpecMultiplyRoomStart slot s
  | .launchPortPost slot data => Sys2Proof.Machine.execLaunchPortPost slot data s
  | .threadStart launch comb => Sys2Proof.Machine.execThreadStart launch comb s
  | .launchComplete launch => Sys2Proof.Machine.execLaunchComplete launch s
  | .combGate comb at_ => Sys2Proof.Machine.execCombGate comb at_ s
  | .combFailure comb => Sys2Proof.Machine.execCombFailure comb s
  | .combMove comb spare => Sys2Proof.Machine.execCombMove comb spare s
  | .hiveFailure hive => Sys2Proof.Machine.execHiveFailure hive s
  | .bankSwapRequest c v => Sys2Proof.Machine.execBankSwapRequest c v s
  | .bankSwap comb => Sys2Proof.Machine.execBankSwap comb s
  | .debugProgramWrite c data => Sys2Proof.Machine.execDebugProgramWrite c data s
  | .bar2Read offset length => Sys2Proof.Machine.execBar2Read offset length s
  | .bar2Write offset data => Sys2Proof.Machine.execBar2Write offset data s
  | .bar2RemoteReadTimeout tag at_ => Sys2Proof.Machine.execBar2RemoteReadTimeout tag at_ s
  | .windowBaseWrite v => Sys2Proof.Machine.execWindowBaseWrite v s
  | .queuePairEnable q v => Sys2Proof.Machine.execQueuePairEnable q v s
  | .queuePairDisable q => Sys2Proof.Machine.execQueuePairDisable q s
  | .queuePairDrained q => Sys2Proof.Machine.execQueuePairDrained q s
  | .sqTailDoorbell q v => Sys2Proof.Machine.execSqTailDoorbell q v s
  | .cqHeadDoorbell q v => Sys2Proof.Machine.execCqHeadDoorbell q v s
  | .sqNop q => Sys2Proof.Machine.execSqNop q s
  | .sqDmaToModule q => Sys2Proof.Machine.execSqDmaToModule q s
  | .sqDmaToHost q => Sys2Proof.Machine.execSqDmaToHost q s
  | .sqLaunch q => Sys2Proof.Machine.execSqLaunch q s
  | .sqPost q => Sys2Proof.Machine.execSqPost q s
  | .sqDictionary q => Sys2Proof.Machine.execSqDictionary q s
  | .sqFree q => Sys2Proof.Machine.execSqFree q s
  | .sqEntryComplete q entry => Sys2Proof.Machine.execSqEntryComplete q entry s
  | .hostReceiveFrame tc => Sys2Proof.Machine.execHostReceiveFrame tc s
  | .hostReceiveTimeout tc at_ => Sys2Proof.Machine.execHostReceiveTimeout tc at_ s
  | .hostPortReset cause => Sys2Proof.Machine.execHostPortReset cause s
  | .perstAssert => Sys2Proof.Machine.execPerstAssert s
  | .pcieL1Entry at_ => Sys2Proof.Machine.execPcieL1Entry at_ s
  | .dictRead c index subindex offset length => Sys2Proof.Machine.execDictRead c index subindex offset length s
  | .dictWrite c index subindex offset data => Sys2Proof.Machine.execDictWrite c index subindex offset data s
  | .dictDescribe c index subindex => Sys2Proof.Machine.execDictDescribe c index subindex s
  | .dictDescribeNext c index subindex => Sys2Proof.Machine.execDictDescribeNext c index subindex s
  | .dictWindowGo length => Sys2Proof.Machine.execDictWindowGo length s
  | .managementFrame => Sys2Proof.Machine.execManagementFrame s
  | .managementResultFrame => Sys2Proof.Machine.execManagementResultFrame s
  | .dictRemoteTimeout tag at_ => Sys2Proof.Machine.execDictRemoteTimeout tag at_ s
  | .vdpFrame mac payload => Sys2Proof.Machine.execVdpFrame mac payload s
  | .unlockChallengeRead c => Sys2Proof.Machine.execUnlockChallengeRead c s
  | .unlockResponseWrite c data => Sys2Proof.Machine.execUnlockResponseWrite c data s
  | .challengeExpiry c at_ => Sys2Proof.Machine.execChallengeExpiry c at_ s
  | .lockWrite c v => Sys2Proof.Machine.execLockWrite c v s
  | .roleTimeout c at_ => Sys2Proof.Machine.execRoleTimeout c at_ s
  | .storeCommit c => Sys2Proof.Machine.execStoreCommit c s
  | .storeCommitDone verified => Sys2Proof.Machine.execStoreCommitDone verified s
  | .storeRevert c => Sys2Proof.Machine.execStoreRevert c s
  | .storeClear c => Sys2Proof.Machine.execStoreClear c s
  | .registerWrite c index subindex offset data => Sys2Proof.Machine.execRegisterWrite c index subindex offset data s
  | .recordBind c v => Sys2Proof.Machine.execRecordBind c v s
  | .recordUnbind c v => Sys2Proof.Machine.execRecordUnbind c v s
  | .recordClearAlarms c v => Sys2Proof.Machine.execRecordClearAlarms c v s
  | .scaleExport c => Sys2Proof.Machine.execScaleExport c s
  | .scaleImport c => Sys2Proof.Machine.execScaleImport c s
  | .scaleTransferDone => Sys2Proof.Machine.execScaleTransferDone s
  | .hbmRowRepair row => Sys2Proof.Machine.execHbmRowRepair row s
  | .poolRecordWrite c pool v => Sys2Proof.Machine.execPoolRecordWrite c pool v s
  | .poolInitComplete pool => Sys2Proof.Machine.execPoolInitComplete pool s
  | .frameHeaderConfirm link lh header => Sys2Proof.Machine.execFrameHeaderConfirm link lh header s
  | .frameTrailerArrival link payload trailer codewordOk => Sys2Proof.Machine.execFrameTrailerArrival link payload trailer codewordOk s
  | .putFrame port tc => Sys2Proof.Machine.execPutFrame port tc s
  | .getFrame port tc => Sys2Proof.Machine.execGetFrame port tc s
  | .getDataFrame port tc => Sys2Proof.Machine.execGetDataFrame port tc s
  | .atomicFrame port tc => Sys2Proof.Machine.execAtomicFrame port tc s
  | .atomicResultFrame port tc => Sys2Proof.Machine.execAtomicResultFrame port tc s
  | .ackFrame port tc => Sys2Proof.Machine.execAckFrame port tc s
  | .ackCoalesceTimeout node tc at_ => Sys2Proof.Machine.execAckCoalesceTimeout node tc at_ s
  | .errorFrame port tc => Sys2Proof.Machine.execErrorFrame port tc s
  | .freeFrame port tc => Sys2Proof.Machine.execFreeFrame port tc s
  | .freeResultFrame port tc => Sys2Proof.Machine.execFreeResultFrame port tc s
  | .geometryCommit c v => Sys2Proof.Machine.execGeometryCommit c v s
  | .egressSelect port => Sys2Proof.Machine.execEgressSelect port s
  | .shaperTick port tc at_ => Sys2Proof.Machine.execShaperTick port tc at_ s
  | .captureRingEnable c v => Sys2Proof.Machine.execCaptureRingEnable c v s
  | .reorderTimeout port tc at_ => Sys2Proof.Machine.execReorderTimeout port tc at_ s
  | .injectionUnlockWrite c v => Sys2Proof.Machine.execInjectionUnlockWrite c v s
  | .streamFrame port tc => Sys2Proof.Machine.execStreamFrame port tc s
  | .streamSpillReadback handle => Sys2Proof.Machine.execStreamSpillReadback handle s
  | .streamComplete handle => Sys2Proof.Machine.execStreamComplete handle s
  | .streamDetach c v => Sys2Proof.Machine.execStreamDetach c v s
  | .engineDisable engine => Sys2Proof.Machine.execEngineDisable engine s
  | .contextRecordWrite c v => Sys2Proof.Machine.execContextRecordWrite c v s
  | .dispatchTokenFrame port tc => Sys2Proof.Machine.execDispatchTokenFrame port tc s
  | .holdAreaReadback context => Sys2Proof.Machine.execHoldAreaReadback context s
  | .dispatchRowCopyFrame port tc => Sys2Proof.Machine.execDispatchRowCopyFrame port tc s
  | .dispatchCloseFrame port tc => Sys2Proof.Machine.execDispatchCloseFrame port tc s
  | .returnDoorbellStore expert v => Sys2Proof.Machine.execReturnDoorbellStore expert v s
  | .returnFrame port tc => Sys2Proof.Machine.execReturnFrame port tc s
  | .groupDefine c v => Sys2Proof.Machine.execGroupDefine c v s
  | .groupUndefine c v => Sys2Proof.Machine.execGroupUndefine c v s
  | .collectiveDataFrame port tc => Sys2Proof.Machine.execCollectiveDataFrame port tc s
  | .grantFrame port tc => Sys2Proof.Machine.execGrantFrame port tc s
  | .countsFrame port tc => Sys2Proof.Machine.execCountsFrame port tc s
  | .barrierFrame port tc => Sys2Proof.Machine.execBarrierFrame port tc s
  | .abortFrame port tc => Sys2Proof.Machine.execAbortFrame port tc s
  | .grantResend collective stream at_ => Sys2Proof.Machine.execGrantResend collective stream at_ s
  | .collectiveTimeout collective at_ => Sys2Proof.Machine.execCollectiveTimeout collective at_ s
  | .collectiveAbortRequest c v => Sys2Proof.Machine.execCollectiveAbortRequest c v s
  | .portEnable c v => Sys2Proof.Machine.execPortEnable c v s
  | .portDisable c v => Sys2Proof.Machine.execPortDisable c v s
  | .portSplit c v => Sys2Proof.Machine.execPortSplit c v s
  | .lightDetect link lanes => Sys2Proof.Machine.execLightDetect link lanes s
  | .trainingLock link lanes partner => Sys2Proof.Machine.execTrainingLock link lanes partner s
  | .trainingTimeout link at_ => Sys2Proof.Machine.execTrainingTimeout link at_ s
  | .trainingRetry link at_ => Sys2Proof.Machine.execTrainingRetry link at_ s
  | .laneLockLoss link lane at_ => Sys2Proof.Machine.execLaneLockLoss link lane at_ s
  | .laneRetry link lane at_ => Sys2Proof.Machine.execLaneRetry link lane at_ s
  | .linkLoss link => Sys2Proof.Machine.execLinkLoss link s
  | .linkAckReceive link next_ => Sys2Proof.Machine.execLinkAckReceive link next_ s
  | .linkNakReceive link next_ => Sys2Proof.Machine.execLinkNakReceive link next_ s
  | .linkCreditReceive link channel granted => Sys2Proof.Machine.execLinkCreditReceive link channel granted s
  | .handoverReceive link lost next_ => Sys2Proof.Machine.execHandoverReceive link lost next_ s
  | .nakResendTimer link at_ => Sys2Proof.Machine.execNakResendTimer link at_ s
  | .ackTimeoutReplay link at_ => Sys2Proof.Machine.execAckTimeoutReplay link at_ s
  | .handoverTimeout link at_ => Sys2Proof.Machine.execHandoverTimeout link at_ s
  | .creditRefresh link at_ => Sys2Proof.Machine.execCreditRefresh link at_ s
  | .laserBiasAdjust bank readings at_ => Sys2Proof.Machine.execLaserBiasAdjust bank readings at_ s
  | .forcedSwap c v => Sys2Proof.Machine.execForcedSwap c v s
  | .ringCalibration port lane transmit heater locks at_ => Sys2Proof.Machine.execRingCalibration port lane transmit heater locks at_ s
  | .inputRise => Sys2Proof.Machine.execInputRise s
  | .inputLow => Sys2Proof.Machine.execInputLow s
  | .inputHigh => Sys2Proof.Machine.execInputHigh s
  | .inputPowerLoss => Sys2Proof.Machine.execInputPowerLoss s
  | .enBreak => Sys2Proof.Machine.execEnBreak s
  | .powerRequestDormant c => Sys2Proof.Machine.execPowerRequestDormant c s
  | .powerRequestActive c => Sys2Proof.Machine.execPowerRequestActive c s
  | .quiescenceReached => Sys2Proof.Machine.execQuiescenceReached s
  | .entryDrainTimeout at_ => Sys2Proof.Machine.execEntryDrainTimeout at_ s
  | .wakeComplete at_ => Sys2Proof.Machine.execWakeComplete at_ s
  | .thermalLevelStep temps at_ => Sys2Proof.Machine.execThermalLevelStep temps at_ s
  | .thermalTrip die temp => Sys2Proof.Machine.execThermalTrip die temp s
  | .moduleFatal cause unit => Sys2Proof.Machine.execModuleFatal cause unit s
  | .pllLockLoss unit => Sys2Proof.Machine.execPllLockLoss unit s
  | .warmReset c => Sys2Proof.Machine.execWarmReset c s
  | .coldResetRequest c => Sys2Proof.Machine.execColdResetRequest c s
  | .hiveReset c v => Sys2Proof.Machine.execHiveReset c v s
  | .portReset c v => Sys2Proof.Machine.execPortReset c v s
  | .combDrain c v => Sys2Proof.Machine.execCombDrain c v s
  | .combRestart c v => Sys2Proof.Machine.execCombRestart c v s
  | .combDrained comb => Sys2Proof.Machine.execCombDrained comb s
  | .startupComplete test => Sys2Proof.Machine.execStartupComplete test s
  | .islandReset => Sys2Proof.Machine.execIslandReset s
  | .islandSourceChangeover fieldVolts => Sys2Proof.Machine.execIslandSourceChangeover fieldVolts s
  | .measurementTick m at_ => Sys2Proof.Machine.execMeasurementTick m at_ s
  | .piTick at_ => Sys2Proof.Machine.execPiTick at_ s
  | .leakClear c v => Sys2Proof.Machine.execLeakClear c v s
  | .serviceOutputTest c v => Sys2Proof.Machine.execServiceOutputTest c v s
  | .serviceOutputTestEnd at_ => Sys2Proof.Machine.execServiceOutputTestEnd at_ s
  | .svcOutRetry at_ => Sys2Proof.Machine.execSvcOutRetry at_ s
  | .fieldRestart c v => Sys2Proof.Machine.execFieldRestart c v s
  | .timeSyncLost at_ => Sys2Proof.Machine.execTimeSyncLost at_ s
  | .barrierStateTimer at_ => Sys2Proof.Machine.execBarrierStateTimer at_ s
  | .barrierDictRequest toIsland intact => Sys2Proof.Machine.execBarrierDictRequest toIsland intact s
  | .barrierDictResult toIsland intact => Sys2Proof.Machine.execBarrierDictResult toIsland intact s
  | .telemetryPushMsg intact => Sys2Proof.Machine.execTelemetryPushMsg intact s
  | .coolingStateMsg intact => Sys2Proof.Machine.execCoolingStateMsg intact s
  | .wakeMsg intact => Sys2Proof.Machine.execWakeMsg intact s
  | .dormantRequestMsg intact => Sys2Proof.Machine.execDormantRequestMsg intact s
  | .throttleMsg intact => Sys2Proof.Machine.execThrottleMsg intact s
  | .thermalTripMsg intact => Sys2Proof.Machine.execThermalTripMsg intact s
  | .serviceFlagMsg toIsland intact => Sys2Proof.Machine.execServiceFlagMsg toIsland intact s
  | .timeSyncMsg intact => Sys2Proof.Machine.execTimeSyncMsg intact s
  | .attestationRequestMsg toIsland intact => Sys2Proof.Machine.execAttestationRequestMsg toIsland intact s
  | .attestationQuoteMsg toIsland intact => Sys2Proof.Machine.execAttestationQuoteMsg toIsland intact s
  | .firmwareImageBlockMsg intact => Sys2Proof.Machine.execFirmwareImageBlockMsg intact s
  | .measureBank c v => Sys2Proof.Machine.execMeasureBank c v s
  | .quoteNonceWrite c nonce => Sys2Proof.Machine.execQuoteNonceWrite c nonce s
  | .attestationHostTimeout at_ => Sys2Proof.Machine.execAttestationHostTimeout at_ s
  | .fwStage c v => Sys2Proof.Machine.execFwStage c v s
  | .fwStageDone => Sys2Proof.Machine.execFwStageDone s
  | .fwActivate c v => Sys2Proof.Machine.execFwActivate c v s
  | .fwConfirm c v => Sys2Proof.Machine.execFwConfirm c v s
  | .hbmScrub address found => Sys2Proof.Machine.execHbmScrub address found s
  | .nearStoreScrub address found => Sys2Proof.Machine.execNearStoreScrub address found s
  | .programStoreScrub address found => Sys2Proof.Machine.execProgramStoreScrub address found s
  | .telemetrySample m at_ => Sys2Proof.Machine.execTelemetrySample m at_ s
  | .telemetryRingEnable c v => Sys2Proof.Machine.execTelemetryRingEnable c v s
  | .snapshotRequest c t => Sys2Proof.Machine.execSnapshotRequest c t s
  | .snapshotFrame => Sys2Proof.Machine.execSnapshotFrame s
  | .snapshotTake at_ => Sys2Proof.Machine.execSnapshotTake at_ s
  | .delayRequestTimer at_ => Sys2Proof.Machine.execDelayRequestTimer at_ s
  | .delayRequestFrame t2 t3 => Sys2Proof.Machine.execDelayRequestFrame t2 t3 s
  | .delayResponseFrame t4 => Sys2Proof.Machine.execDelayResponseFrame t4 s
  | .setFabricTime c t => Sys2Proof.Machine.execSetFabricTime c t s
  | .parentLossTimeout at_ => Sys2Proof.Machine.execParentLossTimeout at_ s
  | .islandPowerLoss => Sys2Proof.Machine.execIslandPowerLoss s
  | .enMate => Sys2Proof.Machine.execEnMate s
  | .perstDeassert => Sys2Proof.Machine.execPerstDeassert s
  | .inputNormal => Sys2Proof.Machine.execInputNormal s
  | .hostReadCompletionTimeout q entry at_ => Sys2Proof.Machine.execHostReadCompletionTimeout q entry at_ s
  | .policerTokenAccrual port tc at_ => Sys2Proof.Machine.execPolicerTokenAccrual port tc at_ s
  | .eventVectorDeferred at_ => Sys2Proof.Machine.execEventVectorDeferred at_ s
  | .tripResetRelease => Sys2Proof.Machine.execTripResetRelease s
  | .powerCapLevelUpdate level => Sys2Proof.Machine.execPowerCapLevelUpdate level s

end Sys2Proof.Machine
end

