-- ==== Sys2Proof/Safety.lean ====
section
/-! DEFINITION. What a safe run is, in the terms the statements use: a step that answers a next state; a thread slot that issues a
command word and passes the checks made before the command's own work; and the canonical form of the module's memories. -/

namespace Sys2Proof.Safety

open Sys2Proof Sys2Proof.Machine

/-- A step is safe when it answers a next state: neither a fault nor a refusal. -/
def safeStep (s : State) : Prop := ∃ t, step s = .next t

/-- Slot `i` issues the command word `w` from bank `b`: it may issue, no command is in progress, the fetch gives the word, the guard
passes, and steps 1 to 4 of R492 find nothing. -/
def Issues (s : State) (i : SlotId) (w : Nat) (b : Bool) : Prop :=
  s.canIssue i = true ∧ (s.slot i).cur = none ∧ s.fetch i = .word w b ∧ cmdGuard w ≠ 8 ∧ guardPasses (s.slot i) w = true
    ∧ shapeReason s (s.slot i) w = none

/-- The command at issue. -/
def issueOf (s : State) (i : SlotId) (w : Nat) (b : Bool) : Issue := ⟨i, w, b, (s.slot i).ptr⟩

/-- The state a command's own work begins in: threads that yielded to slot `i` wait for it no longer, and the slot holds the command
as in progress with what it latched. -/
def begun (s : State) (i : SlotId) (w : Nat) (b : Bool) : State :=
  (s.issued i).setSlot i { s.slot i with cur := some (w, b), latch := (s.issued i).latchFor (s.slot i) w }

/-- The pointer of a slot once its command has retired to the next command, by the loop rule of R104. -/
def nextPtr (t : Slot) : Nat := (t.retire t.ptr .next).ptr

/-- A slot of the cell of `i` after `i` has issued: it waits for `i` no longer (R108). -/
def seenIssue (i j : SlotId) (u : Slot) : Slot :=
  if j.cell = i.cell then { u with yieldTo := u.yieldTo.filter (· ≠ i.thread) } else u

/-- Nothing but thread slots differs, and of these only slot `i`, and whom the other threads of its cell wait for in a YIELD. -/
def OnlySlot (i : SlotId) (s t : State) : Prop :=
  t = { s with swarm := { s.swarm with slots := t.swarm.slots } }
    ∧ ∀ j : SlotId, j.thread < 4 → j ≠ i → t.slot j = seenIssue i j (s.slot j)

/-- Slot `i` has written `v` to the destination of the word `w` and retired; nothing else of the slot, and no other state, differs. -/
def Wrote (i : SlotId) (w : Nat) (v : W32) (s t : State) : Prop :=
  (t.slot i).value (cmdD w) = v.toNat ∧ t.slot i = ((s.slot i).put (cmdD w) v.toNat).retire (s.slot i).ptr .next ∧ OnlySlot i s t

/-- An action that only reads: it answers `v` and leaves the state as it is. -/
def reads {α : Type} [DecidableEq α] (c : Cmd α) (s : State) (v : α) : Bool :=
  match c s with
  | .ok (u, t) => decide (u = v) && decide (t = s)
  | .error _ => false

/-- An action that answers `v` and leaves the state `t`. -/
def gives {α : Type} [DecidableEq α] (c : Cmd α) (s : State) (v : α) (t : State) : Bool :=
  match c s with
  | .ok (u, s') => decide (u = v) && decide (s' = t)
  | .error _ => false

/-- An action that completes and leaves the state `t`. -/
def writes (c : Cmd Unit) (s t : State) : Bool :=
  match c s with
  | .ok (_, u) => decide (u = t)
  | .error _ => false

/-- The state once a command at `p` of slot `i` whose work left `u` has retired to the next command. -/
def done (u : State) (i : SlotId) (p : Nat) : State := u.setSlot i ((u.slot i).retire p .next)

/-! ## Dictionary writes -/

/-- A write of `n` bytes from a context passes the checks of its item: the context can bring it, its path and role may write the entry,
the unit is fitted, works and is served, and the value has the entry's size (R382, R386, R397). -/
def writeArrives (s : State) (c : Ctx) (index sub n : Nat) : Bool :=
  s.reachable c && decide (index < 0xF000) && (match resolve index sub with
    | some m =>
      m.pathOk c.path true && !m.shadow && m.entry.access != .ro && decide (m.entry.role ≤ (s.touch c).roleOf c)
        && (s.touch c).fitted m.entry.key ((s.touch c).unitOf c m) && (s.touch c).served c m.entry.key
        && !(s.touch c).unitFailed m.entry.key ((s.touch c).unitOf c m)
        && decide (m.entry.size ≤ m.entry.element) && decide (n = m.entry.size)
    | none => false)

/-- A write that passes those checks reaches its entry when the power state lets it be performed now (R397). -/
def writeReaches (s : State) (c : Ctx) (index sub n : Nat) : Bool :=
  writeArrives s c index sub n && (match resolve index sub with
    | some m => !gatedKey m.entry.key || s.pow.state == 1 || s.pow.state == 2
    | none => false)

/-- The unit a write from a context reaches. -/
def unitFor (s : State) (c : Ctx) (index sub : Nat) : Nat :=
  match resolve index sub with
  | some m => (s.touch c).unitOf c m
  | none => 0

/-- An item of a context was performed: the state is `u` but for the response kept for the context, whose status is 0x00. -/
def Performed (c : Ctx) (u t : State) : Prop :=
  t = { u with dict := { u.dict with response := t.dict.response } } ∧ ∃ bs, t.dict.response = some (c, bs) ∧ numAt bs 1 1 = 0

/-- An item of a context was refused with a status: nothing changed but the count of failed items and the response kept. -/
def Refused (c : Ctx) (status : Nat) (u t : State) : Prop :=
  t = { u with dict := { (u.bump 0x106001).dict with response := t.dict.response } }
    ∧ ∃ bs, t.dict.response = some (c, bs) ∧ numAt bs 1 1 = status

/-- The row that stands for a write of `n` bytes to an entry: whenever the write reaches the entry and `ok` holds of the state in which
the context has been heard, it is performed, with the effect `f`. -/
def Performs (row : State → Host.Outcome State Fault Refusal) (c : Ctx) (index sub n : Nat) (ok : State → Prop) (f : State → State) : Prop :=
  ∀ s : State, writeReaches s c index sub n = true → ok (s.touch c) → ∃ t, row s = .next t ∧ Performed c (f (s.touch c)) t

/-- Memory, pads and host memory are in canonical form: addresses strictly rising, and no entry equal to what an unlisted address
reads as. -/
def MemoriesWf (s : State) : Prop :=
  Memory.wf s.mem.bytes = true ∧ SMap.wf none s.swarm.pads = true ∧ Memory.wf s.host.memory = true

end Sys2Proof.Safety
end

