-- ==== Sys2Proof/Certificates/Slice0/Obligations.lean ====
section
/-! DEFINITION. What is to be proved of the model: one statement for each group of commands and kind of state, each with what the
commands leave unchanged. -/

open Sys2Proof Sys2Proof.Machine Sys2Proof.Safety

/-! ## The queue, reset, and every step -/

/-- A step takes the command at the front of the queue and answers what `exec` answers on the state with the queue's rest. -/
def Obligations.StepRunsFront : Prop :=
  ∀ (s : State) (c : Instr) (rest : List Instr),
    step { s with pending := c :: rest } = exec c { s with pending := rest }

/-- The idle step of the model (DESIGN CHOICE, log entries 18, 33 and 42). -/
def Obligations.IdleStep : Prop :=
  ∀ s : State, s.pending = [] →
    (s.pow.powered = false → step s = .next s)
      ∧ (s.pow.powered = true →
        let v := (Config.upset s.freeCtr).elim s s.upsetAt
        let u := { v with freeCtr := s.freeCtr + 1, trust := s.trust.finishMeasure }
        ∃ w : State, step s = .next w.admitAll
          ∧ (s.health.hold = 0 → w = { u with now := s.now + 1 })
          ∧ (∀ k, s.health.hold = k + 1 → w = { u with health := { s.health with hold := k } })
          ∧ (s.trust.measuring = none → w.trust = s.trust)
          ∧ (s.net.entering = [] → s.net.copies = [] → step s = .next w)
          ∧ (∀ port fs, s.net.entering = [(port, fs)] → s.net.copies = [] →
              (fs.all (w.admits port) = true →
                step s = .next ((({ w with net := { w.net with entering := [] } } : State).enterSet port fs).admitCopies
                  (({ w with net := { w.net with entering := [] } } : State).enterSet port fs).net.copies.length))
              ∧ (fs.all (w.admits port) = false → step s = .next w))
          ∧ (∀ q, s.net.entering = [] → s.net.copies = [q] →
              (w.roomFor 0x84 q.channel q.cells = true → step s = .next (({ w with net := { w.net with copies := [] } } : State).storeCopy q))
              ∧ (w.roomFor 0x84 q.channel q.cells = false → step s = .next w))
          ∧ v = { s with mem := { s.mem with soft := v.mem.soft, poison := v.mem.poison }
                         swarm := { s.swarm with padSoft := v.swarm.padSoft, padPoison := v.swarm.padPoison } })

/-- No command is refused and none faults. Where a command's trigger is absent, that it answers a next state is the model's choice (DESIGN
CHOICE, log entry 38), not the table's. -/
def Obligations.EveryStepCompletes : Prop :=
  (∀ (c : Instr) (s : State), ∃ t, exec c s = .next t) ∧ ∀ s : State, Safety.safeStep s

/-- Every step keeps the canonical form of the three memories. -/
def Obligations.StepKeepsMemoriesCanonical : Prop :=
  ∀ s t : State, MemoriesWf s → step s = .next t → MemoriesWf t

/-- First in, first out, and the grade is fixed. -/
def Obligations.StepIsFifoAndKeepsGrade : Prop :=
  ∀ s t : State, step s = .next t → t.pending = s.pending.tail ∧ t.grade = s.grade

/-- What reset leaves. Empty slots, tags, streams and entries are log entry 3, the ACTIVE and powered state after start-up log entry 12: the
model's choice (DESIGN CHOICE), which no rule spells out. -/
def Obligations.ResetValues : Prop :=
  State.reset.pending = [] ∧ State.reset.mem.bytes = [] ∧ MemoriesWf State.reset
    ∧ (∀ i : SlotId, State.reset.slot i = {}) ∧ State.reset.stepCount = 0
    ∧ (∀ n, State.reset.seedOf n = 0) ∧ (∀ p, (State.reset.pool p).state = 0) ∧ State.reset.net.tags = []
    ∧ State.reset.pow.powered = true ∧ State.reset.pow.state = 1 ∧ State.reset.pow.request = 0
    ∧ (∀ q, (State.reset.pair q).state = 0) ∧ State.reset.coll.groups = [] ∧ State.reset.dict.contexts = []

/-- No row of the opcode table has bits. -/
def Obligations.NoWordSpellsACommand : Prop :=
  (∀ nbits w : Nat, decodeTableWord nbits w = none) ∧ ∀ (s : State) (nbits w : Nat), s.withFetchWord nbits w = s

/-- The saturating addition of R11, in the dictionary's two widths with the frame, and in any width. -/
def Obligations.CountsSaturate : Prop :=
  (∀ (s : State) (k n u : Nat),
    (s.bump k n u).reg k u = (if s.reg k u + n < 2 ^ 64 then s.reg k u + n else 2 ^ 64 - 1)
      ∧ (∀ k' u', k' * 65536 + u' ≠ k * 65536 + u → (s.bump k n u).reg k' u' = s.reg k' u')
      ∧ s.bump k n u = { s with dict := (s.bump k n u).dict })
  ∧ (∀ (s : State) (k n : Nat),
    (s.bump32 k n).reg k = (if s.reg k + n < 2 ^ 32 then s.reg k + n else 2 ^ 32 - 1)
      ∧ (∀ k' u', k' * 65536 + u' ≠ k * 65536 → (s.bump32 k n).reg k' u' = s.reg k' u')
      ∧ s.bump32 k n = { s with dict := (s.bump32 k n).dict })
  ∧ (∀ w a n : Nat, satAdd w a n = (if a + n < 2 ^ w then a + n else 2 ^ w - 1))
  ∧ ∀ (s : State) (k t at_ : Nat), isCounter k = true → s.pow.powered = true → s.pow.state = 1 ∨ s.pow.state = 2 →
    s.health.snapshot = some t → t ≤ max s.now at_ → SMap.wf none s.dict.regs = true → s.net.mirrors = [] → s.eng.contexts = [] →
    ∃ v, exec (.snapshotTake at_) s = .next v ∧ ∀ u, u < 65536 → SMap.get none s.dict.regs (k * 65536 + u) ≠ none →
      SMap.get 0 v.dict.shadows (k * 65536 + u) = s.reg k u

/-! ## Scalar and control commands -/

/-- The arithmetic rows of R98. -/
def Obligations.ScalarArithmetic : Prop :=
  ∀ (s : State) (i : SlotId) (w : Nat) (b : Bool), Issues s i w b → nextPtr (s.slot i) < 2048 →
    let x : W32 := BitVec.ofNat 32 ((s.slot i).value (cmdA w))
    let y : W32 := BitVec.ofNat 32 ((s.slot i).value (cmdB w))
    (cmdOp w = 0x11 → ∃ t, exec (.add i) s = .next t ∧ Wrote i w (x + y) s t)
      ∧ (cmdOp w = 0x12 → ∃ t, exec (.sub i) s = .next t ∧ Wrote i w (x - y) s t)
      ∧ (cmdOp w = 0x13 → ∃ t, exec (.mul i) s = .next t ∧ Wrote i w (x * y) s t)
      ∧ (cmdOp w = 0x14 → ∃ t, exec (.logic i) s = .next t ∧ Wrote i w
          (if cmdMods w = 0 then x &&& y else if cmdMods w = 1 then x ||| y else if cmdMods w = 2 then x ^^^ y else x &&& ~~~y) s t)
      ∧ (cmdOp w = 0x15 → ∃ t, exec (.shift i) s = .next t ∧ Wrote i w
          (if cmdMods w = 0 then x <<< (y.toNat % 32) else if cmdMods w = 1 then x >>> (y.toNat % 32)
            else x.sshiftRight (y.toNat % 32)) s t)

/-- The moving and comparing rows of R98. -/
def Obligations.MovesAndComparisons : Prop :=
  ∀ (s : State) (i : SlotId) (w : Nat) (b : Bool), Issues s i w b → nextPtr (s.slot i) < 2048 →
    let u := s.slot i
    let v := if cmdA w = .none then cmdMods w else u.value (cmdA w)
    let x : W32 := BitVec.ofNat 32 (u.value (cmdA w))
    let y : W32 := BitVec.ofNat 32 (u.value (cmdB w))
    let f : CmpFlag :=
      if bitOf (cmdMods w) 1 then (if x.toInt < y.toInt then .lt else if x = y then .eq else .gt)
      else if x.toNat < y.toNat then .lt else if x = y then .eq else .gt
    (cmdOp w = 0x10 → ∃ t, exec (.mov i) s = .next t ∧ OnlySlot i s t ∧ t.slot i = (u.put (cmdD w) v).retire u.ptr .next
        ∧ (∀ n, cmdD w = .s n → (t.slot i).sreg n = BitVec.ofNat 32 v)
        ∧ (∀ n, cmdD w = .c n → (t.slot i).creg n = BitVec.ofNat 32 v)
        ∧ (∀ n, cmdD w = .v n → (t.slot i).vreg n = BitVec.ofNat 64 v)
        ∧ (∀ n, cmdD w = .p n → (t.slot i).pred n = decide (v ≠ 0))
        ∧ ∀ n, cmdD w = .lc n → ((t.slot i).loop n).preset = BitVec.ofNat 32 v)
      ∧ (cmdOp w = 0x16 → ∃ t, exec (.cmp i) s = .next t ∧ OnlySlot i s t
        ∧ t.slot i = (({ u with cmp := u.cmp.setIfInBounds (cmdMods w % 2) f } : Slot).put (cmdD w)
            (b2n (f.meets (fieldOf 4 2 (cmdMods w))))).retire u.ptr .next
        ∧ (t.slot i).cmp.getD (cmdMods w % 2) .clear = f
        ∧ ∀ n, cmdD w = .p n → (t.slot i).pred n = f.meets (fieldOf 4 2 (cmdMods w)))
      ∧ (cmdOp w = 0x17 → ∃ t, exec (.plogic i) s = .next t ∧ OnlySlot i s t ∧ ∀ n m k, cmdA w = .p n → cmdB w = .p m →
          cmdD w = .p k →
          t.slot i = (u.setP k ((t.slot i).pred k)).retire u.ptr .next
            ∧ (t.slot i).pred k = (if cmdMods w = 0 then u.pred n && u.pred m else if cmdMods w = 1 then u.pred n || u.pred m
              else if cmdMods w = 2 then xor (u.pred n) (u.pred m) else u.pred n && !u.pred m))

/-- The descriptor rows of R98. -/
def Obligations.DescriptorCommands : Prop :=
  ∀ (s : State) (i : SlotId) (w : Nat) (b : Bool), Issues s i w b → nextPtr (s.slot i) < 2048 →
    let u := s.slot i
    (cmdOp w = 0x19 → ∀ n m, cmdD w = .d n → cmdA w = .s m →
      ∀ code hi lo v, (code, hi, lo, v) ∈ [(0, 255, 192, u.pair m), (1, 191, 160, (u.sreg m).toNat), (2, 159, 128, (u.sreg m).toNat),
          (3, 127, 112, (u.sreg m).toNat), (4, 111, 96, (u.sreg m).toNat), (5, 95, 64, (u.sreg m).toNat), (6, 63, 0, u.pair m)] →
        cmdMods w = code →
        ∃ t, exec (.dset i) s = .next t ∧ OnlySlot i s t
          ∧ t.slot i = (u.setD n ((t.slot i).desc n).toNat).retire u.ptr .next
          ∧ fieldOf hi lo ((t.slot i).desc n).toNat = v % 2 ^ (hi + 1 - lo)
          ∧ ∀ k, k < 256 → k < lo ∨ hi < k → ((t.slot i).desc n).getLsbD k = (u.desc n).getLsbD k)
    ∧ (cmdOp w = 0x1A → ∀ n m, cmdD w = .d n → cmdA w = .d m →
        ∃ t, exec (.doff i) s = .next t ∧ OnlySlot i s t
          ∧ t.slot i = (u.setD n ((t.slot i).desc n).toNat).retire u.ptr .next
          ∧ (Desc.of ((t.slot i).desc n)).base
              = ((Desc.of (u.desc m)).base + (if cmdB w = .none then 0 else u.value (cmdB w) * cmdMods w)) % 2 ^ 64
          ∧ ∀ k, k < 192 → ((t.slot i).desc n).getLsbD k = (u.desc m).getLsbD k)

/-- The control commands that move the pointer. -/
def Obligations.ControlCommands : Prop :=
  ∀ (s : State) (i : SlotId) (w : Nat) (b : Bool), Issues s i w b →
    let u := s.slot i
    (cmdOp w = 0x00 → nextPtr u < 2048 →
      ∃ t, exec (.nop i) s = .next t ∧ OnlySlot i s t ∧ t.slot i = u.retire u.ptr .next)
    ∧ (cmdOp w = 0x01 →
        u.ptr + 1 + cmdMods w ≤ (match u.nest with
          | [] => 2047
          | n :: _ => (u.loop n).last + 1) →
        (u.retire u.ptr (.to (u.ptr + 1 + cmdMods w))).ptr < 2048 →
        ∃ t, exec (.skip i) s = .next t ∧ OnlySlot i s t ∧ t.slot i = u.retire u.ptr (.to (u.ptr + 1 + cmdMods w))
          ∧ (u.nest = [] → (t.slot i).ptr = u.ptr + 1 + cmdMods w))
    ∧ (cmdOp w = 0x02 → ∀ n, cmdD w = .lc n → (u.loop n).active = false → u.nest.length < 2 →
        u.ptr + cmdMods w % 256 ≤ 2047 → (u.nest.all fun m => decide (u.ptr + cmdMods w % 256 ≤ (u.loop m).last)) = true →
        (∀ c, loopCount u w = c + 1 → c < 2 ^ 32 →
          ∃ t, exec (.loop i) s = .next t ∧ OnlySlot i s t ∧ (t.slot i).ptr = u.ptr + 1 ∧ (t.slot i).nest = n :: u.nest
            ∧ (t.slot i).loop n = ⟨(u.loop n).preset, BitVec.ofNat 32 c, u.ptr + 1, u.ptr + cmdMods w % 256, true⟩
            ∧ t.slot i = { u with status := .ready, fetched := [], cur := none, latch := {}, ptr := u.ptr + 1, nest := n :: u.nest
                                  loops := (t.slot i).loops })
        ∧ (loopCount u w = 0 → (u.retire u.ptr (.to (u.ptr + cmdMods w % 256 + 1))).ptr < 2048 →
          ∃ t, exec (.loop i) s = .next t ∧ OnlySlot i s t ∧ t.slot i = u.retire u.ptr (.to (u.ptr + cmdMods w % 256 + 1))))
    ∧ (cmdOp w = 0x03 → ∀ n ns, u.nest = n :: ns → (u.retire u.ptr .brk).ptr < 2048 →
        ∃ t, exec (.break_ i) s = .next t ∧ OnlySlot i s t ∧ t.slot i = u.retire u.ptr .brk
          ∧ (ns = [] → (t.slot i).ptr = (u.loop n).last + 1 ∧ (t.slot i).nest = []))
    ∧ (cmdOp w = 0x05 → nextPtr u < 2048 →
        ∃ t, exec (.yield i) s = .next t ∧ OnlySlot i s t
          ∧ t.slot i = { u with yieldTo := (begun s i w b).readyOthers i }.retire u.ptr .next)

/-- R105, with the loop rule of R104 that says what the remaining count counts. -/
def Obligations.LoopRule : Prop :=
  (∀ (u : Slot) (n : Nat),
    ((u.loop n).active = true → u.value (.lc n) = (u.loop n).remaining.toNat)
      ∧ ((u.loop n).active = false → u.value (.lc n) = (u.loop n).preset.toNat))
  ∧ (∀ (u : Slot) (n v : Nat), n < 2 →
    u.put (.lc n) v = { u with loops := (u.put (.lc n) v).loops }
      ∧ (u.put (.lc n) v).loop n = { u.loop n with preset := BitVec.ofNat 32 v }
      ∧ ∀ m, m ≠ n → (u.put (.lc n) v).loop m = u.loop m)
  ∧ (∀ (u : Slot) (w n : Nat), cmdA w = .lc n → loopCount u w = (u.loop n).preset.toNat)
  ∧ (∀ (u : Slot) (o : Opnd) (v m : Nat), m < 2 →
    ((u.put o v).loop m).remaining = (u.loop m).remaining ∧ ((u.put o v).loop m).active = (u.loop m).active
      ∧ (u.put o v).nest = u.nest)
  ∧ (∀ (s : State) (i : SlotId) (w : Nat) (b : Bool), Issues s i w b → cmdOp w = 0x02 → ∀ n, cmdD w = .lc n →
    ((s.slot i).loop n).active = false → (s.slot i).nest.length < 2 → (s.slot i).ptr + cmdMods w % 256 ≤ 2047 →
    ((s.slot i).nest.all fun m => decide ((s.slot i).ptr + cmdMods w % 256 ≤ ((s.slot i).loop m).last)) = true →
    ∀ c, loopCount (s.slot i) w = c + 1 → c < 2 ^ 32 →
      ∃ t, exec (.loop i) s = .next t ∧ ∀ o v, (((t.slot i).put o v).loop n).remaining = BitVec.ofNat 32 c)
  ∧ ∀ (u : Slot) (n : Nat), n < 2 → u.nest = [n] → (u.loop n).active = true → ∀ p,
    (p = (u.loop n).last → ∀ r : Nat, r + 1 < 2 ^ 32 → (u.loop n).remaining = BitVec.ofNat 32 (r + 1) →
      (u.retire p .next).ptr = (u.loop n).first ∧ (u.retire p .next).lcRead n = BitVec.ofNat 32 r
        ∧ ((u.retire p .next).loop n).active = true)
    ∧ (p = (u.loop n).last → (u.loop n).remaining = 0 →
      (u.retire p .next).ptr = p + 1 ∧ ((u.retire p .next).loop n).active = false
        ∧ (u.retire p .next).lcRead n = (u.loop n).preset)
    ∧ (p ≠ (u.loop n).last → (u.retire p .next).ptr = p + 1 ∧ (u.retire p .next).loops = u.loops
        ∧ (u.retire p .next).lcRead n = (u.loop n).remaining)

/-! ## Halts, work items and waits -/

/-- HALT (R97, R111, R112), with a held tile discarded (R144). -/
def Obligations.HaltEndsThread : Prop :=
  ∀ (s : State) (i : SlotId) (w : Nat) (b : Bool), Issues s i w b → cmdOp w = 0x04 → i.cell < 1048576 →
    let holds := (s.slot i).held.isSome
    let reason := if holds then 0x20 else cmdMods w
    let rec_ := haltRecord reason (bankCode b) (s.slot i).ptr i s.now 0 (w / 2 ^ 64)
    ∃ t, exec (.halt i) s = .next t ∧ t.slot i = {}
      ∧ (∀ k, k < 32 → t.rawByte (slotRecordAt i + k) = (natLE 32 rec_).getD k 0)
      ∧ (∀ a, a < slotRecordAt i ∨ slotRecordAt i + 32 ≤ a → t.rawByte a = s.rawByte a)
      ∧ (∀ cell off, t.padByte cell off = s.padByte cell off)
      ∧ t.swarm.haltLog = (if reason = 0 then s.swarm.haltLog else logAppend 64 s.swarm.haltLog (BitVec.ofNat 256 rec_))
      ∧ t.reg 0x205002 = (if reason = 0 then s.reg 0x205002 else satAdd 64 (s.reg 0x205002) 1)
      ∧ t.reg 0x208109 = (if holds then satAdd 64 (s.reg 0x208109) 1 else s.reg 0x208109)
      ∧ (∀ k u, k * 65536 + u ∉ [0x205002 * 65536, 0x208109 * 65536, 0xB02003 * 65536] → t.reg k u = s.reg k u)
      ∧ (∀ l, s.launch? (s.slot i).launch = some l →
          t.launch? (s.slot i).launch = some { l with live := l.live - 1, abnormal := l.abnormal + (if reason = 0 then 0 else 1) })
      ∧ (∀ j : SlotId, j.thread < 4 → j ≠ i → t.slot j = { s.slot j with yieldTo := (t.slot j).yieldTo })
      ∧ t.num = s.num ∧ t.net = s.net ∧ t.host = s.host ∧ t.isl = s.isl ∧ t.pow = s.pow

/-- NEXT (R107). Which run is the thread's next under R76 is said of `takeRun` in `LaunchCommands`. -/
def Obligations.NextDeliversItems : Prop :=
  ∀ (s : State) (i : SlotId) (w : Nat) (b : Bool) (l : Launch), Issues s i w b → cmdOp w = 0x18 → nextPtr (s.slot i) < 2048 →
    s.launch? (s.slot i).launch = some l →
    let u := s.slot i
    let more : Option Nat := match u.run, u.item with
      | some r, some k => if k + 1 < min l.items ((r + 1) * l.grain) then some (k + 1) else none
      | _, _ => none
    let spent : Bool := u.run.isSome && u.item.isNone
    let took := l.takeRun u.index i.comb u.run
    let given : Option Nat := if more.isSome then more else if spent then none else took.1.map (· * l.grain)
    (∃ t, exec (.next i) s = .next t
      ∧ (t.slot i).creg 0 = BitVec.ofNat 32 (given.getD 0xFFFFFFFF)
      ∧ (t.slot i).item = given
      ∧ (∀ n, cmdD w = .p n → (t.slot i).pred n = decide ((t.slot i).creg 0 ≠ 0xFFFFFFFF#32))
      ∧ (t.slot i).ptr = nextPtr u ∧ (t.slot i).sregs = u.sregs ∧ (t.slot i).vregs = u.vregs ∧ (t.slot i).descs = u.descs
      ∧ (t.slot i).cmp = u.cmp ∧ (∀ n, n ≠ 0 → (t.slot i).creg n = u.creg n)
      ∧ t.launch? u.launch = some (if more.isSome || spent then l else took.2)
      ∧ (∀ j : SlotId, j.thread < 4 → j ≠ i → t.slot j = seenIssue i j (s.slot j))
      ∧ t = { s with swarm := { s.swarm with slots := t.swarm.slots, launches := t.swarm.launches } })
    ∧ ∀ v, (u.put (.c 0) v).creg 0 = BitVec.ofNat 32 v ∧ (l.deliver (u.put (.c 0) v) i.comb).1.item = (l.deliver u i.comb).1.item
      ∧ (l.deliver (u.put (.c 0) v) i.comb).2 = (l.deliver u i.comb).2

/-- The issue of the three kinds of WAIT (R108). -/
def Obligations.WaitCommands : Prop :=
  ∀ (s : State) (i : SlotId) (w : Nat) (b : Bool), Issues s i w b → cmdOp w = 0x06 → (s.slot i).held = none →
    nextPtr (s.slot i) < 2048 →
    let u := s.slot i
    let d := (cmdD w).num
    let waits (f : WaitFor) (t : State) : Prop :=
      (t.slot i).status = .waiting ⟨f, s.now, fieldOf 31 16 (cmdMods w), d⟩ ∧ (t.slot i).ptr = u.ptr
        ∧ (t.slot i).cur = some (w, b) ∧ (t.slot i).sregs = u.sregs ∧ (t.slot i).preds = u.preds ∧ (t.slot i).signals = u.signals
        ∧ OnlySlot i s t
    let a := u.pair (cmdA w).num
    (cmdMods w % 4 = 0 →
      (∀ k, u.signals = k + 1 → ∃ t, exec (.waitSignal i) s = .next t
        ∧ t.slot i = ({ u with signals := k }.setP d true).retire u.ptr .next ∧ OnlySlot i s t)
      ∧ (u.signals = 0 → ∃ t, exec (.waitSignal i) s = .next t ∧ waits .signal t))
    ∧ (cmdMods w % 4 = 2 →
      (a ≤ s.now → ∃ t, exec (.waitTime i) s = .next t ∧ t.slot i = (u.setP d true).retire u.ptr .next ∧ OnlySlot i s t)
      ∧ (s.now < a → ∃ t, exec (.waitTime i) s = .next t ∧ waits (.time a) t))
    ∧ (cmdMods w % 4 = 1 → a % 4 = 0 → nodeOf a = s.node → waitableAt (localOf a) = true → ∀ bs,
      reads (Cmd.readGlobal (issueOf s i w b) [((a : Int), 4)]) (begun s i w b) bs = true →
      let m := fieldOf 4 2 (cmdMods w)
      let sg := bitOf (cmdMods w) 5
      ((cmpFlag sg 32 (leNat bs) (u.value (cmdB w))).meets m = true →
        ∃ t, exec (.waitMemory i) s = .next t ∧ t.slot i = (u.setP d true).retire u.ptr .next ∧ OnlySlot i s t)
      ∧ ((cmpFlag sg 32 (leNat bs) (u.value (cmdB w))).meets m = false →
        ∃ t, exec (.waitMemory i) s = .next t ∧ waits (.memory a (BitVec.ofNat 32 (u.value (cmdB w))) m sg) t))

/-- The ends of waits (R108). -/
def Obligations.WaitEnds : Prop :=
  ∀ (s : State) (i : SlotId) (v : Wait), s.waitOf i = some v → nextPtr (s.slot i) < 2048 →
    let u := s.slot i
    let ended (met : Bool) (k : Nat) (s' t : State) : Prop :=
      t.slot i = ({ u with signals := k }.setP v.pred met).retire u.ptr .next
        ∧ t = { s' with swarm := { s'.swarm with slots := t.swarm.slots } }
        ∧ ∀ j : SlotId, j.thread < 4 → j ≠ i → t.slot j = s.slot j
    (v.what = .signal → ∀ k, u.signals = k + 1 → ∃ t, exec (.signalWaitEnd i) s = .next t ∧ ended true k s t)
    ∧ (∀ a c m sg, v.what = .memory a c m sg → ∀ s1,
        (∀ bs, s.memRead (Requester.ofThread i) [(localOf a, 4)] = (s1, .ok bs) →
          ((cmpFlag sg 32 (leNat bs) c.toNat).meets m = true → ∃ t, exec (.memoryWaitReread i) s = .next t ∧ ended true u.signals s1 t)
          ∧ ((cmpFlag sg 32 (leNat bs) c.toNat).meets m = false → exec (.memoryWaitReread i) s = .next s1))
        ∧ ∀ e, s.memRead (Requester.ofThread i) [(localOf a, 4)] = (s1, .error e) →
          ∃ t, exec (.memoryWaitReread i) s = .next t ∧ t.slot i = {})
    ∧ (∀ a n, v.what = .time a → a ≤ max s.now n →
        ∃ t, exec (.timeWaitEnd i n) s = .next t ∧ ended true u.signals (s.at_ n) t)
    ∧ (∀ n, v.timeout ≠ 0 → v.issued + v.timeout * 1000 ≤ max s.now n →
        ∃ t, exec (.waitTimeout i n) s = .next t ∧ ended false u.signals (s.at_ n) t)

/-- Signals, fences, time, identity and seeds. SEED's tensor ID taken modulo 65,536 and a local FENCE that completes when no write is held are
the model's choice (DESIGN CHOICE, log entry 34). -/
def Obligations.SignalFenceAndQueries : Prop :=
  ∀ (s : State) (i : SlotId) (w : Nat) (b : Bool), Issues s i w b → nextPtr (s.slot i) < 2048 →
    let u := s.slot i
    (cmdOp w = 0x07 → ∀ j : SlotId, j.cell = u.value (cmdA w) → j.thread = cmdMods w → j.cell < 1048576 →
        s.hiveWorks (j.cell / 65536) = true →
        ∃ t, exec (.signal i) s = .next t
          ∧ (t.slot j).signals = (if s.occupied j then min ((s.slot j).signals + 1) 65535 else (s.slot j).signals)
          ∧ t.slot i = { u with signals := (t.slot i).signals }.retire u.ptr .next
          ∧ (j ≠ i → (t.slot i).signals = u.signals ∧ t.slot j = { seenIssue i j (s.slot j) with signals := (t.slot j).signals })
          ∧ t = { s with swarm := { s.swarm with slots := t.swarm.slots } }
          ∧ ∀ k : SlotId, k.thread < 4 → k ≠ i → k ≠ j → t.slot k = seenIssue i k (s.slot k))
    ∧ (cmdOp w = 0x07 → ¬ (u.value (cmdA w) < 1048576 ∧ s.hiveWorks (u.value (cmdA w) / 65536) = true) →
        ∃ t, exec (.signal i) s = .next t ∧ t.slot i = {})
    ∧ (cmdOp w = 0x08 → (s.writesHeld = true ∨ cmdMods w = 1 ∧ s.outstanding i = true) →
        ∃ t, exec (.fence i) s = .next t ∧ OnlySlot i s t ∧ (t.slot i).status = .remote ∧ (t.slot i).ptr = u.ptr
          ∧ (t.slot i).cur = some (w, b))
    ∧ (cmdOp w = 0x08 → s.writesHeld = false → (cmdMods w = 1 → s.outstanding i = false) →
        ∃ t, exec (.fence i) s = .next t ∧ OnlySlot i s t ∧ t.slot i = u.retire u.ptr .next)
    ∧ (cmdOp w = 0x70 → ∀ n, cmdD w = .s n →
        ∃ t, exec (.time i) s = .next t ∧ OnlySlot i s t ∧ (t.slot i).pair n = s.now % 2 ^ 64
          ∧ t.slot i = (u.setPair n s.now).retire u.ptr .next)
    ∧ (cmdOp w = 0x71 → ∃ t, exec (.ident i) s = .next t ∧ OnlySlot i s t ∧
        let v := if cmdMods w = 0 then u.index else if cmdMods w = 1 then i.cell else if cmdMods w = 2 then i.cell / 64
          else if cmdMods w = 3 then i.cell / 65536 else if cmdMods w = 4 then i.thread else if cmdMods w = 5 then s.node
          else if cmdMods w = 6 then s.stepCount % 2 ^ 32 else if cmdMods w = 7 then s.stepCount / 2 ^ 32
          else b2n (s.comb (i.cell / 64)).shownB
        t.slot i = (u.put (cmdD w) v).retire u.ptr .next)
    ∧ (cmdOp w = 0x60 → ∃ t, exec (.seed i) s = .next t ∧ t.slot i = u.retire u.ptr .next
          ∧ t.seedOf (u.value (cmdA w) % 65536) = u.pair (cmdB w).num
          ∧ (∀ n, n ≠ u.value (cmdA w) % 65536 → t.seedOf n = s.seedOf n)
          ∧ t = { s with num := { s.num with seeds := t.num.seeds }, swarm := { s.swarm with slots := t.swarm.slots } }
          ∧ ∀ j : SlotId, j.thread < 4 → j ≠ i → t.slot j = seenIssue i j (s.slot j))

/-- STEP (R102, R172). -/
def Obligations.StepCommand : Prop :=
  ∀ (s : State) (i : SlotId) (w : Nat) (b : Bool), Issues s i w b → cmdOp w = 0x61 → nextPtr (s.slot i) < 2048 →
    let u := s.slot i
    ∃ t, exec (.step i) s = .next t ∧ t.mem = s.mem ∧ t.swarm.pads = s.swarm.pads
      ∧ (∀ j : SlotId, j.thread < 4 → j ≠ i → t.slot j = seenIssue i j (s.slot j))
      ∧ (s.stepCount = u.pair (cmdA w).num →
          t.stepCount = (s.stepCount + 1) % 2 ^ 64 ∧ t.epoch = (s.epoch + 1) % 2 ^ 64
            ∧ t.slot i = (u.put (cmdD w) 1).retire u.ptr .next)
      ∧ (s.stepCount ≠ u.pair (cmdA w).num → OnlySlot i s t ∧ t.slot i = (u.put (cmdD w) 0).retire u.ptr .next)

/-! ## Memory commands and pools -/

/-- Reads and writes of plain memory by a thread. -/
def Obligations.LocalMemoryAccess : Prop :=
  ∀ (s : State) (x : Issue) (a n : Nat), a + n ≤ 2 ^ 64 → 0 < n → nodeOf a = s.node → s.nodeValid s.node = true →
    localOf a + n ≤ 2 ^ 40 →
    (∀ k, k < n → (place (localOf a + k) = .hbm ∧ s.inPoolMeta (localOf a + k) = false
        ∨ ∃ h, place (localOf a + k) = .near h ∧ s.hiveWorks h = true) ∧ s.poisoned (localOf a + k) = false) →
    let counted (v u : State) : Prop :=
      v = { u with mem := { u.mem with bytes := v.mem.bytes, poison := v.mem.poison, soft := v.mem.soft
                                       rowCorrections := v.mem.rowCorrections, candidates := v.mem.candidates }
                   dict := { u.dict with regs := v.dict.regs } }
    (s.heldOver [(localOf a, n)] = false → ∀ tc, ∃ v, Cmd.readGlobal x [((a : Int), n)] tc s = .ok (s.rawBytes (localOf a) n, v)
      ∧ counted v s ∧ v.mem.bytes = s.mem.bytes ∧ v.mem.poison = s.mem.poison
      ∧ (∀ k, k < n → SMap.get false v.mem.soft (wordOf (localOf a + k)) = false)
      ∧ ((∀ k, k < n → SMap.get false s.mem.soft (wordOf (localOf a + k)) = false) → v = s))
    ∧ ∀ (bs : List Byte) (tc tensor : Nat), bs.length = n →
      ∃ u, Cmd.writeGlobal x [((a : Int), bs)] tc tensor s = .ok ((), u)
        ∧ (∀ k, k < n → u.rawByte (localOf a + k) = bs.getD k 0)
        ∧ (∀ c, c < localOf a ∨ localOf a + n ≤ c → u.rawByte c = s.rawByte c)
        ∧ counted u s

/-- Reads and writes of a cell's own pad. -/
def Obligations.PadAccess : Prop :=
  ∀ (s : State) (x : Issue), (∀ k, SMap.get false s.swarm.padPoison k = false) →
    (∀ rs : List Range', ∃ u, Cmd.readPad x rs s = .ok (rs.flatMap fun g => s.padBytes x.id.cell g.1.toNat g.2, u)
      ∧ u = { s with swarm := { s.swarm with padSoft := u.swarm.padSoft }, dict := { s.dict with regs := u.dict.regs } }
      ∧ ((∀ k, SMap.get false s.swarm.padSoft k = false) → u = s))
    ∧ ∀ (a : Nat) (bs : List Byte), a + bs.length ≤ 8192 →
      ∃ u, Cmd.writePad x [((a : Int), bs)] s = .ok ((), u)
        ∧ (∀ k, k < bs.length → u.padByte x.id.cell (a + k) = bs.getD k 0)
        ∧ (∀ cell off, off < 8192 → (cell ≠ x.id.cell ∨ off < a ∨ a + bs.length ≤ off) → u.padByte cell off = s.padByte cell off)
        ∧ u = { s with swarm := { s.swarm with pads := u.swarm.pads, padPoison := u.swarm.padPoison, padSoft := u.swarm.padSoft }
                       dict := { s.dict with regs := u.dict.regs } }

/-- The word accesses of R99, with the launch port (R75) and the return doorbells as targets of an 8 B STR. -/
def Obligations.WordAccesses : Prop :=
  ∀ (s : State) (i : SlotId) (w : Nat) (b : Bool), Issues s i w b →
    let u := s.slot i
    let x := issueOf s i w b
    let s1 := begun s i w b
    let a := ofInt 64 ((u.pair (cmdA w).num : Nat) + toSigned 32 (cmdMods w))
    (cmdOp w = 0x24 → a % wordBytes (cmdD w) = 0 → nextPtr u < 2048 → ∀ bs,
        (reads (Cmd.readGlobal x [((a : Int), wordBytes (cmdD w))]) s1 bs = true →
          ∃ t, exec (.ldr i) s = .next t ∧ OnlySlot i s t ∧ t.slot i = (u.put (cmdD w) (leNat bs)).retire u.ptr .next)
        ∧ ∀ s2, gives (Cmd.readGlobal x [((a : Int), wordBytes (cmdD w))]) s1 bs s2 = true →
          ((((s2.slot i).put (cmdD w) (leNat bs)).retire u.ptr .next).ptr < 2048) →
          exec (.ldr i) s = .next (s2.setSlot i (((s2.slot i).put (cmdD w) (leNat bs)).retire u.ptr .next)))
    ∧ (cmdOp w = 0x25 → a % wordBytes (cmdB w) = 0 → (wordBytes (cmdB w) = 8 → s1.unit8 i a = .none) →
        reads (Cmd.holdLines x ⟨true, [((a : Int), wordBytes (cmdB w))]⟩) s1 () = true → ∀ s2,
        writes (Cmd.writeGlobal x [((a : Int), natLE (wordBytes (cmdB w)) (u.value (cmdB w)))] 5 0) s1 s2 = true →
        ((s2.slot i).retire u.ptr .next).ptr < 2048 → exec (.str i) s = .next (done s2 i u.ptr))
    ∧ (cmdOp w = 0x25 → wordBytes (cmdB w) = 8 → a % 8 = 0 → nodeOf a = s.node → i.cell < 1048576 → i.thread < 4 → nextPtr u < 2048 →
        (∀ k, k < 3 → place (localOf a) = .hub false (launchPortBase + 32 * i.key + 8 * k) →
          ∃ t, exec (.str i) s = .next t ∧ t.slot i = u.retire u.ptr .next
            ∧ t = { s with swarm := { s.swarm with ports := t.swarm.ports, slots := t.swarm.slots } }
            ∧ fieldOf (64 * k + 63) (64 * k) (SMap.get 0 t.swarm.ports i.key).toNat = u.value (cmdB w) % 2 ^ 64
            ∧ (∀ m, m < 192 → m < 64 * k ∨ 64 * k + 63 < m →
                (SMap.get 0 t.swarm.ports i.key).getLsbD m = (SMap.get 0 s.swarm.ports i.key).getLsbD m)
            ∧ (∀ m, m ≠ i.key → SMap.get 0 t.swarm.ports m = SMap.get 0 s.swarm.ports m)
            ∧ ∀ j : SlotId, j.thread < 4 → j ≠ i → t.slot j = seenIssue i j (s.slot j))
        ∧ (place (localOf a) = .hub false (launchPortBase + 32 * i.key + 0x18) → ∀ s2,
          exec (.launchPortPost i (BitVec.ofNat 64 (u.value (cmdB w)))) s1 = .next s2 → ((s2.slot i).retire u.ptr .next).ptr < 2048 →
          exec (.str i) s = .next (done s2 i u.ptr))
        ∧ (∀ e, e < 4096 → place (localOf a) = .hub (decide (16 ≤ expEngine (s.expert e))) (doorbellBase + 8 * e) → ∀ s2,
          exec (.returnDoorbellStore e (BitVec.ofNat 64 (u.value (cmdB w)))) s1 = .next s2 → ((s2.slot i).retire u.ptr .next).ptr < 2048 →
          exec (.str i) s = .next (done s2 i u.ptr)))
    ∧ (cmdOp w = 0x29 → u.pair (cmdA w).num % 32 = 0 → nextPtr u < 2048 → ∀ n bs, cmdD w = .d n →
        reads (Cmd.readGlobal x [((u.pair (cmdA w).num : Int), 32 * cmdMods w)]) s1 bs = true → bs.length = 32 * cmdMods w →
        ∃ t, exec (.dload i) s = .next t ∧ OnlySlot i s t
          ∧ (∀ k, k < cmdMods w → (t.slot i).desc (n + k) = BitVec.ofNat 256 (numAt bs (32 * k) 32))
          ∧ (∀ m, m < n ∨ n + cmdMods w ≤ m → (t.slot i).desc m = u.desc m)
          ∧ t.slot i = { u with descs := (t.slot i).descs }.retire u.ptr .next)

/-- ATOM on this module's memory (R81). -/
def Obligations.AtomicCommand : Prop :=
  ∀ (s : State) (i : SlotId) (w : Nat) (b : Bool), Issues s i w b → cmdOp w = 0x26 → nextPtr (s.slot i) < 2048 →
    let u := s.slot i
    let m := cmdMods w
    let wide := bitOf m 2
    let n := if wide then 8 else 4
    let a := u.pair (cmdA w).num
    let reg (o : Opnd) : Nat := match o with
      | .s k => if wide then u.pair k else (u.sreg k).toNat
      | _ => 0
    nodeOf a = s.node → s.nodeValid s.node = true → localOf a % n = 0 →
    (∀ k, k < n → (place (localOf a + k) = .hbm ∧ s.inPoolMeta (localOf a + k) = false
        ∨ ∃ h, place (localOf a + k) = .near h ∧ s.hiveWorks h = true) ∧ s.poisoned (localOf a + k) = false) →
    let old := leNat (s.rawBytes (localOf a) n)
    let v := reg (cmdB w)
    let less (p q : Nat) : Bool := if bitOf m 3 then decide (toSigned (8 * n) p < toSigned (8 * n) q) else decide (p < q)
    let new := if m % 4 = 0 then (old + v) % 2 ^ (8 * n) else if m % 4 = 1 then (if less old v then v else old)
      else if m % 4 = 2 then (if less v old then v else old) else if old = reg (cmdD w) then v else old
    ∃ t, exec (.atom i) s = .next t
      ∧ leNat (t.rawBytes (localOf a) n) = new
      ∧ (∀ c, c < localOf a ∨ localOf a + n ≤ c → t.rawByte c = s.rawByte c)
      ∧ t.slot i = (u.putAtom (cmdD w) wide old).retire u.ptr .next
      ∧ (∀ j : SlotId, j.thread < 4 → j ≠ i → t.slot j = seenIssue i j (s.slot j))
      ∧ t = { s with mem := { s.mem with bytes := t.mem.bytes, poison := t.mem.poison, soft := t.mem.soft
                                         rowCorrections := t.mem.rowCorrections, candidates := t.mem.candidates }
                     dict := { s.dict with regs := t.dict.regs }, swarm := { s.swarm with slots := t.swarm.slots } }

/-- The raw tile copies of R99. -/
def Obligations.TileCopies : Prop :=
  ∀ (s : State) (i : SlotId) (w : Nat) (b : Bool), Issues s i w b →
    let u := s.slot i
    let x := issueOf s i w b
    let s1 := begun s i w b
    let a := u.tile (cmdA w)
    let d := u.tile (cmdD w)
    a.reason [0, 1, 2, 3] true = none → d.reason [0, 1, 2, 3] true = none → a.agrees d = true → u.touchesHeld [a, d] = false →
    reads (Cmd.holdLines x d.dest) s1 () = true → ∀ bs r1 s2,
    gives (Cmd.read x a.global a.ranges) s1 bs r1 = true →
    writes (Cmd.write x d.global (cutBytes d.ranges bs) 5 d.tensor) r1 s2 = true →
    ((s2.slot i).retire u.ptr .next).ptr < 2048 →
    (cmdOp w = 0x20 → a.global = true → d.global = false → exec (.load i) s = .next (done s2 i u.ptr))
    ∧ (cmdOp w = 0x21 → a.global = false → d.global = true → exec (.store i) s = .next (done s2 i u.ptr))
    ∧ (cmdOp w = 0x2A → a.global = true → d.global = true → exec (.copy i) s = .next (done s2 i u.ptr))

/-- The indexed copies of R109. -/
def Obligations.IndexedCopies : Prop :=
  ∀ (s : State) (i : SlotId) (w : Nat) (b : Bool), Issues s i w b →
    let u := s.slot i
    let x := issueOf s i w b
    let s1 := begun s i w b
    let a := u.tile (cmdA w)
    let ix := u.tile (cmdB w)
    let d := u.tile (cmdD w)
    u.touchesHeld [a, ix, d] = false → ∀ (is : List Nat) (r1 : State), gives (Cmd.indices x ix) s1 is r1 = true →
    (cmdOp w = 0x22 → indexedReason a ix d a d = none → reads (Cmd.holdLines x d.dest) s1 () = true → ∀ bs r2 s2,
      gives (Cmd.read x a.global ((is.filter fun k => decide (k < a.rows)).map fun k => (a.rowAt 0 k, a.rowBytes))) r1 bs r2 = true →
      writes (Cmd.write x d.global
        ((List.range is.length).map fun j => (d.rowAt 0 j,
          let k := is.getD j 0
          if k < a.rows then slice bs (((is.take j).filter fun e => decide (e < a.rows)).length * a.rowBytes) a.rowBytes
          else List.replicate a.rowBytes 0)) 5 d.tensor) r2 s2 = true →
      let s3 := s2.bumpBy 0x206001 (is.filter fun k => decide (a.rows ≤ k)).length
      ((s3.slot i).retire u.ptr .next).ptr < 2048 → exec (.gather i) s = .next (done s3 i u.ptr))
    ∧ (cmdOp w = 0x23 → indexedReason a ix d d a = none →
      reads (Cmd.holdLines x ⟨d.global, (is.filter fun k => decide (k < d.rows)).map fun k => (d.rowAt 0 k, d.rowBytes)⟩) r1 () = true →
      is.length = a.rows → ∀ bs r2 s2,
      gives (Cmd.read x a.global ((List.range a.rows).map fun j => (a.rowAt 0 j, a.rowBytes))) r1 bs r2 = true →
      writes (Cmd.write x d.global
        ((List.range is.length).filterMap fun j =>
          if is.getD j 0 < d.rows then some (d.rowAt 0 (is.getD j 0), slice bs (j * a.rowBytes) a.rowBytes) else none) 5 d.tensor)
        r2 s2 = true →
      let s3 := s2.bumpBy 0x206001 (is.filter fun k => decide (d.rows ≤ k)).length
      ((s3.slot i).retire u.ptr .next).ptr < 2048 → exec (.scatter i) s = .next (done s3 i u.ptr))

/-- ALLOC and FREE by a thread on this module. -/
def Obligations.PoolCommands : Prop :=
  ∀ (s : State) (i : SlotId) (w : Nat) (b : Bool), Issues s i w b → nextPtr (s.slot i) < 2048 → s.ringSize = 0 →
    let u := s.slot i
    let pr := cmdMods w % 8
    (cmdOp w = 0x27 → ∀ r p n, u.value (cmdA w) = r → cmdD w = .s n →
        p = r ∨ ((s.pool r).state = 1 ∧ (s.pool r).free = 0 ∧ (s.pool r).fallbackValid = true ∧ (s.pool r).fallback = p) →
        let q := s.pool p
        let v := (s.cacheReady p).pool p
        q.state = 1 → 0 < q.free → q.base + q.count * q.size ≤ 2 ^ 40 → v.state = 1 → v.cache ≠ [] →
        (∀ k, k ∈ v.cache → k < q.count ∧ s.poolBit q k = false ∧ s.poisoned (q.bitAt k) = false) →
        ∃ t j, let k := v.cache.getD j 0
          exec (.alloc i) s = .next t ∧ j < v.cache.length
          ∧ (t.slot i).pair n = s.globalOf (q.base + k * q.size) ∧ (pr ≠ 0 → (t.slot i).pred pr = decide ((t.slot i).pair n ≠ 0))
          ∧ t.poolBit q k = true ∧ (∀ m, m ≠ k → t.poolBit q m = s.poolBit q m)
          ∧ (∀ c, c ≠ q.bitAt k → t.rawByte c = s.rawByte c)
          ∧ (t.pool p).free = q.free - 1 ∧ (t.pool p).record = q.record
          ∧ (129 < v.cache.length → (t.pool p).cache = v.cache.eraseIdx j)
          ∧ t.reg 0x710004 p = satAdd 64 (s.reg 0x710004 p) 1
          ∧ (p ≠ r → t.reg 0x710005 r = satAdd 64 (s.reg 0x710005 r) 1)
          ∧ (∀ m, m ≠ p → t.pool m = s.pool m) ∧ t.swarm.pads = s.swarm.pads)
    ∧ (cmdOp w = 0x27 → ∀ p n, u.value (cmdA w) = p → cmdD w = .s n →
        (s.pool p).state ≠ 1 ∨ ((s.pool p).free = 0 ∧ (s.pool p).fallbackValid = false) →
        ∃ t, exec (.alloc i) s = .next t ∧ t.slot i = ((u.setPair n 0).setP pr false).retire u.ptr .next
          ∧ t.reg 0x710006 p = satAdd 64 (s.reg 0x710006 p) 1
          ∧ (∀ k m, k * 65536 + m ≠ 0x710006 * 65536 + p → t.reg k m = s.reg k m)
          ∧ (∀ j : SlotId, j.thread < 4 → j ≠ i → t.slot j = seenIssue i j (s.slot j))
          ∧ t = { s with dict := { s.dict with regs := t.dict.regs }, swarm := { s.swarm with slots := t.swarm.slots } })
    ∧ (cmdOp w = 0x28 → ∀ p k, u.pair (cmdA w).num = s.globalOf ((s.pool p).base + k * (s.pool p).size) → p < 16 →
        let q := s.pool p
        q.state = 1 → k < q.count → s.poolBit q k = true → s.poisoned (q.bitAt k) = false →
        plainRegion.inHbmRange q.meta q.metaBytes = true →
        q.base + q.count * q.size ≤ 2 ^ 40 → s.nodeValid s.node = true → u.pair (cmdA w).num ≠ 0 →
        (∀ r, r < 16 → r ≠ p → (s.pool r).state ≠ 0 → overlap q.base (q.count * q.size) (s.pool r).base ((s.pool r).count * (s.pool r).size) = false) →
        ∃ t, exec (.free i) s = .next t ∧ (pr ≠ 0 → (t.slot i).pred pr = true)
          ∧ t.poolBit q k = false ∧ (∀ m, m ≠ k → t.poolBit q m = s.poolBit q m)
          ∧ (∀ c, c ≠ q.bitAt k → c < q.meta ∨ q.meta + q.ringBytes ≤ c → t.rawByte c = s.rawByte c)
          ∧ (q.cache.length < 383 →
            (t.pool p).cache = q.cache ++ [k] ∧ ∀ c, c ≠ q.bitAt k → t.rawByte c = s.rawByte c)
          ∧ (t.pool p).free = q.free + 1 ∧ (t.pool p).record = q.record ∧ (∀ r, r ≠ p → t.pool r = s.pool r))
    ∧ (cmdOp w = 0x28 → u.pair (cmdA w).num = 0 →
        ∃ t, exec (.free i) s = .next t ∧ OnlySlot i s t ∧ t.slot i = (u.setP pr true).retire u.ptr .next)
    ∧ (cmdOp w = 0x28 → ∀ reason p, p < 16 →
        let a := u.pair (cmdA w).num
        let l := localOf a
        let within (r : Nat) : Prop := ((s.pool r).state = 1 ∨ (s.pool r).state = 2) ∧ (s.pool r).base ≤ l
          ∧ l < (s.pool r).base + (s.pool r).count * (s.pool r).size
        a ≠ 0 → a < 2 ^ 64 →
        (reason = 1 ∧ p = 0 ∧ (s.nodeValid (nodeOf a) = false ∨ (nodeOf a = s.node ∧ ∀ r, r < 16 → ¬ within r)))
          ∨ (nodeOf a = s.node ∧ s.nodeValid s.node = true ∧ within p ∧ (∀ r, r < 16 → r ≠ p → ¬ within r)
              ∧ ((reason = 4 ∧ (s.pool p).state = 2)
                ∨ (reason = 2 ∧ (s.pool p).state = 1 ∧ (l - (s.pool p).base) % (s.pool p).size ≠ 0)
                ∨ (reason = 3 ∧ (s.pool p).state = 1 ∧ (l - (s.pool p).base) % (s.pool p).size = 0
                    ∧ s.poisoned ((s.pool p).bitAt ((l - (s.pool p).base) / (s.pool p).size)) = false
                    ∧ s.poolBit (s.pool p) ((l - (s.pool p).base) / (s.pool p).size) = false))) →
        ∃ t, exec (.free i) s = .next t ∧ t.slot i = (u.setP pr false).retire u.ptr .next
          ∧ t.mem.bytes = s.mem.bytes ∧ t.mem.pools = s.mem.pools ∧ t.swarm.pads = s.swarm.pads
          ∧ t.reg 0x720002 = satAdd 64 (s.reg 0x720002) 1
          ∧ t.reg 0x710007 p = (if reason = 1 then s.reg 0x710007 p else satAdd 64 (s.reg 0x710007 p) 1)
          ∧ t.mem.rejections = logAppend 64 s.mem.rejections (BitVec.ofNat 256 (reason * 2 ^ 248 + p * 2 ^ 244 + 2 ^ 240
              + (i.cell * 4 + i.thread) * 2 ^ 192 + s.now % 2 ^ 64 * 2 ^ 128 + a * 2 ^ 64)))

/-! ## Vector registers -/

/-- The lane-wise rows of R101. -/
def Obligations.VectorLanes : Prop :=
  ∀ (s : State) (i : SlotId) (w : Nat) (b : Bool), Issues s i w b → nextPtr (s.slot i) < 2048 →
    let u := s.slot i
    let m := cmdMods w
    let x := u.value (cmdA w)
    let y := u.value (cmdB w)
    let lane (n k v : Nat) : Nat := v / 2 ^ (n * k) % 2 ^ n
    ∀ n, cmdD w = .v n →
    let only (t : State) : Prop := OnlySlot i s t ∧ t.slot i = (u.setV n ((t.slot i).vreg n).toNat).retire u.ptr .next
    (cmdOp w = 0x40 → ∃ t, exec (.vop i) s = .next t ∧ only t ∧
      let e := 8 * 2 ^ fieldOf 4 3 m
      ∀ k, k < 64 / e →
        let p : BitVec e := BitVec.ofNat e (lane e k x)
        let q : BitVec e := BitVec.ofNat e (lane e k y)
        let le : Bool := if bitOf m 5 then p.sle q else p.ule q
        lane e k ((t.slot i).vreg n).toNat
          = (if m % 8 = 0 then p + q else if m % 8 = 1 then p - q else if m % 8 = 2 then (if le then p else q)
            else if m % 8 = 3 then (if le then q else p) else if m % 8 = 4 then p &&& q else if m % 8 = 5 then p ||| q
            else if m % 8 = 6 then p ^^^ q else p &&& ~~~q).toNat)
    ∧ (cmdOp w = 0x41 → ∃ t, exec (.vcmp i) s = .next t ∧ OnlySlot i s t ∧
      let e := if cmdSel w = 0 then 8 * 2 ^ fieldOf 7 6 m else if cmdSel w = 0xA then 32 else 16
      let hit (k : Nat) : Bool := (vcmpFlag (cmdSel w) (bitOf m 5) e (lane e k x) (lane e k y)).meets (fieldOf 4 2 m)
      (∀ k, k < 64 / e → lane e k ((t.slot i).vreg n).toNat = if hit k then 2 ^ e - 1 else 0)
        ∧ (fieldOf 10 8 m ≠ 0 → (t.slot i).pred (fieldOf 10 8 m) = (List.range (64 / e)).any hit)
        ∧ t.slot i = ((u.setV n ((t.slot i).vreg n).toNat).setP (fieldOf 10 8 m) ((List.range (64 / e)).any hit)).retire u.ptr .next)
    ∧ (cmdOp w = 0x42 → ∃ t, exec (.vsel i) s = .next t ∧ only t ∧ ∀ k, k < 64 →
        ((t.slot i).vreg n).getLsbD k = if (u.vreg m).getLsbD k then bitOf x k else bitOf y k)
    ∧ (cmdOp w = 0x43 → ∃ t, exec (.vshuf i) s = .next t ∧ only t ∧ ∀ k, k < 8 →
        lane 8 k ((t.slot i).vreg n).toNat = lane 8 (fieldOf (3 * k + 2) (3 * k) m) x)
    ∧ (cmdOp w = 0x45 → ∃ t, exec (.vsfu i) s = .next t ∧ only t ∧ ∀ k, k < 4 →
        lane 16 k ((t.slot i).vreg n).toNat = sfuLane m (lane 16 k x) % 2 ^ 16)

/-- The floating-point rows of R101 on registers. -/
def Obligations.VectorArithmetic : Prop :=
  ∀ (s : State) (i : SlotId) (w : Nat) (b : Bool), Issues s i w b → nextPtr (s.slot i) < 2048 →
    let u := s.slot i
    let l := (begun s i w b).slot i |>.latch
    let lane (n k v : Nat) : Nat := v / 2 ^ (n * k) % 2 ^ n
    let kept (t : State) : Prop := t.mem = s.mem ∧ t.swarm.pads = s.swarm.pads ∧ t.num = s.num ∧ t.net = s.net
      ∧ ∀ j : SlotId, j.thread < 4 → j ≠ i → t.slot j = seenIssue i j (s.slot j)
    ∀ n, cmdD w = .v n →
    (cmdOp w = 0x44 → ∃ t, exec (.vfma i) s = .next t ∧ kept t ∧
      let e := if cmdSel w = 0xA then 32 else 16
      let val (o : Opnd) (k : Nat) : FVal := decodeElem (cmdSel w) false (lane e k (u.value o))
      let out (k : Nat) : Conv := roundElem l (cmdSel w)
        (FVal.add false (FVal.mul (val (cmdA w) k) (val (cmdB w) k)) (val (.v n) k))
      (∀ k, k < 64 / e → lane e k ((t.slot i).vreg n).toNat = (out k).bits % 2 ^ e)
        ∧ t.slot i = (u.setV n ((t.slot i).vreg n).toNat).retire u.ptr .next
        ∧ t.dict = (s.countConvs ((List.range (64 / e)).map out)).dict)
    ∧ (cmdOp w = 0x46 → fmtLegal (cmdMods w % 16) = true → cmdMods w % 16 ≠ 0xB →
      ∃ t, exec (.vcvt i) s = .next t ∧ kept t ∧
      let src := cmdMods w % 16
      let e := fmtBits (cmdSel w)
      let c := 64 / max (fmtBits src) e
      let out (k : Nat) : Conv := convertElem (cmdSel w) (bitOf (cmdMods w) 5) l.e5m2Inf l.fp16Inf .rne
        (decodeElem src (bitOf (cmdMods w) 4) (lane (fmtBits src) k (u.value (cmdA w))))
      (∀ k, k < c → lane e k ((t.slot i).vreg n).toNat = (out k).bits % 2 ^ e)
        ∧ ((t.slot i).vreg n).toNat < 2 ^ (e * c)
        ∧ t.slot i = (u.setV n ((t.slot i).vreg n).toNat).retire u.ptr .next
        ∧ t.dict = (s.countConvs ((List.range c).map out)).dict)

/-! ## Tiles -/

/-- TCVT and TEW (R101). -/
def Obligations.TileConversions : Prop :=
  ∀ (s : State) (i : SlotId) (w : Nat) (b : Bool), Issues s i w b →
    let u := s.slot i
    let t1 := (begun s i w b).slot i
    let x := issueOf s i w b
    let s1 := begun s i w b
    let a := u.tile (cmdA w)
    let d := u.tile (cmdD w)
    let m := cmdMods w
    (cmdOp w = 0x47 → tcvtReason (bitOf m 2) a d = none → u.touchesHeld [a, d] = false →
      reads (Cmd.holdLines x d.dest) s1 () = true → ∀ rows r1 s2,
      gives (Cmd.values x a) s1 rows r1 = true →
      let amax := amaxOf rows.flatten
      let ks : Int × State :=
        if bitOf m 2 then (0, r1)
        else match t1.latch.code with
          | some c => (127 - (c : Int), r1)
          | none =>
            if r1.tensorScaled d then
              (127 - ((r1.codeOrPrepass d.tensor amax t1.latch.headroom).1 : Int), (r1.codeOrPrepass d.tensor amax t1.latch.headroom).2)
            else (0, r1)
      let out := if bitOf m 2 then splitConversion d rows else plainConversion ks.2 t1 d m ks.1 rows
      writes (Cmd.write x d.global out.1 5 d.tensor) ks.2 s2 = true →
      let s3 := (s2.countConvs out.2).contribute d.tensor t1.latch.epoch
        { amax := some amax, saturations := (out.2.map Conv.sat).sum, crushes := (out.2.map Conv.crush).sum }
      ((s3.slot i).retire u.ptr .next).ptr < 2048 → exec (.tcvt i) s = .next (done s3 i u.ptr))
    ∧ (cmdOp w = 0x48 →
      let bt := u.tile (cmdB w)
      let op := m % 8
      let one := bitOf m 3
      tewReason op one a bt d = none → u.touchesHeld [a, bt, d] = false → reads (Cmd.holdLines x d.dest) s1 () = true →
      let watch : Bool := (op == 0 || op == 3) && (d.fmt == 0xA || d.fmt == 0xB)
      ∀ ra rb o q1 q2 q3 s2, gives (Cmd.values x a) s1 ra q1 = true → gives (Cmd.values x bt) q1 rb q2 = true →
      let needs : Bool := op == 3 || (watch && (q2.recordOf d.tensor).isSome)
      (needs = true → gives (Cmd.tile x d) q2 o q3 = true) → (needs = false → q3 = q2) →
      let old (r c : Nat) : Elem := if needs then (o.row 0 r).getD c ⟨0, 0, 127, FVal.zero⟩ else ⟨0, 0, 127, FVal.zero⟩
      let res (r : Nat) : List (Elem × FVal × Option FVal) :=
        ((ra.getD r []).zip (rb.getD (if one then 0 else r) [])).zip (List.range d.cols) |>.map fun p =>
          (old r p.2, tewElem op p.1.1 p.1.2 (old r p.2).val)
      let code (e : Elem × FVal × Option FVal) : Conv := roundElem t1.latch d.fmt e.2.1
      writes (Cmd.write x d.global ((List.range d.rows).map fun r => d.rowWrite r ((res r).map fun e => (code e).bits)) 5 d.tensor) q3 s2
        = true →
      let all := (List.range d.rows).flatMap res
      let s3 := s2.countConvs (all.map code)
      let s4 := if watch then s3.contribute d.tensor t1.latch.epoch
          { updates := (all.filter fun e => countsUpdate e.2.2).length
            stalled := (all.filter fun e => countsUpdate e.2.2 && decide (decodeElem d.fmt false (code e).bits ≠ .nan)
              && decide ((code e).bits = e.1.code)).length }
        else s3
      ((s4.slot i).retire u.ptr .next).ptr < 2048 → exec (.tew i) s = .next (done s4 i u.ptr))

/-- TRED and TTOPK (R157, R110). -/
def Obligations.TileReductions : Prop :=
  ∀ (s : State) (i : SlotId) (w : Nat) (b : Bool), Issues s i w b →
    let u := s.slot i
    let t1 := (begun s i w b).slot i
    let x := issueOf s i w b
    let s1 := begun s i w b
    let a := u.tile (cmdA w)
    let d := u.tile (cmdD w)
    let m := cmdMods w
    ∀ rows r1 s2, gives (Cmd.values x a) s1 rows r1 = true → reads (Cmd.holdLines x d.dest) s1 () = true →
    (cmdOp w = 0x49 → tredReason m a d = none → u.touchesHeld [a, d] = false →
      let red (r : Nat) : FVal × Bool :=
        let vs := rows.getD r []
        (treeReduce (tredCombine m) vs.length (vs.map fun v => (v, false))).getD (FVal.zero, false)
      rows.length = d.rows →
      writes (Cmd.write x d.global ((List.range d.rows).map fun r => d.rowWrite r [(roundElem t1.latch d.fmt (red r).1).bits]) 5 d.tensor)
        r1 s2 = true →
      let s3 := s2.setWide ((List.range d.rows).any fun r => (red r).2)
      ((s3.slot i).retire u.ptr .next).ptr < 2048 → exec (.tred i) s = .next (done s3 i u.ptr))
    ∧ (cmdOp w = 0x4A →
      let k := m % 128
      let ix := Desc.of (u.desc (fieldOf 15 11 m))
      ttopkReason k a d ix = none → u.touchesHeld [a, d, ix] = false → reads (Cmd.holdLines x ix.dest) s1 () = true →
      let top (r : Nat) : List (FVal × Nat) := (((rows.getD r []).zip (List.range (rows.getD r []).length)).mergeSort ranksBefore).take k
      rows.length = d.rows → ix.rows = d.rows → ∀ s3,
      writes (Cmd.write x d.global ((List.range d.rows).map fun r => d.rowWrite r ((top r).map fun p => scoreCode t1.latch d p.1)) 5 d.tensor)
        r1 s2 = true →
      writes (Cmd.write x ix.global ((List.range d.rows).map fun r => ix.rowWrite r ((top r).map Prod.snd)) 5 ix.tensor) s2 s3 = true →
      ((s3.slot i).retire u.ptr .next).ptr < 2048 → exec (.ttopk i) s = .next (done s3 i u.ptr))

/-- The multiplies that are not speculative (R100, R152, R155). -/
def Obligations.TensorMultiplies : Prop :=
  ∀ (s : State) (i : SlotId) (w : Nat) (b : Bool), Issues s i w b → bitOf (cmdMods w) 1 = false →
    let u := s.slot i
    let x := issueOf s i w b
    let s1 := begun s i w b
    let a := u.tile (cmdA w)
    let c := u.tile (cmdB w)
    let d := u.tile (cmdD w)
    mulReason (cmdOp w) false a c d = none → u.touchesHeld [a, c, d] = false →
    ∀ start ta tb q0 q1 q2 s2, (bitOf (cmdMods w) 0 = true → gives (Cmd.entries x d) s1 start q0 = true) →
    (bitOf (cmdMods w) 0 = false → start = List.replicate (d.rows * d.cols) 0 ∧ q0 = s1) →
    gives (Cmd.tile x a) q0 ta q1 = true → gives (Cmd.tile x c) q1 tb q2 = true →
    let es : List AccEntry := (List.range (a.rows * c.rows)).map fun k =>
      entrySum (fmtIsInt a.fmt) (mulBlock a c) a.cols (start.getD k 0) (products ta tb (k / c.rows) (k % c.rows))
    writes (Cmd.putEntries x d (es.map AccEntry.value)) q2 s2 = true →
    let s3 := ((s2.operandCounts (ta.conflicts + tb.conflicts) (ta.dropped + tb.dropped)).bumpBy 0x300106
      (es.filter fun e => e.clamped).length).setWide (es.any fun e => e.wide)
    let s4' := s3.gatherStall (cmdOp w)
    let s4 := if s4'.shadowChosen (s2.slot i) a d then
        s4'.shadowTile d.tensor i.cell (s2.slot i).latch.epoch ((List.range es.length).map fun k =>
          shadowBin ((es.map AccEntry.value).getD k 0) (shadowValue (start.getD k 0) (products ta tb (k / c.rows) (k % c.rows))))
      else s4'
    ((s4.slot i).retire u.ptr .next).ptr < 2048 →
    (cmdOp w = 0x30 → exec (.mma i) s = .next (done s4 i u.ptr))
    ∧ (cmdOp w = 0x31 → exec (.mma24 i) s = .next (done s4 i u.ptr))
    ∧ (cmdOp w = 0x32 → exec (.mmasa i) s = .next (done s4 i u.ptr))

/-- Speculation and packing (R127, R136–R145). -/
def Obligations.SpeculationAndPacking : Prop :=
  ∀ (s : State) (i : SlotId),
    -- what a speculative multiply of a slot `u` does from the state `s1`, when it is performed
    let opens (s1 : State) (u : Slot) (x : Issue) (out : Host.Outcome State Fault Refusal) : Prop :=
      let w := x.word
      let a := u.tile (cmdA w)
      let c := u.tile (cmdB w)
      let d := u.tile (cmdD w)
      bitOf (cmdMods w) 1 = true → mulReason (cmdOp w) true a c d = none → u.specOk d (bitOf (cmdMods w) 0) = true →
      (u.held = none → s1.hasRoom i (d.rows * d.cols * 4) = true) → nextPtr u < 2048 →
      let s2 := if u.held.isNone then s1.grantRoom i (d.rows * d.cols * 4) else s1
      ∀ ta tb start q0 q1 q2, gives (Cmd.tile x a) s2 ta q0 = true → gives (Cmd.tile x c) q0 tb q1 = true →
      (∀ h, u.held = some h → start = h.acc ∧ q2 = q1) →
      (u.held = none → bitOf (cmdMods w) 0 = true → gives (Cmd.entries x d) q1 start q2 = true) →
      (u.held = none → bitOf (cmdMods w) 0 = false → start = List.replicate (d.rows * d.cols) 0 ∧ q2 = q1) →
      let vs := match u.held with
        | some h => h.verdicts.verdicts
        | none => (u.prediction.map Prediction.verdicts).getD []
      ∃ t h, out = .next t ∧ (t.slot i).held = some h
        ∧ h.dest = (u.held.map HeldTile.dest).getD (u.desc (cmdD w).num)
        ∧ h.acc = (List.range (a.rows * c.rows)).map (fun k =>
            if computedCode (vs.getD k 0) then
              (entrySum (fmtIsInt a.fmt) (mulBlock a c) a.cols (start.getD k 0) (products ta tb (k / c.rows) (k % c.rows))).value
            else start.getD k 0)
        ∧ i.thread ∉ t.roomQueue i.cell ∧ (t.slot i).ptr = nextPtr u ∧ t.swarm.pads = s.swarm.pads ∧ t.mem = q2.mem
    (∀ w b, Issues s i w b →
      let u := s.slot i
      let x := issueOf s i w b
      let s1 := begun s i w b
      let a := u.tile (cmdA w)
      let c := u.tile (cmdB w)
      let d := u.tile (cmdD w)
      (cmdOp w = 0x30 → opens s1 u x (exec (.mma i) s))
      ∧ (cmdOp w = 0x31 → opens s1 u x (exec (.mma24 i) s))
      ∧ (cmdOp w = 0x32 → opens s1 u x (exec (.mmasa i) s))
      ∧ (cmdOp w = 0x30 → bitOf (cmdMods w) 1 = true → mulReason 0x30 true a c d = none →
        u.specOk d (bitOf (cmdMods w) 0) = true → u.held = none → u.room ≠ d.rows * d.cols * 4 →
        s1.hasRoom i (d.rows * d.cols * 4) = false →
        ∃ t, exec (.mma i) s = .next t ∧ (t.slot i).status = .room ∧ i.thread ∈ t.roomQueue i.cell
          ∧ (t.slot i).cur = some (w, b) ∧ t.swarm.pads = s.swarm.pads ∧ t.mem = s.mem)
      ∧ (∀ kept bs q q' s2, cmdOp w = 0x33 → predictReason a c d = none → u.held = none →
        (∀ k, (u.kept.filter fun k => k.serves (u.desc (cmdA w).num) (u.desc (cmdB w).num)) = some k →
          kept = { k with b := u.desc (cmdB w).num } ∧ q = s1) →
        ((u.kept.filter fun k => k.serves (u.desc (cmdA w).num) (u.desc (cmdB w).num)) = none →
          ∃ ta tp q0, gives (Cmd.tile x a) s1 ta q0 = true ∧ gives (Cmd.tile x c) q0 tp q = true
            ∧ kept = keepProjection (u.desc (cmdA w).num) (u.desc (cmdB w).num) ta tp) →
        gives (Cmd.read x c.global [(c.factors, (factorLayout d.cols c.rows).size)]) q bs q' = true →
        let st := settingsOf (s1.slot i).latch (cmdMods w)
        let vs := (List.range d.rows).flatMap fun r => (List.range d.cols).map fun n =>
          verdictOf (neuronOf c.fmt c.rows n d.cols bs) st.1 st.2.2 (wordsRow kept.z r c.rows) (wordsRow kept.zDown r c.rows)
            (wordsRow kept.zUp r c.rows) (f32Val (kept.normUp.getD r 0))
            (decide (q'.drawFor (s1.slot i) d.tensor (r * d.cols + n) / 2 ^ 16 % 2 ^ st.2.1 = 0))
        writes (Cmd.writePad x ((List.range d.rows).map fun r => (d.rowAt 0 r, packElems 4 ((vs.drop (r * d.cols)).take d.cols)))) q' s2
          = true → nextPtr u < 2048 →
        ∃ t, exec (.predict i) s = .next t ∧ (t.slot i).prediction = some ⟨d.rows, d.cols, vs, st.1⟩ ∧ (t.slot i).kept = some kept
          ∧ t.swarm.pads = s2.swarm.pads ∧ t.mem = s2.mem
          ∧ t.reg 0x208005 = (if (s1.slot i).latch.permitted then s2.reg 0x208005 else satAdd 64 (s2.reg 0x208005) 1))
      ∧ (cmdOp w = 0x34 → u.held = none → nextPtr u < 2048 →
        ∃ t, exec (.commit i) s = .next t ∧ OnlySlot i s t ∧ t.slot i = { u with prediction := none }.retire u.ptr .next)
      ∧ (∀ h r q s2, cmdOp w = 0x34 → u.held = some h →
        let v (k : Nat) : Nat := h.verdicts.verdicts.getD k 0
        let n := h.acc.length
        let again : Bool := decide (h.verdicts.policy = 1)
          && decide (0 < countIdx n fun k => decide (v k = 3) && activeEntry h.isInt (h.acc.getD k 0))
        (again = true → gives (Cmd.replay x h.verdicts.verdicts h.chain (h.initial, List.replicate n 0, List.replicate n false)) s1 r q
          = true) →
        (again = false → q = s1) →
        writes (Cmd.putEntries x (Desc.of h.dest) ((List.range n).map fun k =>
          if v k = 0 then h.acc.getD k 0 else if again = true ∧ v k = 2 then r.1.getD k 0
          else if again = true ∧ v k = 3 then h.acc.getD k 0 else 0)) q s2 = true → ((s2.slot i).retire u.ptr .next).ptr < 2048 →
        ∃ t, exec (.commit i) s = .next t ∧ (t.slot i).held = none ∧ (t.slot i).prediction = none
          ∧ t.swarm.pads = s2.swarm.pads ∧ t.mem = s2.mem
          ∧ t.reg 0x208101 = (s2.bumpBy 0x208101 (countIdx n fun k => v k == 1)).reg 0x208101
          ∧ t.reg 0x208107 = satAdd 64 (s2.reg 0x208107) 1
          ∧ t.reg 0x208108 = (if again then satAdd 64 (s2.reg 0x208108) 1 else s2.reg 0x208108))
      ∧ (∀ sc ta q0 q1 s2, cmdOp w = 0x35 → packReason a d = none → u.touchesHeld [a, d] = false →
        reads (Cmd.holdLines x d.dest) s1 () = true →
        (a.scaled = true → gives (Cmd.read x a.global [(a.scaleAt 0 0, a.rows * a.blocks)]) s1 sc q0 = true) →
        (a.scaled = false → sc = [] ∧ q0 = s1) → gives (Cmd.tile x a) q0 ta q1 = true →
        let rows := (List.range a.rows).map fun r => packRow d (a.scaleCode sc 0 r) (ta.row 0 r)
        writes (Cmd.write x d.global (((List.range d.rows).flatMap fun r =>
          let p := rows.getD r ([], [], 0)
          (p.1.filterMap fun e => e.2.map fun cs => (d.rowAt 0 r + (e.1 / 2 * d.width / 8 : Nat), packElems d.width cs))
            ++ [(d.metaAt r, slice (packElems 4 p.2.1) 0 d.metaRow)])
          ++ (if d.scaled then [(d.scaleAt 0 0, sc)] else [])) 5 d.tensor) q1 s2 = true →
        let n := (rows.map fun p => p.2.2).sum
        let s3 := (s2.bumpBy 0x207001 n).contribute d.tensor (s1.slot i).latch.epoch { prune := n }
        ((s3.slot i).retire u.ptr .next).ptr < 2048 → exec (.pack i) s = .next (done s3 i u.ptr)))
    ∧ (∀ w b, (s.slot i).status = .room → (s.roomQueue i.cell).head? = some i.thread → (s.slot i).cur = some (w, b) →
      let u := s.slot i
      let s0 := s.setSlot i { u with status := .ready }
      let s1 := (s0.issued i).setSlot i (s0.slot i)
      s0.canIssue i = true → 0x30 ≤ cmdOp w → cmdOp w ≤ 0x32 → cmdGuard w ≠ 8 → guardPasses u w = true → (formOf (cmdOp w) (cmdMods w)).isSome = true →
      opens s1 u ⟨i, w, b, u.ptr⟩ (exec (.specMultiplyRoomStart i) s))

/-! ## Fabric, engine and numerics commands of a thread -/

/-- The rows of R102 that act on the fabric, the engines and the records. The padWindow return address of a far GET's requests (DESIGN CHOICE,
log entry 17) and SCALE's tensor ID modulo 65,536 (DESIGN CHOICE, log entry 34) are the model's choice. -/
def Obligations.FabricCommands : Prop :=
  (∀ (s : State) (i : SlotId) (w : Nat) (b : Bool), Issues s i w b →
    let u := s.slot i
    let x := issueOf s i w b
    let s1 := begun s i w b
    let a := u.tile (cmdA w)
    let d := u.tile (cmdD w)
    let goes (t : State) : Prop := ((t.slot i).retire u.ptr .next).ptr < 2048
    (∀ bs r1 s2, cmdOp w = 0x50 → a.reason [0, 1, 2, 3] true = none → d.reason [0, 1, 2, 3] true = none → a.agrees d = true →
      s1.localTile a = true → d.global = true → u.touchesHeld [a, d] = false → reads (Cmd.holdLines x d.dest) s1 () = true →
      gives (Cmd.read x a.global a.ranges) s1 bs r1 = true →
      writes (Cmd.write x d.global (cutBytes d.ranges bs) (fabricTc w) d.tensor) r1 s2 = true → goes s2 →
      exec (.put i) s = .next (done s2 i u.ptr))
    ∧ (∀ bs r1 s2, cmdOp w = 0x51 → a.reason [0, 1, 2, 3] true = none → d.reason [0, 1, 2, 3] true = none → a.agrees d = true →
      s1.localTile d = true → a.global = true → u.touchesHeld [a, d] = false → u.fetched = [] →
      s1.lineBusy i (s1.remoteSegs a.ranges) = false → s1.firstInvalid a.ranges = none →
      let ps := (copyParts a.ranges d.ranges).filter fun p => decide (nodeOf p.1 = s.node)
      let far := (copyParts a.ranges d.ranges).filter fun p => decide (nodeOf p.1 ≠ s.node)
      (d.global = true → (s1.firstWriteFault [] (far.map fun p => (localOf p.2.1, p.2.2))).filter (fun e => decide (e.cause ≠ .data)) = none) →
      gives (Cmd.readGlobal x (ps.map fun p => ((p.1 : Int), p.2.2))) s1 bs r1 = true →
      writes (Cmd.write x d.global ((ps.zip (splitParts (ps.map fun p => p.2.2) bs)).map fun p => ((p.1.2.1 : Int), p.2)) (fabricTc w) d.tensor)
        r1 s2 = true →
      (far = [] → goes s2 → exec (.get i) s = .next (done s2 i u.ptr))
        ∧ (far ≠ [] → ∃ t, exec (.get i) s = .next t ∧ (t.slot i).status = .remote ∧ (t.slot i).cur = some (w, b)
          ∧ (SMap.get none (t.slot i).fetched sentKey).isSome = true ∧ (t.slot i).ptr = u.ptr
          ∧ t.net = (far.foldl (fun (s' : State) p => s'.sendGets (Origin.hive i.hive)
              { s'.threadTag i (.threadGetTo i (!d.global)) (fabricTc w) with here := some (if d.global then localOf p.2.1 else p.2.1) }
              (nodeOf p.1) (localOf p.1) (if d.global then localOf p.2.1 else padWindow i) p.2.2) s2).net))
    ∧ (∀ hd bs r1 r2, cmdOp w = 0x52 → a.reason [0] false = none → 64 ≤ a.rows * a.rowBytes → a.rows * a.rowBytes ≤ 4096 →
      a.rows * a.rowBytes % 64 = 0 → u.touchesHeld [a] = false → u.pair (cmdB w).num % 32 = 0 →
      gives (Cmd.readGlobal x [((u.pair (cmdB w).num : Int), 32)]) s1 hd r1 = true →
      r1.templateReason (BitVec.ofNat 256 (leNat hd)) = none →
      gives (Cmd.read x a.global ((List.range a.rows).map fun r => (a.rowAt 0 r, a.rowBytes))) r1 bs r2 = true →
      let h : Hdr := { Hdr.of (BitVec.ofNat 256 (leNat hd)) with
        srcNode := s.node, srcEp := 0x1000 + i.hive, hop := 0, sub := 0, units := a.rows * a.rowBytes / 64 }
      let s2 := r2.send (0x40 + i.hive) ⟨h.encode, bs⟩
      goes s2 → exec (.send i) s = .next (done s2 i u.ptr))
    ∧ (∀ routes rows scales q0 q1 q2, cmdOp w = 0x54 →
      let bt := u.tile (cmdB w)
      let n := fieldOf 11 0 (cmdMods w)
      let c := s.ctx n
      bitOf c.record.toNat 511 = true → a.reason [0] false = none → bt.reason [0] false = none → bt.fmt = 0xA → bt.cols = 17 →
      a.rows = bt.rows * c.partCount → a.rowBytes + a.scaleBytes ≤ c.partBytes → u.touchesHeld [a, bt] = false →
      gives (Cmd.readParts x bt.global ((List.range bt.rows).map fun r => (bt.rowAt 0 r, bt.rowBytes))) s1 routes q0 = true →
      gives (Cmd.readParts x a.global ((List.range a.rows).map fun r => (a.rowAt 0 r, a.rowBytes))) q0 rows q1 = true →
      (a.scaled = true → gives (Cmd.readParts x a.global ((List.range a.rows).map fun r => (a.scaleAt 0 r, a.blocks))) q1 scales q2 = true) →
      (a.scaled = false → scales = [] ∧ q2 = q1) →
      let s2 := (List.range a.rows).foldl (fun (s' : State) r =>
        let route := routes.getD (r / c.partCount) []
        let h : Hdr :=
          { destNode := s.node, destEp := 0x3000 + c.engine, srcNode := s.node, srcEp := 0x1000 + i.hive, kind := 0x20, tc := 3
            units := c.frameBytes / 64, tensor := n, seq := numAt route 0 4 }
        s'.send (0x40 + i.hive) ⟨h.encode, routingBlock route (r % c.partCount)
          ++ slice (rows.getD r [] ++ scales.getD r []) 0 c.partBytes⟩) q2
      goes s2 → exec (.dispatch i) s = .next (done s2 i u.ptr))
    ∧ (∀ (v : W512) (r1 : State), gives (Cmd.record512 x (u.pair (cmdA w).num)) s1 v r1 = true →
      (cmdOp w = 0x55 →
        let r := r1.attachStream v
        let s2 := r.2.setSlot i ((r.2.slot i).put (cmdD w) (b2n r.1))
        goes s2 → exec (.sattach i) s = .next (done s2 i u.ptr))
      ∧ (cmdOp w = 0x53 →
        let r := r1.postCollective v none
        let s2 := r.2.setSlot i ((r.2.slot i).put (cmdD w) (b2n r.1))
        goes s2 → exec (.cpost i) s = .next (done s2 i u.ptr)))
    ∧ (cmdOp w = 0x62 → nextPtr u < 2048 → cmdB w = .none →
      let tensor := u.value (cmdA w) % 65536
      (s.recordOf tensor = none →
        ∃ t, exec (.scale i) s = .next t ∧ OnlySlot i s t ∧ t.slot i = (u.put (cmdD w) 0xFF).retire u.ptr .next)
      ∧ ∀ r, s.recordOf tensor = some r →
        let s2 := s1.rollRecord r.1
        ∃ t, exec (.scale i) s = .next t ∧ t = { s2 with swarm := { s2.swarm with slots := t.swarm.slots } }
          ∧ t.slot i = (u.put (cmdD w) (if (s2.record r.1).primed then (s2.record r.1).scale else 0xFF)).retire u.ptr .next)
    ∧ (cmdOp w = 0x62 → ∀ n rows r1, cmdB w = .d n →
      let tensor := u.value (cmdA w) % 65536
      let bt := u.tile (cmdB w)
      bt.reason [0] false = none → u.touchesHeld [bt] = false → gives (Cmd.values x bt) s1 rows r1 = true →
      (s.recordOf tensor = none →
        let s3 := r1.setSlot i ((r1.slot i).put (cmdD w) 0xFF)
        goes s3 → exec (.scale i) s = .next (done s3 i u.ptr))
      ∧ ∀ r, s.recordOf tensor = some r →
        let p := (r1.rollRecord r.1).codeOrPrepass tensor (amaxOf rows.flatten) (s1.slot i).latch.headroom
        let s2 := p.2.contribute tensor (s1.slot i).latch.epoch { amax := some (amaxOf rows.flatten) }
        let s3 := s2.setSlot i ((s2.slot i).put (cmdD w) p.1)
        goes s3 → exec (.scale i) s = .next (done s3 i u.ptr)))
  -- a GET whose requests have all been answered
  ∧ ∀ (s : State) (i : SlotId) (w : Nat) (b : Bool), s.canIssue i = true → (s.slot i).cur = some (w, b) → cmdOp w = 0x51 →
    cmdGuard w ≠ 8 → guardPasses (s.slot i) w = true → (formOf 0x51 (cmdMods w)).isSome = true →
    (SMap.get none (s.slot i).fetched sentKey).isSome = true → nextPtr (s.slot i) < 2048 →
    ∃ t, exec (.get i) s = .next t ∧ OnlySlot i s t ∧ t.slot i = (s.slot i).retire (s.slot i).ptr .next

/-! ## Launches, combs, hives and program banks -/

/-- Launches and gating (R70–R76, R83). All threads of a comb starting at once, the port bytes that stay after a post and the status in the
submission entry are the model's choice (DESIGN CHOICE, log entry 37). -/
def Obligations.LaunchCommands : Prop :=
  (∀ (l : Launch) (index comb : Nat) (run : Option Nat),
    let took := l.takeRun index comb run
    (l.dynamic = false → took =
        let r := match run with
          | some r => r + l.threads
          | none => index
        (if r < l.runCount then some r else none, l))
    ∧ (l.dynamic = true → ∀ x y, l.queueOf comb = (x, y) → x < y →
        took.1 = some (l.queueRun comb x) ∧ took.2.queueOf comb = (x + 1, y) ∧ ∀ n, n ≠ comb → took.2.queueOf n = l.queueOf n)
    ∧ (l.dynamic = true → ∀ x y, l.queueOf comb = (x, y) → y ≤ x →
        (l.richest (comb / 1024) = none → took = (none, l))
        ∧ ∀ n p q, l.richest (comb / 1024) = some n → l.queueOf n = (p, q) →
          took.1 = some (l.queueRun n (q - 1)) ∧ took.2.queueOf n = (p, q - 1) ∧ ∀ m, m ≠ n → took.2.queueOf m = l.queueOf m))
  ∧ (∀ (s : State) (i : SlotId) (v : W64), s.running = true → i.cell < 1048576 → i.thread < 4 → s.occupied i = true →
    let d : W256 := BitVec.ofNat 256 (v.toNat * 2 ^ 192 + (SMap.get 0 s.swarm.ports i.key).toNat)
    let l := Launch.fresh (s.swarm.nextLaunch + 1) d (.thread i)
    (s.launchRefusal l = none →
      ∃ t m, exec (.launchPortPost i v) s = .next t ∧ t.swarm.launches = s.swarm.launches ++ [m] ∧ m.id = s.swarm.nextLaunch + 1
        ∧ m.desc = d ∧ m.source = .thread i ∧ m.live = 0 ∧ m.started = [] ∧ m.held = decide (s.pow.state ≠ 1)
        ∧ t.reg 0x201002 = satAdd 64 (s.reg 0x201002) 1
        ∧ t = { s with dict := t.dict, swarm := { s.swarm with launches := t.swarm.launches, nextLaunch := s.swarm.nextLaunch + 1 } })
    ∧ (∀ st, s.launchRefusal l = some st → launchCompletion d = 0 →
      ∃ t, exec (.launchPortPost i v) s = .next t ∧ t = s.bump 0x201003))
  ∧ (∀ (s : State) (id n : Nat) (l : Launch), s.launch? id = some l → s.mayStart l n = true →
    exec (.threadStart id n) s = .next
      ((List.range (l.threadsOn n).2).foldl (fun (s' : State) k => s'.startThread id n k)
        ((s.setComb n { s.comb n with gated := false }).mapLaunch id fun m => { m with started := m.started ++ [n] })))
  ∧ (∀ (s : State) (id n k : Nat) (l : Launch), s.launch? id = some l → l.firstThread + k % l.tpc < 4 →
    (launchBank l.desc = 0 ∨ (s.comb n).bankB = decide (launchBank l.desc = 2)) →
    let j := l.slotAt n k
    let t := s.startThread id n k
    let g := (l.threadsOn n).1 + k
    (t.slot j).status = .ready ∧ (t.slot j).ptr = l.entry ∧ (t.slot j).launch = l.id ∧ (t.slot j).index = g
      ∧ (t.slot j).sreg 0 = BitVec.ofNat 32 (launchArgument l.desc) ∧ (t.slot j).sreg 1 = BitVec.ofNat 32 (launchArgument l.desc / 2 ^ 32)
      ∧ (t.slot j).sreg 2 = BitVec.ofNat 32 g ∧ (t.slot j).sreg 3 = BitVec.ofNat 32 l.threads
      ∧ (∀ r, 4 ≤ r → (t.slot j).sreg r = 0) ∧ (∀ r, (t.slot j).vreg r = 0) ∧ (t.slot j).signals = 0
      ∧ t.mem = s.mem ∧ ∀ m : SlotId, m.thread < 4 → m ≠ j → t.slot m = s.slot m)
  ∧ (∀ (s : State) (id n k : Nat) (l : Launch), s.launch? id = some l → l.firstThread + k % l.tpc < 4 →
    launchBank l.desc ≠ 0 → (s.comb n).bankB ≠ decide (launchBank l.desc = 2) →
    (s.startThread id n k).slot (l.slotAt n k) = {})
  ∧ (∀ (s : State) (id : Nat) (l : Launch), s.launch? id = some l → s.pow.powered = true → s.launchOver l = true →
    let a := launchCompletion l.desc
    let st := if l.abnormal + l.lost = 0 then 0 else 1
    a ≠ 0 → a % 8 = 0 → nodeOf a = s.node → s.nodeValid s.node = true →
    (∀ k, k < 8 → (place (localOf a + k) = .hbm ∧ s.inPoolMeta (localOf a + k) = false
        ∨ ∃ h, place (localOf a + k) = .near h ∧ s.hiveWorks h = true) ∧ s.poisoned (localOf a + k) = false) →
    ∃ t, exec (.launchComplete id) s = .next t ∧ t.launch? id = none
      ∧ (∀ k, k < 8 → t.rawByte (localOf a + k) = (natLE 8 (launchRecord (l.abnormal + l.lost) st)).getD k 0)
      ∧ (∀ c, c < localOf a ∨ localOf a + 8 ≤ c → t.rawByte c = s.rawByte c)
      ∧ t.swarm.slots = s.swarm.slots ∧ t.net = s.net)
  ∧ (∀ (s : State) (id : Nat) (l : Launch), s.launch? id = some l → s.pow.powered = true → s.launchOver l = true →
    launchCompletion l.desc = 0 →
    ∃ t, exec (.launchComplete id) s = .next t ∧ t.launch? id = none
      ∧ (∀ m ∈ s.swarm.launches, m.id ≠ id → m ∈ t.swarm.launches)
      ∧ t.reg 0x201004 = (if l.abnormal + l.lost = 0 then s.reg 0x201004 else satAdd 64 (s.reg 0x201004) 1)
      ∧ (∀ q e x, l.source = .entry q e → x ∈ (s.pair q).entries → x.id = e → x.result = none →
          { x with left := 0, result := some ((if l.abnormal + l.lost = 0 then 0 else 1),
              launchRecord (l.abnormal + l.lost) (if l.abnormal + l.lost = 0 then 0 else 1)) } ∈ (t.pair q).entries)
      ∧ t.mem = s.mem ∧ t.swarm.slots = s.swarm.slots ∧ t.net = s.net)
  ∧ ∀ (s : State) (n at_ : Nat), s.running = true → n < 16384 → s.hiveWorks (n / 1024) = true → (s.comb n).gated = false →
    s.combEmpty n = true → s.awaitedComb n = false → s.reg 0x204001 ≠ 0 →
    max (s.comb n).idleSince s.swarm.resetAt + s.reg 0x204001 * 1000 ≤ max s.now at_ →
    ∃ t, exec (.combGate n at_) s = .next t ∧ (t.comb n) = { s.comb n with gated := true }
      ∧ (∀ m, m ≠ n → t.comb m = s.comb m) ∧ t.now = max s.now at_ ∧ t.reg 0x204003 = satAdd 64 (s.reg 0x204003) 1
      ∧ (∀ cell off, cell / 64 ≠ n → off < 8192 → t.padByte cell off = s.padByte cell off)
      ∧ (∀ cell, cell / 64 = n → t.padGeneration cell = s.padGeneration cell + 1)
      ∧ t.mem = s.mem ∧ t.swarm.slots = s.swarm.slots

/-- Failures and drains of combs and hives (R27, R28, R61, R438, R463). That a move keeps the pads is DEDUCED from R27 (log entry 4: the model's
choice); that with no spare left the hive fails is R463 as log entry 29 counts spares. -/
def Obligations.CombAndHiveEvents : Prop :=
  (∀ (s : State) (n : Nat), s.swarmOn = true → n < 16384 → s.hiveWorks (n / 1024) = true → (s.comb n).movePending = false →
    ∃ t, exec (.combFailure n) s = .next t ∧ t.combFailed (n / 1024) (s.physicalOf n) = true
      ∧ (∀ j : SlotId, j.thread < 4 → j.cell / 64 = n → t.occupied j = false)
      ∧ (32 ≤ s.failedIn (n / 1024) → t.hiveWorks (n / 1024) = false ∧ ∀ g, g ≠ n / 1024 → t.hiveWorks g = s.hiveWorks g)
      ∧ t.swarm.combMap = s.swarm.combMap)
  ∧ (∀ (s : State) (n : Nat), s.swarmOn = true → n < 16384 → s.hiveWorks (n / 1024) = true → (s.comb n).movePending = false →
    s.failedIn (n / 1024) < 32 →
    ∃ t, exec (.combFailure n) s = .next t ∧ (t.comb n).movePending = true
      ∧ (t.comb n).draining = (s.comb n).draining ∧ (t.comb n).drained = (s.comb n).draining
      ∧ t.reg 0xB02003 ≥ min (s.reg 0xB02003 + 1) (2 ^ 64 - 1) ∧ t.swarm.combMap = s.swarm.combMap ∧ t.swarm.hives = s.swarm.hives)
  ∧ (∀ (s : State) (n p : Nat), s.swarmOn = true → n < 16384 → s.hiveWorks (n / 1024) = true → (s.comb n).movePending = true →
    s.combEmpty n = true → p < 1056 → s.combFailed (n / 1024) p = false → s.combMapped (n / 1024) p = false →
    ∃ t, exec (.combMove n p) s = .next t ∧ t.physicalOf n = p ∧ (∀ m, m ≠ n → t.physicalOf m = s.physicalOf m)
      ∧ (t.comb n) = { s.comb n with movePending := false } ∧ t.swarm.slots = s.swarm.slots
      ∧ (∀ cell off, t.padByte cell off = s.padByte cell off)
      ∧ (SMap.anyIn s.mem.poison (combBase n) (combBase n + 0x200000) id = false → s.ringSize = 0 → t.mem = s.mem)
      ∧ (SMap.anyIn s.mem.poison (combBase n) (combBase n + 0x200000) id = true → s.ringSize = 0 →
          (∀ a, combBase n ≤ a → a < combBase n + 0x200000 → t.rawByte a = 0)
            ∧ ∀ a, a < combBase n ∨ combBase n + 0x200000 ≤ a → t.rawByte a = s.rawByte a))
  ∧ (∀ (s : State) (h : Nat), s.pow.powered = true → s.hiveWorks h = true →
    ∃ t, exec (.hiveFailure h) s = .next t ∧ t.hiveWorks h = false ∧ (∀ g, g ≠ h → t.hiveWorks g = s.hiveWorks g)
      ∧ ∀ j : SlotId, j.thread < 4 → j.cell / 65536 = h → t.occupied j = false)
  ∧ ∀ (s : State) (n : Nat), s.pow.powered = true → n < 16384 → (s.comb n).draining = true → (s.comb n).drained = false →
    s.combEmpty n = true → exec (.combDrained n) s = .next (s.setComb n { s.comb n with drained := true })

/-- BANK_SWAP (R117). -/
def Obligations.BankSwap : Prop :=
  ∀ (s : State) (n k : Nat), (s.comb n).swaps = k + 1 → s.pow.powered = true → s.hiveWorks (n / 1024) = true →
    let c := s.comb n
    ∃ t : State, exec (.bankSwap n) s = .next t.releaseReads
      ∧ t.comb n = { c with bankB := !c.bankB, swaps := k, heldWrites := if k = 0 then [] else c.heldWrites
                            alteredA := c.bankB && c.alteredA, alteredB := !c.bankB && c.alteredB }
      ∧ (∀ m, m ≠ n → t.comb m = s.comb m)
      ∧ t.mem = (if k = 0 then c.heldWrites.foldl (fun (u : State) v => u.storePiece v.1 v.2) s else s).mem
      ∧ t.reg 0x202004 = satAdd 64 (s.reg 0x202004) 1 ∧ t.swarm.slots = s.swarm.slots ∧ t.swarm.pads = s.swarm.pads
      ∧ t.trust = (if k = 0 ∧ c.heldWrites ≠ [] then s.trust.markBank n c.bankB false else s.trust) ∧ t.host = s.host ∧ (s.host.readsHeld = [] → t.releaseReads = t)

/-! ## The object dictionary -/

/-- Items that read (R382, R385, R387, R397) and the challenge of R393. That 0x08 is taken before 0x09 (DESIGN CHOICE), and 0x09 for the entries
of a failed hive's port (DEDUCED), are the model's choice: log entry 32. -/
def Obligations.DictionaryReads : Prop :=
  ∀ (s : State) (c : Ctx), s.reachable c = true →
    let u := s.touch c
    let answered (bs : List Byte) : State := { u with dict := { u.dict with response := some (c, bs) } }
    (∀ (index sub off len : Nat) (m : Named), index < 0xF000 → resolve index sub = some m → m.pathOk c.path false = true →
      (m.shadow = true ∨ m.entry.access ≠ .wo) →
      (u.fitted m.entry.key (u.unitOf c m) = false → ∃ t, exec (.dictRead c index sub off len) s = .next t ∧ Refused c 8 u t)
      ∧ (u.fitted m.entry.key (u.unitOf c m) = true →
        (u.served c m.entry.key = false ∨ u.unitFailed m.entry.key (u.unitOf c m) = true →
          ∃ t, exec (.dictRead c index sub off len) s = .next t ∧ Refused c 9 u t)
        ∧ (u.served c m.entry.key = true → u.unitFailed m.entry.key (u.unitOf c m) = false →
          (m.entry.type.ranged = true ∨ (off = 0 ∧ len = m.entry.size)) → (m.entry.type = .blob → off + len ≤ m.entry.size) →
          (m.shadow = false → m.entry.key ≠ 0x103001 ∧ (m.entry.key = 0xA04002 → (u.context c).quote.isSome = true)) →
          let r := if m.shadow = false ∧ m.entry.key = 0x303003 then u.rollRecord (u.unitOf c m) else u
          let bs := if m.shadow then u.shadowOf m.entry (u.unitOf c m) else r.valueOf c m.entry (u.unitOf c m)
          off + len ≤ bs.length →
          exec (.dictRead c index sub off len) s = .next { r with dict := { r.dict with
            response := some (c, (m.answer 0 (index * 256 + sub) ((bs.drop off).take len)).bytes 1 off) } })))
    ∧ (∀ (index sub : Nat) (m : Named), index < 0xF000 → resolve index sub = some m →
      exec (.dictDescribe c index sub) s = .next (answered ((m.answer 0 (index * 256 + sub) m.describe).bytes 3 0)))
    ∧ (∀ (index sub n : Nat) (m : Named), nextName (index * 256 + sub) = some n → resolve (n / 256) (n % 256) = some m →
      exec (.dictDescribeNext c index sub) s = .next (answered ((m.answer 0 n m.describe).bytes 4 0)))
    ∧ (u.served c 0x103001 = true → (u.context c).challengeAfter ≤ s.now →
      let bs := (List.range 32).map (Config.nonceByte s.dict.challenges) ++ natLE 3 s.node ++ [BitVec.ofNat 8 c.path]
        ++ List.replicate 12 0
      ∃ t, exec (.unlockChallengeRead c) s = .next t ∧ (t.context c).challenge = some (bs, s.now)
        ∧ t.dict.challenges = s.dict.challenges + 1
        ∧ (∀ m, resolve 0x1030 1 = some m → t.dict.response = some (c, (m.answer 0 0x103001 bs).bytes 1 0))
        ∧ t = { s with dict := { u.dict with
            challenges := t.dict.challenges, contexts := t.dict.contexts, response := t.dict.response } })

/-- Items that write (R382, R386, R387, R397). The order of the checks, the holding in WAKING and 0x09 in FAULT STOP are the model's choice (DESIGN
CHOICE, log entry 32). -/
def Obligations.DictionaryWrites : Prop :=
  (∀ (s : State) (c : Ctx) (index sub : Nat) (data : List Byte) (m : Named), resolve index sub = some m →
    writeReaches s c index sub data.length = true → m.entry.key ≠ 0x105001 →
    let u := s.touch c
    let r := u.act c (u.roleOf c) m.entry.key (u.unitOf c m) (cleanValue m.entry.key (leNat data)) data
    (r.1 = 0 → (∃ t, exec (.dictWrite c index sub 0 data) s = .next t ∧ Performed c r.2 t)
      ∧ ∃ t, exec (.registerWrite c index sub 0 data) s = .next t ∧ Performed c r.2 t)
    ∧ (r.1 ≠ 0 → r.1 < 256 → ∃ t, exec (.dictWrite c index sub 0 data) s = .next t ∧ Refused c r.1 r.2 t))
  ∧ (∀ (s : State) (c : Ctx) (index sub : Nat) (data : List Byte) (m : Named), resolve index sub = some m →
    writeArrives s c index sub data.length = true → gatedKey m.entry.key = true → s.pow.state ≠ 1 → s.pow.state ≠ 2 →
    let u := s.touch c
    let n := u.unitOf c m
    let v := cleanValue m.entry.key (leNat data)
    let held := { u with dict := { u.dict with heldWrites := s.dict.heldWrites ++ [(m.entry.key * 65536 + n, v)] } }
    (isRws m.entry.key = true → s.pow.state ≠ 5 → u.valueOk m.entry.key n v = true →
      ∃ t, exec (.dictWrite c index sub 0 data) s = .next t ∧ Performed c held t)
    ∧ (isRws m.entry.key = false ∨ s.pow.state = 5 → ∃ t, exec (.dictWrite c index sub 0 data) s = .next t ∧ Refused c 9 u t))
  ∧ (∀ (c : Ctx) (v : Nat), v ≤ 1 →
    Performs (exec (.registerWrite c 0x3000 1 0 (natLE 1 v))) c 0x3000 1 1 (fun _ => True) fun u => u.setReg 0x300001 v)
  ∧ (∀ (s : State) (c : Ctx) (off : Nat) (data : List Byte), s.reachable c = true → c.path ≠ 3 →
    (s.touch c).served c 0x301002 = true → off % 8 = 0 → data.length % 8 = 0 → data ≠ [] → off + data.length ≤ 524288 →
    (s.pow.state = 1 ∨ s.pow.state = 2) →
    ∃ t, exec (.dictWrite c 0x3010 2 off data) s = .next t ∧ Performed c ((s.touch c).writeSeeds off data) t)
  ∧ ∀ (s : State) (c : Ctx) (index sub : Nat) (data : List Byte), s.reachable c = true → index < 0xF000 →
    let u := s.touch c
    let bad (status : Nat) : Prop := ∃ t, exec (.dictWrite c index sub 0 data) s = .next t ∧ Refused c status u t
    (resolve index sub = none → bad 1)
    ∧ ∀ m, resolve index sub = some m →
      (m.pathOk c.path true = false → bad 2)
      ∧ (m.pathOk c.path true = true →
        (m.shadow = true ∨ m.entry.access = .ro → bad 3)
        ∧ (m.shadow = false → m.entry.access ≠ .ro →
          (u.roleOf c < m.entry.role → bad 4)
          ∧ (m.entry.role ≤ u.roleOf c →
            (u.fitted m.entry.key (u.unitOf c m) = false → bad 8)
            ∧ (u.fitted m.entry.key (u.unitOf c m) = true →
              (u.served c m.entry.key = false ∨ u.unitFailed m.entry.key (u.unitOf c m) = true → bad 9)
              ∧ (u.served c m.entry.key = true → u.unitFailed m.entry.key (u.unitOf c m) = false →
                m.entry.size ≤ m.entry.element → data.length ≠ m.entry.size →
                ∃ t, exec (.dictWrite c index sub 0 data) s = .next t
                  ∧ Refused c 5 (if m.entry.key = 0x103002 then u.unlockFails c else u) t)))))

/-- Roles (R393, R394). A response without a live challenge, uncounted at 1031.03 but starting the second, and a zero service key counted as a
failed unlock, are the model's choice (DESIGN CHOICE, log entry 33). -/
def Obligations.RolesAndUnlocking : Prop :=
  (∀ (s : State) (c : Ctx) (data : List Byte), writeReaches s c 0x1030 2 data.length = true →
    let u := s.touch c
    let k := { u.context c with challenge := none }
    (u.liveChallenge c = none → ∃ t, exec (.unlockResponseWrite c data) s = .next t
      ∧ Refused c 4 (u.setContext { k with challengeAfter := s.now + 1000000000 }) t)
    ∧ ∀ ch, u.liveChallenge c = some ch →
      ∃ t, exec (.unlockResponseWrite c data) s = .next t ∧ (t.context c).challenge = none
        ∧ (if u.unlockGood ch data then
            t.roleOf c = numAt data 0 1
              ∧ Performed c ((u.setContext { k with role := numAt data 0 1 }).serviceEvent 1 c (numAt data 0 1) 0 ch) t
          else t.roleOf c = u.roleOf c
            ∧ Refused c 4 ((u.setContext { k with challengeAfter := s.now + 1000000000 }).bump 0x103103) t))
  ∧ (∀ (s : State) (c : Ctx), writeReaches s c 0x1030 4 1 = true →
    ∃ t, exec (.lockWrite c 1) s = .next t ∧ t.roleOf c = 0
      ∧ Performed c ((s.touch c).setContext { (s.touch c).context c with role := 0 }) t)
  ∧ (∀ (s : State) (c : Ctx) (at_ t0 : Nat) (k : CtxState) (ch : List Byte), (s.dict.contexts.find? fun x => x.ctx == c) = some k →
    k.challenge = some (ch, t0) → t0 + 60000000000 ≤ max s.now at_ →
    exec (.challengeExpiry c at_) s = .next ((s.at_ at_).setContext { k with challenge := none }))
  ∧ ∀ (s : State) (c : Ctx) (at_ : Nat) (k : CtxState), (s.dict.contexts.find? fun x => x.ctx == c) = some k → k.role ≠ 0 →
    k.last + 1800000000000 ≤ max s.now at_ →
    exec (.roleTimeout c at_) s = .next ((s.at_ at_).setContext { k with role := 0 })

/-- The configuration store (R396). -/
def Obligations.ConfigurationStore : Prop :=
  (∀ c : Ctx,
    let ready (u : State) : Prop := u.isl.powered = true ∧ u.dict.committing = none
    let image (u : State) : SMap (Option Nat) := (u.newestImage.map StoreSlot.values).getD []
    let begin_ (u : State) (values : SMap (Option Nat)) : State :=
      let g := (u.newestImage.map fun i => i.generation + 1).getD 1
      let x : StoreSlot := ⟨true, g, values⟩
      ({ u with dict := { u.dict with committing := some x, images := u.dict.images + 1 } } : State).setReg 0x105002 1
    Performs (exec (.storeCommit c)) c 0x1050 1 1 ready (fun u => begin_ u u.valuesInForce)
    ∧ Performs (exec (.storeClear c)) c 0x1050 1 1 (fun u => ready u ∧ u.roleOf c ≠ 0) (fun u => begin_ u [])
    ∧ Performs (exec (.storeRevert c)) c 0x1050 1 1 ready fun u =>
      ((u.valuesInForce.map Prod.fst)
        ++ ((image u).map Prod.fst).filter fun k => (SMap.get none u.dict.regs k).isNone && isRws (k / 65536)).foldl
        (fun (x : State) k =>
          State.putValue c (u.roleOf c) x (k / 65536) (k % 65536) ((SMap.get none (image u) k).getD (dfltOf (k / 65536)))) u)
  ∧ ∀ (s : State) (good : Bool) (i : StoreSlot), s.isl.powered = true → s.dict.committing = some i →
    ∃ t, exec (.storeCommitDone good) s = .next t ∧ t.dict.committing = none
      ∧ t.dict.slots = s.dict.slots.setIfInBounds s.otherSlot { i with valid := good }
      ∧ t.reg 0x105002 = (if good then 0 else 2)
      ∧ (∀ key u, key ≠ 0x105002 → u < 65536 → t.reg key u = s.reg key u)
      ∧ t = { s with dict := { s.dict with committing := none, slots := t.dict.slots, regs := t.dict.regs } }

/-- Requests about programs, measurements, quotes and firmware (R117, R120, R446, R447, R451, R453). The payload bytes of the attestation request
(log entry 31), the end of a measurement and the slot a stage may write (log entry 33) and a debug write held while swaps wait (log entry 37)
are the model's choice. -/
def Obligations.ProgramAndTrustRequests : Prop :=
  (∀ (s : State) (c : Ctx) (v : W64), writeReaches s c 0x2020 1 8 = true →
    let first := fieldOf 13 0 v.toNat
    let count := fieldOf 28 14 v.toNat
    count ≠ 0 → first + count ≤ 16384 → (∀ h, first / 1024 ≤ h → h ≤ (first + count - 1) / 1024 → s.hiveWorks h = true) →
    ∃ t, exec (.bankSwapRequest c v) s = .next t
      ∧ (∀ m, t.comb m = if first ≤ m ∧ m < first + count then { s.comb m with swaps := (s.comb m).swaps + 1 } else s.comb m)
      ∧ Performed c { s.touch c with swarm := { s.swarm with combs := t.swarm.combs } } t)
  ∧ (∀ (s : State) (c : Ctx) (data : List Byte), writeReaches s c 0x2020 5 data.length = true →
    let n := numAt data 0 2
    let bank := decide (numAt data 2 1 = 1)
    let a := progAddr n bank (numAt data 4 2 * 16)
    n < 16384 → numAt data 2 1 ≤ 1 → numAt data 4 2 < 2048 → s.hiveWorks (n / 1024) = true →
    ((s.comb n).shownB = bank ∨ (s.comb n).swaps = 0) →
    let active := decide ((s.comb n).shownB = bank)
    ∃ t, exec (.debugProgramWrite c data) s = .next t
      ∧ (∀ k, k < 16 → t.rawByte (a + k) = data.getD (16 + k) 0)
      ∧ (∀ x, x < a ∨ a + 16 ≤ x → t.rawByte x = s.rawByte x)
      ∧ t.comb n = (if active ∧ s.combEmpty n = false then (s.comb n).markAltered bank true else s.comb n)
      ∧ (∀ m, m ≠ n → t.comb m = s.comb m)
      ∧ t.reg 0x202006 = (if active then satAdd 64 (s.reg 0x202006) 1 else s.reg 0x202006)
      ∧ t.swarm.slots = s.swarm.slots ∧ t.swarm.pads = s.swarm.pads ∧ t.net = s.net ∧ t.host = s.host ∧ t.pow = s.pow)
  ∧ (∀ (s : State) (c : Ctx) (data : List Byte), writeReaches s c 0x2020 5 data.length = true →
    let n := numAt data 0 2
    let bank := decide (numAt data 2 1 = 1)
    let a := progAddr n bank (numAt data 4 2 * 16)
    n < 16384 → numAt data 2 1 ≤ 1 → numAt data 4 2 < 2048 → s.hiveWorks (n / 1024) = true →
    (s.comb n).shownB ≠ bank → 0 < (s.comb n).swaps →
    ∃ t, exec (.debugProgramWrite c data) s = .next t ∧ t.mem = s.mem
      ∧ t.comb n = { s.comb n with heldWrites := (s.comb n).heldWrites ++ [(a, slice data 16 8), (a + 8, slice data 24 8)] }
      ∧ (∀ m, m ≠ n → t.comb m = s.comb m)
      ∧ t.swarm = { s.swarm with combs := t.swarm.combs } ∧ t.trust.banks = s.trust.banks ∧ t.net = s.net ∧ t.host = s.host
      ∧ t.pow = s.pow)
  ∧ (∀ (c : Ctx) (v : W32),
    let n := fieldOf 13 0 v.toNat
    let b := bitOf v.toNat 14
    let j := fieldOf 17 16 v.toNat
    Performs (exec (.measureBank c v)) c 0xA010 1 4 (fun u => u.hiveWorks (n / 1024) = true ∧ u.trust.measuring = none) (fun u =>
      let digest := sha3 (natLE 2 n ++ [BitVec.ofNat 8 (b2n b), 0, 0, 0, 0, 0] ++ u.bankBytes n b)
      { u with trust := { u.trust with measuring := some { slot := j, comb := n, bankB := b, digest := digest } } })
    ∧ ∀ s : State, writeReaches s c 0xA010 1 4 = true → s.hiveWorks (n / 1024) = true → s.trust.measuring.isSome = true →
      ∃ t, exec (.measureBank c v) s = .next t ∧ Refused c 7 (s.touch c) t)
  ∧ (∀ (t : Trust) (m : Measuring), t.measuring = some m → m.slot < 4 →
    let r := t.banks.getD m.slot {}
    t.finishMeasure.hostSlots = t.hostSlots.setIfInBounds (12 + m.slot) (extendSlot (t.hostSlots.getD (12 + m.slot) 0) m.digest)
      ∧ t.finishMeasure.banks.getD m.slot {} = ⟨m.comb, m.bankB, true, r.changed || m.changed, r.altered || m.altered,
          satAdd 32 r.measurements 1, (m.comb, m.bankB) :: r.watched⟩
      ∧ (∀ k, k < 4 → k ≠ m.slot → t.finishMeasure.banks.getD k {} = t.banks.getD k {})
      ∧ t.finishMeasure = { t with measuring := none, hostSlots := t.finishMeasure.hostSlots, banks := t.finishMeasure.banks })
  ∧ (∀ (t : Trust) (n : Nat) (b altered : Bool) (k : Nat), k < 4 →
    let r := t.banks.getD k {}
    (t.markBank n b altered).banks.getD k {}
      = if (n, b) ∈ r.watched then { r with changed := true, altered := r.altered || altered } else r)
  ∧ (∀ (s : State) (c : Ctx) (nonce : List Byte), writeReaches s c 0xA040 1 nonce.length = true → s.islandUp = true → c.path ≠ 3 →
    (s.dict.quotes.any fun q => q.open_ c s.now) = false → (s.isl.quotes.any fun q => q.open_ c s.now) = false →
    let tag := s.trust.nextQuote % 65536
    let job : QuoteJob := ⟨tag, c, nonce, s.now, []⟩
    let m : Crossing := ⟨crossingBytes 9 s.isl.hostSeq (natLE 2 tag ++ [0, 0] ++ s.hostPart nonce), 0⟩
    ∃ t, exec (.quoteNonceWrite c nonce) s = .next t
      ∧ (if s.identityGood then
          t.dict.quotes = (s.dict.quotes.filter fun (q : QuoteJob) => q.ctx != c) ++ [job]
            ∧ t.isl.toIsland = s.isl.toIsland ++ [m] ∧ (t.context c).quote = none ∧ t.trust.nextQuote = s.trust.nextQuote + 1
            ∧ t.mem = s.mem ∧ t.swarm = s.swarm ∧ t.net = s.net
        else Refused c 9 (s.touch c) t))
  ∧ (∀ (c : Ctx) (v : Byte),
    let comp := v.toNat / 16
    comp = 1 ∨ comp = 2 →
    Performs (exec (.fwStage c v)) c 0xA020 2 1
        (fun u => u.roleOf c ≠ 0 ∧ u.trust.staging = none ∧ u.isl.powered = true ∧ (u.component comp).running ≠ some (1 - (u.component comp).active))
        (fun u => u.stageImage comp)
      ∧ Performs (exec (.fwActivate c v)) c 0xA020 2 1
        (fun u => u.trust.staging = none ∧ u.isl.powered = true ∧ (u.component comp).staged = true)
        (fun u =>
          let x := u.component comp
          let w := u.setComponent comp { x with active := 1 - x.active, staged := false }
          if comp = 2 then w.resetIsland else w)
      ∧ Performs (exec (.fwConfirm c v)) c 0xA020 2 1
        (fun u => u.roleOf c ≠ 0 ∧ u.trust.staging = none ∧ u.isl.powered = true ∧ (u.component comp).running.isSome = true)
        (fun u => { u with trust := { u.trust with floors :=
          (if comp = 1 then max u.trust.floors.1 (imageSecurity u.trust.host.image) else u.trust.floors.1,
            if comp = 2 then max u.trust.floors.2 (imageSecurity u.trust.island.image) else u.trust.floors.2) } }))
  ∧ ∀ (s : State) (comp : Nat) (sent : List Byte), s.trust.staging = some (comp, sent) → (comp = 1 ∨ comp = 2) → s.pow.powered = true →
    (comp = 2 → (s.isl.toIsland.any fun m => m.kind == 0x0B) = false) →
    let bs := if comp = 2 then assembleBlocks sent.length s.isl.blocks else sent
    let st := s.imageStatus comp bs
    let x := s.component comp
    ∃ t, exec .fwStageDone s = .next t ∧ t.trust.staging = none ∧ t.isl.blocks = [] ∧ t.reg 0xA02003 = st
      ∧ (t.component comp).slots = x.slots.setIfInBounds (1 - x.active) ⟨bs, decide (st = 0)⟩
      ∧ (t.component comp).staged = decide (st = 0) ∧ (t.component comp).active = x.active ∧ (t.component comp).running = x.running
      ∧ t.component (3 - comp) = s.component (3 - comp)
      ∧ t = { s with trust := t.trust, isl := { s.isl with blocks := [] }, dict := { s.dict with regs := t.dict.regs } }

/-- Tensor records, their transfers, and pools (R187, R193, R206–R208). No low-water event at enabling or initialising and free ring bytes after
disabling are the model's choice (log entry 23), and so is when a record rolls (log entry 43). -/
def Obligations.RecordsAndPools : Prop :=
  (∀ (c : Ctx) (v : W64),
    let n := fieldOf 11 0 v.toNat
    let tensor := fieldOf 27 12 v.toNat
    let f := fieldOf 31 28 v.toNat
    let scaled : Bool := bitOf v.toNat 32
    let rolled (u : State) : State := u.rollRecord n
    let good (u : State) : Prop := recordFormat f = true ∧ (scaled && fmtIsInt f) = false
      ∧ ∀ r, (rolled u).recordOf tensor = some r → r.1 = n
    Performs (exec (.recordBind c v)) c 0x3030 1 8 (fun u => good u ∧ ((rolled u).record n).bound = false) (fun u =>
        let w := rolled u
        w.setRecord n { w.record n with
          tensor := tensor, format := f, bound := true, scaled := scaled, watchZero := bitOf v.toNat 33
          watchStall := bitOf v.toNat 34, shadow := bitOf v.toNat 35, epoch := w.epoch, headroom := w.reg 0x302001 })
      ∧ Performs (exec (.recordBind c v)) c 0x3030 1 8
        (fun u => good u ∧ ((rolled u).record n).bound = true ∧ ((rolled u).record n).tensor = tensor ∧ ((rolled u).record n).format = f)
        (fun u =>
          let w := rolled u
          w.setRecord n { w.record n with
            scaled := scaled, watchZero := bitOf v.toNat 33, watchStall := bitOf v.toNat 34, shadow := bitOf v.toNat 35 })
      ∧ Performs (exec (.recordUnbind c v)) c 0x3030 1 8 (fun _ => True) (fun u => (rolled u).setRecord n {})
      ∧ Performs (exec (.recordClearAlarms c v)) c 0x3030 1 8 (fun _ => True) (fun u =>
        u.setRecord n { u.record n with zeroAlarm := false, stallAlarm := false }))
  ∧ (∀ c : Ctx,
    let ready (u : State) : Prop := u.num.transfer = none ∧ nodeOf (u.reg 0x303301) = u.node ∧ u.reg 0x303301 % 64 = 0
      ∧ plainRegion (localOf (u.reg 0x303301)) imageBytes = true
    let started (isExport : Bool) (a : Nat) (r : Nat × State) : State :=
      ({ r.2 with num := { r.2.num with transfer := some ⟨isExport, a, r.1⟩ } } : State).setReg 0x303303 1
    Performs (exec (.scaleExport c)) c 0x3033 2 1 ready (fun u => started true (u.reg 0x303301) (u.exportRecords (u.reg 0x303301)))
      ∧ Performs (exec (.scaleImport c)) c 0x3033 2 1 ready fun u =>
        started false (u.reg 0x303301) (u.importRecords (u.reg 0x303301)))
  ∧ (∀ (s : State) (x : ScaleTransfer), s.num.transfer = some x → s.running = true →
    exec .scaleTransferDone s = .next (({ s with num := { s.num with transfer := none } } : State).setReg 0x303303 x.result))
  ∧ (∀ (c : Ctx) (p : Nat) (v : W256), p < 16 →
    let r : W256 := BitVec.ofNat 256 (cleanValue 0x710001 v.toNat)
    let new (u : State) : Pool := { u.pool p with record := r }
    let row := exec (.poolRecordWrite c p v)
    Performs row c (0x7100 + p) 1 32
        (fun u => (u.pool p).enabled = false ∧ (new u).enabled = true ∧ u.poolOk p (new u) = true ∧ u.fallbackOk (new u) = true)
        (fun u => u.setPool p { record := r, state := 3, free := 0, low := decide (0 < (new u).lowWater) })
      ∧ Performs row c (0x7100 + p) 1 32
        (fun u => (u.pool p).enabled = false ∧ (new u).enabled = false ∧ u.fallbackOk (new u) = true)
        (fun u => u.setPool p { record := r })
      ∧ Performs row c (0x7100 + p) 1 32
        (fun u => (u.pool p).enabled = true ∧ (new u).enabled = true ∧ u.poolOk p (new u) = true ∧ u.fallbackOk (new u) = true
          ∧ (new u).fixedPart = (u.pool p).fixedPart)
        (fun u => (u.setPool p (new u)).lowWater p)
      ∧ Performs row c (0x7100 + p) 1 32
        (fun u => (u.pool p).enabled = true ∧ (new u).enabled = false ∧ u.fallbackOk (new u) = true
          ∧ ((u.pool p).state = 2 ∨ (u.pool p).state = 3 ∨ (u.pool p).free = (u.pool p).count)
          ∧ (new u).fixedPart % 2 ^ 255 = (u.pool p).fixedPart % 2 ^ 255
          ∧ ((List.range 16).any fun k => k != p && (u.pool k).enabled && (u.pool k).fallbackValid && (u.pool k).fallback == p) = false)
        (fun u => (u.setPool p { record := r }).scribble [((u.pool p).meta, (u.pool p).ringBytes)]))
  ∧ ∀ (s : State) (p : Nat), s.pow.powered = true → p < 16 → (s.pool p).state = 3 →
    plainRegion.inHbmRange (s.pool p).meta (s.pool p).metaBytes = true →
    let q := s.pool p
    ∃ t, exec (.poolInitComplete p) s = .next t
      ∧ (t.pool p).record = q.record ∧ (t.pool p).free = q.count ∧ (t.pool p).low = decide (q.count < q.lowWater)
      ∧ (∀ k, k ≠ p → t.pool k = s.pool k)
      ∧ t.pool p = { q with
          state := 1, free := q.count, low := decide (q.count < q.lowWater), cache := List.range (min q.count 256)
          ringHead := min q.count 256 % q.ringSlots, ringHeld := q.count - min q.count 256 }
      ∧ (∀ i, i < q.count → t.rawBytes (q.meta + 4 * i) 4 = natLE 4 i)
      ∧ (∀ k, 4 * q.count ≤ k → k < q.metaBytes → t.rawByte (q.meta + k) = 0)
      ∧ (∀ a, a < q.meta ∨ q.meta + q.metaBytes ≤ a → t.rawByte a = s.rawByte a)
      ∧ t.swarm = s.swarm ∧ t.net = s.net

/-- Writes to the switch, the engines, the sequencers, the rings and fabric time. That B040.02 takes a write that clears the enable bit
while its ring is enabled, as 4300.02 does not, is the model's reading of R469 against R262 (log entry 32, DESIGN CHOICE); that a step of
fabric time leaves what the island has timed its age is log entry 30. -/
def Obligations.SwitchAndEngineWrites : Prop :=
  (∀ (s : State) (c : Ctx), writeReaches s c 0x6010 5 1 = true → s.geometryOk = true →
    ∃ t, exec (.geometryCommit c 1) s = .next t ∧ t.net.dims = BitVec.ofNat 32 (s.reg 0x601002)
      ∧ t.net.coords = BitVec.ofNat 32 (s.reg 0x601003) ∧ t.net.dirs = BitVec.ofNat 512 (s.reg 0x601004)
      ∧ Performed c (s.touch c).applyGeometry.retrainMiswired.reparent t)
  ∧ (∀ (c : Ctx) (v : Byte),
    let ring (row : State → Host.Outcome State Fault Refusal) (index key lo hi size : Nat) : Prop :=
      Performs row c index 2 1
          (fun u => bitOf (u.reg (key + 1)) 7 = false ∧ bitOf v.toNat 7 = true ∧ lo ≤ v.toNat % 32 ∧ v.toNat % 32 ≤ hi
            ∧ ringFits (u.reg key) (v.toNat % 32) size = true)
          (fun u => ((u.setReg (key + 1) (128 + v.toNat % 32)).setReg (key + 2) 0).setReg (key + 3) 0)
        ∧ Performs row c index 2 1 (fun u => bitOf v.toNat 7 = false ∧ (key = 0x430001 → bitOf (u.reg (key + 1)) 7 = false))
          (fun u => u.setReg (key + 1) (v.toNat % 32))
    ring (exec (.captureRingEnable c v)) 0x4300 0x430001 10 24 80
      ∧ ring (exec (.telemetryRingEnable c v)) 0xB040 0xB04001 8 20 64
      ∧ ∀ s : State, writeReaches s c 0x4300 2 1 = true → bitOf ((s.touch c).reg 0x430002) 7 = true →
        ∃ t, exec (.captureRingEnable c v) s = .next t ∧ Refused c 6 (s.touch c) t)
  ∧ (∀ (c : Ctx) (v : Byte), v.toNat ≤ 1 →
    Performs (exec (.injectionUnlockWrite c v)) c 0xC000 1 1 (fun _ => True) fun u =>
      let w := u.setReg 0xC00001 v.toNat
      let x : State := if v = 0 then
          { w with net := { w.net with seen := [], rx := w.net.rx ++ w.net.reorder, reorder := [] } }
        else { w with net := { w.net with seen := [] } }
      x.serviceEvent 2 c (u.roleOf c) 0xC00001 [v])
  ∧ (∀ (s : State) (c : Ctx) (v : BitVec 16), writeReaches s c 0x5800 9 2 = true →
    (s.eng.streams.any fun x => x.handle == v.toNat % 4096) = true →
    ∃ t, exec (.streamDetach c v) s = .next t ∧ t.eng.streams = s.eng.streams.filter (fun x => x.handle != v.toNat % 4096)
      ∧ Performed c ((s.touch c).endStream (v.toNat % 4096) 2) t)
  ∧ (∀ (c : Ctx) (v : W512),
    let r : W512 := BitVec.ofNat 512 (cleanValue 0x581002 v.toNat)
    let n (u : State) : Nat := u.selected c 0x581001
    let fresh (u : State) : DispatchContext := { record := r, engine := fieldOf 507 503 r.toNat, counts := (u.ctx (n u)).counts }
    Performs (exec (.contextRecordWrite c v)) c 0x5810 2 64
        (fun u => bitOf (u.ctx (n u)).record.toNat 511 = false ∧ bitOf r.toNat 511 = true ∧ u.contextOk (fresh u) = true)
        (fun u => u.setCtx (n u) (fresh u).armed)
      ∧ Performs (exec (.contextRecordWrite c v)) c 0x5810 2 64
        (fun u => bitOf (u.ctx (n u)).record.toNat 511 = true ∧ bitOf r.toNat 511 = false
          ∧ r.toNat % 2 ^ 511 = (u.ctx (n u)).record.toNat % 2 ^ 511)
        (fun u => u.setCtx (n u) (fresh u))
      ∧ Performs (exec (.contextRecordWrite c v)) c 0x5810 2 64
        (fun u => bitOf (u.ctx (n u)).record.toNat 511 = false ∧ bitOf r.toNat 511 = false)
        (fun u => u.setCtx (n u) (fresh u)))
  ∧ (∀ (c : Ctx) (v : W256),
    let n (u : State) : Nat := u.selected c 0x500001
    let w : W256 := BitVec.ofNat 256 (setField v.toNat 255 1 1)
    let x : W256 := groupRecord (BitVec.ofNat 256 (setField v.toNat 255 1 0))
    let taken (u : State) : List Nat × State := u.takeChunks (u.reg 0x501001) (reservedFor w)
    Performs (exec (.groupDefine c v)) c 0x5000 2 32
        (fun u => u.groupBusy (n u) = false ∧ u.groupOk w = true ∧ (reservedFor w = 0 ∨ u.stagingPoolOk (u.reg 0x501001) = true)
          ∧ reservedFor w ≤ (taken u).1.length)
        (fun u => ((taken u).2.freeChunks (groupHub (u.group (n u)).record) (u.group (n u)).reserved).setGroup (n u) ⟨w, 0, (taken u).1, u.reg 0x501001⟩)
      ∧ Performs (exec (.groupUndefine c v)) c 0x5000 2 32 (fun u => u.groupBusy (n u) = false)
        (fun u => (u.freeChunks (groupHub (u.group (n u)).record) (u.group (n u)).reserved).setGroup (n u) { record := x })
      ∧ (∀ d lo, d < 4 → lo < 2 → bitOf x.toNat (16 * d + lo) = false) ∧ fieldOf 235 64 x.toNat = 0)
  ∧ (∀ (s : State) (c : Ctx) (v : W64) (x : Collective), writeReaches s c 0x5030 1 8 = true →
    (s.coll.active.find? fun y => y.group == v.toNat % 256 && y.sequence == v.toNat / 2 ^ 32 && !y.reported) = some x →
    ∃ t, exec (.collectiveAbortRequest c v) s = .next t
      ∧ Performed c (((s.touch c).endColl x.id 3 4 s.node).settleGroup x.group) t)
  ∧ (∀ (c : Ctx) (at_ : W64),
    let scheduled (u : State) : State := ({ u with health := { u.health with snapshot := some at_.toNat } } : State).setReg 0xB05003 1
    let ready (u : State) : Prop := u.health.snapshot = none ∧ u.now + 10000 ≤ at_.toNat
    let group (u : State) : Nat := u.reg 0xB05005
    Performs (exec (.snapshotRequest c at_)) c 0xB050 1 8
        (fun u => ready u ∧ (4096 ≤ group u ∨ bitOf (u.groupEntry (group u)) 127 = false)) scheduled
      ∧ Performs (exec (.snapshotRequest c at_)) c 0xB050 1 8
        (fun u => ready u ∧ group u < 4096 ∧ bitOf (u.groupEntry (group u)) 127 = true)
        (fun u => (scheduled u).send 0x85
          ⟨({ u.timeHeader 0 with mc := true, group := group u } : Hdr).encode, (scheduled u).timePayload 3 [0, 0, 0, at_.toNat]⟩))
  ∧ ∀ (c : Ctx) (time : W64), Performs (exec (.setFabricTime c time)) c 0x9040 4 8
    (fun u => u.isRoot = true ∧ u.now < time.toNat) (fun u => u.stepTime time.toNat)

/-- Port control, lasers and rings (R341, R348, R350–R352). R352 has a forced swap wait while a port of the bank is training and does
not say what ends the wait: that the bank's next bias adjustment makes it is the model's choice (log entry 25, DESIGN CHOICE), here and in
the last clause but one. -/
def Obligations.PortsAndLasers : Prop :=
  (∀ (c : Ctx) (v : Byte),
    let p (u : State) : Nat := u.selected c 0x602001
    let links (u : State) : List Nat := (List.range 2).map (· + 2 * p u)
    let closed (u : State) : State := (links u).foldl (fun (x : State) l => if x.linkExists l then x.disableLink l else x) u
    let same (u : State) : Prop := bitOf v.toNat 1 = bitOf (u.portControl (p u)) 1
    let on := setField v.toNat 0 1 1 % 4
    let off := setField v.toNat 0 1 0 % 4
    let x := v.toNat % 4
    Performs (exec (.portEnable c v)) c 0x6020 2 1 (fun u => same u ∧ u.portEnabled (p u) = false)
        (fun u => ((links u).foldl State.darken (u.setReg 0x602002 on (p u))).updateService)
      ∧ Performs (exec (.portEnable c v)) c 0x6020 2 1 (fun u => same u ∧ u.portEnabled (p u) = true)
        (fun u => u.setReg 0x602002 on (p u))
      ∧ Performs (exec (.portDisable c v)) c 0x6020 2 1 (fun u => same u ∧ u.portEnabled (p u) = true)
        (fun u => ((closed u).setReg 0x602002 off (p u)).updateService)
      ∧ Performs (exec (.portSplit c v)) c 0x6020 2 1
        (fun u => bitOf v.toNat 1 ≠ bitOf (u.portControl (p u)) 1 ∧ bitOf (u.writtenDir (2 * p u)) 7 = false
          ∧ bitOf (u.writtenDir (2 * p u + 1)) 7 = false)
        (fun u =>
          let w := (links u).foldl (fun (y : State) l => y.mapLink l Link.afresh) ((closed u).setReg 0x602002 x (p u))
          ((links u).foldl (fun (y : State) l =>
            if bitOf x 0 then y.darken l else if y.linkExists l then y.linkTo l 1 else y) w).updateService))
  ∧ (∀ (s : State) (c : Ctx) (v : Byte) (a : Nat), writeReaches s c 0x6040 4 1 = true →
    let u := s.touch c
    let bank := u.selected c 0x604001
    let w := v.toNat % 8
    u.activeUnit bank w = some a → (u.laser bank w (1 - a)).state = 0 → u.bankFitted bank = true →
    (u.bankTraining bank = false →
      ∃ t, exec (.forcedSwap c v) s = .next t ∧ (t.laser bank w (1 - a)).state = 1 ∧ (t.laser bank w a).state = 2
        ∧ t.reg 0x604005 = satAdd 64 (s.reg 0x604005) 1 ∧ Performed c (u.laserSwap bank w (1 - a) a 2).updateService t)
    ∧ (u.bankTraining bank = true →
      ∃ t, exec (.forcedSwap c v) s = .next t
        ∧ Performed c { u with opt := { u.opt with swapsHeld := u.opt.swapsHeld.filter (· != (bank, w)) ++ [(bank, w)] } } t))
  ∧ (∀ (s : State) (bank at_ : Nat) (rs : List LaserReading), s.running = true → bank < 8 → s.bankFitted bank = true →
    SMap.get 0 s.opt.lastBias bank + 100000000 ≤ max s.now at_ →
    let v := s.at_ at_
    let u : State := { v with opt := { v.opt with lastBias := SMap.put 0 v.opt.lastBias bank v.now } }
    let set := (rs.foldl (fun (x : State) r => x.adjustLaser bank r) u).makeHeldSwaps bank
    let told := (List.range 4).foldl (fun (x : State) i => x.lostLanes (4 * bank + i) (u.portLanes (4 * bank + i))) set
    exec (.laserBiasAdjust bank rs at_) s = .next ((bankLinks bank).foldl State.lanesDied told).updateService)
  ∧ ∀ (s : State) (port lane heater at_ : Nat) (transmit locks : Bool), s.running = true → s.portFitted port = true → lane < 8 →
    let k := (port * 8 + lane) * 2 + b2n (!transmit)
    let w := s.at_ at_
    let u : State := { w with opt := { w.opt with
      heaters := SMap.put 0 w.opt.heaters k (min heater 1000), lastRing := SMap.put 0 w.opt.lastRing k w.now } }
    SMap.get 0 s.opt.lastRing k + 100000000 ≤ max s.now at_ →
    ((locks = true ∧ heater ≤ 1000) ∨ SMap.get false s.opt.failedRings k = true →
        exec (.ringCalibration port lane transmit heater locks at_) s = .next u)
      ∧ (¬ (locks = true ∧ heater ≤ 1000) → SMap.get false s.opt.failedRings k = false →
        let x : State := { u with opt := { u.opt with failedRings := SMap.put false u.opt.failedRings k true } }
        exec (.ringCalibration port lane transmit heater locks at_) s
          = .next (((((x.bump 0x604006).lostLanes port (u.portLanes port)).lanesDied (2 * port)).lanesDied (2 * port + 1)).updateService))

/-- Power requests, reset levels, drains and the island's commands (R246, R267, R372, R411, R418, R421, R427, R435–R438). -/
def Obligations.PowerAndResetWrites : Prop :=
  (∀ c : Ctx,
    (c.path ≠ 3 →
      Performs (exec (.powerRequestDormant c)) c 0x1020 1 1 (fun _ => True) (fun u => u.setRequest 1)
        ∧ Performs (exec (.powerRequestActive c)) c 0x1020 1 1 (fun u => u.isl.leakLatched = false ∨ u.reg 0x802006 ≠ 1)
          (fun u => u.setRequest 0))
    ∧ (c.path = 3 →
      Performs (exec (.powerRequestDormant c)) c 0x1020 1 1 (fun _ => True)
          (fun u => { u with isl := { u.isl with wakeRequest := false, dormantRequest := true } })
        ∧ Performs (exec (.powerRequestActive c)) c 0x1020 1 1 (fun _ => True)
          (fun u => { u with isl := { u.isl with wakeRequest := true, dormantRequest := false } }))
    ∧ Performs (exec (.warmReset c)) c 0x9010 1 1
        (fun u => ¬ (u.canStop = false ∧ u.pow.tripped = true ∧ (u.pow.temps.toList.any fun k => decide (10000 < k)) = true))
        (fun u => u.resetHostSide false 1)
    ∧ Performs (exec (.warmReset c)) c 0x9010 1 1
        (fun u => u.canStop = false ∧ u.pow.tripped = true ∧ (u.pow.temps.toList.any fun k => decide (10000 < k)) = true)
        (fun u => { u with pow := { u.pow with tripHold := true } })
    ∧ Performs (exec (.coldResetRequest c)) c 0x9010 1 1 (fun u => u.roleOf c ≠ 0) (fun u => u.resetHostSide true 2))
  ∧ (∀ (s : State) (v : Nat), v ≤ 1 →
    (s.setRequest v).pow.request = v ∧ (s.setRequest v).mem = s.mem
      ∧ (v = 1 → s.pow.state = 1 → s.pow.startingUp = false → (s.setRequest v).pow.state = 2)
      ∧ (v = 0 → s.pow.state = 2 → (s.setRequest v).pow.state = 1) ∧ (v = 0 → s.pow.state = 3 → (s.setRequest v).pow.state = 4))
  ∧ (∀ (s : State) (c : Ctx) (v : Byte), writeReaches s c 0x9010 2 1 = true → v.toNat < 16 →
    ∃ t, exec (.hiveReset c v) s = .next t ∧ (∀ i : SlotId, i.thread < 4 → i.hive = v.toNat → t.occupied i = false)
      ∧ (∀ cell off, cell / 65536 = v.toNat → off < 8192 → SMap.get none t.swarm.pads (cell * 8192 + off) = none)
      ∧ fieldOf 95 64 (t.reg 0x901007) = satAdd 32 (fieldOf 95 64 (s.reg 0x901007)) 1)
  ∧ (∀ (c : Ctx) (v : Byte),
    let row := exec (.portReset c v)
    Performs row c 0x9010 3 1 (fun _ => v.toNat < 0x40) (fun u => (u.countReset 3).resetLink v.toNat)
      ∧ Performs row c 0x9010 3 1 (fun _ => 0x40 ≤ v.toNat ∧ v.toNat < 0x50)
        (fun u => (u.countReset 3).resetPortFrames v.toNat)
      ∧ Performs row c 0x9010 3 1 (fun _ => v.toNat = 0x50) (fun u => (u.countReset 3).hostReset))
  ∧ (∀ (s : State) (c : Ctx) (v : W64), writeReaches s c 0x9010 4 8 = true →
    let first := fieldOf 13 0 v.toNat
    let count := fieldOf 28 14 v.toNat
    count ≠ 0 → first + count ≤ 16384 →
    let marked (drain : Bool) (t : State) : Prop := t.swarm.drainRange = (first, count)
      ∧ (∀ m, t.comb m = if first ≤ m ∧ m < first + count then { s.comb m with draining := drain, drained := false } else s.comb m)
      ∧ Performed c { s.touch c with swarm := { s.swarm with combs := t.swarm.combs, drainRange := (first, count) } } t
    (∃ t, exec (.combDrain c v) s = .next t ∧ marked true t) ∧ ∃ t, exec (.combRestart c v) s = .next t ∧ marked false t)
  ∧ ∀ c : Ctx,
    Performs (exec (.leakClear c 1)) c 0x8020 0x0A 1
        (fun u => u.isl.wet = false ∧ u.diag 0x30 = false ∧ u.diag 0x31 = false ∧ u.diag 0x32 = false)
        (fun u => { u with isl := { u.isl with leakLatched := false } })
      ∧ Performs (exec (.serviceOutputTest c 1)) c 0x8050 2 1 (fun _ => True)
        (fun u => { u with isl := { u.isl with svcTestUntil := some (u.now + 5000000000) } })
      ∧ Performs (exec (.fieldRestart c 1)) c 0x8011 1 1 (fun _ => True) State.restartField

/-- Messages and their carriers (R383–R392). The tag of a forwarded message is the model's own numbering of messages (R390 says only that
there is one; log entry 31). -/
def Obligations.DictionaryMessages : Prop :=
  (∀ (s : State) (n : W32), s.reachable .bar0 = true →
    let busy : State := { s.tlp with host := { s.tlp.host with goBusy := true } }
    let bs := (List.range n.toNat).map fun i => SMap.get 0 s.host.request i
    (s.host.goBusy = true → exec (.dictWindowGo n) s = .next (s.tlp.bump 0x106002))
      ∧ (s.host.goBusy = false → (n.toNat < 16 ∨ 65535 < n.toNat) →
        exec (.dictWindowGo n) s = .next ((busy.touch .bar0).give .window (s.failMessage 2)))
      ∧ (∀ st, s.host.goBusy = false → 16 ≤ n.toNat → n.toNat ≤ 65535 → parseMessage bs true = .error st →
        exec (.dictWindowGo n) s = .next ((busy.touch .bar0).give .window (s.failMessage st)))
      ∧ ∀ is, s.host.goBusy = false → 16 ≤ n.toNat → n.toNat ≤ 65535 → parseMessage bs true = .ok is →
        (replyLength is ≤ 65535 → s.elsewhere bs = false → exec (.dictWindowGo n) s = .next (busy.startMessage .window .bar0 bs is))
        ∧ (65535 < replyLength is → exec (.dictWindowGo n) s = .next ((busy.touch .bar0).give .window (s.failMessage 2)))
        ∧ (s.elsewhere bs = true → replyLength is ≤ 4096 → bs.length ≤ 4096 →
          let node := numAt bs 4 3
          let u := busy.touch .bar0
          let tag := u.dict.nextJob % 2 ^ 32
          let w : State := { u with dict := { u.dict with
            nextJob := u.dict.nextJob + 1, forwarded := u.dict.forwarded ++ [⟨tag, u.now, node, .window⟩] } }
          (s.nodeValid node = false → exec (.dictWindowGo n) s = .next (u.give .window (s.failMessage 3)))
            ∧ (s.nodeValid node = true → exec (.dictWindowGo n) s = .next (w.send 0x84
              ⟨({ destNode := node, destEp := 0x3200, srcNode := w.node, srcEp := 0x3200, kind := 0x40,
                  units := (padTo 64 bs).length / 64, seq := tag } : Hdr).encode, padTo 64 bs⟩))))
  ∧ (∀ (s : State) (bs : List Byte), bs.length < 65536 → 8 ≤ bs.length →
    ∃ t, s.give .window bs = t ∧ t.host.goBusy = false ∧ t.host.goStatus = numAt bs 7 1 ∧ t.host.goLength = bs.length
      ∧ (∀ i, i < bs.length → SMap.get 0 t.host.response i = bs.getD i 0)
      ∧ (∀ i, bs.length ≤ i → SMap.get 0 t.host.response i = SMap.get 0 s.host.response i))
  ∧ (∀ (s u : State) (h : Hdr) (f : Frame), s.running = true →
    (s.take 0x84 0 0x40 = some (h, f, u) → ∀ is, parseMessage f.payload false = .ok is → replyLength is ≤ 4096 →
      exec .managementFrame s = .next (u.startMessage (.management h.srcNode h.seq) (.node h.srcNode) f.payload is))
    ∧ (s.take 0x84 0 0x42 = some (h, f, u) → ∀ x,
      (u.dict.forwarded.find? fun y => y.tag == h.seq && y.target == h.srcNode) = some x →
      exec .managementResultFrame s = .next (u.answer x (f.payload.take (numAt f.payload 2 2)))))
  ∧ (∀ (s : State) (tag at_ : Nat) (x : Forwarded), (s.dict.forwarded.find? fun y => y.tag == tag) = some x → s.pow.powered = true →
    x.sent + 10000000 ≤ max s.now at_ →
    exec (.dictRemoteTimeout tag at_) s = .next ((s.at_ at_).answer x (s.failMessage 4)))
  ∧ ∀ (s : State) (mac : Nat) (bs : List Byte), s.isl.powered = true →
    let u := s.wakeFast.bump 0x801005
    let seq := numAt bs 4 2
    let c : Ctx := .field mac
    (vdpOk bs = false → exec (.vdpFrame mac bs) s = .next (u.bump 0x801006))
      ∧ (∀ k, vdpOk bs = true → (s.dict.contexts.any fun x => x.ctx == c) = true →
        (s.dict.kept.find? fun (x : Nat × Nat × List Byte) => x.1 == mac && x.2.1 == seq) = some k →
        ∃ t, exec (.vdpFrame mac bs) s = .next t ∧ t.isl.fieldSent = s.isl.fieldSent ++ [(mac, k.2.2)]
          ∧ t.reg 0x801005 = satAdd 64 (s.reg 0x801005) 1)
      ∧ (vdpOk bs = true → ((s.dict.contexts.any fun x => x.ctx == c) = false
          ∨ (s.dict.kept.any fun (x : Nat × Nat × List Byte) => x.1 == mac && x.2.1 == seq) = false) → s.vdpBusy mac seq = true →
        ∃ t, exec (.vdpFrame mac bs) s = .next t ∧ t.dict.repeats = s.dict.repeats ++ [(mac, seq)] ∧ t.isl.fieldSent = s.isl.fieldSent
          ∧ t.dict.jobs = s.dict.jobs)
      ∧ ∀ is, vdpOk bs = true → ((s.dict.contexts.any fun x => x.ctx == c) = false
          ∨ (s.dict.kept.any fun (x : Nat × Nat × List Byte) => x.1 == mac && x.2.1 == seq) = false) → s.vdpBusy mac seq = false →
        parseMessage (bs.drop 8) false = .ok is → replyLength is ≤ 1480 → s.elsewhere (bs.drop 8) = false →
        exec (.vdpFrame mac bs) s = .next (u.startMessage (.vdp mac seq) c (bs.drop 8) is)

/-! ## The host interface -/

/-- BAR2 (R20, R359, R360, R431), received frames (R369) and L1 (R373). The model's choices: BAR0 and configuration accesses are carried by
BAR2_READ and BAR2_WRITE (log entry 9, DESIGN CHOICE); a BAR2 read waits for every held program write, whoever sent it, and while it is held
bears a tag of its own where it reaches another node (log entry 26, DESIGN CHOICE); what a configuration read finds where is PCI Express's
(log entry 26, PRESUMED). -/
def Obligations.HostAccesses : Prop :=
  (∀ (s : State) (o len : Nat), s.hostTakes .bar2 = true →
    let a := s.host.windowBase.toNat + o
    let segs := splitNode a len
    let invalid := segs.any fun g => !s.nodeValid (nodeOf g.1)
    (((s.bar2Served = false ∧ s.bar2Waits = false) ∨ 2 ^ 36 < o + len ∨ 2 ^ 64 < a + len ∨ invalid = true) →
      ∃ t, exec (.bar2Read ⟨.bar2, o⟩ len) s = .next t ∧ t.host.completions = s.host.completions ++ [.unsupported]
        ∧ t.host.aer = s.host.aer ++ [.unsupportedRequest] ∧ t.reg 0x104001 = satAdd 64 (s.reg 0x104001) 1
        ∧ t.mem = s.mem ∧ t.swarm = s.swarm ∧ t.net = s.net)
    ∧ (o + len ≤ 2 ^ 36 → a + len ≤ 2 ^ 64 → invalid = false → s.bar2Waits = true ∨ (s.bar2Served = true ∧ s.writesHeld = true) →
      ((∀ g ∈ segs, nodeOf g.1 = s.node) → exec (.bar2Read ⟨.bar2, o⟩ len) s
        = .next { s.tlp with host := { s.tlp.host with readsHeld := s.host.readsHeld ++ [⟨a, len, s.now, none⟩] } })
      ∧ ((∃ g ∈ segs, nodeOf g.1 ≠ s.node) →
        let u := s.tlp.newTag { owner := .bar2Read, launch := none, kind := 0, tc := 5, node := 0, remote := 0, here := none, count := 0, arrived := s.now }
        exec (.bar2Read ⟨.bar2, o⟩ len) s
          = .next { u.2 with host := { u.2.host with readsHeld := s.host.readsHeld ++ [⟨a, len, s.now, some u.1⟩] } }))
    ∧ (s.bar2Served = true → s.writesHeld = false → o + len ≤ 2 ^ 36 → a + len ≤ 2 ^ 64 → invalid = false → segs ≠ [] →
      (∀ g ∈ segs, nodeOf g.1 ≠ s.node) →
      let sent := segs.foldl (fun (r : List Nat × State) g => let x := r.2.bar2Gets g.1 g.2; (r.1 ++ x.1, x.2)) ([], s.tlp)
      exec (.bar2Read ⟨.bar2, o⟩ len) s
        = .next { sent.2 with host := { sent.2.host with reads := sent.2.host.reads ++ [⟨sent.1, s.now, a, len, []⟩] } })
    ∧ ∀ w bs, s.bar2Served = true → s.writesHeld = false → o + len ≤ 2 ^ 36 → a + len ≤ 2 ^ 64 → (∀ g ∈ segs, nodeOf g.1 = s.node) → s.nodeValid s.node = true →
      s.tlp.memRead bar2Requester (segs.map fun g => (localOf g.1, g.2)) = (w, .ok bs) →
      exec (.bar2Read ⟨.bar2, o⟩ len) s = .next (w.complete (.data bs)))
  ∧ (∀ (s : State) (a n : Nat), pieces 0 n = [(0, n)] →
    let tag := s.freeTag s.net.tags.length s.net.nextTag
    let x : Tag := { owner := .bar2Read, launch := none, kind := 2, tc := 5, node := nodeOf a, remote := localOf a, here := some a, count := n
                     arrived := s.now }
    let u : State := { s with net := { s.net with nextTag := (tag + 1) % 2 ^ 32, tags := SMap.put none s.net.tags tag (some x) } }
    let h : Hdr := { destNode := nodeOf a, destEp := 0, srcNode := s.node, srcEp := 0x2000, kind := 2, tc := 5, seq := tag, offset := localOf a }
    s.bar2Gets a n = ([tag], u.send 0x50 ⟨h.encode, natLE 8 0 ++ natLE 4 n ++ List.replicate 52 0⟩))
  ∧ (∀ (s : State) (o n : Nat), s.reachable .bar0 = true →
    (bar0Ok o n = true →
      exec (.bar2Read ⟨.bar0, o⟩ n) s = .next (s.tlp.complete (.data ((List.range n).map fun i => s.bar0Byte (o + i)))))
    ∧ (bar0Ok o n = false → exec (.bar2Read ⟨.bar0, o⟩ n) s = .next ((s.tlp.barFault .unsupportedRequest).complete .unsupported))
    ∧ (s.retries .config = false →
      (configOk o n = true → exec (.bar2Read ⟨.config, o⟩ n) s
        = .next (s.tlp.complete (.data ((List.range n).map fun i => byteOf (s.configWord (o / 4 * 4)) (o % 4 + i)))))
      ∧ (configOk o n = false → exec (.bar2Read ⟨.config, o⟩ n) s = .next ((s.tlp.barFault .unsupportedRequest).complete .unsupported))))
  ∧ (∀ (s : State) (target : HostTarget) (o n : Nat) (bs : List Byte) (bad : Bool),
    (s.retries .config = true → exec (.bar2Read ⟨.config, o⟩ n) s = .next (s.complete .retry)
      ∧ exec (.bar2Write ⟨.config, o⟩ ⟨bs, bad⟩) s = .next (s.complete .retry))
    ∧ (s.hostTakes target = true → s.retries target = false →
      ∃ t, exec (.bar2Write ⟨target, o⟩ ⟨bs, true⟩) s = .next t ∧ t.host.aer = s.host.aer ++ [.poisoned] ∧ t = { s.tlp with host := t.host }))
  ∧ (∀ (s w : State) (o : Nat) (bs : List Byte), s.hostUp = true → s.bar2Served = true →
    let a := s.host.windowBase.toNat + o
    let segs := splitNode a bs.length
    o + bs.length ≤ 2 ^ 36 → a + bs.length ≤ 2 ^ 64 → (∀ g ∈ segs, nodeOf g.1 = s.node) → s.nodeValid s.node = true →
    s.tlp.memWrite bar2Requester (segs.map fun g => (localOf g.1, slice bs (g.1 - a) g.2)) = (w, none) →
    exec (.bar2Write ⟨.bar2, o⟩ ⟨bs, false⟩) s = .next w)
  ∧ (∀ (s : State) (o : Nat) (bs : List Byte), s.hostTakes .bar2 = true →
    let a := s.host.windowBase.toNat + o
    let segs := splitNode a bs.length
    o + bs.length ≤ 2 ^ 36 → a + bs.length ≤ 2 ^ 64 → (∀ g ∈ segs, s.nodeValid (nodeOf g.1) = true) →
    (s.bar2Waits = true → exec (.bar2Write ⟨.bar2, o⟩ ⟨bs, false⟩) s
      = .next { s.tlp with host := { s.tlp.host with writesWaiting := s.host.writesWaiting ++ [(a, bs)] } })
    ∧ (s.bar2Served = true → segs ≠ [] → (∀ g ∈ segs, nodeOf g.1 ≠ s.node) →
      exec (.bar2Write ⟨.bar2, o⟩ ⟨bs, false⟩) s = .next (segs.foldl (fun (u : State) g =>
        let x : Tag := { owner := .bar2Write, launch := none, kind := 0, tc := 5, node := 0, remote := 0, here := none, count := 0, arrived := u.now }
        (pieces (localOf g.1) g.2).foldl (fun (u : State) p =>
          u.sendPut ⟨0x50, 0x2000⟩ x (nodeOf g.1) (localOf g.1 + p.1) 0 (slice (slice bs (g.1 - a) g.2) p.1 p.2)) u) s.tlp)))
  ∧ (∀ (s : State) (tag at_ : Nat) (r : Bar2Read), s.readOf tag = some r → s.pow.powered = true → r.arrived + 5000000 ≤ max s.now at_ →
    ∃ t, exec (.bar2RemoteReadTimeout tag at_) s = .next t ∧ t.host.completions = s.host.completions ++ [.abort]
      ∧ t.host.aer = s.host.aer ++ [.completerAbort] ∧ t.host.reads = s.host.reads.erase r
      ∧ t.reg 0x104001 = satAdd 64 (s.reg 0x104001) 1 ∧ (∀ k ∈ r.tags, t.tag k = none)
      ∧ (∀ k, k ∉ r.tags → t.tag k = s.tag k) ∧ t.now = max s.now at_ ∧ t.mem = s.mem ∧ t.swarm = s.swarm)
  ∧ (∀ (s : State) (tag at_ : Nat) (r : HeldRead), s.readOf tag = none → (s.host.readsHeld.find? fun x => x.tag == some tag) = some r →
    s.pow.powered = true → r.arrived + 5000000 ≤ max s.now at_ →
    ∃ t, exec (.bar2RemoteReadTimeout tag at_) s = .next t ∧ t.host.completions = s.host.completions ++ [.abort]
      ∧ t.host.aer = s.host.aer ++ [.completerAbort] ∧ t.host.readsHeld = s.host.readsHeld.erase r ∧ t.tag tag = none
      ∧ t.reg 0x104001 = satAdd 64 (s.reg 0x104001) 1 ∧ t.mem = s.mem ∧ t.swarm = s.swarm)
  ∧ (∀ (s : State) (v : W64), s.hostUp = true →
    ∃ t, exec (.windowBaseWrite v) s = .next t ∧ t.host.windowBase = BitVec.ofNat 64 (v.toNat / 2 ^ 30 * 2 ^ 30)
      ∧ t = { s.tlp with host := { s.tlp.host with windowBase := t.host.windowBase } })
  ∧ (∀ (s u w : State) (tc a : Nat) (d : Delivered), s.hostUp = true → s.pow.state ≠ 3 → s.pow.state ≠ 5 →
    s.rxFind 0x50 tc isReceived = some d →
    let h := Hdr.of d.frame.header
    let q := h.destEp % 256
    let n := d.frame.payload.length
    let held (x : State) : State := if s.bestEffort tc then x.discardReceived d else x.holdReceived d
    ((s.pair q).takes h.kind = true → (s.pair q).cqFree = false → exec (.hostReceiveFrame tc) s = .next (held s))
    ∧ ((s.pair q).takes h.kind = true → (s.pair q).cqFree = true → s.alloc (s.pair q).pool = (0, u) →
      exec (.hostReceiveFrame tc) s = .next (held u))
    ∧ ((s.pair q).takes h.kind = true → (s.pair q).cqFree = true → s.alloc (s.pair q).pool = (a, u) → a ≠ 0 → u.bufferSize a < 64 + n →
      exec (.hostReceiveFrame tc) s
        = .next (((u.freeHere ⟨2, q⟩ a).2.consume d).logDiscard 6 d.ingress d.port d.frame.header))
    ∧ ((s.pair q).takes h.kind = true → (s.pair q).cqFree = true → s.alloc (s.pair q).pool = (a, u) → a ≠ 0 → 64 + n ≤ u.bufferSize a →
      u.memWrite ⟨5, 0⟩ [(localOf a, natLE 32 d.frame.header.toNat), (localOf a + 64, d.frame.payload)] = (w, none) →
      exec (.hostReceiveFrame tc) s = .next ((w.consume d).writeCq q n 0 1 a true))
    ∧ ((s.pair q).takes h.kind = false →
      exec (.hostReceiveFrame tc) s = .next ((s.consume d).logDiscard 6 d.ingress d.port d.frame.header)))
  ∧ (∀ (s : State) (tc at_ : Nat) (d : Delivered), s.rxFind 0x50 tc isReceived = some d → s.hostUp = true → s.bestEffort tc = false →
    let p := s.pair ((Hdr.of d.frame.header).destEp % 256)
    let place := p.takes (Hdr.of d.frame.header).kind = false ∨ (p.cqFree = true ∧ (s.alloc p.pool).1 ≠ 0)
    (¬ place → d.since + 1000000 ≤ max s.now at_ → exec (.hostReceiveTimeout tc at_) s
        = .next ((((s.at_ at_).consume d).logDiscard 6 d.ingress d.port d.frame.header).bump 0x104003))
      ∧ (place ∨ max s.now at_ < d.since + 1000000 → exec (.hostReceiveTimeout tc at_) s = .next s))
  ∧ ∀ (s : State) (at_ : Nat), s.hostUp = true → s.host.pci.aspmL1 = true → s.host.inL1 = false → s.host.lastTlp + 16000 ≤ max s.now at_ →
    exec (.pcieL1Entry at_) s = .next { s.at_ at_ with host := { (s.at_ at_).host with inL1 := true } }

/-- Queue pairs and doorbells (R361–R363), and the reset of port 0x50 (R372). R372 names the pairs, the window base and the MSI-X table: that
the configuration space too is as at reset, but for the AER status, is taken from PCI Express (log entry 26, PRESUMED). -/
def Obligations.QueuePairCommands : Prop :=
  (∀ (s : State) (q : Nat), s.hostUp = true → q < 256 →
    let p := s.pair q
    let becomes (t : State) (x : QueuePair) : Prop := t.pair q = x ∧ (∀ r, r ≠ q → t.pair r = s.pair r)
      ∧ t = { s.tlp with host := { s.tlp.host with pairs := t.host.pairs } }
    (∀ v : W512, p.state = 0 → bitOf v.toNat 364 = true →
      let new : QueuePair := { config := BitVec.ofNat 512 (v.toNat / 2 ^ 358 * 2 ^ 358), nextEntry := p.nextEntry }
      let valid : Bool := decide (new.sqBase % 4096 = 0) && decide (new.cqBase % 4096 = 0) && decide (new.fld 383 380 ≤ 12)
        && decide (new.fld 379 376 ≤ 12) && (!new.receive || decide ((s.pool new.pool).state = 1))
      ∃ t, exec (.queuePairEnable q v) s = .next t ∧ becomes t (if valid then { new with state := 1 } else { p with fault := 3 }))
    ∧ (p.state = 1 ∨ p.state = 2 →
      ∃ t, exec (.queuePairDisable q) s = .next t
        ∧ becomes t { p with config := BitVec.ofNat 512 (setField p.config.toNat 364 1 0), state := 3, sqTail := p.head, latched := none })
    ∧ (∀ v : W64,
      let tail := v.toNat % 65536
      ((s.pow.state = 3 ∨ s.pow.state = 4) →
        ∃ t, exec (.sqTailDoorbell q v) s = .next t ∧ becomes t { p with latched := some tail })
      ∧ (s.pow.state ≠ 3 → s.pow.state ≠ 4 → p.state = 1 →
        ∃ t, exec (.sqTailDoorbell q v) s = .next t
          ∧ becomes t (if p.sqSize ≤ tail then { p with state := 2, fault := 1 } else { p with sqTail := tail }))
      ∧ (p.state ≠ 0 → ∃ t, exec (.cqHeadDoorbell q v) s = .next t
        ∧ becomes t { p with cqHead := tail, cqUsed := p.cqUsed - (tail + p.cqSize - p.cqHead % p.cqSize) % p.cqSize })))
  ∧ (∀ (s : State) (q : Nat), s.pow.powered = true → q < 256 → (s.pair q).state = 3 →
    ((s.pair q).entries = [] ∨ ((s.pair q).fault ≠ 0 ∧ ((s.pair q).entries.all fun x => x.result.isSome) = true)) →
    exec (.queuePairDrained q) s = .next (s.setPair q { s.pair q with state := 0, entries := [] }))
  ∧ ∀ (s : State) (cause : HostResetCause), s.pow.powered = true →
    ∃ t, exec (.hostPortReset cause) s = .next t
      ∧ (∀ q, (t.pair q).state = 0 ∧ (t.pair q).entries = [] ∧ (t.pair q).config = 0)
      ∧ t.host.windowBase = 0 ∧ t.host.msixTable = [] ∧ t.host.reads = [] ∧ t.host.readsHeld = []
      ∧ t.host.pci = { errors := s.host.pci.errors } ∧ t.host.goBusy = false ∧ t.dict.forwarded = []
      ∧ (∀ k ∈ t.dict.contexts, k.ctx.path = 1 → k.role = 0)
      ∧ fieldOf 127 96 (t.reg 0x901007) = satAdd 32 (fieldOf 127 96 (s.reg 0x901007)) 1
      ∧ t.swarm.slots = s.swarm.slots ∧ t.num = s.num

/-- Submission and completion entries (R364–R371). -/
def Obligations.SubmissionEntries : Prop :=
  (∀ (s : State) (q : Nat), s.canStart q = true →
    let p := s.pair q
    let bs := s.nextEntryBytes q
    let e := p.nextEntry
    let op := entryOp bs
    (bitOf (entryFlags bs) 0 = false ∨ ((p.entries.all fun x => x.result.isSome) = true
      ∧ ((p.entries.any fun x => entryOp x.bytes == 1) = true → s.writesHeld = false))) →
    let entry (left : Nat) : Entry := ⟨e, bs, left, none⟩
    let taken (left : Nat) : State := s.tlp.setPair q
      { p with head := (p.head + 1) % p.sqSize, entries := p.entries ++ [entry left], nextEntry := e + 1 }
    let u := taken 0
    (6 < op → exec (.sqNop q) s = .next (u.endEntry q e 0x10 0))
    ∧ (entryLegal bs = true →
      (op = 0 → exec (.sqNop q) s = .next (u.endEntry q e 0 0))
      ∧ (let n := numAt bs 24 4
        let a := numAt bs 16 8
        let h := numAt bs 8 8
        0 < n → nodeOf a = s.node → s.nodeValid s.node = true → localOf a + n ≤ 2 ^ 40 → (∀ x ∈ p.entries, x.id ≠ e) →
        (∀ w, op = 1 → (taken n).dmaWrite q (localOf a) (s.hostBytes h n) = (w, none) →
          exec (.sqDmaToModule q) s = .next ((w.dmaMoved q e n).endEntry q e 0 0))
        ∧ ∀ w data, op = 2 → (taken n).dmaRead q (localOf a) n = (w, data, none) →
          exec (.sqDmaToHost q) s = .next (((w.hostWrite h data).dmaMoved q e n).endEntry q e 0 0))
      ∧ (op = 3 → exec (.sqLaunch q) s = .next (u.postLaunch (BitVec.ofNat 256 (numAt bs 32 32)) (.entry q e)))
      ∧ (∀ w rec, op = 4 → nodeOf (numAt bs 8 8) = s.node → numAt bs 8 8 % 64 = 0 → plainRegion (localOf (numAt bs 8 8)) 64 = true →
        u.memRead ⟨2, q⟩ [(localOf (numAt bs 8 8), 64)] = (w, .ok rec) →
        exec (.sqPost q) s = .next (w.postCollective (BitVec.ofNat 512 (leNat rec)) (some (q, e))).2)
      ∧ (op = 5 → exec (.sqDictionary q) s = .next (u.hostMessage (.entry q e) (.qp q) (u.hostRead (numAt bs 8 8) (numAt bs 24 2))
        (min 65535 (numAt bs 26 2))))
      ∧ (op = 6 → (numAt bs 8 8 = 0 ∨ nodeOf (numAt bs 8 8) = s.node ∨ s.nodeValid (nodeOf (numAt bs 8 8)) = false) →
        let r := u.freeHere ⟨2, q⟩ (numAt bs 8 8)
        exec (.sqFree q) s = .next (r.2.endEntry q e 0 r.1))))
  ∧ (∀ (s : State) (a n : Nat) (bs : List Byte), s.hostRead a n = s.hostBytes a n
    ∧ (∀ k, k < bs.length → SMap.get 0 (s.hostWrite a bs).host.memory (a + k) = bs.getD k 0)
    ∧ ∀ x, x < a ∨ a + bs.length ≤ x → SMap.get 0 (s.hostWrite a bs).host.memory x = SMap.get 0 s.host.memory x)
  ∧ (∀ (s : State) (q e status detail : Nat) (x : Entry), s.entry? q e = some x → x.result = some (status, detail) → s.hostUp = true →
    let p := s.pair q
    (p.state = 1 ∨ (p.state = 3 ∧ p.fault = 0)) → p.cqFree = true → ¬ (entryOp x.bytes = 1 ∧ s.writesHeld = true) →
    let base := p.cqBase + p.tail * 16
    let bs := natLE 4 (numAt x.bytes 4 4) ++ [BitVec.ofNat 8 status, BitVec.ofNat 8 (b2n p.phase * 128)] ++ natLE 2 p.head ++ natLE 8 detail
    let tail := (p.tail + 1) % p.cqSize
    ∃ t, exec (.sqEntryComplete q e) s = .next t
      ∧ (∀ k, k < 16 → SMap.get 0 t.host.memory (base + k) = bs.getD k 0)
      ∧ (∀ a, a < base ∨ base + 16 ≤ a → SMap.get 0 t.host.memory a = SMap.get 0 s.host.memory a)
      ∧ t.pair q = { p with
          entries := p.entries.filter fun y => y.id != e, tail := tail, cqUsed := p.cqUsed + 1
          phase := if tail = 0 then !p.phase else p.phase }
      ∧ (∀ r, r ≠ q → t.pair r = s.pair r)
      ∧ t.host.msixSent = (if bitOf (entryFlags x.bytes) 1 = false
            ∧ s.host.pci.msixEnable = true ∧ s.msixMasked p.vector = false
          then s.host.msixSent ++ [p.vector] else s.host.msixSent)
      ∧ t = { s with host := t.host })
  ∧ (∀ (s : State) (q at_ : Nat) (how : HostReadFailure), s.canStart q = true → s.entry? q (s.pair q).nextEntry = none →
    let e := (s.pair q).nextEntry
    ∃ t, exec (.hostReadCompletionTimeout q e ⟨at_, how⟩) s = .next t ∧ t.host.aer = s.host.aer ++ [readReport how]
      ∧ (((t.pair q).state = 2 ∧ (t.pair q).fault = 2 ∧ (t.pair q).entries = (s.pair q).entries)
        ∨ ∃ x detail, t.entry? q e = some x ∧ x.bytes = s.nextEntryBytes q ∧ x.result = some (0x13, detail)))
  ∧ ∀ (s : State) (q e at_ : Nat) (how : HostReadFailure) (x : Entry), s.hostUp = true → s.entry? q e = some x → x.result = none →
    entryOp x.bytes = 1 →
    let next := x.moved + s.dmaSent q e
    next < x.length →
    ∃ t, exec (.hostReadCompletionTimeout q e ⟨at_, how⟩) s = .next t
      ∧ t.entry? q e = some { x with result := some (0x13, x.host + next), left := 0 }
      ∧ t.host.aer = s.host.aer ++ [readReport how] ∧ t.reg 0x104002 = satAdd 64 (s.reg 0x104002) 1
      ∧ (∀ k g, s.tag k = some g → g.owner = .dma q e → t.tag k = none)
      ∧ t.now = max s.now at_ ∧ t.mem = s.mem ∧ t.swarm = s.swarm

/-! ## The switch core -/

/-- Arrival on a link (R223, R227, R235, R265, R346). That the policer's tokens are spent where a frame is stored, and by no discarded one,
is the model's reading of R256 (log entry 25, DEDUCED), as is that the checks 2 to 7 are made, and the route latched, with the header. -/
def Obligations.LinkArrival : Prop :=
  (∀ (s : State) (l : Nat) (lh : LinkHeader) (w : W256), s.pow.powered = true → s.linkUp l = true →
    SMap.get none s.net.arriving l = none →
    let expected := decide (lh.seq % 65536 = (s.link l).expected)
    let a : Arriving :=
      { lh := lh, header := w, accepted := false, verdict := 0, route := .discard 0, egress := none, cut := false, sessions := []
        at_ := s.now }
    let r := s.route l w
    let taken : Arriving := { a with accepted := true, sessions := s.mirrorSet l false w, route := r, egress := r.egress }
    ((s.link l).awaiting = true → (expected && lh.replay) = false → exec (.frameHeaderConfirm l lh w) s = .next (s.setArriving l (some a)))
    ∧ (((s.link l).awaiting = true → (expected && lh.replay) = true) → headerOk w = false →
      exec (.frameHeaderConfirm l lh w) s = .next (((s.logDiscard 1 l 0xFF w).sendNak l).setArriving l (some { a with verdict := 1 })))
    ∧ ((s.link l).awaiting = false → headerOk w = true → expected = false →
      exec (.frameHeaderConfirm l lh w) s = .next (s.setArriving l (some { a with verdict := 2 })))
    ∧ (headerOk w = true → expected = true → ((s.link l).awaiting = true → lh.replay = true) →
      let x := s.confirmCopies l w r
      let u := x.2
      let way : Arriving := { taken with route := x.1 }
      let open_ : Bool := !u.bestEffortAt l (Hdr.of w).tc || u.policerOpen l (Hdr.of w).tc
      (∀ reason, r = .discard reason →
        exec (.frameHeaderConfirm l lh w) s = .next ((s.discardFrame reason l 0xFF w).setArriving l (some { taken with verdict := reason })))
      ∧ ((∀ reason, r ≠ .discard reason) →
        (∀ reason, x.1 = .discard reason →
          exec (.frameHeaderConfirm l lh w) s = .next (u.setArriving l (some { way with verdict := reason })))
        ∧ ((∀ reason, x.1 ≠ .discard reason) → open_ = false → exec (.frameHeaderConfirm l lh w) s
          = .next (((u.bump 0x414002).discardFrame 8 l (r.egress.getD 0xFF) w).setArriving l (some { way with verdict := 8 })))
        ∧ (∀ p, x.1 = .local_ p → open_ = true → exec (.frameHeaderConfirm l lh w) s = .next (u.setArriving l (some way)))
        ∧ (∀ p ls, x.1 = .copies p ls → open_ = true → exec (.frameHeaderConfirm l lh w) s = .next (u.setArriving l (some way)))
        ∧ ∀ e sub, x.1 = .link e sub → open_ = true →
          (u.mayCut l e sub lh.replay w taken.sessions = false →
            exec (.frameHeaderConfirm l lh w) s = .next (u.setArriving l (some way)))
          ∧ (u.mayCut l e sub lh.replay w taken.sessions = true →
            ∃ t, exec (.frameHeaderConfirm l lh w) s = .next t ∧ SMap.get none t.net.arriving l = some { way with cut := true }
              ∧ (SMap.get none t.net.busy e).isSome = true ∧ t.reg 0x406004 = satAdd 64 (u.reg 0x406004) 1))))
  ∧ (∀ (s : State) (l p sub : Nat) (w : W256), s.reg 0xC00001 = 0 →
    s.confirmCopies l w (.local_ p) = (.local_ p, s) ∧ s.confirmCopies l w (.link p sub) = (.link p sub, s))
  ∧ ∀ (s : State) (l : Nat) (payload : List Byte) (trailer : W64) (ok : Bool) (a : Arriving), SMap.get none s.net.arriving l = some a →
    s.pow.powered = true → s.linkUp l = true →
    let f : Frame := ⟨a.header, payload⟩
    let h := Hdr.of a.header
    let egress := a.egress.getD 0xFF
    let u := ((s.setArriving l none).countCorrected l).mapLink l fun k => { k with
      arrived := SMap.modify 0 k.arrived (chan a.lh.tc a.lh.response a.lh.sub) (· + cellsOf payload.length) }
    let u := if ok then u else u.linkCount l 3
    let gone (t : State) : State := (t.mirrorRecords a.sessions f a.at_ l egress (t.depthAt egress h.tc) false true).stompCut a
    let good := ok && decide (payload.length = 64 * h.units)
    let row := exec (.frameTrailerArrival l payload trailer ok) s
    (a.accepted = true → good = true → trailerVerdict f trailer = .confirmed →
        row = .next (((u.acceptFrame l).forwardArrived l a f).updateCredits l))
      ∧ (a.accepted = true → good = true → trailerVerdict f trailer = .stomped →
        row = .next ((gone ((u.acceptFrame l).logDiscard 3 l egress a.header)).updateCredits l))
      ∧ (a.accepted = true → good = false ∨ trailerVerdict f trailer = .corrupt →
        row = .next ((gone ((u.logDiscard 2 l egress a.header).sendNak l)).updateCredits l))
      ∧ (a.accepted = false → a.verdict = 1 → row = .next (u.updateCredits l))
      ∧ (a.accepted = false → a.verdict = 2 → row = .next (((u.logDiscard 2 l 0xFF a.header).sendNak l).updateCredits l))
      ∧ (a.accepted = false → a.verdict ≠ 1 → a.verdict ≠ 2 → row = .next ((u.linkCount l 5).updateCredits l))

/-- Memory requests at ports 0x82 and 0x83 (R79, R117, R236, R242, R243). The rules give a GET of 0 or more than 4,096 bytes no outcome: that
it is answered with reason 4 is the model's choice (log entry 25, DESIGN CHOICE). -/
def Obligations.MemoryAgents : Prop :=
  (∀ (s u : State) (port tc : Nat) (h : Hdr) (f : Frame), s.pow.powered = true → (port = 0x82 ∨ port = 0x83) →
    let body := f.payload.take (f.payload.length - h.sop)
    let n := numAt f.payload 8 4
    (s.take port tc 1 = some (h, f, u) → s.heldForSwap h.offset (f.payload.length - h.sop) = true →
      exec (.putFrame port tc) s = .next s)
    ∧ (s.take port tc 1 = some (h, f, u) → h.offset < 2 ^ 40 → s.heldForSwap h.offset (f.payload.length - h.sop) = false →
      (∀ w, u.memWrite ⟨4, h.srcNode⟩ [(h.offset, body)] = (w, none) → exec (.putFrame port tc) s = .next (w.ackPut port h))
      ∧ ∀ w e, u.memWrite ⟨4, h.srcNode⟩ [(h.offset, body)] = (w, some e) →
        exec (.putFrame port tc) s = .next (w.failRequest port h e.cause.code (w.globalOf e.addr)))
    ∧ (2 ^ 40 ≤ h.offset →
      (s.take port tc 1 = some (h, f, u) → s.heldForSwap h.offset (f.payload.length - h.sop) = false →
        exec (.putFrame port tc) s = .next (u.failRequest port h 0x81 0))
      ∧ (s.take port tc 2 = some (h, f, u) → 1 ≤ n → n ≤ 4096 → exec (.getFrame port tc) s = .next (u.failRequest port h 0x81 0)))
    ∧ (s.take port tc 2 = some (h, f, u) →
      (n = 0 ∨ 4096 < n → exec (.getFrame port tc) s = .next (u.failRequest port h 4 0))
      ∧ ∀ w e, h.offset < 2 ^ 40 → 1 ≤ n → n ≤ 4096 → u.memRead ⟨4, h.srcNode⟩ [(h.offset, n)] = (w, .error e) →
        exec (.getFrame port tc) s = .next (w.failRequest port h e.cause.code (w.globalOf e.addr)))
    ∧ (s.take port tc 2 = some (h, f, u) → h.offset < 2 ^ 40 → 1 ≤ n → n ≤ 4096 →
      ∀ w bs, u.memRead ⟨4, h.srcNode⟩ [(h.offset, n)] = (w, .ok bs) →
      let x : Hdr := { w.responseHdr h 3 ((padTo 64 bs).length / 64) with
        sop := (padTo 64 bs).length - n, offset := numAt f.payload 0 8 }
      exec (.getFrame port tc) s = .next (w.send port ⟨x.encode, padTo 64 bs⟩))
    ∧ (s.take port tc 4 = some (h, f, u) →
      let m := numAt f.payload 0 1
      let placed := atomicAt h.offset (if bitOf m 2 then 8 else 4)
      (placed = false → exec (.atomicFrame port tc) s = .next (u.failRequest port h 0x84 (u.globalOf (h.offset % 2 ^ 40))))
      ∧ (∀ w e, placed = true →
        u.atomicHere ⟨4, h.srcNode⟩ h.offset m (numAt f.payload 8 8) (numAt f.payload 16 8) = (w, .error e) →
        exec (.atomicFrame port tc) s = .next (w.failRequest port h e.cause.code (w.globalOf e.addr)))
      ∧ ∀ w old, placed = true → u.atomicHere ⟨4, h.srcNode⟩ h.offset m (numAt f.payload 8 8) (numAt f.payload 16 8) = (w, .ok old) →
      exec (.atomicFrame port tc) s = .next (w.send port ⟨(w.responseHdr h 5 1).encode, padTo 64 (natLE 8 old)⟩))
    ∧ (s.take port tc 8 = some (h, f, u) →
      let r := u.freeHere ⟨4, h.srcNode⟩ (numAt f.payload 0 8)
      exec (.freeFrame port tc) s = .next (r.2.send port ⟨(u.responseHdr h 9 1).encode, padTo 64 [BitVec.ofNat 8 r.1]⟩)))
  ∧ ∀ (s : State) (node tc at_ : Nat),
    let due (a : AckSet) : Bool := a.node == node && a.tc == tc && decide (a.since + 1000 ≤ max s.now at_)
    s.pow.powered = true → s.net.acks.any due = true →
    let v := s.at_ at_
    exec (.ackCoalesceTimeout node tc at_) s = .next ((s.net.acks.filter due).foldl State.sendAck
      { v with net := { v.net with acks := s.net.acks.filter fun a => !due a } })

/-- Answers to requests of threads and of host entries (R25, R242, R243). -/
def Obligations.RequestAnswers : Prop :=
  ∀ (s u : State) (port tc : Nat) (h : Hdr) (f : Frame) (i : SlotId) (x : Tag), s.pow.powered = true →
    (∀ pad, s.take port tc 3 = some (h, f, u) → u.request h.seq 2 h.srcNode = some x → x.owner = .threadGetTo i pad →
      exec (.getDataFrame port tc) s
        = .next ((u.dropTag h.seq).getTo i x pad (slice (f.payload.take (f.payload.length - h.sop)) 0 x.count)))
    ∧ (∀ q e y, s.take port tc 3 = some (h, f, u) → u.request h.seq 2 h.srcNode = some x → x.owner = .dma q e →
      u.entry? q e = some y → y.result = none →
      exec (.getDataFrame port tc) s = .next (((((u.dropTag h.seq).hostWrite (x.here.getD 0)
        (slice (f.payload.take (f.payload.length - h.sop)) 0 x.count)).dmaMoved q e x.count).dmaRun q e 4)))
    ∧ (∀ r, s.take port tc 3 = some (h, f, u) → u.request h.seq 2 h.srcNode = some x → x.owner = .bar2Read →
      u.readOf h.seq = some r →
      let bs := slice (f.payload.take (f.payload.length - h.sop)) 0 x.count
      let here := State.putBytes r.bytes (x.here.getD 0) bs
      let left := r.tags.filter (· ≠ h.seq)
      (left = [] → ∃ t, exec (.getDataFrame port tc) s = .next t
        ∧ t.host.completions = u.host.completions ++ [.data ((List.range r.length).map fun k => (SMap.get none here (r.address + k)).getD 0)]
        ∧ t.host.reads = u.host.reads.erase r ∧ t.mem = u.mem ∧ t.swarm = u.swarm)
      ∧ (left ≠ [] → ∃ t, exec (.getDataFrame port tc) s = .next t ∧ t.host.completions = u.host.completions
        ∧ t.host.reads = (u.host.reads.map fun y => if y = r then { r with tags := left, bytes := here } else y)))
    ∧ (∀ q e, s.take port tc 9 = some (h, f, u) → u.request h.seq 8 h.srcNode = some x → x.owner = .entryFree q e →
      exec (.freeResultFrame port tc) s = .next ((u.dropTag h.seq).endEntry q e 0 (numAt f.payload 0 1)))
    ∧ (∀ q e, s.take port tc 7 = some (h, f, u) → u.request (numAt f.payload 4 4) (numAt f.payload 1 1) h.srcNode = some x →
      (x.owner = .dma q e ∨ x.owner = .entryFree q e) →
      exec (.errorFrame port tc) s = .next ((u.dropTag (numAt f.payload 4 4)).failEntry q e 0x15
        (if numAt f.payload 8 8 = 0 then x.node * 2 ^ 40 + x.remote else numAt f.payload 8 8)))
    ∧     (s.take port tc 3 = some (h, f, u) → u.request h.seq 2 h.srcNode = some x → x.owner = .threadGet i → u.occupied i = true →
      u.ofThread i x = true →
      exec (.getDataFrame port tc) s = .next ((u.dropTag h.seq).giveThread i (x.here.getD 0)
        (slice (f.payload.take (f.payload.length - h.sop)) 0 x.count)))
    ∧ (s.take port tc 5 = some (h, f, u) → u.request h.seq 4 h.srcNode = some x → x.owner = .threadAtom i → x.here.isSome = true →
      u.occupied i = true → u.ofThread i x = true →
      exec (.atomicResultFrame port tc) s = .next ((u.dropTag h.seq).giveThread i answerKey (slice f.payload 0 8)))
    ∧ (s.take port tc 9 = some (h, f, u) → u.request h.seq 8 h.srcNode = some x → x.owner = .threadFree i → u.occupied i = true →
      u.ofThread i x = true →
      exec (.freeResultFrame port tc) s
        = .next ((u.dropTag h.seq).giveThread i answerKey (slice f.payload 0 1 ++ List.replicate 7 0)))
    ∧ (s.take port tc 6 = some (h, f, u) → numAt f.payload 0 1 = 1 → u.request (numAt f.payload 4 4) 1 h.srcNode = some x →
      (∀ q e, x.owner ≠ .dma q e) → exec (.ackFrame port tc) s = .next (u.dropTag (numAt f.payload 4 4)))
    ∧ (s.take port tc 7 = some (h, f, u) → u.request (numAt f.payload 4 4) (numAt f.payload 1 1) h.srcNode = some x →
      (x.owner = .threadGet i ∨ (∃ pad, x.owner = .threadGetTo i pad) ∨ x.owner = .threadPut i ∨ x.owner = .threadAtom i ∨ x.owner = .threadFree i) →
      exec (.errorFrame port tc) s = .next ((u.dropTag (numAt f.payload 4 4)).threadFault i x 0x11
        (if numAt f.payload 8 8 = 0 then x.node * 2 ^ 40 + x.remote else numAt f.payload 8 8)))

/-- Queue service (R249–R256) and frames held for reordering (R265). -/
def Obligations.QueueService : Prop :=
  (∀ (s : State) (port t j : Nat) (q : Queued) (d : Drr), s.portReady port = true →
    ((List.range 32).any fun ch => (s.eligible port ch).isSome) = true →
    s.selectFrame port 1000 (SMap.get {} s.net.drr port) = some (t, j, q, d) →
    let ch := t * 4 + fifoOrder j
    let u := ((s.setQueue port ch ((s.queue port ch).drop 1)).setDrr port d).transmit port q d.overhead
    exec (.egressSelect port) s = .next (if q.sequenced then u.settleGroup q.hdr.group else u))
  ∧ (∀ (s : State) (port : Nat), s.portReady port = true → ((List.range 32).any fun ch => (s.eligible port ch).isSome) = false →
    let d := SMap.get {} s.net.drr port
    exec (.egressSelect port) s = .next (if d.visiting then s.setDrr port (d.leave (s.tcHolds port (d.pos % 8))) else s))
  ∧ (∀ (s : State) (port tc at_ : Nat), s.pow.powered = true → port ≤ 0x52 → tc ≤ 7 →
    let u := s.at_ at_
    ((s.bucketElement 0x412002 port tc).1 ≠ 0 →
      let b : Bucket := ⟨u.shaperTokens port tc, u.now⟩
      exec (.shaperTick port tc at_) s
        = .next { u with net := { u.net with shapers := SMap.put none u.net.shapers (port * 8 + tc) (some b) } })
    ∧ ((s.bucketElement 0x413002 port tc).1 ≠ 0 →
      let b : Bucket := ⟨u.policerTokens port tc, u.now⟩
      let w : State := { u with net := { u.net with policers := SMap.put none u.net.policers (port * 8 + tc) (some b) } }
      exec (.policerTokenAccrual port tc at_) s = .next (if port < 0x40 then w.updateCredits port else w.admitAll)))
  ∧ ∀ (s : State) (port tc at_ : Nat),
    let due (d : Delivered) : Bool :=
      decide (d.ingress = port) && decide ((Hdr.of d.frame.header).tc = tc) && decide (d.since + 10000 ≤ max s.now at_)
    s.net.reorder.any due = true → s.pow.powered = true →
    let v := s.at_ at_
    exec (.reorderTimeout port tc at_) s = .next { v with net := { v.net with
      rx := s.net.rx ++ s.net.reorder.filter due, reorder := s.net.reorder.filter fun d => !due d } }

/-! ## Stream engines and experts -/

/-- Stream frames (R276, R277, R285), engines (R271) and routed experts (R293–R302). Two points are the model's: frames that fit no context or
no home are refused with reason 6 and counted (log entry 36, DESIGN CHOICE), and `openHome` starts a home whose counts are past anew (log
entry 20, DESIGN CHOICE). -/
def Obligations.StreamsAndExperts : Prop :=
  (∀ (s : State) (port tc : Nat) (d : Delivered), s.rxFind port tc (fun h _ => enginePort port && h.kind == 0x11) = some d →
    let hd := Hdr.of d.frame.header
    let u := s.consume d
    (u.stream? hd.group = none → exec (.streamFrame port tc) s = .next ((u.refuseFrame d).bump 0x580007))
    ∧ ∀ t, u.stream? hd.group = some t →
      (t.engine ≠ d.port - 0x60 → exec (.streamFrame port tc) s = .next ((u.refuseFrame d).bump 0x580007))
      ∧ (t.engine = d.port - 0x60 →
        (t.ended = true ∨ t.refuses hd d.frame.payload.length = true →
          exec (.streamFrame port tc) s = .next (((u.refuseFrame d).bump 0x580007).mapStream t.handle fun t => { t with refused := t.refused + 1 }))
        ∧ (t.ended = false → t.refuses hd d.frame.payload.length = false → t.fast = false → hd.offset < t.lowest + 4 * t.chunk →
          let kept := (u.mapStream t.handle fun t => { t with arrived := t.arrived ++ [(hd.seq / 2 ^ 24, hd.offset)] }).mapStream t.handle
            fun t => { t with chunks := t.chunks ++ [⟨hd.seq / 2 ^ 24, hd.offset, d.frame.header, d.frame.payload, false⟩] }
          exec (.streamFrame port tc) s = .next (kept.runStream t.handle))
        ∧ (t.ended = false → t.refuses hd d.frame.payload.length = false → t.fast = false → t.lowest + 4 * t.chunk ≤ hd.offset →
          let w := (u.mapStream t.handle fun t => { t with arrived := t.arrived ++ [(hd.seq / 2 ^ 24, hd.offset)] }).engineWrite
            (t.spill + hd.seq / 2 ^ 24 * t.length + hd.offset) d.frame.payload
          exec (.streamFrame port tc) s = .next (w.1.mapStream t.handle fun t => { t with
            chunks := t.chunks ++ [⟨hd.seq / 2 ^ 24, hd.offset, d.frame.header, [], w.2.isNone⟩], dataError := t.dataError || w.2.isSome }))
        ∧ (t.ended = false → t.refuses hd d.frame.payload.length = false →
          exec (.streamFrame port tc) s = .next (u.takeChunk t hd d.frame))))
  ∧ (∀ (s : State) (h : Nat) (t : Stream), s.stream? h = some t →
    let due := t.chunks.filter fun c => c.spilled && t.due c.rank c.offset
    (∀ c w bs, due = [c] → s.memRead engineRequester [(localOf (t.spill + c.rank * t.length + c.offset), t.chunk)] = (w, .ok bs) →
      exec (.streamSpillReadback h) s = .next ((w.mapStream h fun t => { t with
        chunks := t.chunks.map fun x => if x.rank = c.rank ∧ x.offset = c.offset then { x with bytes := bs, spilled := false } else x }).runStream h))
    ∧ (t.ended = true → s.streamWaits h = false →
      let u : State := { s with
        eng := { s.eng with streams := s.eng.streams.filter fun x => x.handle != h }
        net := { s.net with tags := s.net.tags.map fun (e : Nat × Option Tag) => (e.1, e.2.map (Tag.forgetStream h)) } }
      exec (.streamComplete h) s = .next ((if t.dataError then u.contained else u).writeRecord 2 engineRequester (Origin.ofEngine t.engine)
        t.completion (natLE 8 (2 ^ 63 + min t.refused 0xFFFFFF * 256 + b2n t.dataError)))))
  ∧ (∀ (s : State) (e : Nat), e < 32 → s.eng.working.getLsbD e = true →
    let working := s.eng.working &&& ~~~ (BitVec.ofNat 32 (2 ^ e))
    ∃ t, exec (.engineDisable e) s = .next t ∧ t.eng.working = working ∧ (∀ x ∈ t.eng.streams, x.engine ≠ e) ∧ t.num = s.num
      ∧ ∀ n p, (s.ctx n).state ≠ 0 → (s.ctx n).engine = e →
        ({ s with eng := { s.eng with working := working } } : State).peerOf e = some p → t.ctx n = { s.ctx n with engine := p })
  ∧ (∀ (s : State) (port tc : Nat) (d : Delivered),
    s.rxFind port tc (fun h _ => enginePort port && h.kind == 0x20 && h.sop != 2) = some d →
    let h := Hdr.of d.frame.header
    let u := s.consume d
    let n := h.tensor
    let c := u.ctx n
    let t := numAt d.frame.payload 0 4
    let q := numAt d.frame.payload 4 1
    let body := slice d.frame.payload 0 c.frameBytes
    let fits := h.sop = 0 ∧ c.state = 1 ∧ t < c.tokens ∧ q < c.partCount ∧ c.next ≤ t
      ∧ (c.parts.any fun p => p.token == t && p.part == q) = false
    (¬ fits → exec (.dispatchTokenFrame port tc) s = .next ((u.refuseFrame d).setCtx n (c.count 5)))
    ∧ (fits → t = c.next → exec (.dispatchTokenFrame port tc) s
        = .next (State.countTokens n c.tokens (u.setCtx n { c with parts := c.parts ++ [⟨t, q, body, false⟩] })))
    ∧ (fits → t ≠ c.next →
      (∀ w, u.engineWrite (c.holdAt t q) body = (w, none) →
        exec (.dispatchTokenFrame port tc) s = .next (w.setCtx n { c with parts := c.parts ++ [⟨t, q, [], true⟩] }))
      ∧ ∀ w e, u.engineWrite (c.holdAt t q) body = (w, some e) → exec (.dispatchTokenFrame port tc) s = .next (w.contextFault n 1)))
  ∧ (∀ (s : State) (n : Nat),
    let c := s.ctx n
    let held := c.parts.filter fun p => p.token == c.next && p.inHold
    c.state = 1 → (c.parts.filter fun p => p.token == c.next).length = c.partCount → held ≠ [] →
    let got := s.memRead engineRequester (held.map fun p => (localOf (c.holdAt p.token p.part), c.frameBytes))
    (∀ w e, got = (w, .error e) → exec (.holdAreaReadback n) s = .next (w.contextFault n 1))
    ∧ ∀ w bs p, held = [p] → got = (w, .ok bs) →
      exec (.holdAreaReadback n) s = .next (State.countTokens n c.tokens (w.setCtx n { c with
        parts := (c.parts.filter fun x => !(x.token == c.next && x.inHold)) ++ [{ p with payload := slice bs 0 c.frameBytes, inHold := false }] })))
  ∧ (∀ (s : State) (port tc : Nat) (d : Delivered), s.rxFind port tc (fun h _ => memoryPort port && h.kind == 0x20) = some d →
    let h := Hdr.of d.frame.header
    let u := s.consume d
    let e := h.group
    let v := u.expert e
    (h.sop ≠ 1 ∨ u.isHome e = false → exec (.dispatchRowCopyFrame port tc) s = .next (u.refuseFrame d))
    ∧ (h.sop = 1 → u.isHome e = true →
      (∀ w x, u.memWrite ⟨4, h.srcNode⟩ [(localOf h.offset, d.frame.payload)] = (w, some x) →
        exec (.dispatchRowCopyFrame port tc) s = .next ((w.refuseFrame d).setHome e { w.openHome e with state := 3 }))
      ∧ ∀ w, u.memWrite ⟨4, h.srcNode⟩ [(localOf h.offset, d.frame.payload)] = (w, none) →
        let position := (h.offset - expRowBase v) / max 1 (expRowStride v)
        let weight := numAt d.frame.payload (24 + 4 * (h.seq / 2 ^ 24 % 8)) 4
        let w := if numAt d.frame.payload 4 1 = 0 then
          (w.memWrite ⟨4, h.srcNode⟩ [(localOf (expTagBase v + position * 16), natLE 16 (rowTag h weight))]).1 else w
        exec (.dispatchRowCopyFrame port tc) s = .next ((w.setHome e { w.openHome e with parts := satAdd 32 (w.openHome e).parts 1 }).checkReady e)))
  ∧ (∀ (s : State) (port tc : Nat) (d : Delivered),
    s.rxFind port tc (fun h _ => enginePort port && h.kind == 0x20 && h.sop == 2) = some d →
    let u := s.consume d
    let e := (Hdr.of d.frame.header).group
    let p := d.frame.payload
    exec (.dispatchCloseFrame port tc) s = .next (if u.isHome e then
      (u.setHome e { u.openHome e with closes := (u.openHome e).closes ++ [(numAt p 8 4, numAt p 0 4, numAt p 4 1)] }).checkReady e
      else u.refuseFrame d))
  ∧ (∀ (s : State) (e : Nat) (v : W64), s.running = true → e < 4096 →
    let h := min (v.toNat % 2 ^ 20) (expCapacity (s.expert e))
    exec (.returnDoorbellStore e v) s
      = .next (if h ≤ (s.home e).mark then s else (s.setHome e { s.home e with mark := h }).sendReturns e))
  ∧ ∀ (s : State) (port tc : Nat) (d : Delivered), s.rxFind port tc (fun h _ => enginePort port && h.kind == 0x21) = some d →
    let h := Hdr.of d.frame.header
    let u := s.consume d
    let n := h.tensor
    let c := u.ctx n
    let t := h.seq % 2 ^ 24
    let k := t * 8 + h.seq / 2 ^ 24 % 8
    let len := min d.frame.payload.length (c.yBytes - h.offset)
    (c.state ≠ 2 ∨ SMap.get none c.kept k = none ∨ c.received k h.offset (max len 1) = true →
      exec (.returnFrame port tc) s = .next ((u.refuseFrame d).setCtx n (c.count 6)))
    ∧ (c.state = 2 → (SMap.get none c.kept k).isSome = true → c.received k h.offset (max len 1) = false → len = 0 →
      exec (.returnFrame port tc) s = .next u)
    ∧ (c.state = 2 → (SMap.get none c.kept k).isSome = true → c.received k h.offset (max len 1) = false → 0 < len →
      ∀ w, u.engineWrite (c.staging + k * c.yBytes + h.offset) (d.frame.payload.take len) = (w, none) →
        let c := { c with returned := c.returned ++ [(k, h.offset, len)] }
        exec (.returnFrame port tc) s = .next (if c.complete t then (w.setCtx n c).combineToken n t else w.setCtx n c))

/-! ## Collectives -/

/-- Frames of collectives (R323–R327), timers and ABORTs (R330, R331). -/
def Obligations.CollectiveFrames : Prop :=
  (∀ (s : State) (port hub tc : Nat) (d : Delivered), s.pow.powered = true → seqHub port = some hub →
    let found (kind : Nat) (p : Frame → Bool) : Prop := s.rxFind port tc (fun h x => h.kind == kind && p x) = some d
    let h := Hdr.of d.frame.header
    let u := s.consume d
    let body := d.frame.payload
    (found 0x30 (fun _ => true) →
      (u.matchColl hub h = none → exec (.collectiveDataFrame port tc) s = .next (u.unmatched d))
      ∧ ∀ c, u.matchColl hub h = some c →
        let phase := fieldOf 61 60 h.offset
        let at_ := c.findStream (fieldOf 63 62 h.offset) phase (bitOf h.offset 59)
        (at_ = none → exec (.collectiveDataFrame port tc) s = .next (u.unmatched d))
        ∧ ∀ i t, at_ = some i → c.streams[i]? = some t →
          let named := h.tc = c.tc ∧ fieldOf 58 56 h.offset = 0 ∧ h.sop ≤ 63 ∧ (phase = 2 ∨ fieldOf 55 40 h.offset = 0)
          let bs := body.take (body.length - h.sop)
          (¬ named → exec (.collectiveDataFrame port tc) s = .next (u.unmatched d))
          ∧ (named → phase ≠ 2 →
            exec (.collectiveDataFrame port tc) s = .next ((u.ringData c i t d (fieldOf 39 0 h.offset) bs).settleGroup c.group))
          ∧ (named → phase = 2 → exec (.collectiveDataFrame port tc) s
              = .next ((u.blockData c i t d (fieldOf 55 40 h.offset) (fieldOf 39 0 h.offset) bs).settleGroup c.group)))
    ∧ (found 0x31 (fun f => controlType f != 2 && controlType f != 3) →
      (controlType d.frame ≠ 1 → exec (.grantFrame port tc) s = .next (u.unmatched d))
      ∧ (controlType d.frame = 1 →
        (u.matchColl hub h = none → exec (.grantFrame port tc) s = .next (u.keepPending hub false d))
        ∧ ∀ c, u.matchColl hub h = some c →
          let b := numAt body 1 1
          let at_ := c.findStream (b / 64) (b / 16 % 4) (bitOf b 3)
          (at_ = none → exec (.grantFrame port tc) s = .next (u.unmatched d))
          ∧ ∀ i, at_ = some i → exec (.grantFrame port tc) s
              = .next ((u.mapStreamOf c.id i fun t => { t with got := max t.got (numAt body 4 4) }).settleGroup c.group)))
    ∧ (found 0x31 (fun f => controlType f == 2) →
      (u.matchColl hub h = none → exec (.countsFrame port tc) s = .next (u.keepPending hub false d))
      ∧ ∀ c, u.matchColl hub h = some c → exec (.countsFrame port tc) s
          = .next (if (u.takeCounts c body).1 then (u.takeCounts c body).2.settleGroup c.group else u.unmatched d))
    ∧ (found 0x31 (fun f => controlType f == 3) →
      (u.matchColl hub h = none → exec (.barrierFrame port tc) s = .next (u.unmatched d))
      ∧ ∀ c i t, u.matchColl hub h = some c → c.findStream (numAt body 1 1 / 64) (numAt body 1 1 / 16 % 4) (bitOf (numAt body 1 1) 3) = some i →
        c.streams[i]? = some t →
        exec (.barrierFrame port tc) s = .next (if c.op = 8 ∧ t.chunks.length < t.given then
          (u.mapStreamOf c.id i fun x => { x with chunks := SMap.put 0 x.chunks t.chunks.length 1 }).settleGroup c.group
          else u.unmatched d))
    ∧ (found 0x32 (fun _ => true) →
      (u.matchColl hub h = none → exec (.abortFrame port tc) s = .next (u.keepPending hub true d))
      ∧ ∀ c, u.matchColl hub h = some c → exec (.abortFrame port tc) s
          = .next ((u.endColl c.id (if numAt body 0 1 = 1 then 2 else 5) (numAt body 0 1) (numAt body 8 3)).settleGroup c.group)))
  ∧ (∀ (s : State) (hub : Nat) (abort : Bool) (d : Delivered),
    let h := Hdr.of d.frame.header
    let g := s.group h.group
    let same := s.coll.pending.filter fun x => x.abort == abort && x.hub == hub
    let late := groupValid g.record = true ∧ groupHub g.record = hub ∧ groupGeneration g.record = h.tensor ∧ g.lastSeq < h.seq
    (¬ late → s.keepPending hub abort d = (s.refuseFrame d).bump 0x502005)
    ∧ (late → abort = true →
      let mine := same.filter fun x => (Hdr.of x.frame.header).group == h.group
      s.keepPending hub abort d = if 4 ≤ mine.length then (s.logDiscard 6 d.ingress d.port d.frame.header).bump 0x502006
        else { s with coll := { s.coll with pending := s.coll.pending ++ [⟨hub, abort, d.frame⟩] } })
    ∧ (late → abort = false → 256 ≤ same.length →
      s.keepPending hub abort d = (s.logDiscard 6 d.ingress d.port d.frame.header).bump 0x502006)
    ∧ (late → abort = false → same.length < 256 →
      s.keepPending hub abort d = { s with coll := { s.coll with pending := s.coll.pending ++ [⟨hub, abort, d.frame⟩] } }))
  ∧ ∀ (s : State) (id at_ : Nat) (c : Collective), s.coll? id = some c → s.pow.powered = true →
    let u := s.at_ at_
    (∀ i t, c.streams[i]? = some t → t.chunks.length < t.given → t.grantedAt + 10000 ≤ u.now →
      exec (.grantResend id i at_) s = .next ((u.sendControl c t (u.neighbour (u.ring c.group) t.axis (!t.negative)) 1 t.given 0 []).mapStreamOf
        id i fun t => { t with grantedAt := u.now }))
    ∧ (c.timeout ≠ 0 → c.reported = false → c.started + c.timeout * 1000000 ≤ u.now →
      exec (.collectiveTimeout id at_) s = .next ((u.endColl id 4 2 u.node).settleGroup c.group))

/-! ## Links -/

/-- Link states, training (R341, R342, R349), control words and link timers (R344–R347). R343 does not say whose number of the lost link
HANDOVER bears: that it is the partner's is the model's choice (log entry 25, DESIGN CHOICE). -/
def Obligations.LinkEvents : Prop :=
  ∀ (s : State) (l : Nat),
    let k := s.link l
    let only (u t : State) (x : Link) : Prop :=
      t.link l = x ∧ (∀ m, m ≠ l → t.link m = u.link m) ∧ t = { u with opt := { u.opt with links := t.opt.links } }
    (∀ lanes : Byte, s.running = true → s.linkExists l = true → s.portEnabled (l / 2) = true → (k.state = 2 ∨ k.state = 5) → k.failedAt = none →
      s.lanesMeet l (lanes.toNat &&& s.workLanes l) = true →
      ∃ t, exec (.lightDetect l lanes) s = .next t
        ∧ only s t { k with
            state := 3, changed := s.now, retrain := false, lanes := BitVec.ofNat 8 (lanes.toNat &&& s.workLanes l)
            sent := some (s.identityOf l) })
    ∧ (∀ (lanes : Byte) (p : PartnerId), s.running = true → (k.state = 3 ∨ k.state = 5) →
      let m := lanes.toNat &&& s.workLanes l &&& p.lanes.toNat
      let again : Bool := decide (k.state = 3) && k.retrain
      let heard := (if k.state = 5 then s.train l (BitVec.ofNat 8 m) false else s).mapLink l fun k => { k with partner := some p }
      let u := heard.mapLink l fun k => { k with
        lanes := BitVec.ofNat 8 m, lostLanes := BitVec.ofNat 8 (s.workLanes l &&& (255 - m)) }
      let wrong := heard.mapLink l fun k => { k with lanes := BitVec.ofNat 8 m }
      (s.wiredRight l p = false →
        exec (.trainingLock l lanes p) s
          = .next (((if again then wrong.leaveUp l 5 else wrong.linkTo l 5).linkEvent l 3 5).updateService))
      ∧ (s.lanesMeet l m = false → s.wiredRight l p = true →
        exec (.trainingLock l lanes p) s = .next heard ∧ (heard.link l).state = 3 ∧ (heard.link l).partner = some p)
      ∧ (s.lanesMeet l m = true → s.wiredRight l p = true → again = false →
        exec (.trainingLock l lanes p) s = .next ((u.bringUp l p).linkEvent l 3 4).reparent.updateService)
      ∧ (s.lanesMeet l m = true → s.wiredRight l p = true → again = true → k.replayFrom = none →
        ∃ t, exec (.trainingLock l lanes p) s = .next t ∧ (t.link l).state = 4 ∧ (t.link l).retrain = false
          ∧ (t.link l).nextSeq = k.nextSeq ∧ (t.link l).expected = k.expected ∧ (t.link l).held = k.held
          ∧ (t.link l).granted = k.granted ∧ (t.link l).charged = k.charged ∧ (t.link l).given = k.given ∧ (t.link l).lanes = BitVec.ofNat 8 m)
      ∧ (s.lanesMeet l m = true → s.wiredRight l p = true → again = false → (k.handover = false ∨ k.held = []) →
        ∃ t, exec (.trainingLock l lanes p) s = .next t ∧ (t.link l).state = 4 ∧ (t.link l).nextSeq = 0
          ∧ (t.link l).expected = (if p.replays then k.expected else 0) ∧ (t.link l).partner = some p ∧ (t.link l).lanes = BitVec.ofNat 8 m ∧ t.swarm = s.swarm ∧ t.num = s.num))
    ∧ (∀ at_ : Nat, s.pow.powered = true →
      let u := s.at_ at_
      (k.state = 3 → k.retrain = false → k.changed + 100000000 ≤ u.now → exec (.trainingTimeout l at_) s
          = .next (((u.linkTo l 2).linkCount l 9).mapLink l fun k => { k with failedAt := some u.now }).updateService)
      ∧ (k.state = 3 → k.retrain = true → k.changed + 100000000 ≤ u.now → exec (.trainingTimeout l at_) s
          = .next (((u.leaveUp l 2).linkCount l 9).mapLink l fun k => { k with failedAt := some u.now }).updateService)
      ∧ (∀ a, k.failedAt = some a → k.state = 2 → a + 100000000 ≤ u.now →
        ∃ t, exec (.trainingRetry l at_) s = .next t ∧ only u t { k with failedAt := none })
      ∧ (∀ lane, k.state = 4 → lane < 8 → bitOf k.lanes.toNat lane = true →
        let m := k.lanes.toNat - 2 ^ lane
        let w := (u.postEvent 0x41 4 (l / 2 + lane * 2 ^ 8)).mapLink l fun k => { k with lostLanes := k.lostLanes ||| BitVec.ofNat 8 (2 ^ lane) }
        exec (.laneLockLoss l lane at_) s = .next (if w.lanesMeet l m then
          (w.train l (BitVec.ofNat 8 m) true).updateService
          else (w.linkCount l 8).leaveUp l 2))
      ∧ (∀ lane, k.state = 4 → lane < 8 → bitOf k.lostLanes.toNat lane = true → bitOf (s.workLanes l) lane = true →
        k.changed + 1000000000 ≤ u.now →
        ∃ t, exec (.laneRetry l lane at_) s = .next t.updateService ∧ only u t { k with
          state := 3, changed := u.now, retrain := true, lanes := k.lanes ||| BitVec.ofNat 8 (2 ^ lane)
          sent := some (u.identityOf l) })
      ∧ (k.state = 4 → k.awaiting = true → k.nakAt + 20000 ≤ u.now →
        exec (.nakResendTimer l at_) s
          = .next (((u.mapLink l fun k => { k with nakAt := u.now }).sendWord l 2 k.expected 0).linkCount l 4))
      ∧ (∀ h hs, k.held = h :: hs → k.state = 4 → k.ackAt + 20000 ≤ u.now →
        exec (.ackTimeoutReplay l at_) s = .next (((u.linkCount l 7).mapLink l fun k => { k with ackAt := u.now }).replay l h.seq))
      ∧ (k.handover = true → k.leftAt + 100000 ≤ u.now → exec (.handoverTimeout l at_) s = .next (u.dropHeld l))
      ∧ (k.state = 4 → k.creditAt + 10000 ≤ u.now →
        exec (.creditRefresh l at_) s = .next ((u.updateCredits l true).mapLink l fun k => { k with creditAt := u.now })))
    ∧ (s.pow.powered = true → k.state = 4 ∨ (k.state = 3 ∧ k.retrain = true) →
      exec (.linkLoss l) s = .next ((s.linkCount l 8).leaveUp l 2) ∧ (((s.linkCount l 8).leaveUp l 2).link l).state = (if s.lanesMeet l (s.workLanes l) then 2 else 6))
    ∧ (s.pow.powered = true → k.state = 4 →
      (∀ n, let below := k.held.takeWhile fun h => let d := (n % 65536 + 65536 - h.seq) % 65536; decide (0 < d ∧ d ≤ 32768)
        (below = [] → exec (.linkAckReceive l n) s = .next s.admitAll.settleAll)
        ∧ (below ≠ [] → exec (.linkAckReceive l n) s = .next (below.foldl (fun s h => s.unref h.queued.store)
          (s.setLink l { k with held := k.held.drop below.length, ackAt := s.now })).admitAll.settleAll))
      ∧ (∀ n, (k.held.any fun h => h.seq == n % 65536) = true → exec (.linkNakReceive l n) s = .next (s.replay l (n % 65536)))
      ∧ (∀ ch g, ch < 32 →
        let u := s.setLink l { k with granted := SMap.put 0 k.granted ch (g % 2 ^ 24) }
        exec (.linkCreditReceive l ch g) s = .next (u.replayOn l)
        ∧ (k.replayFrom = none → exec (.linkCreditReceive l ch g) s = .next u))
      ∧ ∀ lost n m,
        ((List.range 64).find? fun m => (s.link m).handover && (match (s.link m).partner, k.partner with
          | some p, some q => p.node == q.node && p.link == lost
          | _, _ => false)) = some m →
        let u := s.releaseHeld m (n % 65536)
        exec (.handoverReceive l lost n) s = .next ((u.link m).held.foldl (fun s h =>
          if h.queued.void then s.unref h.queued.store
          else if (s.moveFrame m m false h.queued).1 then (s.moveFrame m m false h.queued).2.linkCount m 11
          else (s.moveFrame m m false h.queued).2)
          (u.mapLink m fun k => { k with held := [], handover := false })))

/-! ## Power -/

/-- Power, clocks and reset (R397, R425–R439, R458, R462, R463). The model's choices: fabric time is 0 after a cold reset (log entry 1, DESIGN
CHOICE); 9010.06 is 4 or 5 in a FAULT STOP and the reset that ends it leaves it (log entry 28); the steps of start-up come about as one, with
STARTUP_COMPLETE (log entry 28); BAR2 requests that waited are performed with the writes first (log entry 28). -/
def Obligations.PowerEvents : Prop :=
  (∀ s : State,
    let input (code level : Nat) : State := { s with pow := { s.pow with input := code, inputLevel := level } }
    let cold (r : Host.Outcome State Fault Refusal) : Prop := ∃ t, r = .next t ∧ t.pow.powered = true ∧ t.pow.startingUp = true
      ∧ t.now = 0 ∧ ((∀ e ∈ s.swarm.combs, e.2.movePending = false) → t.mem.bytes = [] ∧ t.mem.poison = []) ∧ t.swarm.slots = [] ∧ t.net.tags = [] ∧ t.eng = {} ∧ t.coll.active = []
      ∧ (s.pow.state ≠ 5 → t.pow.state = 1 ∧ t.reg 0x901006 = 0)
    let off (t : State) : Prop := t.pow.powered = false ∧ t.pow.state = 0 ∧ t.mem.bytes = [] ∧ t.swarm.slots = [] ∧ t.opt.links = []
      ∧ t.isl.toHost = [] ∧ t.isl.toIsland = []
    let waits : Bool := decide (s.pow.input = 1) && !s.pow.powered && s.pow.enJoined
    (s.pow.input ≠ 3 → exec .inputLow s = .next (input 1 30) ∧ exec .inputRise s = .next s)
    ∧ (s.pow.input ≠ 3 → waits = false → exec .inputNormal s = .next (input 0 100) ∧ exec .inputHigh s = .next (input 2 100))
    ∧ (waits = true → cold (exec .inputNormal s) ∧ cold (exec .inputHigh s))
    ∧ (s.pow.input = 3 → s.pow.enJoined = true → cold (exec .inputRise s))
    ∧ (s.pow.input = 3 → s.pow.enJoined = false → exec .inputRise s = .next { s with pow := { s.pow with input := 0 } })
    ∧ (s.pow.powered = true → (∃ t, exec .inputPowerLoss s = .next t ∧ off t ∧ t.pow.input = 3)
      ∧ ∃ t, exec .enBreak s = .next t ∧ off t ∧ t.pow.enJoined = false)
    ∧ (s.pow.powered = false → s.pow.input ≠ 3 → s.pow.input ≠ 1 → cold (exec .enMate s))
    ∧ (s.pow.powered = true ∨ s.pow.input = 3 ∨ s.pow.input = 1 → exec .enMate s = .next { s with pow := { s.pow with enJoined := true } }))
  ∧ (∀ s : State, s.pow.powered = true →
    (s.pow.state = 2 → s.quiescent = true →
      let u : State := if s.pow.draining then s
        else ({ s with pow := { s.pow with draining := true, enteredAt := s.now } } : State).creditAll
      exec .quiescenceReached s = .next (if u.bufferEmpty then u.enterDormant else u))
    ∧ (∀ at_, s.pow.state = 2 → s.pow.draining = true → s.pow.enteredAt + 2000000 ≤ max s.now at_ →
      ∃ t, exec (.entryDrainTimeout at_) s = .next t ∧ t = (s.at_ at_).enterDormant ∧ t.pow.state = 3
        ∧ t.pow.draining = false ∧ t.reg 0x102102 = min ((max s.now at_ - s.pow.enteredAt) / 1000) (2 ^ 32 - 1))
    ∧ (∀ at_, s.pow.state = 4 →
      let v := s.at_ at_
      let d := v.now - s.pow.sleptAt
      let w := v.setReg 0x102101 (min ((v.now - s.pow.wokenAt) / 1000) (2 ^ 32 - 1))
      let x : State := { w with
        pow := { w.pow with state := 1 }, health := { w.health with sampledAt := w.health.sampledAt + d }
        opt := { w.opt with
          lastBias := w.opt.lastBias.map fun e => (e.1, e.2 + d), lastRing := w.opt.lastRing.map fun e => (e.1, e.2 + d) } }
      let y := x.darkenAll
      let written := y.dict.heldWrites.foldl (fun (u : State) h => State.putValue .bar0 0 u (h.1 / 65536) (h.1 % 65536) h.2)
        { y with dict := { y.dict with heldWrites := [] } }
      exec (.wakeComplete at_) s
          = .next written.releaseBar2.releaseDoorbells.releaseWork.reparent.updateService.enterIfAsked
        ∧ (s.dict.heldWrites = [] → s.host.writesWaiting = [] → s.host.readsHeld = [] →
          ∃ t, exec (.wakeComplete at_) s = .next t ∧ t.pow.state = (if s.pow.request = 1 then 2 else 1)
            ∧ t.reg 0x102101 = min ((max s.now at_ - s.pow.wokenAt) / 1000) (2 ^ 32 - 1)))
    ∧ (∀ (temps : List Int) (at_ : Nat),
      let v := s.at_ at_
      let u : State := { v with pow := { v.pow with temps := Vector.ofFn fun (i : Fin 26) => temps.getD i.val 0 } }
      let hot := (List.range 26).any fun i => decide (10000 ≤ temps.getD i 0)
      let cool := (List.range 26).all fun i => decide (temps.getD i 0 ≤ 9800)
      (s.canStop = true ∨ s.pow.tripped = false → ∀ d, ((List.range 26).find? fun i => decide (11000 ≤ temps.getD i 0)) = some d →
        exec (.thermalLevelStep temps at_) s = .next (u.trip d (temps.getD d 0)))
      ∧ (((List.range 26).any fun i => decide (11000 ≤ temps.getD i 0)) = false ∨ (s.canStop = false ∧ s.pow.tripped = true) →
        exec (.thermalLevelStep temps at_) s = .next (if s.canStop = false then u
        else if hot ∧ 10 < s.pow.thermalLevel ∧ s.pow.thermalSince + 100000 ≤ u.now then u.thermalTo (s.pow.thermalLevel - 10)
        else if cool ∧ s.pow.thermalLevel < 100 ∧ s.pow.thermalSince + 1000000 ≤ u.now then u.thermalTo (s.pow.thermalLevel + 10)
        else u)))
    ∧ (∀ level, 10 ≤ level → level ≤ 100 → exec (.powerCapLevelUpdate level) s = .next { s with pow := { s.pow with capLevel := level } })
    ∧ (∀ die temp, die < 26 → (11000 : Int) ≤ temp → s.canStop = false →
      (s.pow.tripped = true → exec (.thermalTrip die temp) s = .next s)
      ∧ (s.pow.tripped = false → ∃ t, exec (.thermalTrip die temp) s = .next t ∧ t.pow.tripped = true ∧ t.pow.state = s.pow.state
        ∧ t.pow.tripDie = some die ∧ t.pow.temps = s.pow.temps.setIfInBounds die temp ∧ t.reg 0x903003 = satAdd 32 (s.reg 0x903003) 1
        ∧ t.isl.toIsland = (if s.isl.powered then s.isl.toIsland ++ [⟨crossingBytes 8 s.isl.hostSeq [BitVec.ofNat 8 die], 0⟩]
          else s.isl.toIsland)))
    ∧ (s.canStop = true →
      let stopped (t : State) (cause : Nat) : Prop := t.pow.state = 5 ∧ t.pow.startingUp = false ∧ t.reg 0x901006 = cause
        ∧ t.swarm.slots = [] ∧ t.swarm.launches = [] ∧ t.coll.active = [] ∧ t.eng.streams = [] ∧ t.net.queues = [] ∧ t.net.rx = []
        ∧ t.opt.links = s.linksIn 1 ∧ t.host.aer = s.host.aer ++ s.host.readsHeld.map (fun _ => AerReport.unsupportedRequest) ++ [.internalFatal] ∧ ∀ q, (t.pair q).entries = []
      (∀ die temp, die < 26 → (11000 : Int) ≤ temp → ∃ t, exec (.thermalTrip die temp) s = .next t ∧ stopped t 4
        ∧ t.pow.tripDie = some die ∧ t.pow.temps = s.pow.temps.setIfInBounds die temp
        ∧ t.reg 0x903003 = satAdd 32 (s.reg 0x903003) 1 ∧ t.health.fatal = s.health.fatal)
      ∧ (∀ cause unit, 1 ≤ cause → cause ≤ 4 → unit ≤ 0x12 → ∃ t, exec (.moduleFatal cause unit) s = .next t ∧ stopped t 5
        ∧ t.health.fatal = fatalRecord cause unit s.now)
      ∧ ∀ unit, s.pow.state = 1 → s.pow.startingUp = false → unit < 0x12 → ∃ t, exec (.pllLockLoss unit) s = .next t ∧ stopped t 5
        ∧ t.health.fatal = fatalRecord 1 unit s.now)
    ∧ (∀ test, s.pow.startingUp = true → s.pow.warmHeld = false → s.trust.host.running.isSome = true →
      let u := s.selfTest test
      let v := if u.pow.startupCold then u.zeroNear else u
      let w := if v.pow.state = 5 then v.resumeScarab else v
      let x : State := { w with pow := { w.pow with state := 1, startingUp := false, stopRecord := 0 } }
      let y := if s.pow.stopRecord = 0 then x else x.postEvent 0x80 3 s.pow.stopRecord.toNat
      exec (.startupComplete test) s = .next y.darkenAll.reparent.updateService.releaseBar2.enterIfAsked
        ∧ (s.host.writesWaiting = [] → s.host.readsHeld = [] →
          ∃ t, exec (.startupComplete test) s = .next t ∧ t.pow.startingUp = false ∧ t.pow.state = (if s.pow.request = 1 then 2 else 1)
            ∧ t.num = s.num ∧ t.now = s.now))
    ∧ (∀ a, a < 0x800000000 → SMap.get 0 s.zeroNear.mem.bytes a = 0 ∧ SMap.get false s.zeroNear.mem.poison a = false)
    ∧ (s.pow.tripHold = true → (s.pow.temps.toList.all fun t => decide (t ≤ 10000)) = true →
      exec .tripResetRelease s = .next (s.resetHostSide false 1)))
  ∧ ∀ s : State,
    (s.pow.perst = false →
      let u : State := { s with host := { s.host with inReset := true }, pow := { s.pow with perst := true } }
      (s.pow.powered = false → exec .perstAssert s = .next u)
      ∧ (s.pow.powered = true → s.reg 0x901005 ≠ 1 →
        exec .perstAssert s = .next (({ u with pow := { u.pow with warmHeld := false } } : State).hostReset.countReset 3))
      ∧ (s.pow.powered = true → s.reg 0x901005 = 1 →
        exec .perstAssert s = .next (({ u with pow := { u.pow with warmHeld := true } } : State).warmStart 3)))
    ∧ (s.pow.perst = true → exec .perstDeassert s = .next { s with
        host := { s.host with inReset := false, lastTlp := s.now }, pow := { s.pow with perst := false, warmHeld := false } })

/-! ## The Cicada island -/

/-- The island (R402–R420). The model's choices, all of log entry 30: mode OFF holds the demand, and LOCAL seeds its integral so that the
demand is continuous (DESIGN CHOICE); a changeover is found by a comparator and so starts the fast clock (DEDUCED). -/
def Obligations.IslandEvents : Prop :=
  (∀ s : State,
    (s.isl.powered = false → s.isl.fieldSupply = true ∨ s.pow.powered = true →
      ∃ t, exec .islandReset s = .next t ∧ t.isl.powered = true ∧ t.isl.resets = satAdd 32 s.isl.resets 1 ∧ t.isl.log = s.isl.log
        ∧ t.isl.active = 0 ∧ t.isl.leakLatched = false ∧ t.swarm = s.swarm ∧ t.mem = s.mem)
    ∧ (∀ v : Rat,
      let good := decide (18 ≤ v) && decide (v ≤ 32)
      let changed : State := { s with isl := { s.isl with fieldSupply := good, supply := v } }
      (s.isl.powered = true → s.pow.powered = true ∨ good = true → exec (.islandSourceChangeover v) s
        = .next { changed with isl := { changed.isl with fastUntil := s.now + 10000000 } })
      ∧ (s.isl.powered = true → s.pow.powered = false → good = false → ∃ t, exec (.islandSourceChangeover v) s = .next t
        ∧ t.isl = { powered := false, resets := s.isl.resets } ∧ t.swarm = s.swarm ∧ t.mem = s.mem)
      ∧ (s.isl.powered = false → exec (.islandSourceChangeover v) s = .next changed))
    ∧ (s.pow.powered = true ∨ s.isl.fieldSupply = true → exec .islandPowerLoss s = .next s)
    ∧ (s.pow.powered = false → s.isl.fieldSupply = false → s.isl.powered = true →
      ∃ t, exec .islandPowerLoss s = .next t ∧ t.isl = { powered := false, resets := s.isl.resets } ∧ t.dict.kept = [] ∧ t.dict.repeats = []
        ∧ (∀ k ∈ t.dict.contexts, k.ctx.path ≠ 3) ∧ t.swarm = s.swarm ∧ t.mem = s.mem))
  ∧ ∀ (s : State) (at_ : Nat),
    let u := s.at_ at_
    (s.islandUp = true →
      (∀ m : FieldReadings, s.isl.tickAt + 99000000 ≤ u.now →
        ((s.pow.powered || (decide (18 ≤ m.fieldVolts) && decide (m.fieldVolts ≤ 32))) = false →
          ∃ t, exec (.measurementTick m at_) s = .next t ∧ t.isl = { powered := false, resets := s.isl.resets })
        ∧ ((s.pow.powered || (decide (18 ≤ m.fieldVolts) && decide (m.fieldVolts ≤ 32))) = true →
        ∃ t, exec (.measurementTick m at_) s = .next t ∧ t.isl.tickAt = u.now ∧ t.isl.supply = m.fieldVolts
          ∧ t.isl.valveCurrent = m.valveMilliamp ∧ t.isl.leakOhm = m.leakOhm
          ∧ t.isl.fieldSupply = (decide (18 ≤ m.fieldVolts) && decide (m.fieldVolts ≤ 32))
          ∧ (∀ r, m.leakOhm = some r → r < 7000 → m.leakPinAbove5 = false → 1 ≤ s.isl.wetTicks → t.isl.leakLatched = true)
          ∧ (s.isl.leakLatched = true → t.isl.leakLatched = true)
          ∧ t.isl.pulses = pulsesKept (m.flowPulses ++ s.isl.pulses.map (· + (u.now - s.isl.tickAt)))
          ∧ t.isl.demand = s.isl.demand ∧ t.now = u.now ∧ t.swarm = s.swarm ∧ t.mem = s.mem ∧ t.num = s.num))
      ∧ (s.isl.piAt + 495000000 ≤ u.now →
        let row := exec (.piTick at_) s
        let mode := s.reg 0x802001
        let left (d : Rat) : State := { u with isl := { u.isl with demand := d, seeded := false, mode := mode, piAt := u.now } }
        (mode = 0 → row = .next (left s.isl.demand))
        ∧ (mode ≠ 0 → s.isl.tripped.isSome = true → row = .next (left 100))
        ∧ (mode = 1 → s.isl.tripped = none → s.isl.outlet = none → row = .next (left 100))
        ∧ (2 < mode → s.isl.tripped = none → row = .next (left s.isl.demand))
        ∧ (mode = 2 → s.isl.tripped = none → row = .next (left ((f32Rat (s.reg 0x802005)).getD 0)))
        ∧ ∀ o, mode = 1 → s.isl.tripped = none → s.isl.outlet = some o →
          let kp := (f32Rat (s.reg 0x802003)).getD 0
          let ti := (f32Rat (s.reg 0x802004)).getD 0
          let r := piStep o ((f32Rat (s.reg 0x802002)).getD 0) kp ti
            (if s.isl.seeded ∧ s.isl.mode = 1 then s.isl.integral else s.isl.demand * ti / kp)
          row = .next { u with isl := { u.isl with demand := r.1, integral := r.2, seeded := true, mode := 1, piAt := u.now } })
      ∧ exec (.timeSyncLost at_) s = .next (if 2000000000 ≤ u.isl.syncAge + (u.now - u.isl.lastSync) then u else s))
    ∧ (∀ e, s.isl.svcTestUntil = some e → e ≤ u.now →
      exec (.serviceOutputTestEnd at_) s = .next { u with isl := { u.isl with svcTestUntil := none } })
    ∧ (∀ e, s.isl.svcOverload = some e → e + 1000000000 ≤ u.now →
      exec (.svcOutRetry at_) s = .next { u with isl := { u.isl with svcOverload := none } })
    ∧ (let island := s.islandUp && decide (s.isl.sentAt + 100000000 ≤ u.now)
      let push := s.islandUp && decide (s.isl.pushedAt + 1000000000 ≤ u.now)
      let host := s.pow.powered && !s.pow.startingUp && decide (s.pow.sentAt + 100000000 ≤ u.now)
      island = true ∨ push = true ∨ host = true →
      let a := if island then u.islandMessages else u
      let b := if push then ({ a with isl := { a.isl with pushedAt := a.now } } : State).sendTelemetry else a
      exec (.barrierStateTimer at_) s = .next (if host then b.hostMessages else b))

/-- Messages across the barrier (R407). R407 names the messages and what they carry and not their bytes: every payload layout and length here is
the model's choice (log entry 31, DESIGN CHOICE); that a trip in mode OFF leaves the demand is log entry 30's. -/
def Obligations.BarrierMessages : Prop :=
  ∀ (s : State) (m : Crossing) (rest : List Crossing),
    (s.isl.toHost = m :: rest → s.pow.powered = true →
      let u : State := { s with isl := { s.isl with toHost := rest } }
      let does (k : Nat) (c : Bool → Instr) (t : State) : Prop :=
        m.kind = k → exec (c true) s = .next (if crossingOk false m.bytes then t else u.bump 0x800003) ∧ exec (c false) s = .next (u.bump 0x800003)
      does 1 (.barrierDictRequest false) (u.crossed false m)
      ∧ does 2 (.barrierDictResult false) (u.resultBack m)
      ∧ does 3 .telemetryPushMsg { u with pow := { u.pow with telemetry := m.payload, telemetryAt := u.now } }
      ∧ does 4 .coolingStateMsg { u with pow := { u.pow with
          cooling := m.payload, tripDie := if numAt m.payload 3 1 = 1 then none else s.pow.tripDie } }
      ∧ does 5 .wakeMsg (u.setRequest 0)
      ∧ does 6 .dormantRequestMsg (u.setRequest 1)
      ∧ does 7 .throttleMsg { u with pow := { u.pow with throttle := numAt m.payload 0 1 } }
      ∧ does 9 (.attestationRequestMsg false) (u.toIsland 0x0A (slice m.payload 0 2 ++ [0, 1] ++ u.hostPart (slice m.payload 4 32)))
      ∧ does 0x0A (.attestationQuoteMsg false) (u.fragmentHeard m)
      ∧ does 0x0C (.serviceFlagMsg false) (({ u with pow := { u.pow with islandService := decide (leNat m.payload ≠ 0) } } : State).updateService))
    ∧ (s.isl.toIsland = m :: rest → s.isl.powered = true →
      let u : State := { s with isl := { s.isl with toIsland := rest } }
      let w : State := { u with isl := { u.isl with fastUntil := s.now + 10000000 } }
      let does (k : Nat) (c : Bool → Instr) (t : State) : Prop :=
        m.kind = k →
          ((s.islandUp = true ∨ k = 1 ∨ k = 2 ∨ k = 0x0B) →
            exec (c true) s = .next (if crossingOk true m.bytes then t else w.bump 0x800003) ∧ exec (c false) s = .next (w.bump 0x800003))
          ∧ (s.islandUp = false → k ≠ 1 → k ≠ 2 → k ≠ 0x0B → exec (c true) s = .next u)
      does 1 (.barrierDictRequest true) (w.crossed true m)
      ∧ does 2 (.barrierDictResult true) (w.resultBack m)
      ∧ does 8 .thermalTripMsg (
        let x := if s.isl.tripped.isSome then w else w.logDiag 0x80 true
        { x with isl := { x.isl with tripped := some (numAt m.payload 0 1), demand := if s.isl.mode = 0 then s.isl.demand else 100 } })
      ∧ does 9 (.attestationRequestMsg true) (w.signQuotes
        (s.isl.quotes ++ [{ tag := numAt m.payload 0 2, ctx := none, asked := s.now, part := some (slice m.payload 4 1024) }]))
      ∧ does 0x0A (.attestationQuoteMsg true) (w.partHeard m)
      ∧ does 0x0B .firmwareImageBlockMsg { w with isl := { w.isl with blocks := w.isl.blocks ++ [(numAt m.payload 0 4, m.payload.drop 4)] } }
      ∧ does 0x0C (.serviceFlagMsg true) { w with isl := { w.isl with hostService := decide (leNat m.payload ≠ 0) } }
      ∧ (let x : State := { w with isl := { w.isl with
          time := numAt m.payload 0 8, lastSync := s.now, syncAge := 0, hostState := numAt m.payload 8 1
          wakeRequest := s.isl.wakeRequest && numAt m.payload 8 1 != 1, dormantRequest := s.isl.dormantRequest && numAt m.payload 8 1 != 3 } }
        let y := x.logDiag 0x80 false
        does 0x0D .timeSyncMsg (if s.isl.tripped.isSome ∧ numAt m.payload 8 1 = 1 then
          ({ y with isl := { y.isl with tripped := none } } : State).remoteDemand else x)))
    ∧ (∀ (q : IslandQuote) (qs : List IslandQuote),
      (q.part = none → s.signQuotes (q :: qs) = { s with isl := { s.isl with quotes := q :: qs } })
      ∧ ∀ part, q.part = some part →
        let r := s.signQuote part
        s.signQuotes (q :: qs) = (match q.ctx with
          | some c => r.2.giveQuote c r.1
          | none => (quoteFragments q.tag r.1).foldl (fun (u : State) f => u.toHost 0x0A f) r.2).signQuotes qs)
    ∧ ∀ (j : IslandQuote) (at_ : Nat), (s.isl.quotes.find? fun q => q.part.isNone) = some j → s.islandUp = true →
      j.asked + 100000000 ≤ max s.now at_ →
      let t := (s.at_ at_).islandTime
      exec (.attestationHostTimeout at_) s = .next (t.2.partOf j.tag (emptyPart s.node j.nonce t.1))

/-! ## Scarab, telemetry and fabric time -/

/-- Scarab (R201, R460), samples (R470, R471), snapshots (R472–R474) and the time tree (R476). Log entry 27's are (DESIGN CHOICE): fabric time
steps and holds by whole ns, offsets of 0.25 ns divided by 4; a parent that is not synchronised leaves state 1; the halves of R476's
differences are rounded as Int division rounds. -/
def Obligations.HealthAndTime : Prop :=
  (∀ (s : State) (a : Nat) (f : ScrubFinding), s.running = true →
    let w := wordOf a
    let wrong : Bool := s.poisoned w || f == .uncorrectable
    let right : State := { s with mem := { s.mem with soft := SMap.put false s.mem.soft w false } }
    let found (bad fine : State) : State :=
      if wrong then bad else if f = .corrected ∨ SMap.get false s.mem.soft w = true then fine else s
    (inHbm a 1 = true →
      let u := found ((s.scrubBad w).faultHolders w) ((right.correctedError 0x701001).rowCorrected (Config.rowOf w))
      let p := scrubStep ((w - hbmBase) / 64) hbmCodewords
      exec (.hbmScrub a f) s = .next { u with health := { u.health with hbmPos := p.1, hbmPasses := satAdd 64 u.health.hbmPasses p.2 } })
    ∧ (a < 0x800000000 → s.hiveWorks (a / 0x80000000) = true →
      let u := found (s.scrubBad w) (right.correctedError 0x701004)
      let p := scrubStep (w / 8) nearWords
      exec (.nearStoreScrub a f) s = .next { u with health := { u.health with nearPos := p.1, nearPasses := satAdd 64 u.health.nearPasses p.2 } })
    ∧ ∀ n b, progOf a = some (n, b) → s.hiveWorks (n / 1024) = true →
      exec (.programStoreScrub a f) s = .next (found (s.scrubBad a) (right.bump 0xB02002)))
  ∧ (∀ (s : State) (row : Nat), s.running = true → SMap.get false s.mem.candidates row = true →
    (s.mem.poison.any fun e => inHbm e.1 1 && e.2 && decide (Config.rowOf e.1 = row)) = false →
    ∃ t, exec (.hbmRowRepair row) s = .next t ∧ t.swarm = s.swarm
      ∧ if s.mem.rowsRepaired < Config.spareRowsAtManufacture then
          SMap.get false t.mem.candidates row = false ∧ SMap.get false t.mem.remapped row = true ∧ SMap.get 0 t.mem.rowCorrections row = 0
            ∧ t.mem.rowsRepaired = s.mem.rowsRepaired + 1 ∧ t.reg 0x702002 = satAdd 64 (s.reg 0x702002) 1
            ∧ (∀ r, r ≠ row → SMap.get false t.mem.candidates r = SMap.get false s.mem.candidates r)
            ∧ (s.ringSize = 0 → t.mem.bytes = s.mem.bytes ∧ t.mem.poison = s.mem.poison)
        else t = s)
  ∧ (∀ (s : State) (m : SampleFigures) (at_ : Nat), s.running = true → s.reg 0xB04005 ≠ 0 →
    s.health.sampledAt + s.reg 0xB04005 * 1000000 ≤ max s.now at_ →
    let v := s.at_ at_
    let u : State := { v with health := { v.health with sampledAt := v.now } }
    exec (.telemetrySample m at_) s = .next (u.postEvent 1 0 (leNat (natLE 4 m.inputPower.toNat ++ natLE 2 m.hottest.toNat ++ natLE 1 s.level
      ++ [0] ++ natLE 4 (u.pushedWord 4) ++ natLE 4 (u.pushedWord 8) ++ natLE 4 m.slots.toNat ++ natLE 4 m.hbmMiB.toNat
      ++ natLE 4 m.opticalMiB.toNat))))
  ∧ (∀ (s : State) (d : Delivered), s.pow.powered = true →
    s.rxFind 0x85 0 (fun h x => h.kind == 0x41 && numAt x.payload 0 1 == 3) = some d →
    let u := s.consume d
    let t := numAt d.frame.payload 32 8
    ((u.health.snapshot.isSome = true ∨ t < u.now + 10000) → exec .snapshotFrame s = .next (u.bump 0xB05006))
    ∧ (u.health.snapshot = none → u.now + 10000 ≤ t →
      exec .snapshotFrame s = .next (({ u with health := { u.health with snapshot := some t } } : State).setReg 0xB05003 1)))
  ∧ (∀ (s : State) (t at_ : Nat), s.pow.powered = true → s.health.snapshot = some t → t ≤ max s.now at_ →
    let v := s.at_ at_
    let u : State := { v with health := { v.health with snapshot := none } }
    (s.pow.state = 1 ∨ s.pow.state = 2 →
      ∃ r, exec (.snapshotTake at_) s = .next r ∧ r.dict.shadows = u.copyCounters
        ∧ r.reg 0xB05002 = (s.reg 0xB05002 + 1) % 2 ^ 32 ∧ r.reg 0xB05003 = 0 ∧ r.reg 0xB05004 = t ∧ r.health.snapshot = none
        ∧ r.swarm = s.swarm ∧ r.num = s.num)
    ∧ (s.pow.state ≠ 1 → s.pow.state ≠ 2 → exec (.snapshotTake at_) s = .next (u.setReg 0xB05003 2)))
  ∧ (∀ (s : State) (at_ : Nat), s.running = true → s.health.requestedAt + 1000000 ≤ max s.now at_ →
    let v := s.at_ at_
    let u := ({ v with health := { v.health with requestedAt := v.now } } : State).reparent
    (u.health.parent = none → exec (.delayRequestTimer at_) s = .next u)
    ∧ ∀ l p, u.health.parent = some l → (u.link l).partner = some p →
      exec (.delayRequestTimer at_) s = .next (u.sendTime l p.node (u.timePayload 1 [u.now * 4 % 2 ^ 64])))
  ∧ (∀ (s : State) (t2 t3 : Nat) (d : Delivered), s.pow.powered = true →
    s.rxFind 0x85 0 (fun h x => h.kind == 0x41 && numAt x.payload 0 1 == 1) = some d → d.ingress < 0x40 →
    let u := s.consume d
    let u : State := { u with health := { u.health with depths := SMap.put 0xFF u.health.depths d.ingress (numAt d.frame.payload 1 1) } }
    exec (.delayRequestFrame t2 t3) s = .next (u.sendTime d.ingress (Hdr.of d.frame.header).srcNode
      (u.timePayload 2 [numAt d.frame.payload 8 8, t2, t3])))
  ∧ (∀ (s : State) (t4 : Nat) (d : Delivered), s.pow.powered = true →
    s.rxFind 0x85 0 (fun h x => h.kind == 0x41 && numAt x.payload 0 1 == 2) = some d → d.ingress < 0x40 →
    s.health.parent = some d.ingress → s.isRoot = false →
    let p := d.frame.payload
    let depth := numAt p 1 1
    let off : Int := (((numAt p 16 8 : Int) - numAt p 8 8) - ((t4 : Int) - numAt p 24 8)) / 2
    let dly : Int := (((numAt p 16 8 : Int) - numAt p 8 8) + ((t4 : Int) - numAt p 24 8)) / 2
    ∃ r, exec (.delayResponseFrame t4) s = .next r ∧ r.health.offset = off ∧ r.health.delay = dly.toNat
      ∧ r.now = (if 4000 < off then s.now + off.toNat / 4 else s.now)
      ∧ r.health.hold = (if 4000 < off then 0 else if off < -40000 then (-off).toNat / 4 else s.health.hold)
      ∧ r.syncAge = s.syncAge
      ∧ r.health.syncState = (if depth = 0xFF ∨ 4000 < off ∨ off < -40000 then 1 else 2)
      ∧ r.health.depth = (if depth = 0xFF then 0xFF else depth + 1) ∧ r.swarm = s.swarm)
  ∧ (∀ (s : State) (at_ a : Nat), s.pow.powered = true → s.isRoot = false → s.health.lostSince = some a → a + 10000000 ≤ max s.now at_ →
    exec (.parentLossTimeout at_) s = .next ((s.at_ at_).syncTo 0 0xFF))
  ∧ ∀ (s : State) (at_ a : Nat), s.pow.powered = true → s.health.vectorAt = some a → s.health.vectorWaiting = true → a + 10000 ≤ max s.now at_ →
    exec (.eventVectorDeferred at_) s = .next (s.at_ at_).eventMessage
end

