-- ==== Sys2Proof/Laws/Maps.lean ====
section
/-! SUPPORT. Reading back a sparse map after a write, and the operations that keep its canonical form. -/

namespace Sys2Proof.Machine

/-- A write of key `k` reads back as its value. -/
theorem SMap.get_ins_same {V : Type} (d v : V) (m : SMap V) (k : Nat) : SMap.get d (SMap.ins v m k) k = v := by
  induction m with
  | nil => simp [SMap.ins, SMap.get]
  | cons e m ih =>
    obtain ⟨k', v'⟩ := e
    simp only [SMap.ins]
    split
    · simp [SMap.get]
    · split
      · simp [SMap.get]
      · simp only [SMap.get]; rw [if_neg ‹_›]; exact ih

/-- A write of key `k` leaves every other key. -/
theorem SMap.get_ins_other {V : Type} (d v : V) (m : SMap V) {k j : Nat} (h : j ≠ k) :
    SMap.get d (SMap.ins v m k) j = SMap.get d m j := by
  induction m with
  | nil => simp [SMap.ins, SMap.get, h]
  | cons e m ih =>
    obtain ⟨k', v'⟩ := e
    simp only [SMap.ins]
    split
    · next hk => subst hk; simp [SMap.get, h]
    · split
      · simp [SMap.get, h]
      · simp [SMap.get, ih]

theorem SMap.del_cons {V : Type} (k' : Nat) (v : V) (m : SMap V) (k : Nat) :
    SMap.del ((k', v) :: m) k = if k' = k then SMap.del m k else (k', v) :: SMap.del m k := by
  unfold SMap.del
  rw [List.filter_cons]
  by_cases h : k' = k <;> simp [h]

theorem SMap.get_del_same {V : Type} (d : V) (m : SMap V) (k : Nat) : SMap.get d (SMap.del m k) k = d := by
  induction m with
  | nil => rfl
  | cons e m ih =>
    rw [SMap.del_cons]
    split
    · exact ih
    · next h => simp only [SMap.get]; rw [if_neg fun e => h e.symm]; exact ih

theorem SMap.get_del_other {V : Type} (d : V) (m : SMap V) {k j : Nat} (h : j ≠ k) :
    SMap.get d (SMap.del m k) j = SMap.get d m j := by
  induction m with
  | nil => rfl
  | cons e m ih =>
    rw [SMap.del_cons]
    split
    · next hk => simp only [SMap.get]; rw [ih, if_neg (by omega)]
    · simp only [SMap.get]; rw [ih]

/-- A write of key `k` reads back as its value. -/
@[simp] theorem SMap.get_put_same {V : Type} [DecidableEq V] (d v : V) (m : SMap V) (k : Nat) :
    SMap.get d (SMap.put d m k v) k = v := by
  unfold SMap.put
  split
  · next h => rw [SMap.get_del_same, h]
  · exact SMap.get_ins_same d v m k

/-- A write of key `k` leaves every other key. -/
theorem SMap.get_put_other {V : Type} [DecidableEq V] (d v : V) (m : SMap V) {k j : Nat} (h : j ≠ k) :
    SMap.get d (SMap.put d m k v) j = SMap.get d m j := by
  unfold SMap.put
  split
  · exact SMap.get_del_other d m h
  · exact SMap.get_ins_other d v m h

/-! ## The canonical form -/

theorem SMap.above_mono {V : Type} [DecidableEq V] {d : V} {lo hi : Nat} {m : SMap V} (h : SMap.above d hi m = true)
    (hl : lo ≤ hi) : SMap.above d lo m = true := by
  cases m with
  | nil => rfl
  | cons e m =>
    obtain ⟨k, v⟩ := e
    simp only [SMap.above, Bool.and_eq_true, decide_eq_true_eq] at h ⊢
    exact ⟨⟨by omega, h.1.2⟩, h.2⟩

theorem SMap.above_filter {V : Type} [DecidableEq V] {d : V} (p : Nat × V → Bool) {lo : Nat} {m : SMap V}
    (h : SMap.above d lo m = true) : SMap.above d lo (m.filter p) = true := by
  induction m generalizing lo with
  | nil => rfl
  | cons e m ih =>
    obtain ⟨k, v⟩ := e
    simp only [SMap.above, Bool.and_eq_true, decide_eq_true_eq] at h
    by_cases hp : p (k, v) = true
    · simp only [List.filter, hp, SMap.above, Bool.and_eq_true, decide_eq_true_eq]
      exact ⟨h.1, ih h.2⟩
    · simp only [List.filter, hp]
      exact SMap.above_mono (ih h.2) (by omega)

theorem SMap.above_ins {V : Type} [DecidableEq V] {d v : V} (hv : v ≠ d) {lo k : Nat} (hk : lo < k) {m : SMap V}
    (h : SMap.above d lo m = true) : SMap.above d lo (SMap.ins v m k) = true := by
  induction m generalizing lo with
  | nil => simp [SMap.ins, SMap.above, hk, hv]
  | cons e m ih =>
    obtain ⟨k', v'⟩ := e
    simp only [SMap.above, Bool.and_eq_true, decide_eq_true_eq] at h
    simp only [SMap.ins]
    split
    · next he => subst he; simp [SMap.above, hv, h.1.1, h.2]
    · split
      · next hlt => simp [SMap.above, hv, hk, hlt, h.1.2, h.2]
      · next hne hnl =>
        simp only [SMap.above, Bool.and_eq_true, decide_eq_true_eq]
        exact ⟨h.1, ih (by omega) h.2⟩

/-- A filtered map keeps its canonical form. -/
theorem SMap.wf_filter {V : Type} [DecidableEq V] {d : V} (p : Nat × V → Bool) {m : SMap V} (h : SMap.wf d m = true) :
    SMap.wf d (m.filter p) = true := by
  have key : ∀ (lo : Nat) (m : SMap V), SMap.above d lo m = true → SMap.wf d m = true := by
    intro lo m hm
    cases m with
    | nil => rfl
    | cons e m =>
      obtain ⟨k, v⟩ := e
      simp only [SMap.above, SMap.wf, Bool.and_eq_true, decide_eq_true_eq] at hm ⊢
      exact ⟨hm.1.2, hm.2⟩
  cases m with
  | nil => rfl
  | cons e m =>
    obtain ⟨k, v⟩ := e
    simp only [SMap.wf, Bool.and_eq_true, decide_eq_true_eq] at h
    by_cases hp : p (k, v) = true
    · simp only [List.filter, hp, SMap.wf, Bool.and_eq_true, decide_eq_true_eq]
      exact ⟨h.1, SMap.above_filter p h.2⟩
    · simp only [List.filter, hp]
      exact key k _ (SMap.above_filter p h.2)

theorem SMap.wf_del {V : Type} [DecidableEq V] {d : V} {m : SMap V} (h : SMap.wf d m = true) (k : Nat) :
    SMap.wf d (SMap.del m k) = true := SMap.wf_filter _ h

theorem SMap.wf_clearRange {V : Type} [DecidableEq V] {d : V} {m : SMap V} (h : SMap.wf d m = true) (lo hi : Nat) :
    SMap.wf d (SMap.clearRange m lo hi) = true := SMap.wf_filter _ h

theorem SMap.wf_ins {V : Type} [DecidableEq V] {d v : V} (hv : v ≠ d) {m : SMap V} (h : SMap.wf d m = true) (k : Nat) :
    SMap.wf d (SMap.ins v m k) = true := by
  cases m with
  | nil => simp [SMap.ins, SMap.wf, SMap.above, hv]
  | cons e m =>
    obtain ⟨k', v'⟩ := e
    simp only [SMap.wf, Bool.and_eq_true, decide_eq_true_eq] at h
    simp only [SMap.ins]
    split
    · next he => subst he; simp [SMap.wf, hv, h.2]
    · split
      · next hlt => simp [SMap.wf, SMap.above, hv, hlt, h.1, h.2]
      · next hne hnl =>
        simp only [SMap.wf, Bool.and_eq_true, decide_eq_true_eq]
        exact ⟨h.1, SMap.above_ins hv (by omega) h.2⟩

/-- Writing one key keeps the canonical form. -/
theorem SMap.wf_put {V : Type} [DecidableEq V] {d : V} {m : SMap V} (h : SMap.wf d m = true) (k : Nat) (v : V) :
    SMap.wf d (SMap.put d m k v) = true := by
  unfold SMap.put
  split
  · exact SMap.wf_del h k
  · next hv => exact SMap.wf_ins hv h k

/-- Maps in canonical form that read alike are equal: equal contents are equal data. -/
theorem SMap.get_below {V : Type} [DecidableEq V] {d : V} {lo : Nat} {m : SMap V} (h : SMap.above d lo m = true) {k : Nat}
    (hk : k ≤ lo) : SMap.get d m k = d := by
  induction m generalizing lo with
  | nil => rfl
  | cons e m ih =>
    obtain ⟨k', v'⟩ := e
    simp only [SMap.above, Bool.and_eq_true, decide_eq_true_eq] at h
    simp only [SMap.get]
    rw [if_neg (by omega)]
    exact ih h.2 (by omega)

end Sys2Proof.Machine
end

