-- ==== Sys2Proof/Laws/State.lean ====
section
/-! SUPPORT. The fields that each update of the state leaves as they are, and what it sets reads back as. -/

namespace Sys2Proof.Machine

open Sys2Proof

/-! ## setReg -/

@[simp] theorem State.setReg_pending (s : State) (k v u : Nat) : (s.setReg k v u).pending = s.pending := rfl
@[simp] theorem State.setReg_now (s : State) (k v u : Nat) : (s.setReg k v u).now = s.now := rfl
@[simp] theorem State.setReg_freeCtr (s : State) (k v u : Nat) : (s.setReg k v u).freeCtr = s.freeCtr := rfl
@[simp] theorem State.setReg_grade (s : State) (k v u : Nat) : (s.setReg k v u).grade = s.grade := rfl
@[simp] theorem State.setReg_swarm (s : State) (k v u : Nat) : (s.setReg k v u).swarm = s.swarm := rfl
@[simp] theorem State.setReg_mem (s : State) (k v u : Nat) : (s.setReg k v u).mem = s.mem := rfl
@[simp] theorem State.setReg_num (s : State) (k v u : Nat) : (s.setReg k v u).num = s.num := rfl
@[simp] theorem State.setReg_net (s : State) (k v u : Nat) : (s.setReg k v u).net = s.net := rfl
@[simp] theorem State.setReg_eng (s : State) (k v u : Nat) : (s.setReg k v u).eng = s.eng := rfl
@[simp] theorem State.setReg_coll (s : State) (k v u : Nat) : (s.setReg k v u).coll = s.coll := rfl
@[simp] theorem State.setReg_opt (s : State) (k v u : Nat) : (s.setReg k v u).opt = s.opt := rfl
@[simp] theorem State.setReg_host (s : State) (k v u : Nat) : (s.setReg k v u).host = s.host := rfl
@[simp] theorem State.setReg_isl (s : State) (k v u : Nat) : (s.setReg k v u).isl = s.isl := rfl
@[simp] theorem State.setReg_pow (s : State) (k v u : Nat) : (s.setReg k v u).pow = s.pow := rfl
@[simp] theorem State.setReg_trust (s : State) (k v u : Nat) : (s.setReg k v u).trust = s.trust := rfl
@[simp] theorem State.setReg_health (s : State) (k v u : Nat) : (s.setReg k v u).health = s.health := rfl

/-! ## setByte -/

@[simp] theorem State.setByte_pending (s : State) (a : Nat) (b : Byte) : (s.setByte a b).pending = s.pending := rfl
@[simp] theorem State.setByte_now (s : State) (a : Nat) (b : Byte) : (s.setByte a b).now = s.now := rfl
@[simp] theorem State.setByte_freeCtr (s : State) (a : Nat) (b : Byte) : (s.setByte a b).freeCtr = s.freeCtr := rfl
@[simp] theorem State.setByte_grade (s : State) (a : Nat) (b : Byte) : (s.setByte a b).grade = s.grade := rfl
@[simp] theorem State.setByte_swarm (s : State) (a : Nat) (b : Byte) : (s.setByte a b).swarm = s.swarm := rfl
@[simp] theorem State.setByte_num (s : State) (a : Nat) (b : Byte) : (s.setByte a b).num = s.num := rfl
@[simp] theorem State.setByte_net (s : State) (a : Nat) (b : Byte) : (s.setByte a b).net = s.net := rfl
@[simp] theorem State.setByte_eng (s : State) (a : Nat) (b : Byte) : (s.setByte a b).eng = s.eng := rfl
@[simp] theorem State.setByte_coll (s : State) (a : Nat) (b : Byte) : (s.setByte a b).coll = s.coll := rfl
@[simp] theorem State.setByte_opt (s : State) (a : Nat) (b : Byte) : (s.setByte a b).opt = s.opt := rfl
@[simp] theorem State.setByte_host (s : State) (a : Nat) (b : Byte) : (s.setByte a b).host = s.host := rfl
@[simp] theorem State.setByte_dict (s : State) (a : Nat) (b : Byte) : (s.setByte a b).dict = s.dict := rfl
@[simp] theorem State.setByte_isl (s : State) (a : Nat) (b : Byte) : (s.setByte a b).isl = s.isl := rfl
@[simp] theorem State.setByte_pow (s : State) (a : Nat) (b : Byte) : (s.setByte a b).pow = s.pow := rfl
@[simp] theorem State.setByte_trust (s : State) (a : Nat) (b : Byte) : (s.setByte a b).trust = s.trust := rfl
@[simp] theorem State.setByte_health (s : State) (a : Nat) (b : Byte) : (s.setByte a b).health = s.health := rfl

/-! ## setPadByte -/

@[simp] theorem State.setPadByte_pending (s : State) (c o : Nat) (b : Byte) : (s.setPadByte c o b).pending = s.pending := rfl
@[simp] theorem State.setPadByte_now (s : State) (c o : Nat) (b : Byte) : (s.setPadByte c o b).now = s.now := rfl
@[simp] theorem State.setPadByte_freeCtr (s : State) (c o : Nat) (b : Byte) : (s.setPadByte c o b).freeCtr = s.freeCtr := rfl
@[simp] theorem State.setPadByte_grade (s : State) (c o : Nat) (b : Byte) : (s.setPadByte c o b).grade = s.grade := rfl
@[simp] theorem State.setPadByte_mem (s : State) (c o : Nat) (b : Byte) : (s.setPadByte c o b).mem = s.mem := rfl
@[simp] theorem State.setPadByte_num (s : State) (c o : Nat) (b : Byte) : (s.setPadByte c o b).num = s.num := rfl
@[simp] theorem State.setPadByte_net (s : State) (c o : Nat) (b : Byte) : (s.setPadByte c o b).net = s.net := rfl
@[simp] theorem State.setPadByte_eng (s : State) (c o : Nat) (b : Byte) : (s.setPadByte c o b).eng = s.eng := rfl
@[simp] theorem State.setPadByte_coll (s : State) (c o : Nat) (b : Byte) : (s.setPadByte c o b).coll = s.coll := rfl
@[simp] theorem State.setPadByte_opt (s : State) (c o : Nat) (b : Byte) : (s.setPadByte c o b).opt = s.opt := rfl
@[simp] theorem State.setPadByte_host (s : State) (c o : Nat) (b : Byte) : (s.setPadByte c o b).host = s.host := rfl
@[simp] theorem State.setPadByte_dict (s : State) (c o : Nat) (b : Byte) : (s.setPadByte c o b).dict = s.dict := rfl
@[simp] theorem State.setPadByte_isl (s : State) (c o : Nat) (b : Byte) : (s.setPadByte c o b).isl = s.isl := rfl
@[simp] theorem State.setPadByte_pow (s : State) (c o : Nat) (b : Byte) : (s.setPadByte c o b).pow = s.pow := rfl
@[simp] theorem State.setPadByte_trust (s : State) (c o : Nat) (b : Byte) : (s.setPadByte c o b).trust = s.trust := rfl
@[simp] theorem State.setPadByte_health (s : State) (c o : Nat) (b : Byte) : (s.setPadByte c o b).health = s.health := rfl

/-! ## setSlot -/

@[simp] theorem State.setSlot_pending (s : State) (i : SlotId) (t : Slot) : (s.setSlot i t).pending = s.pending := rfl
@[simp] theorem State.setSlot_now (s : State) (i : SlotId) (t : Slot) : (s.setSlot i t).now = s.now := rfl
@[simp] theorem State.setSlot_freeCtr (s : State) (i : SlotId) (t : Slot) : (s.setSlot i t).freeCtr = s.freeCtr := rfl
@[simp] theorem State.setSlot_grade (s : State) (i : SlotId) (t : Slot) : (s.setSlot i t).grade = s.grade := rfl
@[simp] theorem State.setSlot_mem (s : State) (i : SlotId) (t : Slot) : (s.setSlot i t).mem = s.mem := rfl
@[simp] theorem State.setSlot_num (s : State) (i : SlotId) (t : Slot) : (s.setSlot i t).num = s.num := rfl
@[simp] theorem State.setSlot_net (s : State) (i : SlotId) (t : Slot) : (s.setSlot i t).net = s.net := rfl
@[simp] theorem State.setSlot_eng (s : State) (i : SlotId) (t : Slot) : (s.setSlot i t).eng = s.eng := rfl
@[simp] theorem State.setSlot_coll (s : State) (i : SlotId) (t : Slot) : (s.setSlot i t).coll = s.coll := rfl
@[simp] theorem State.setSlot_opt (s : State) (i : SlotId) (t : Slot) : (s.setSlot i t).opt = s.opt := rfl
@[simp] theorem State.setSlot_host (s : State) (i : SlotId) (t : Slot) : (s.setSlot i t).host = s.host := rfl
@[simp] theorem State.setSlot_dict (s : State) (i : SlotId) (t : Slot) : (s.setSlot i t).dict = s.dict := rfl
@[simp] theorem State.setSlot_isl (s : State) (i : SlotId) (t : Slot) : (s.setSlot i t).isl = s.isl := rfl
@[simp] theorem State.setSlot_pow (s : State) (i : SlotId) (t : Slot) : (s.setSlot i t).pow = s.pow := rfl
@[simp] theorem State.setSlot_trust (s : State) (i : SlotId) (t : Slot) : (s.setSlot i t).trust = s.trust := rfl
@[simp] theorem State.setSlot_health (s : State) (i : SlotId) (t : Slot) : (s.setSlot i t).health = s.health := rfl

/-! ## setComb -/

@[simp] theorem State.setComb_pending (s : State) (n : Nat) (c : Comb) : (s.setComb n c).pending = s.pending := rfl
@[simp] theorem State.setComb_now (s : State) (n : Nat) (c : Comb) : (s.setComb n c).now = s.now := rfl
@[simp] theorem State.setComb_freeCtr (s : State) (n : Nat) (c : Comb) : (s.setComb n c).freeCtr = s.freeCtr := rfl
@[simp] theorem State.setComb_grade (s : State) (n : Nat) (c : Comb) : (s.setComb n c).grade = s.grade := rfl
@[simp] theorem State.setComb_mem (s : State) (n : Nat) (c : Comb) : (s.setComb n c).mem = s.mem := rfl
@[simp] theorem State.setComb_num (s : State) (n : Nat) (c : Comb) : (s.setComb n c).num = s.num := rfl
@[simp] theorem State.setComb_net (s : State) (n : Nat) (c : Comb) : (s.setComb n c).net = s.net := rfl
@[simp] theorem State.setComb_eng (s : State) (n : Nat) (c : Comb) : (s.setComb n c).eng = s.eng := rfl
@[simp] theorem State.setComb_coll (s : State) (n : Nat) (c : Comb) : (s.setComb n c).coll = s.coll := rfl
@[simp] theorem State.setComb_opt (s : State) (n : Nat) (c : Comb) : (s.setComb n c).opt = s.opt := rfl
@[simp] theorem State.setComb_host (s : State) (n : Nat) (c : Comb) : (s.setComb n c).host = s.host := rfl
@[simp] theorem State.setComb_dict (s : State) (n : Nat) (c : Comb) : (s.setComb n c).dict = s.dict := rfl
@[simp] theorem State.setComb_isl (s : State) (n : Nat) (c : Comb) : (s.setComb n c).isl = s.isl := rfl
@[simp] theorem State.setComb_pow (s : State) (n : Nat) (c : Comb) : (s.setComb n c).pow = s.pow := rfl
@[simp] theorem State.setComb_trust (s : State) (n : Nat) (c : Comb) : (s.setComb n c).trust = s.trust := rfl
@[simp] theorem State.setComb_health (s : State) (n : Nat) (c : Comb) : (s.setComb n c).health = s.health := rfl

/-! ## setPool -/

@[simp] theorem State.setPool_pending (s : State) (p : Nat) (q : Pool) : (s.setPool p q).pending = s.pending := rfl
@[simp] theorem State.setPool_now (s : State) (p : Nat) (q : Pool) : (s.setPool p q).now = s.now := rfl
@[simp] theorem State.setPool_freeCtr (s : State) (p : Nat) (q : Pool) : (s.setPool p q).freeCtr = s.freeCtr := rfl
@[simp] theorem State.setPool_grade (s : State) (p : Nat) (q : Pool) : (s.setPool p q).grade = s.grade := rfl
@[simp] theorem State.setPool_swarm (s : State) (p : Nat) (q : Pool) : (s.setPool p q).swarm = s.swarm := rfl
@[simp] theorem State.setPool_num (s : State) (p : Nat) (q : Pool) : (s.setPool p q).num = s.num := rfl
@[simp] theorem State.setPool_net (s : State) (p : Nat) (q : Pool) : (s.setPool p q).net = s.net := rfl
@[simp] theorem State.setPool_eng (s : State) (p : Nat) (q : Pool) : (s.setPool p q).eng = s.eng := rfl
@[simp] theorem State.setPool_coll (s : State) (p : Nat) (q : Pool) : (s.setPool p q).coll = s.coll := rfl
@[simp] theorem State.setPool_opt (s : State) (p : Nat) (q : Pool) : (s.setPool p q).opt = s.opt := rfl
@[simp] theorem State.setPool_host (s : State) (p : Nat) (q : Pool) : (s.setPool p q).host = s.host := rfl
@[simp] theorem State.setPool_dict (s : State) (p : Nat) (q : Pool) : (s.setPool p q).dict = s.dict := rfl
@[simp] theorem State.setPool_isl (s : State) (p : Nat) (q : Pool) : (s.setPool p q).isl = s.isl := rfl
@[simp] theorem State.setPool_pow (s : State) (p : Nat) (q : Pool) : (s.setPool p q).pow = s.pow := rfl
@[simp] theorem State.setPool_trust (s : State) (p : Nat) (q : Pool) : (s.setPool p q).trust = s.trust := rfl
@[simp] theorem State.setPool_health (s : State) (p : Nat) (q : Pool) : (s.setPool p q).health = s.health := rfl

/-! ## setLink -/

@[simp] theorem State.setLink_pending (s : State) (l : Nat) (k : Link) : (s.setLink l k).pending = s.pending := rfl
@[simp] theorem State.setLink_now (s : State) (l : Nat) (k : Link) : (s.setLink l k).now = s.now := rfl
@[simp] theorem State.setLink_freeCtr (s : State) (l : Nat) (k : Link) : (s.setLink l k).freeCtr = s.freeCtr := rfl
@[simp] theorem State.setLink_grade (s : State) (l : Nat) (k : Link) : (s.setLink l k).grade = s.grade := rfl
@[simp] theorem State.setLink_swarm (s : State) (l : Nat) (k : Link) : (s.setLink l k).swarm = s.swarm := rfl
@[simp] theorem State.setLink_mem (s : State) (l : Nat) (k : Link) : (s.setLink l k).mem = s.mem := rfl
@[simp] theorem State.setLink_num (s : State) (l : Nat) (k : Link) : (s.setLink l k).num = s.num := rfl
@[simp] theorem State.setLink_net (s : State) (l : Nat) (k : Link) : (s.setLink l k).net = s.net := rfl
@[simp] theorem State.setLink_eng (s : State) (l : Nat) (k : Link) : (s.setLink l k).eng = s.eng := rfl
@[simp] theorem State.setLink_coll (s : State) (l : Nat) (k : Link) : (s.setLink l k).coll = s.coll := rfl
@[simp] theorem State.setLink_host (s : State) (l : Nat) (k : Link) : (s.setLink l k).host = s.host := rfl
@[simp] theorem State.setLink_dict (s : State) (l : Nat) (k : Link) : (s.setLink l k).dict = s.dict := rfl
@[simp] theorem State.setLink_isl (s : State) (l : Nat) (k : Link) : (s.setLink l k).isl = s.isl := rfl
@[simp] theorem State.setLink_pow (s : State) (l : Nat) (k : Link) : (s.setLink l k).pow = s.pow := rfl
@[simp] theorem State.setLink_trust (s : State) (l : Nat) (k : Link) : (s.setLink l k).trust = s.trust := rfl
@[simp] theorem State.setLink_health (s : State) (l : Nat) (k : Link) : (s.setLink l k).health = s.health := rfl

/-! ## tlp -/

@[simp] theorem State.tlp_pending (s : State) : (s.tlp).pending = s.pending := rfl
@[simp] theorem State.tlp_now (s : State) : (s.tlp).now = s.now := rfl
@[simp] theorem State.tlp_freeCtr (s : State) : (s.tlp).freeCtr = s.freeCtr := rfl
@[simp] theorem State.tlp_grade (s : State) : (s.tlp).grade = s.grade := rfl
@[simp] theorem State.tlp_swarm (s : State) : (s.tlp).swarm = s.swarm := rfl
@[simp] theorem State.tlp_mem (s : State) : (s.tlp).mem = s.mem := rfl
@[simp] theorem State.tlp_num (s : State) : (s.tlp).num = s.num := rfl
@[simp] theorem State.tlp_net (s : State) : (s.tlp).net = s.net := rfl
@[simp] theorem State.tlp_eng (s : State) : (s.tlp).eng = s.eng := rfl
@[simp] theorem State.tlp_coll (s : State) : (s.tlp).coll = s.coll := rfl
@[simp] theorem State.tlp_opt (s : State) : (s.tlp).opt = s.opt := rfl
@[simp] theorem State.tlp_dict (s : State) : (s.tlp).dict = s.dict := rfl
@[simp] theorem State.tlp_isl (s : State) : (s.tlp).isl = s.isl := rfl
@[simp] theorem State.tlp_pow (s : State) : (s.tlp).pow = s.pow := rfl
@[simp] theorem State.tlp_trust (s : State) : (s.tlp).trust = s.trust := rfl
@[simp] theorem State.tlp_health (s : State) : (s.tlp).health = s.health := rfl

/-! ## aer -/

@[simp] theorem State.aer_pending (s : State) (r : AerReport) : (s.aer r).pending = s.pending := rfl
@[simp] theorem State.aer_now (s : State) (r : AerReport) : (s.aer r).now = s.now := rfl
@[simp] theorem State.aer_freeCtr (s : State) (r : AerReport) : (s.aer r).freeCtr = s.freeCtr := rfl
@[simp] theorem State.aer_grade (s : State) (r : AerReport) : (s.aer r).grade = s.grade := rfl
@[simp] theorem State.aer_swarm (s : State) (r : AerReport) : (s.aer r).swarm = s.swarm := rfl
@[simp] theorem State.aer_mem (s : State) (r : AerReport) : (s.aer r).mem = s.mem := rfl
@[simp] theorem State.aer_num (s : State) (r : AerReport) : (s.aer r).num = s.num := rfl
@[simp] theorem State.aer_net (s : State) (r : AerReport) : (s.aer r).net = s.net := rfl
@[simp] theorem State.aer_eng (s : State) (r : AerReport) : (s.aer r).eng = s.eng := rfl
@[simp] theorem State.aer_coll (s : State) (r : AerReport) : (s.aer r).coll = s.coll := rfl
@[simp] theorem State.aer_opt (s : State) (r : AerReport) : (s.aer r).opt = s.opt := rfl
@[simp] theorem State.aer_dict (s : State) (r : AerReport) : (s.aer r).dict = s.dict := rfl
@[simp] theorem State.aer_isl (s : State) (r : AerReport) : (s.aer r).isl = s.isl := rfl
@[simp] theorem State.aer_pow (s : State) (r : AerReport) : (s.aer r).pow = s.pow := rfl
@[simp] theorem State.aer_trust (s : State) (r : AerReport) : (s.aer r).trust = s.trust := rfl
@[simp] theorem State.aer_health (s : State) (r : AerReport) : (s.aer r).health = s.health := rfl

/-! ## bump -/

@[simp] theorem State.bump_pending (s : State) (k n u : Nat) : (s.bump k n u).pending = s.pending := rfl
@[simp] theorem State.bump_now (s : State) (k n u : Nat) : (s.bump k n u).now = s.now := rfl
@[simp] theorem State.bump_freeCtr (s : State) (k n u : Nat) : (s.bump k n u).freeCtr = s.freeCtr := rfl
@[simp] theorem State.bump_grade (s : State) (k n u : Nat) : (s.bump k n u).grade = s.grade := rfl
@[simp] theorem State.bump_swarm (s : State) (k n u : Nat) : (s.bump k n u).swarm = s.swarm := rfl
@[simp] theorem State.bump_mem (s : State) (k n u : Nat) : (s.bump k n u).mem = s.mem := rfl
@[simp] theorem State.bump_num (s : State) (k n u : Nat) : (s.bump k n u).num = s.num := rfl
@[simp] theorem State.bump_net (s : State) (k n u : Nat) : (s.bump k n u).net = s.net := rfl
@[simp] theorem State.bump_eng (s : State) (k n u : Nat) : (s.bump k n u).eng = s.eng := rfl
@[simp] theorem State.bump_coll (s : State) (k n u : Nat) : (s.bump k n u).coll = s.coll := rfl
@[simp] theorem State.bump_opt (s : State) (k n u : Nat) : (s.bump k n u).opt = s.opt := rfl
@[simp] theorem State.bump_host (s : State) (k n u : Nat) : (s.bump k n u).host = s.host := rfl
@[simp] theorem State.bump_isl (s : State) (k n u : Nat) : (s.bump k n u).isl = s.isl := rfl
@[simp] theorem State.bump_pow (s : State) (k n u : Nat) : (s.bump k n u).pow = s.pow := rfl
@[simp] theorem State.bump_trust (s : State) (k n u : Nat) : (s.bump k n u).trust = s.trust := rfl
@[simp] theorem State.bump_health (s : State) (k n u : Nat) : (s.bump k n u).health = s.health := rfl

/-! ## bump32 -/

@[simp] theorem State.bump32_pending (s : State) (k n : Nat) : (s.bump32 k n).pending = s.pending := rfl
@[simp] theorem State.bump32_now (s : State) (k n : Nat) : (s.bump32 k n).now = s.now := rfl
@[simp] theorem State.bump32_freeCtr (s : State) (k n : Nat) : (s.bump32 k n).freeCtr = s.freeCtr := rfl
@[simp] theorem State.bump32_grade (s : State) (k n : Nat) : (s.bump32 k n).grade = s.grade := rfl
@[simp] theorem State.bump32_swarm (s : State) (k n : Nat) : (s.bump32 k n).swarm = s.swarm := rfl
@[simp] theorem State.bump32_mem (s : State) (k n : Nat) : (s.bump32 k n).mem = s.mem := rfl
@[simp] theorem State.bump32_num (s : State) (k n : Nat) : (s.bump32 k n).num = s.num := rfl
@[simp] theorem State.bump32_net (s : State) (k n : Nat) : (s.bump32 k n).net = s.net := rfl
@[simp] theorem State.bump32_eng (s : State) (k n : Nat) : (s.bump32 k n).eng = s.eng := rfl
@[simp] theorem State.bump32_coll (s : State) (k n : Nat) : (s.bump32 k n).coll = s.coll := rfl
@[simp] theorem State.bump32_opt (s : State) (k n : Nat) : (s.bump32 k n).opt = s.opt := rfl
@[simp] theorem State.bump32_host (s : State) (k n : Nat) : (s.bump32 k n).host = s.host := rfl
@[simp] theorem State.bump32_isl (s : State) (k n : Nat) : (s.bump32 k n).isl = s.isl := rfl
@[simp] theorem State.bump32_pow (s : State) (k n : Nat) : (s.bump32 k n).pow = s.pow := rfl
@[simp] theorem State.bump32_trust (s : State) (k n : Nat) : (s.bump32 k n).trust = s.trust := rfl
@[simp] theorem State.bump32_health (s : State) (k n : Nat) : (s.bump32 k n).health = s.health := rfl

/-! ## contained -/

@[simp] theorem State.contained_pending (s : State) : (s.contained).pending = s.pending := rfl
@[simp] theorem State.contained_now (s : State) : (s.contained).now = s.now := rfl
@[simp] theorem State.contained_freeCtr (s : State) : (s.contained).freeCtr = s.freeCtr := rfl
@[simp] theorem State.contained_grade (s : State) : (s.contained).grade = s.grade := rfl
@[simp] theorem State.contained_swarm (s : State) : (s.contained).swarm = s.swarm := rfl
@[simp] theorem State.contained_mem (s : State) : (s.contained).mem = s.mem := rfl
@[simp] theorem State.contained_num (s : State) : (s.contained).num = s.num := rfl
@[simp] theorem State.contained_net (s : State) : (s.contained).net = s.net := rfl
@[simp] theorem State.contained_eng (s : State) : (s.contained).eng = s.eng := rfl
@[simp] theorem State.contained_coll (s : State) : (s.contained).coll = s.coll := rfl
@[simp] theorem State.contained_opt (s : State) : (s.contained).opt = s.opt := rfl
@[simp] theorem State.contained_host (s : State) : (s.contained).host = s.host := rfl
@[simp] theorem State.contained_isl (s : State) : (s.contained).isl = s.isl := rfl
@[simp] theorem State.contained_pow (s : State) : (s.contained).pow = s.pow := rfl
@[simp] theorem State.contained_trust (s : State) : (s.contained).trust = s.trust := rfl
@[simp] theorem State.contained_health (s : State) : (s.contained).health = s.health := rfl

/-! ## at_ -/

@[simp] theorem State.at_pending (s : State) (t : Nat) : (s.at_ t).pending = s.pending := by unfold State.at_; split <;> rfl
@[simp] theorem State.at_freeCtr (s : State) (t : Nat) : (s.at_ t).freeCtr = s.freeCtr := by unfold State.at_; split <;> rfl
@[simp] theorem State.at_grade (s : State) (t : Nat) : (s.at_ t).grade = s.grade := by unfold State.at_; split <;> rfl
@[simp] theorem State.at_swarm (s : State) (t : Nat) : (s.at_ t).swarm = s.swarm := by unfold State.at_; split <;> rfl
@[simp] theorem State.at_mem (s : State) (t : Nat) : (s.at_ t).mem = s.mem := by unfold State.at_; split <;> rfl
@[simp] theorem State.at_num (s : State) (t : Nat) : (s.at_ t).num = s.num := by unfold State.at_; split <;> rfl
@[simp] theorem State.at_net (s : State) (t : Nat) : (s.at_ t).net = s.net := by unfold State.at_; split <;> rfl
@[simp] theorem State.at_eng (s : State) (t : Nat) : (s.at_ t).eng = s.eng := by unfold State.at_; split <;> rfl
@[simp] theorem State.at_coll (s : State) (t : Nat) : (s.at_ t).coll = s.coll := by unfold State.at_; split <;> rfl
@[simp] theorem State.at_opt (s : State) (t : Nat) : (s.at_ t).opt = s.opt := by unfold State.at_; split <;> rfl
@[simp] theorem State.at_host (s : State) (t : Nat) : (s.at_ t).host = s.host := by unfold State.at_; split <;> rfl
@[simp] theorem State.at_dict (s : State) (t : Nat) : (s.at_ t).dict = s.dict := by unfold State.at_; split <;> rfl
@[simp] theorem State.at_isl (s : State) (t : Nat) : (s.at_ t).isl = s.isl := by unfold State.at_; split <;> rfl
@[simp] theorem State.at_pow (s : State) (t : Nat) : (s.at_ t).pow = s.pow := by unfold State.at_; split <;> rfl

/-! ## mapLaunch -/

@[simp] theorem State.mapLaunch_pending (s : State) (id : Nat) (f : Launch → Launch) : (s.mapLaunch id f).pending = s.pending := rfl
@[simp] theorem State.mapLaunch_now (s : State) (id : Nat) (f : Launch → Launch) : (s.mapLaunch id f).now = s.now := rfl
@[simp] theorem State.mapLaunch_freeCtr (s : State) (id : Nat) (f : Launch → Launch) : (s.mapLaunch id f).freeCtr = s.freeCtr := rfl
@[simp] theorem State.mapLaunch_grade (s : State) (id : Nat) (f : Launch → Launch) : (s.mapLaunch id f).grade = s.grade := rfl
@[simp] theorem State.mapLaunch_mem (s : State) (id : Nat) (f : Launch → Launch) : (s.mapLaunch id f).mem = s.mem := rfl
@[simp] theorem State.mapLaunch_num (s : State) (id : Nat) (f : Launch → Launch) : (s.mapLaunch id f).num = s.num := rfl
@[simp] theorem State.mapLaunch_net (s : State) (id : Nat) (f : Launch → Launch) : (s.mapLaunch id f).net = s.net := rfl
@[simp] theorem State.mapLaunch_eng (s : State) (id : Nat) (f : Launch → Launch) : (s.mapLaunch id f).eng = s.eng := rfl
@[simp] theorem State.mapLaunch_coll (s : State) (id : Nat) (f : Launch → Launch) : (s.mapLaunch id f).coll = s.coll := rfl
@[simp] theorem State.mapLaunch_opt (s : State) (id : Nat) (f : Launch → Launch) : (s.mapLaunch id f).opt = s.opt := rfl
@[simp] theorem State.mapLaunch_host (s : State) (id : Nat) (f : Launch → Launch) : (s.mapLaunch id f).host = s.host := rfl
@[simp] theorem State.mapLaunch_dict (s : State) (id : Nat) (f : Launch → Launch) : (s.mapLaunch id f).dict = s.dict := rfl
@[simp] theorem State.mapLaunch_isl (s : State) (id : Nat) (f : Launch → Launch) : (s.mapLaunch id f).isl = s.isl := rfl
@[simp] theorem State.mapLaunch_pow (s : State) (id : Nat) (f : Launch → Launch) : (s.mapLaunch id f).pow = s.pow := rfl
@[simp] theorem State.mapLaunch_trust (s : State) (id : Nat) (f : Launch → Launch) : (s.mapLaunch id f).trust = s.trust := rfl
@[simp] theorem State.mapLaunch_health (s : State) (id : Nat) (f : Launch → Launch) : (s.mapLaunch id f).health = s.health := rfl

/-! ## losePad -/

@[simp] theorem State.losePad_pending (s : State) (c : Nat) : (s.losePad c).pending = s.pending := rfl
@[simp] theorem State.losePad_now (s : State) (c : Nat) : (s.losePad c).now = s.now := rfl
@[simp] theorem State.losePad_freeCtr (s : State) (c : Nat) : (s.losePad c).freeCtr = s.freeCtr := rfl
@[simp] theorem State.losePad_grade (s : State) (c : Nat) : (s.losePad c).grade = s.grade := rfl
@[simp] theorem State.losePad_mem (s : State) (c : Nat) : (s.losePad c).mem = s.mem := rfl
@[simp] theorem State.losePad_num (s : State) (c : Nat) : (s.losePad c).num = s.num := rfl
@[simp] theorem State.losePad_net (s : State) (c : Nat) : (s.losePad c).net = s.net := rfl
@[simp] theorem State.losePad_eng (s : State) (c : Nat) : (s.losePad c).eng = s.eng := rfl
@[simp] theorem State.losePad_coll (s : State) (c : Nat) : (s.losePad c).coll = s.coll := rfl
@[simp] theorem State.losePad_opt (s : State) (c : Nat) : (s.losePad c).opt = s.opt := rfl
@[simp] theorem State.losePad_host (s : State) (c : Nat) : (s.losePad c).host = s.host := rfl
@[simp] theorem State.losePad_dict (s : State) (c : Nat) : (s.losePad c).dict = s.dict := rfl
@[simp] theorem State.losePad_isl (s : State) (c : Nat) : (s.losePad c).isl = s.isl := rfl
@[simp] theorem State.losePad_pow (s : State) (c : Nat) : (s.losePad c).pow = s.pow := rfl
@[simp] theorem State.losePad_trust (s : State) (c : Nat) : (s.losePad c).trust = s.trust := rfl
@[simp] theorem State.losePad_health (s : State) (c : Nat) : (s.losePad c).health = s.health := rfl

/-! ## losePadsOf -/

@[simp] theorem State.losePadsOf_pending (s : State) (h : Nat) : (s.losePadsOf h).pending = s.pending := rfl
@[simp] theorem State.losePadsOf_now (s : State) (h : Nat) : (s.losePadsOf h).now = s.now := rfl
@[simp] theorem State.losePadsOf_freeCtr (s : State) (h : Nat) : (s.losePadsOf h).freeCtr = s.freeCtr := rfl
@[simp] theorem State.losePadsOf_grade (s : State) (h : Nat) : (s.losePadsOf h).grade = s.grade := rfl
@[simp] theorem State.losePadsOf_mem (s : State) (h : Nat) : (s.losePadsOf h).mem = s.mem := rfl
@[simp] theorem State.losePadsOf_num (s : State) (h : Nat) : (s.losePadsOf h).num = s.num := rfl
@[simp] theorem State.losePadsOf_net (s : State) (h : Nat) : (s.losePadsOf h).net = s.net := rfl
@[simp] theorem State.losePadsOf_eng (s : State) (h : Nat) : (s.losePadsOf h).eng = s.eng := rfl
@[simp] theorem State.losePadsOf_coll (s : State) (h : Nat) : (s.losePadsOf h).coll = s.coll := rfl
@[simp] theorem State.losePadsOf_opt (s : State) (h : Nat) : (s.losePadsOf h).opt = s.opt := rfl
@[simp] theorem State.losePadsOf_host (s : State) (h : Nat) : (s.losePadsOf h).host = s.host := rfl
@[simp] theorem State.losePadsOf_dict (s : State) (h : Nat) : (s.losePadsOf h).dict = s.dict := rfl
@[simp] theorem State.losePadsOf_isl (s : State) (h : Nat) : (s.losePadsOf h).isl = s.isl := rfl
@[simp] theorem State.losePadsOf_pow (s : State) (h : Nat) : (s.losePadsOf h).pow = s.pow := rfl
@[simp] theorem State.losePadsOf_trust (s : State) (h : Nat) : (s.losePadsOf h).trust = s.trust := rfl
@[simp] theorem State.losePadsOf_health (s : State) (h : Nat) : (s.losePadsOf h).health = s.health := rfl

/-! ## markBank -/

@[simp] theorem State.markBank_pending (s : State) (n : Nat) (b a : Bool) : (s.markBank n b a).pending = s.pending := rfl
@[simp] theorem State.markBank_now (s : State) (n : Nat) (b a : Bool) : (s.markBank n b a).now = s.now := rfl
@[simp] theorem State.markBank_freeCtr (s : State) (n : Nat) (b a : Bool) : (s.markBank n b a).freeCtr = s.freeCtr := rfl
@[simp] theorem State.markBank_grade (s : State) (n : Nat) (b a : Bool) : (s.markBank n b a).grade = s.grade := rfl
@[simp] theorem State.markBank_swarm (s : State) (n : Nat) (b a : Bool) : (s.markBank n b a).swarm = s.swarm := rfl
@[simp] theorem State.markBank_mem (s : State) (n : Nat) (b a : Bool) : (s.markBank n b a).mem = s.mem := rfl
@[simp] theorem State.markBank_num (s : State) (n : Nat) (b a : Bool) : (s.markBank n b a).num = s.num := rfl
@[simp] theorem State.markBank_net (s : State) (n : Nat) (b a : Bool) : (s.markBank n b a).net = s.net := rfl
@[simp] theorem State.markBank_eng (s : State) (n : Nat) (b a : Bool) : (s.markBank n b a).eng = s.eng := rfl
@[simp] theorem State.markBank_coll (s : State) (n : Nat) (b a : Bool) : (s.markBank n b a).coll = s.coll := rfl
@[simp] theorem State.markBank_opt (s : State) (n : Nat) (b a : Bool) : (s.markBank n b a).opt = s.opt := rfl
@[simp] theorem State.markBank_host (s : State) (n : Nat) (b a : Bool) : (s.markBank n b a).host = s.host := rfl
@[simp] theorem State.markBank_dict (s : State) (n : Nat) (b a : Bool) : (s.markBank n b a).dict = s.dict := rfl
@[simp] theorem State.markBank_isl (s : State) (n : Nat) (b a : Bool) : (s.markBank n b a).isl = s.isl := rfl
@[simp] theorem State.markBank_pow (s : State) (n : Nat) (b a : Bool) : (s.markBank n b a).pow = s.pow := rfl
@[simp] theorem State.markBank_health (s : State) (n : Nat) (b a : Bool) : (s.markBank n b a).health = s.health := rfl

/-! ## setPair -/

@[simp] theorem State.setPair_pending (s : State) (q : Nat) (p : QueuePair) : (s.setPair q p).pending = s.pending := rfl
@[simp] theorem State.setPair_now (s : State) (q : Nat) (p : QueuePair) : (s.setPair q p).now = s.now := rfl
@[simp] theorem State.setPair_freeCtr (s : State) (q : Nat) (p : QueuePair) : (s.setPair q p).freeCtr = s.freeCtr := rfl
@[simp] theorem State.setPair_grade (s : State) (q : Nat) (p : QueuePair) : (s.setPair q p).grade = s.grade := rfl
@[simp] theorem State.setPair_swarm (s : State) (q : Nat) (p : QueuePair) : (s.setPair q p).swarm = s.swarm := rfl
@[simp] theorem State.setPair_mem (s : State) (q : Nat) (p : QueuePair) : (s.setPair q p).mem = s.mem := rfl
@[simp] theorem State.setPair_num (s : State) (q : Nat) (p : QueuePair) : (s.setPair q p).num = s.num := rfl
@[simp] theorem State.setPair_net (s : State) (q : Nat) (p : QueuePair) : (s.setPair q p).net = s.net := rfl
@[simp] theorem State.setPair_eng (s : State) (q : Nat) (p : QueuePair) : (s.setPair q p).eng = s.eng := rfl
@[simp] theorem State.setPair_coll (s : State) (q : Nat) (p : QueuePair) : (s.setPair q p).coll = s.coll := rfl
@[simp] theorem State.setPair_opt (s : State) (q : Nat) (p : QueuePair) : (s.setPair q p).opt = s.opt := rfl
@[simp] theorem State.setPair_dict (s : State) (q : Nat) (p : QueuePair) : (s.setPair q p).dict = s.dict := rfl
@[simp] theorem State.setPair_isl (s : State) (q : Nat) (p : QueuePair) : (s.setPair q p).isl = s.isl := rfl
@[simp] theorem State.setPair_pow (s : State) (q : Nat) (p : QueuePair) : (s.setPair q p).pow = s.pow := rfl
@[simp] theorem State.setPair_trust (s : State) (q : Nat) (p : QueuePair) : (s.setPair q p).trust = s.trust := rfl
@[simp] theorem State.setPair_health (s : State) (q : Nat) (p : QueuePair) : (s.setPair q p).health = s.health := rfl

/-! ## complete -/

@[simp] theorem State.complete_pending (s : State) (c : HostCompletion) : (s.complete c).pending = s.pending := rfl
@[simp] theorem State.complete_now (s : State) (c : HostCompletion) : (s.complete c).now = s.now := rfl
@[simp] theorem State.complete_freeCtr (s : State) (c : HostCompletion) : (s.complete c).freeCtr = s.freeCtr := rfl
@[simp] theorem State.complete_grade (s : State) (c : HostCompletion) : (s.complete c).grade = s.grade := rfl
@[simp] theorem State.complete_swarm (s : State) (c : HostCompletion) : (s.complete c).swarm = s.swarm := rfl
@[simp] theorem State.complete_mem (s : State) (c : HostCompletion) : (s.complete c).mem = s.mem := rfl
@[simp] theorem State.complete_num (s : State) (c : HostCompletion) : (s.complete c).num = s.num := rfl
@[simp] theorem State.complete_net (s : State) (c : HostCompletion) : (s.complete c).net = s.net := rfl
@[simp] theorem State.complete_eng (s : State) (c : HostCompletion) : (s.complete c).eng = s.eng := rfl
@[simp] theorem State.complete_coll (s : State) (c : HostCompletion) : (s.complete c).coll = s.coll := rfl
@[simp] theorem State.complete_opt (s : State) (c : HostCompletion) : (s.complete c).opt = s.opt := rfl
@[simp] theorem State.complete_dict (s : State) (c : HostCompletion) : (s.complete c).dict = s.dict := rfl
@[simp] theorem State.complete_isl (s : State) (c : HostCompletion) : (s.complete c).isl = s.isl := rfl
@[simp] theorem State.complete_pow (s : State) (c : HostCompletion) : (s.complete c).pow = s.pow := rfl
@[simp] theorem State.complete_trust (s : State) (c : HostCompletion) : (s.complete c).trust = s.trust := rfl
@[simp] theorem State.complete_health (s : State) (c : HostCompletion) : (s.complete c).health = s.health := rfl

/-! ## setContext -/

@[simp] theorem State.setContext_pending (s : State) (k : CtxState) : (s.setContext k).pending = s.pending := rfl
@[simp] theorem State.setContext_now (s : State) (k : CtxState) : (s.setContext k).now = s.now := rfl
@[simp] theorem State.setContext_freeCtr (s : State) (k : CtxState) : (s.setContext k).freeCtr = s.freeCtr := rfl
@[simp] theorem State.setContext_grade (s : State) (k : CtxState) : (s.setContext k).grade = s.grade := rfl
@[simp] theorem State.setContext_swarm (s : State) (k : CtxState) : (s.setContext k).swarm = s.swarm := rfl
@[simp] theorem State.setContext_mem (s : State) (k : CtxState) : (s.setContext k).mem = s.mem := rfl
@[simp] theorem State.setContext_num (s : State) (k : CtxState) : (s.setContext k).num = s.num := rfl
@[simp] theorem State.setContext_net (s : State) (k : CtxState) : (s.setContext k).net = s.net := rfl
@[simp] theorem State.setContext_eng (s : State) (k : CtxState) : (s.setContext k).eng = s.eng := rfl
@[simp] theorem State.setContext_coll (s : State) (k : CtxState) : (s.setContext k).coll = s.coll := rfl
@[simp] theorem State.setContext_opt (s : State) (k : CtxState) : (s.setContext k).opt = s.opt := rfl
@[simp] theorem State.setContext_host (s : State) (k : CtxState) : (s.setContext k).host = s.host := rfl
@[simp] theorem State.setContext_isl (s : State) (k : CtxState) : (s.setContext k).isl = s.isl := rfl
@[simp] theorem State.setContext_pow (s : State) (k : CtxState) : (s.setContext k).pow = s.pow := rfl
@[simp] theorem State.setContext_trust (s : State) (k : CtxState) : (s.setContext k).trust = s.trust := rfl
@[simp] theorem State.setContext_health (s : State) (k : CtxState) : (s.setContext k).health = s.health := rfl

/-! ## setCtx -/

@[simp] theorem State.setCtx_pending (s : State) (n : Nat) (c : DispatchContext) : (s.setCtx n c).pending = s.pending := rfl
@[simp] theorem State.setCtx_now (s : State) (n : Nat) (c : DispatchContext) : (s.setCtx n c).now = s.now := rfl
@[simp] theorem State.setCtx_freeCtr (s : State) (n : Nat) (c : DispatchContext) : (s.setCtx n c).freeCtr = s.freeCtr := rfl
@[simp] theorem State.setCtx_grade (s : State) (n : Nat) (c : DispatchContext) : (s.setCtx n c).grade = s.grade := rfl
@[simp] theorem State.setCtx_swarm (s : State) (n : Nat) (c : DispatchContext) : (s.setCtx n c).swarm = s.swarm := rfl
@[simp] theorem State.setCtx_mem (s : State) (n : Nat) (c : DispatchContext) : (s.setCtx n c).mem = s.mem := rfl
@[simp] theorem State.setCtx_num (s : State) (n : Nat) (c : DispatchContext) : (s.setCtx n c).num = s.num := rfl
@[simp] theorem State.setCtx_net (s : State) (n : Nat) (c : DispatchContext) : (s.setCtx n c).net = s.net := rfl
@[simp] theorem State.setCtx_coll (s : State) (n : Nat) (c : DispatchContext) : (s.setCtx n c).coll = s.coll := rfl
@[simp] theorem State.setCtx_opt (s : State) (n : Nat) (c : DispatchContext) : (s.setCtx n c).opt = s.opt := rfl
@[simp] theorem State.setCtx_host (s : State) (n : Nat) (c : DispatchContext) : (s.setCtx n c).host = s.host := rfl
@[simp] theorem State.setCtx_dict (s : State) (n : Nat) (c : DispatchContext) : (s.setCtx n c).dict = s.dict := rfl
@[simp] theorem State.setCtx_isl (s : State) (n : Nat) (c : DispatchContext) : (s.setCtx n c).isl = s.isl := rfl
@[simp] theorem State.setCtx_pow (s : State) (n : Nat) (c : DispatchContext) : (s.setCtx n c).pow = s.pow := rfl
@[simp] theorem State.setCtx_trust (s : State) (n : Nat) (c : DispatchContext) : (s.setCtx n c).trust = s.trust := rfl
@[simp] theorem State.setCtx_health (s : State) (n : Nat) (c : DispatchContext) : (s.setCtx n c).health = s.health := rfl

/-! ## setHome -/

@[simp] theorem State.setHome_pending (s : State) (e : Nat) (h : ExpertHome) : (s.setHome e h).pending = s.pending := rfl
@[simp] theorem State.setHome_now (s : State) (e : Nat) (h : ExpertHome) : (s.setHome e h).now = s.now := rfl
@[simp] theorem State.setHome_freeCtr (s : State) (e : Nat) (h : ExpertHome) : (s.setHome e h).freeCtr = s.freeCtr := rfl
@[simp] theorem State.setHome_grade (s : State) (e : Nat) (h : ExpertHome) : (s.setHome e h).grade = s.grade := rfl
@[simp] theorem State.setHome_swarm (s : State) (e : Nat) (h : ExpertHome) : (s.setHome e h).swarm = s.swarm := rfl
@[simp] theorem State.setHome_mem (s : State) (e : Nat) (h : ExpertHome) : (s.setHome e h).mem = s.mem := rfl
@[simp] theorem State.setHome_num (s : State) (e : Nat) (h : ExpertHome) : (s.setHome e h).num = s.num := rfl
@[simp] theorem State.setHome_net (s : State) (e : Nat) (h : ExpertHome) : (s.setHome e h).net = s.net := rfl
@[simp] theorem State.setHome_coll (s : State) (e : Nat) (h : ExpertHome) : (s.setHome e h).coll = s.coll := rfl
@[simp] theorem State.setHome_opt (s : State) (e : Nat) (h : ExpertHome) : (s.setHome e h).opt = s.opt := rfl
@[simp] theorem State.setHome_host (s : State) (e : Nat) (h : ExpertHome) : (s.setHome e h).host = s.host := rfl
@[simp] theorem State.setHome_dict (s : State) (e : Nat) (h : ExpertHome) : (s.setHome e h).dict = s.dict := rfl
@[simp] theorem State.setHome_isl (s : State) (e : Nat) (h : ExpertHome) : (s.setHome e h).isl = s.isl := rfl
@[simp] theorem State.setHome_pow (s : State) (e : Nat) (h : ExpertHome) : (s.setHome e h).pow = s.pow := rfl
@[simp] theorem State.setHome_trust (s : State) (e : Nat) (h : ExpertHome) : (s.setHome e h).trust = s.trust := rfl
@[simp] theorem State.setHome_health (s : State) (e : Nat) (h : ExpertHome) : (s.setHome e h).health = s.health := rfl

/-! ## mapStream -/

@[simp] theorem State.mapStream_pending (s : State) (h : Nat) (f : Stream → Stream) : (s.mapStream h f).pending = s.pending := rfl
@[simp] theorem State.mapStream_now (s : State) (h : Nat) (f : Stream → Stream) : (s.mapStream h f).now = s.now := rfl
@[simp] theorem State.mapStream_freeCtr (s : State) (h : Nat) (f : Stream → Stream) : (s.mapStream h f).freeCtr = s.freeCtr := rfl
@[simp] theorem State.mapStream_grade (s : State) (h : Nat) (f : Stream → Stream) : (s.mapStream h f).grade = s.grade := rfl
@[simp] theorem State.mapStream_swarm (s : State) (h : Nat) (f : Stream → Stream) : (s.mapStream h f).swarm = s.swarm := rfl
@[simp] theorem State.mapStream_mem (s : State) (h : Nat) (f : Stream → Stream) : (s.mapStream h f).mem = s.mem := rfl
@[simp] theorem State.mapStream_num (s : State) (h : Nat) (f : Stream → Stream) : (s.mapStream h f).num = s.num := rfl
@[simp] theorem State.mapStream_net (s : State) (h : Nat) (f : Stream → Stream) : (s.mapStream h f).net = s.net := rfl
@[simp] theorem State.mapStream_coll (s : State) (h : Nat) (f : Stream → Stream) : (s.mapStream h f).coll = s.coll := rfl
@[simp] theorem State.mapStream_opt (s : State) (h : Nat) (f : Stream → Stream) : (s.mapStream h f).opt = s.opt := rfl
@[simp] theorem State.mapStream_host (s : State) (h : Nat) (f : Stream → Stream) : (s.mapStream h f).host = s.host := rfl
@[simp] theorem State.mapStream_dict (s : State) (h : Nat) (f : Stream → Stream) : (s.mapStream h f).dict = s.dict := rfl
@[simp] theorem State.mapStream_isl (s : State) (h : Nat) (f : Stream → Stream) : (s.mapStream h f).isl = s.isl := rfl
@[simp] theorem State.mapStream_pow (s : State) (h : Nat) (f : Stream → Stream) : (s.mapStream h f).pow = s.pow := rfl
@[simp] theorem State.mapStream_trust (s : State) (h : Nat) (f : Stream → Stream) : (s.mapStream h f).trust = s.trust := rfl
@[simp] theorem State.mapStream_health (s : State) (h : Nat) (f : Stream → Stream) : (s.mapStream h f).health = s.health := rfl

/-! ## setGroup -/

@[simp] theorem State.setGroup_pending (s : State) (n : Nat) (g : Group) : (s.setGroup n g).pending = s.pending := rfl
@[simp] theorem State.setGroup_now (s : State) (n : Nat) (g : Group) : (s.setGroup n g).now = s.now := rfl
@[simp] theorem State.setGroup_freeCtr (s : State) (n : Nat) (g : Group) : (s.setGroup n g).freeCtr = s.freeCtr := rfl
@[simp] theorem State.setGroup_grade (s : State) (n : Nat) (g : Group) : (s.setGroup n g).grade = s.grade := rfl
@[simp] theorem State.setGroup_swarm (s : State) (n : Nat) (g : Group) : (s.setGroup n g).swarm = s.swarm := rfl
@[simp] theorem State.setGroup_mem (s : State) (n : Nat) (g : Group) : (s.setGroup n g).mem = s.mem := rfl
@[simp] theorem State.setGroup_num (s : State) (n : Nat) (g : Group) : (s.setGroup n g).num = s.num := rfl
@[simp] theorem State.setGroup_net (s : State) (n : Nat) (g : Group) : (s.setGroup n g).net = s.net := rfl
@[simp] theorem State.setGroup_eng (s : State) (n : Nat) (g : Group) : (s.setGroup n g).eng = s.eng := rfl
@[simp] theorem State.setGroup_opt (s : State) (n : Nat) (g : Group) : (s.setGroup n g).opt = s.opt := rfl
@[simp] theorem State.setGroup_host (s : State) (n : Nat) (g : Group) : (s.setGroup n g).host = s.host := rfl
@[simp] theorem State.setGroup_dict (s : State) (n : Nat) (g : Group) : (s.setGroup n g).dict = s.dict := rfl
@[simp] theorem State.setGroup_isl (s : State) (n : Nat) (g : Group) : (s.setGroup n g).isl = s.isl := rfl
@[simp] theorem State.setGroup_pow (s : State) (n : Nat) (g : Group) : (s.setGroup n g).pow = s.pow := rfl
@[simp] theorem State.setGroup_trust (s : State) (n : Nat) (g : Group) : (s.setGroup n g).trust = s.trust := rfl
@[simp] theorem State.setGroup_health (s : State) (n : Nat) (g : Group) : (s.setGroup n g).health = s.health := rfl

/-! ## mapColl -/

@[simp] theorem State.mapColl_pending (s : State) (id : Nat) (f : Collective → Collective) : (s.mapColl id f).pending = s.pending := rfl
@[simp] theorem State.mapColl_now (s : State) (id : Nat) (f : Collective → Collective) : (s.mapColl id f).now = s.now := rfl
@[simp] theorem State.mapColl_freeCtr (s : State) (id : Nat) (f : Collective → Collective) : (s.mapColl id f).freeCtr = s.freeCtr := rfl
@[simp] theorem State.mapColl_grade (s : State) (id : Nat) (f : Collective → Collective) : (s.mapColl id f).grade = s.grade := rfl
@[simp] theorem State.mapColl_swarm (s : State) (id : Nat) (f : Collective → Collective) : (s.mapColl id f).swarm = s.swarm := rfl
@[simp] theorem State.mapColl_mem (s : State) (id : Nat) (f : Collective → Collective) : (s.mapColl id f).mem = s.mem := rfl
@[simp] theorem State.mapColl_num (s : State) (id : Nat) (f : Collective → Collective) : (s.mapColl id f).num = s.num := rfl
@[simp] theorem State.mapColl_net (s : State) (id : Nat) (f : Collective → Collective) : (s.mapColl id f).net = s.net := rfl
@[simp] theorem State.mapColl_eng (s : State) (id : Nat) (f : Collective → Collective) : (s.mapColl id f).eng = s.eng := rfl
@[simp] theorem State.mapColl_opt (s : State) (id : Nat) (f : Collective → Collective) : (s.mapColl id f).opt = s.opt := rfl
@[simp] theorem State.mapColl_host (s : State) (id : Nat) (f : Collective → Collective) : (s.mapColl id f).host = s.host := rfl
@[simp] theorem State.mapColl_dict (s : State) (id : Nat) (f : Collective → Collective) : (s.mapColl id f).dict = s.dict := rfl
@[simp] theorem State.mapColl_isl (s : State) (id : Nat) (f : Collective → Collective) : (s.mapColl id f).isl = s.isl := rfl
@[simp] theorem State.mapColl_pow (s : State) (id : Nat) (f : Collective → Collective) : (s.mapColl id f).pow = s.pow := rfl
@[simp] theorem State.mapColl_trust (s : State) (id : Nat) (f : Collective → Collective) : (s.mapColl id f).trust = s.trust := rfl
@[simp] theorem State.mapColl_health (s : State) (id : Nat) (f : Collective → Collective) : (s.mapColl id f).health = s.health := rfl

/-! ## setQueue -/

@[simp] theorem State.setQueue_pending (s : State) (port ch : Nat) (q : List Queued) : (s.setQueue port ch q).pending = s.pending := rfl
@[simp] theorem State.setQueue_now (s : State) (port ch : Nat) (q : List Queued) : (s.setQueue port ch q).now = s.now := rfl
@[simp] theorem State.setQueue_freeCtr (s : State) (port ch : Nat) (q : List Queued) : (s.setQueue port ch q).freeCtr = s.freeCtr := rfl
@[simp] theorem State.setQueue_grade (s : State) (port ch : Nat) (q : List Queued) : (s.setQueue port ch q).grade = s.grade := rfl
@[simp] theorem State.setQueue_swarm (s : State) (port ch : Nat) (q : List Queued) : (s.setQueue port ch q).swarm = s.swarm := rfl
@[simp] theorem State.setQueue_mem (s : State) (port ch : Nat) (q : List Queued) : (s.setQueue port ch q).mem = s.mem := rfl
@[simp] theorem State.setQueue_num (s : State) (port ch : Nat) (q : List Queued) : (s.setQueue port ch q).num = s.num := rfl
@[simp] theorem State.setQueue_eng (s : State) (port ch : Nat) (q : List Queued) : (s.setQueue port ch q).eng = s.eng := rfl
@[simp] theorem State.setQueue_coll (s : State) (port ch : Nat) (q : List Queued) : (s.setQueue port ch q).coll = s.coll := rfl
@[simp] theorem State.setQueue_opt (s : State) (port ch : Nat) (q : List Queued) : (s.setQueue port ch q).opt = s.opt := rfl
@[simp] theorem State.setQueue_host (s : State) (port ch : Nat) (q : List Queued) : (s.setQueue port ch q).host = s.host := rfl
@[simp] theorem State.setQueue_dict (s : State) (port ch : Nat) (q : List Queued) : (s.setQueue port ch q).dict = s.dict := rfl
@[simp] theorem State.setQueue_isl (s : State) (port ch : Nat) (q : List Queued) : (s.setQueue port ch q).isl = s.isl := rfl
@[simp] theorem State.setQueue_pow (s : State) (port ch : Nat) (q : List Queued) : (s.setQueue port ch q).pow = s.pow := rfl
@[simp] theorem State.setQueue_trust (s : State) (port ch : Nat) (q : List Queued) : (s.setQueue port ch q).trust = s.trust := rfl
@[simp] theorem State.setQueue_health (s : State) (port ch : Nat) (q : List Queued) : (s.setQueue port ch q).health = s.health := rfl

/-! ## setMirror -/

@[simp] theorem State.setMirror_pending (s : State) (i : Nat) (m : Mirror) : (s.setMirror i m).pending = s.pending := rfl
@[simp] theorem State.setMirror_now (s : State) (i : Nat) (m : Mirror) : (s.setMirror i m).now = s.now := rfl
@[simp] theorem State.setMirror_freeCtr (s : State) (i : Nat) (m : Mirror) : (s.setMirror i m).freeCtr = s.freeCtr := rfl
@[simp] theorem State.setMirror_grade (s : State) (i : Nat) (m : Mirror) : (s.setMirror i m).grade = s.grade := rfl
@[simp] theorem State.setMirror_swarm (s : State) (i : Nat) (m : Mirror) : (s.setMirror i m).swarm = s.swarm := rfl
@[simp] theorem State.setMirror_mem (s : State) (i : Nat) (m : Mirror) : (s.setMirror i m).mem = s.mem := rfl
@[simp] theorem State.setMirror_num (s : State) (i : Nat) (m : Mirror) : (s.setMirror i m).num = s.num := rfl
@[simp] theorem State.setMirror_eng (s : State) (i : Nat) (m : Mirror) : (s.setMirror i m).eng = s.eng := rfl
@[simp] theorem State.setMirror_coll (s : State) (i : Nat) (m : Mirror) : (s.setMirror i m).coll = s.coll := rfl
@[simp] theorem State.setMirror_opt (s : State) (i : Nat) (m : Mirror) : (s.setMirror i m).opt = s.opt := rfl
@[simp] theorem State.setMirror_host (s : State) (i : Nat) (m : Mirror) : (s.setMirror i m).host = s.host := rfl
@[simp] theorem State.setMirror_dict (s : State) (i : Nat) (m : Mirror) : (s.setMirror i m).dict = s.dict := rfl
@[simp] theorem State.setMirror_isl (s : State) (i : Nat) (m : Mirror) : (s.setMirror i m).isl = s.isl := rfl
@[simp] theorem State.setMirror_pow (s : State) (i : Nat) (m : Mirror) : (s.setMirror i m).pow = s.pow := rfl
@[simp] theorem State.setMirror_trust (s : State) (i : Nat) (m : Mirror) : (s.setMirror i m).trust = s.trust := rfl
@[simp] theorem State.setMirror_health (s : State) (i : Nat) (m : Mirror) : (s.setMirror i m).health = s.health := rfl

/-! ## setStage -/

@[simp] theorem State.setStage_pending (s : State) (k : Nat) (g : GroupStage) : (s.setStage k g).pending = s.pending := rfl
@[simp] theorem State.setStage_now (s : State) (k : Nat) (g : GroupStage) : (s.setStage k g).now = s.now := rfl
@[simp] theorem State.setStage_freeCtr (s : State) (k : Nat) (g : GroupStage) : (s.setStage k g).freeCtr = s.freeCtr := rfl
@[simp] theorem State.setStage_grade (s : State) (k : Nat) (g : GroupStage) : (s.setStage k g).grade = s.grade := rfl
@[simp] theorem State.setStage_swarm (s : State) (k : Nat) (g : GroupStage) : (s.setStage k g).swarm = s.swarm := rfl
@[simp] theorem State.setStage_mem (s : State) (k : Nat) (g : GroupStage) : (s.setStage k g).mem = s.mem := rfl
@[simp] theorem State.setStage_num (s : State) (k : Nat) (g : GroupStage) : (s.setStage k g).num = s.num := rfl
@[simp] theorem State.setStage_eng (s : State) (k : Nat) (g : GroupStage) : (s.setStage k g).eng = s.eng := rfl
@[simp] theorem State.setStage_coll (s : State) (k : Nat) (g : GroupStage) : (s.setStage k g).coll = s.coll := rfl
@[simp] theorem State.setStage_opt (s : State) (k : Nat) (g : GroupStage) : (s.setStage k g).opt = s.opt := rfl
@[simp] theorem State.setStage_host (s : State) (k : Nat) (g : GroupStage) : (s.setStage k g).host = s.host := rfl
@[simp] theorem State.setStage_dict (s : State) (k : Nat) (g : GroupStage) : (s.setStage k g).dict = s.dict := rfl
@[simp] theorem State.setStage_isl (s : State) (k : Nat) (g : GroupStage) : (s.setStage k g).isl = s.isl := rfl
@[simp] theorem State.setStage_pow (s : State) (k : Nat) (g : GroupStage) : (s.setStage k g).pow = s.pow := rfl
@[simp] theorem State.setStage_trust (s : State) (k : Nat) (g : GroupStage) : (s.setStage k g).trust = s.trust := rfl
@[simp] theorem State.setStage_health (s : State) (k : Nat) (g : GroupStage) : (s.setStage k g).health = s.health := rfl

/-! ## setDrr -/

@[simp] theorem State.setDrr_pending (s : State) (port : Nat) (d : Drr) : (s.setDrr port d).pending = s.pending := rfl
@[simp] theorem State.setDrr_now (s : State) (port : Nat) (d : Drr) : (s.setDrr port d).now = s.now := rfl
@[simp] theorem State.setDrr_freeCtr (s : State) (port : Nat) (d : Drr) : (s.setDrr port d).freeCtr = s.freeCtr := rfl
@[simp] theorem State.setDrr_grade (s : State) (port : Nat) (d : Drr) : (s.setDrr port d).grade = s.grade := rfl
@[simp] theorem State.setDrr_swarm (s : State) (port : Nat) (d : Drr) : (s.setDrr port d).swarm = s.swarm := rfl
@[simp] theorem State.setDrr_mem (s : State) (port : Nat) (d : Drr) : (s.setDrr port d).mem = s.mem := rfl
@[simp] theorem State.setDrr_num (s : State) (port : Nat) (d : Drr) : (s.setDrr port d).num = s.num := rfl
@[simp] theorem State.setDrr_eng (s : State) (port : Nat) (d : Drr) : (s.setDrr port d).eng = s.eng := rfl
@[simp] theorem State.setDrr_coll (s : State) (port : Nat) (d : Drr) : (s.setDrr port d).coll = s.coll := rfl
@[simp] theorem State.setDrr_opt (s : State) (port : Nat) (d : Drr) : (s.setDrr port d).opt = s.opt := rfl
@[simp] theorem State.setDrr_host (s : State) (port : Nat) (d : Drr) : (s.setDrr port d).host = s.host := rfl
@[simp] theorem State.setDrr_dict (s : State) (port : Nat) (d : Drr) : (s.setDrr port d).dict = s.dict := rfl
@[simp] theorem State.setDrr_isl (s : State) (port : Nat) (d : Drr) : (s.setDrr port d).isl = s.isl := rfl
@[simp] theorem State.setDrr_pow (s : State) (port : Nat) (d : Drr) : (s.setDrr port d).pow = s.pow := rfl
@[simp] theorem State.setDrr_trust (s : State) (port : Nat) (d : Drr) : (s.setDrr port d).trust = s.trust := rfl
@[simp] theorem State.setDrr_health (s : State) (port : Nat) (d : Drr) : (s.setDrr port d).health = s.health := rfl

/-! ## dropTag -/

@[simp] theorem State.dropTag_pending (s : State) (t : Nat) : (s.dropTag t).pending = s.pending := rfl
@[simp] theorem State.dropTag_now (s : State) (t : Nat) : (s.dropTag t).now = s.now := rfl
@[simp] theorem State.dropTag_freeCtr (s : State) (t : Nat) : (s.dropTag t).freeCtr = s.freeCtr := rfl
@[simp] theorem State.dropTag_grade (s : State) (t : Nat) : (s.dropTag t).grade = s.grade := rfl
@[simp] theorem State.dropTag_swarm (s : State) (t : Nat) : (s.dropTag t).swarm = s.swarm := rfl
@[simp] theorem State.dropTag_mem (s : State) (t : Nat) : (s.dropTag t).mem = s.mem := rfl
@[simp] theorem State.dropTag_num (s : State) (t : Nat) : (s.dropTag t).num = s.num := rfl
@[simp] theorem State.dropTag_eng (s : State) (t : Nat) : (s.dropTag t).eng = s.eng := rfl
@[simp] theorem State.dropTag_coll (s : State) (t : Nat) : (s.dropTag t).coll = s.coll := rfl
@[simp] theorem State.dropTag_opt (s : State) (t : Nat) : (s.dropTag t).opt = s.opt := rfl
@[simp] theorem State.dropTag_host (s : State) (t : Nat) : (s.dropTag t).host = s.host := rfl
@[simp] theorem State.dropTag_dict (s : State) (t : Nat) : (s.dropTag t).dict = s.dict := rfl
@[simp] theorem State.dropTag_isl (s : State) (t : Nat) : (s.dropTag t).isl = s.isl := rfl
@[simp] theorem State.dropTag_pow (s : State) (t : Nat) : (s.dropTag t).pow = s.pow := rfl
@[simp] theorem State.dropTag_trust (s : State) (t : Nat) : (s.dropTag t).trust = s.trust := rfl
@[simp] theorem State.dropTag_health (s : State) (t : Nat) : (s.dropTag t).health = s.health := rfl

/-! ## setArriving -/

@[simp] theorem State.setArriving_pending (s : State) (l : Nat) (a : Option Arriving) : (s.setArriving l a).pending = s.pending := rfl
@[simp] theorem State.setArriving_now (s : State) (l : Nat) (a : Option Arriving) : (s.setArriving l a).now = s.now := rfl
@[simp] theorem State.setArriving_freeCtr (s : State) (l : Nat) (a : Option Arriving) : (s.setArriving l a).freeCtr = s.freeCtr := rfl
@[simp] theorem State.setArriving_grade (s : State) (l : Nat) (a : Option Arriving) : (s.setArriving l a).grade = s.grade := rfl
@[simp] theorem State.setArriving_swarm (s : State) (l : Nat) (a : Option Arriving) : (s.setArriving l a).swarm = s.swarm := rfl
@[simp] theorem State.setArriving_mem (s : State) (l : Nat) (a : Option Arriving) : (s.setArriving l a).mem = s.mem := rfl
@[simp] theorem State.setArriving_num (s : State) (l : Nat) (a : Option Arriving) : (s.setArriving l a).num = s.num := rfl
@[simp] theorem State.setArriving_eng (s : State) (l : Nat) (a : Option Arriving) : (s.setArriving l a).eng = s.eng := rfl
@[simp] theorem State.setArriving_coll (s : State) (l : Nat) (a : Option Arriving) : (s.setArriving l a).coll = s.coll := rfl
@[simp] theorem State.setArriving_opt (s : State) (l : Nat) (a : Option Arriving) : (s.setArriving l a).opt = s.opt := rfl
@[simp] theorem State.setArriving_host (s : State) (l : Nat) (a : Option Arriving) : (s.setArriving l a).host = s.host := rfl
@[simp] theorem State.setArriving_dict (s : State) (l : Nat) (a : Option Arriving) : (s.setArriving l a).dict = s.dict := rfl
@[simp] theorem State.setArriving_isl (s : State) (l : Nat) (a : Option Arriving) : (s.setArriving l a).isl = s.isl := rfl
@[simp] theorem State.setArriving_pow (s : State) (l : Nat) (a : Option Arriving) : (s.setArriving l a).pow = s.pow := rfl
@[simp] theorem State.setArriving_trust (s : State) (l : Nat) (a : Option Arriving) : (s.setArriving l a).trust = s.trust := rfl
@[simp] theorem State.setArriving_health (s : State) (l : Nat) (a : Option Arriving) : (s.setArriving l a).health = s.health := rfl

/-! ## mapLink -/

@[simp] theorem State.mapLink_pending (s : State) (l : Nat) (f : Link → Link) : (s.mapLink l f).pending = s.pending := rfl
@[simp] theorem State.mapLink_now (s : State) (l : Nat) (f : Link → Link) : (s.mapLink l f).now = s.now := rfl
@[simp] theorem State.mapLink_freeCtr (s : State) (l : Nat) (f : Link → Link) : (s.mapLink l f).freeCtr = s.freeCtr := rfl
@[simp] theorem State.mapLink_grade (s : State) (l : Nat) (f : Link → Link) : (s.mapLink l f).grade = s.grade := rfl
@[simp] theorem State.mapLink_swarm (s : State) (l : Nat) (f : Link → Link) : (s.mapLink l f).swarm = s.swarm := rfl
@[simp] theorem State.mapLink_mem (s : State) (l : Nat) (f : Link → Link) : (s.mapLink l f).mem = s.mem := rfl
@[simp] theorem State.mapLink_num (s : State) (l : Nat) (f : Link → Link) : (s.mapLink l f).num = s.num := rfl
@[simp] theorem State.mapLink_net (s : State) (l : Nat) (f : Link → Link) : (s.mapLink l f).net = s.net := rfl
@[simp] theorem State.mapLink_eng (s : State) (l : Nat) (f : Link → Link) : (s.mapLink l f).eng = s.eng := rfl
@[simp] theorem State.mapLink_coll (s : State) (l : Nat) (f : Link → Link) : (s.mapLink l f).coll = s.coll := rfl
@[simp] theorem State.mapLink_host (s : State) (l : Nat) (f : Link → Link) : (s.mapLink l f).host = s.host := rfl
@[simp] theorem State.mapLink_dict (s : State) (l : Nat) (f : Link → Link) : (s.mapLink l f).dict = s.dict := rfl
@[simp] theorem State.mapLink_isl (s : State) (l : Nat) (f : Link → Link) : (s.mapLink l f).isl = s.isl := rfl
@[simp] theorem State.mapLink_pow (s : State) (l : Nat) (f : Link → Link) : (s.mapLink l f).pow = s.pow := rfl
@[simp] theorem State.mapLink_trust (s : State) (l : Nat) (f : Link → Link) : (s.mapLink l f).trust = s.trust := rfl
@[simp] theorem State.mapLink_health (s : State) (l : Nat) (f : Link → Link) : (s.mapLink l f).health = s.health := rfl

/-! ## setLaser -/

@[simp] theorem State.setLaser_pending (s : State) (bank w u : Nat) (l : Laser) : (s.setLaser bank w u l).pending = s.pending := rfl
@[simp] theorem State.setLaser_now (s : State) (bank w u : Nat) (l : Laser) : (s.setLaser bank w u l).now = s.now := rfl
@[simp] theorem State.setLaser_freeCtr (s : State) (bank w u : Nat) (l : Laser) : (s.setLaser bank w u l).freeCtr = s.freeCtr := rfl
@[simp] theorem State.setLaser_grade (s : State) (bank w u : Nat) (l : Laser) : (s.setLaser bank w u l).grade = s.grade := rfl
@[simp] theorem State.setLaser_swarm (s : State) (bank w u : Nat) (l : Laser) : (s.setLaser bank w u l).swarm = s.swarm := rfl
@[simp] theorem State.setLaser_mem (s : State) (bank w u : Nat) (l : Laser) : (s.setLaser bank w u l).mem = s.mem := rfl
@[simp] theorem State.setLaser_num (s : State) (bank w u : Nat) (l : Laser) : (s.setLaser bank w u l).num = s.num := rfl
@[simp] theorem State.setLaser_net (s : State) (bank w u : Nat) (l : Laser) : (s.setLaser bank w u l).net = s.net := rfl
@[simp] theorem State.setLaser_eng (s : State) (bank w u : Nat) (l : Laser) : (s.setLaser bank w u l).eng = s.eng := rfl
@[simp] theorem State.setLaser_coll (s : State) (bank w u : Nat) (l : Laser) : (s.setLaser bank w u l).coll = s.coll := rfl
@[simp] theorem State.setLaser_host (s : State) (bank w u : Nat) (l : Laser) : (s.setLaser bank w u l).host = s.host := rfl
@[simp] theorem State.setLaser_dict (s : State) (bank w u : Nat) (l : Laser) : (s.setLaser bank w u l).dict = s.dict := rfl
@[simp] theorem State.setLaser_isl (s : State) (bank w u : Nat) (l : Laser) : (s.setLaser bank w u l).isl = s.isl := rfl
@[simp] theorem State.setLaser_pow (s : State) (bank w u : Nat) (l : Laser) : (s.setLaser bank w u l).pow = s.pow := rfl
@[simp] theorem State.setLaser_trust (s : State) (bank w u : Nat) (l : Laser) : (s.setLaser bank w u l).trust = s.trust := rfl
@[simp] theorem State.setLaser_health (s : State) (bank w u : Nat) (l : Laser) : (s.setLaser bank w u l).health = s.health := rfl

/-! ## setRecord -/

@[simp] theorem State.setRecord_pending (s : State) (n : Nat) (t : TensorRecord) : (s.setRecord n t).pending = s.pending := rfl
@[simp] theorem State.setRecord_now (s : State) (n : Nat) (t : TensorRecord) : (s.setRecord n t).now = s.now := rfl
@[simp] theorem State.setRecord_freeCtr (s : State) (n : Nat) (t : TensorRecord) : (s.setRecord n t).freeCtr = s.freeCtr := rfl
@[simp] theorem State.setRecord_grade (s : State) (n : Nat) (t : TensorRecord) : (s.setRecord n t).grade = s.grade := rfl
@[simp] theorem State.setRecord_swarm (s : State) (n : Nat) (t : TensorRecord) : (s.setRecord n t).swarm = s.swarm := rfl
@[simp] theorem State.setRecord_mem (s : State) (n : Nat) (t : TensorRecord) : (s.setRecord n t).mem = s.mem := rfl
@[simp] theorem State.setRecord_net (s : State) (n : Nat) (t : TensorRecord) : (s.setRecord n t).net = s.net := rfl
@[simp] theorem State.setRecord_eng (s : State) (n : Nat) (t : TensorRecord) : (s.setRecord n t).eng = s.eng := rfl
@[simp] theorem State.setRecord_coll (s : State) (n : Nat) (t : TensorRecord) : (s.setRecord n t).coll = s.coll := rfl
@[simp] theorem State.setRecord_opt (s : State) (n : Nat) (t : TensorRecord) : (s.setRecord n t).opt = s.opt := rfl
@[simp] theorem State.setRecord_host (s : State) (n : Nat) (t : TensorRecord) : (s.setRecord n t).host = s.host := rfl
@[simp] theorem State.setRecord_dict (s : State) (n : Nat) (t : TensorRecord) : (s.setRecord n t).dict = s.dict := rfl
@[simp] theorem State.setRecord_isl (s : State) (n : Nat) (t : TensorRecord) : (s.setRecord n t).isl = s.isl := rfl
@[simp] theorem State.setRecord_pow (s : State) (n : Nat) (t : TensorRecord) : (s.setRecord n t).pow = s.pow := rfl
@[simp] theorem State.setRecord_trust (s : State) (n : Nat) (t : TensorRecord) : (s.setRecord n t).trust = s.trust := rfl
@[simp] theorem State.setRecord_health (s : State) (n : Nat) (t : TensorRecord) : (s.setRecord n t).health = s.health := rfl

/-! ## setSeed -/

@[simp] theorem State.setSeed_pending (s : State) (tensor : Nat) (v : W64) : (s.setSeed tensor v).pending = s.pending := rfl
@[simp] theorem State.setSeed_now (s : State) (tensor : Nat) (v : W64) : (s.setSeed tensor v).now = s.now := rfl
@[simp] theorem State.setSeed_freeCtr (s : State) (tensor : Nat) (v : W64) : (s.setSeed tensor v).freeCtr = s.freeCtr := rfl
@[simp] theorem State.setSeed_grade (s : State) (tensor : Nat) (v : W64) : (s.setSeed tensor v).grade = s.grade := rfl
@[simp] theorem State.setSeed_swarm (s : State) (tensor : Nat) (v : W64) : (s.setSeed tensor v).swarm = s.swarm := rfl
@[simp] theorem State.setSeed_mem (s : State) (tensor : Nat) (v : W64) : (s.setSeed tensor v).mem = s.mem := rfl
@[simp] theorem State.setSeed_net (s : State) (tensor : Nat) (v : W64) : (s.setSeed tensor v).net = s.net := rfl
@[simp] theorem State.setSeed_eng (s : State) (tensor : Nat) (v : W64) : (s.setSeed tensor v).eng = s.eng := rfl
@[simp] theorem State.setSeed_coll (s : State) (tensor : Nat) (v : W64) : (s.setSeed tensor v).coll = s.coll := rfl
@[simp] theorem State.setSeed_opt (s : State) (tensor : Nat) (v : W64) : (s.setSeed tensor v).opt = s.opt := rfl
@[simp] theorem State.setSeed_host (s : State) (tensor : Nat) (v : W64) : (s.setSeed tensor v).host = s.host := rfl
@[simp] theorem State.setSeed_dict (s : State) (tensor : Nat) (v : W64) : (s.setSeed tensor v).dict = s.dict := rfl
@[simp] theorem State.setSeed_isl (s : State) (tensor : Nat) (v : W64) : (s.setSeed tensor v).isl = s.isl := rfl
@[simp] theorem State.setSeed_pow (s : State) (tensor : Nat) (v : W64) : (s.setSeed tensor v).pow = s.pow := rfl
@[simp] theorem State.setSeed_trust (s : State) (tensor : Nat) (v : W64) : (s.setSeed tensor v).trust = s.trust := rfl
@[simp] theorem State.setSeed_health (s : State) (tensor : Nat) (v : W64) : (s.setSeed tensor v).health = s.health := rfl

/-! ## setComponent -/

@[simp] theorem State.setComponent_pending (s : State) (c : Nat) (x : Component) : (s.setComponent c x).pending = s.pending := rfl
@[simp] theorem State.setComponent_now (s : State) (c : Nat) (x : Component) : (s.setComponent c x).now = s.now := rfl
@[simp] theorem State.setComponent_freeCtr (s : State) (c : Nat) (x : Component) : (s.setComponent c x).freeCtr = s.freeCtr := rfl
@[simp] theorem State.setComponent_grade (s : State) (c : Nat) (x : Component) : (s.setComponent c x).grade = s.grade := rfl
@[simp] theorem State.setComponent_swarm (s : State) (c : Nat) (x : Component) : (s.setComponent c x).swarm = s.swarm := rfl
@[simp] theorem State.setComponent_mem (s : State) (c : Nat) (x : Component) : (s.setComponent c x).mem = s.mem := rfl
@[simp] theorem State.setComponent_num (s : State) (c : Nat) (x : Component) : (s.setComponent c x).num = s.num := rfl
@[simp] theorem State.setComponent_net (s : State) (c : Nat) (x : Component) : (s.setComponent c x).net = s.net := rfl
@[simp] theorem State.setComponent_eng (s : State) (c : Nat) (x : Component) : (s.setComponent c x).eng = s.eng := rfl
@[simp] theorem State.setComponent_coll (s : State) (c : Nat) (x : Component) : (s.setComponent c x).coll = s.coll := rfl
@[simp] theorem State.setComponent_opt (s : State) (c : Nat) (x : Component) : (s.setComponent c x).opt = s.opt := rfl
@[simp] theorem State.setComponent_host (s : State) (c : Nat) (x : Component) : (s.setComponent c x).host = s.host := rfl
@[simp] theorem State.setComponent_dict (s : State) (c : Nat) (x : Component) : (s.setComponent c x).dict = s.dict := rfl
@[simp] theorem State.setComponent_isl (s : State) (c : Nat) (x : Component) : (s.setComponent c x).isl = s.isl := rfl
@[simp] theorem State.setComponent_pow (s : State) (c : Nat) (x : Component) : (s.setComponent c x).pow = s.pow := rfl
@[simp] theorem State.setComponent_health (s : State) (c : Nat) (x : Component) : (s.setComponent c x).health = s.health := rfl

/-! ## Reading back -/

/-- The keys of two slots of one cell range differ when the slots do. -/
theorem SlotId.key_ne {i j : SlotId} (hi : i.thread < 4) (hj : j.thread < 4) (h : j ≠ i) : j.key ≠ i.key := by
  obtain ⟨ci, ti⟩ := i
  obtain ⟨cj, tj⟩ := j
  simp only [SlotId.key] at *
  intro e
  apply h
  have : cj = ci := by omega
  have : tj = ti := by omega
  subst_vars; rfl

@[simp] theorem State.slot_setSlot (s : State) (i : SlotId) (t : Slot) : (s.setSlot i t).slot i = t :=
  SMap.get_put_same _ _ _ _

theorem State.slot_setSlot_other (s : State) {i j : SlotId} (t : Slot) (h : j.key ≠ i.key) :
    (s.setSlot i t).slot j = s.slot j := SMap.get_put_other _ _ _ h

@[simp] theorem State.comb_setSlot (s : State) (i : SlotId) (t : Slot) (n : Nat) : (s.setSlot i t).comb n = s.comb n := rfl

@[simp] theorem State.slot_setComb (s : State) (n : Nat) (c : Comb) (i : SlotId) : (s.setComb n c).slot i = s.slot i := rfl

@[simp] theorem State.comb_setComb (s : State) (n : Nat) (c : Comb) : (s.setComb n c).comb n = c := SMap.get_put_same _ _ _ _

theorem State.comb_setComb_other (s : State) {n m : Nat} (c : Comb) (h : m ≠ n) : (s.setComb n c).comb m = s.comb m :=
  SMap.get_put_other _ _ _ h

@[simp] theorem State.slot_setReg (s : State) (k v u : Nat) (i : SlotId) : (s.setReg k v u).slot i = s.slot i := rfl

@[simp] theorem State.reg_setSlot (s : State) (i : SlotId) (t : Slot) (k u : Nat) : (s.setSlot i t).reg k u = s.reg k u := rfl

@[simp] theorem State.reg_setComb (s : State) (n : Nat) (c : Comb) (k u : Nat) : (s.setComb n c).reg k u = s.reg k u := rfl

/-- A value written reads back. -/
@[simp] theorem State.reg_setReg (s : State) (k v u : Nat) : (s.setReg k v u).reg k u = v := by
  simp only [State.reg, State.setReg, SMap.get_put_same]
  split
  · next h => split at h <;> simp_all
  · next h => split at h <;> simp_all

/-- A write of one entry and unit leaves every other. -/
theorem State.reg_setReg_other (s : State) {k v u k' u' : Nat} (h : k' * 65536 + u' ≠ k * 65536 + u) :
    (s.setReg k v u).reg k' u' = s.reg k' u' := by
  simp only [State.reg, State.setReg]
  rw [SMap.get_put_other _ _ _ h]

@[simp] theorem State.pool_setPool (s : State) (p : Nat) (q : Pool) : (s.setPool p q).pool p = q := SMap.get_put_same _ _ _ _

theorem State.pool_setPool_other (s : State) {p r : Nat} (q : Pool) (h : r ≠ p) : (s.setPool p q).pool r = s.pool r :=
  SMap.get_put_other _ _ _ h

@[simp] theorem State.link_setLink (s : State) (l : Nat) (k : Link) : (s.setLink l k).link l = k := SMap.get_put_same _ _ _ _

theorem State.link_setLink_other (s : State) {l m : Nat} (k : Link) (h : m ≠ l) : (s.setLink l k).link m = s.link m :=
  SMap.get_put_other _ _ _ h

@[simp] theorem State.rawByte_setByte (s : State) (a : Nat) (b : Byte) : (s.setByte a b).rawByte a = b := SMap.get_put_same _ _ _ _

theorem State.rawByte_setByte_other (s : State) {a c : Nat} (b : Byte) (h : c ≠ a) : (s.setByte a b).rawByte c = s.rawByte c :=
  SMap.get_put_other _ _ _ h

@[simp] theorem State.padByte_setPadByte (s : State) (c o : Nat) (b : Byte) : (s.setPadByte c o b).padByte c o = b := by
  simp [State.padByte, State.setPadByte]

/-- Storing bytes changes no byte outside them. -/
theorem State.rawByte_setBytes_other (s : State) (a c : Nat) (bs : List Byte) (h : c < a ∨ a + bs.length ≤ c) :
    (s.setBytes a bs).rawByte c = s.rawByte c := by
  induction bs generalizing s a with
  | nil => rfl
  | cons b bs ih =>
    simp only [List.length_cons] at h
    simp only [State.setBytes]
    rw [ih _ _ (by omega), State.rawByte_setByte_other _ _ (by omega)]

/-- A stored byte reads back. -/
theorem State.rawByte_setBytes (s : State) (a : Nat) (bs : List Byte) (k : Nat) (h : k < bs.length) :
    (s.setBytes a bs).rawByte (a + k) = bs[k] := by
  induction bs generalizing s a k with
  | nil => simp at h
  | cons b bs ih =>
    cases k with
    | zero =>
      simp only [State.setBytes]
      rw [State.rawByte_setBytes_other _ _ _ _ (by omega)]
      simp
    | succ k =>
      simp only [List.length_cons] at h
      simp only [State.setBytes]
      have := ih (s.setByte a b) (a + 1) k (by omega)
      rw [show a + (k + 1) = a + 1 + k by omega, this]
      simp

/-- The instant of a timed event: time never moves back. -/
@[simp] theorem State.at_now (s : State) (t : Nat) : (s.at_ t).now = max s.now t := by
  unfold State.at_
  split
  · simp only []; omega
  · omega

/-- No time passes: nothing happens. -/
theorem State.at_past (s : State) {t : Nat} (h : t ≤ s.now) : s.at_ t = s := by
  unfold State.at_
  rw [if_neg (by omega)]

/-! ## The canonical form of memory -/

theorem State.setByte_wf (s : State) (a : Nat) (b : Byte) (h : Memory.wf s.mem.bytes = true) :
    Memory.wf (s.setByte a b).mem.bytes = true := SMap.wf_put h a b

theorem State.setBytes_wf (s : State) (a : Nat) (bs : List Byte) (h : Memory.wf s.mem.bytes = true) :
    Memory.wf (s.setBytes a bs).mem.bytes = true := by
  induction bs generalizing s a with
  | nil => exact h
  | cons b bs ih => exact ih _ _ (State.setByte_wf s a b h)

theorem State.setPadByte_wf (s : State) (c o : Nat) (b : Byte) (h : SMap.wf none s.swarm.pads = true) :
    SMap.wf none (s.setPadByte c o b).swarm.pads = true := by
  have e : (s.setPadByte c o b).swarm.pads = SMap.put none s.swarm.pads (c * 8192 + o) (some b) := rfl
  rw [e]
  exact SMap.wf_put h _ _

theorem State.setPadBytes_wf (s : State) (c o : Nat) (bs : List Byte) (h : SMap.wf none s.swarm.pads = true) :
    SMap.wf none (s.setPadBytes c o bs).swarm.pads = true := by
  induction bs generalizing s o with
  | nil => exact h
  | cons b bs ih => exact ih _ _ (State.setPadByte_wf s c o b h)

theorem State.losePad_wf (s : State) (c : Nat) (h : SMap.wf none s.swarm.pads = true) :
    SMap.wf none (s.losePad c).swarm.pads = true := SMap.wf_clearRange h _ _

theorem State.losePadsOf_wf (s : State) (c : Nat) (h : SMap.wf none s.swarm.pads = true) :
    SMap.wf none (s.losePadsOf c).swarm.pads = true := SMap.wf_clearRange h _ _

theorem State.setHostBytes_wf (s : State) (a : Nat) (bs : List Byte) (h : Memory.wf s.host.memory = true) :
    Memory.wf (s.setHostBytes a bs).host.memory = true := by
  induction bs generalizing s a with
  | nil => exact h
  | cons b bs ih => exact ih _ _ (SMap.wf_put h a b)


end Sys2Proof.Machine
end

