-- ==== Sys2Proof/Laws/Thread.lean ====
section
/-! SUPPORT. What issuing and retiring a command do: one lemma for each step, cited in place of unfolding `runCommand`. -/

namespace Sys2Proof.Machine

open Sys2Proof Sys2Proof.Safety

/-- One thread of a cell is seen to have issued. -/
def State.seeIssue (s : State) (i : SlotId) (j : Nat) : State :=
  let u := s.slot ⟨i.cell, j⟩
  if u.yieldTo.contains i.thread then s.setSlot ⟨i.cell, j⟩ { u with yieldTo := u.yieldTo.filter (· ≠ i.thread) } else s

theorem State.issued_eq (s : State) (i : SlotId) :
    s.issued i = (((s.seeIssue i 0).seeIssue i 1).seeIssue i 2).seeIssue i 3 := rfl

theorem State.seeIssue_fields (s : State) (i : SlotId) (j : Nat) :
    s.seeIssue i j = { s with swarm := { s.swarm with slots := (s.seeIssue i j).swarm.slots } } := by
  unfold State.seeIssue
  dsimp only
  split <;> rfl

theorem State.seeIssue_slot (s : State) (i : SlotId) (j : Nat) (hj : j < 4) (k : SlotId) (hk : k.thread < 4) :
    (s.seeIssue i j).slot k = if k.cell = i.cell ∧ k.thread = j then seenIssue i k (s.slot k) else s.slot k := by
  obtain ⟨kc, kt⟩ := k
  unfold State.seeIssue
  dsimp only at hk ⊢
  by_cases h : kc = i.cell ∧ kt = j
  · obtain ⟨rfl, rfl⟩ := h
    simp only [and_self, if_true, seenIssue]
    split
    · simp
    · next hc =>
      have : ((s.slot ⟨i.cell, kt⟩).yieldTo.filter (· ≠ i.thread)) = (s.slot ⟨i.cell, kt⟩).yieldTo := by
        apply List.filter_eq_self.mpr
        intro a ha
        simp only [decide_eq_true_eq]
        intro e
        subst e
        simp [ha] at hc
      rw [this]
  · rw [if_neg h]
    split
    · apply State.slot_setSlot_other
      apply SlotId.key_ne (i := ⟨i.cell, j⟩) (j := ⟨kc, kt⟩) hj hk
      intro e
      injection e with e1 e2
      exact h ⟨e1, e2⟩
    · rfl

/-- What `issued` leaves alone: everything but the slots. -/
theorem State.issued_fields (s : State) (i : SlotId) :
    s.issued i = { s with swarm := { s.swarm with slots := (s.issued i).swarm.slots } } := by
  rw [State.issued_eq]
  have h3 := State.seeIssue_fields (((s.seeIssue i 0).seeIssue i 1).seeIssue i 2) i 3
  have h2 := State.seeIssue_fields ((s.seeIssue i 0).seeIssue i 1) i 2
  have h1 := State.seeIssue_fields (s.seeIssue i 0) i 1
  have h0 := State.seeIssue_fields s i 0
  rw [h3]
  generalize ((((s.seeIssue i 0).seeIssue i 1).seeIssue i 2).seeIssue i 3).swarm.slots = x
  rw [h2]
  generalize (((s.seeIssue i 0).seeIssue i 1).seeIssue i 2).swarm.slots = y
  rw [h1]
  generalize ((s.seeIssue i 0).seeIssue i 1).swarm.slots = z
  rw [h0]

/-- Every thread of the cell waits for `i` no longer. -/
theorem State.issued_slot (s : State) (i j : SlotId) (hj : j.thread < 4) : (s.issued i).slot j = seenIssue i j (s.slot j) := by
  rw [State.issued_eq, State.seeIssue_slot _ _ _ (by omega) _ hj, State.seeIssue_slot _ _ _ (by omega) _ hj,
    State.seeIssue_slot _ _ _ (by omega) _ hj, State.seeIssue_slot _ _ _ (by omega) _ hj]
  by_cases hc : j.cell = i.cell
  · have : j.thread = 0 ∨ j.thread = 1 ∨ j.thread = 2 ∨ j.thread = 3 := by omega
    rcases this with h | h | h | h <;> simp [hc, h]
  · simp [hc, seenIssue]

theorem issues_thread_lt {s : State} {i : SlotId} {w : Nat} {b : Bool} (h : Issues s i w b) : i.thread < 4 := by
  have := h.1
  simp only [State.canIssue, Bool.and_eq_true, decide_eq_true_eq] at this
  exact this.1.1.2

theorem issues_yieldTo {s : State} {i : SlotId} {w : Nat} {b : Bool} (h : Issues s i w b) :
    (s.slot i).yieldTo = [] := by
  have := h.1
  simp only [State.canIssue, Bool.and_eq_true, decide_eq_true_eq, List.isEmpty_iff] at this
  exact this.1.2

/-- A slot that issues waits for nobody, so its own issue does not change it. -/
theorem issues_issued_self {s : State} {i : SlotId} {w : Nat} {b : Bool} (h : Issues s i w b) :
    (s.issued i).slot i = s.slot i := by
  rw [State.issued_slot _ _ _ (issues_thread_lt h), seenIssue, if_pos rfl, issues_yieldTo h, List.filter_nil, ← issues_yieldTo h]

theorem shapeReason_issued (s : State) (i : SlotId) (t : Slot) (w : Nat) :
    shapeReason (s.issued i) t w = shapeReason s t w := by
  rw [State.issued_fields]; rfl

/-- A command that passes steps 1 to 4 of R492 does its own work in `begun`. -/
theorem runCommand_issues {s : State} {i : SlotId} {w : Nat} {b : Bool} (h : Issues s i w b) {row : Nat → Bool}
    (hr : row w = true) (body : Issue → Cmd After) :
    runCommand s i row body = (begun s i w b).runBody (issueOf s i w b) (body (issueOf s i w b)) := by
  have hs := issues_issued_self h
  obtain ⟨h1, h2, h3, h4, h5, h6⟩ := h
  have hf : (formOf (cmdOp w) (cmdMods w)).isNone = false := by
    cases hf : formOf (cmdOp w) (cmdMods w) with
    | none => simp [shapeReason, hf] at h6
    | some f => rfl
  unfold runCommand
  simp only [h1, h3, hf, hr, hs, h5, h2, State.firstShape, shapeReason_issued, h6, Bool.not_true, Bool.false_eq_true, if_false, if_neg h4]
  rfl

theorem State.begun_slot (s : State) (i : SlotId) (w : Nat) (b : Bool) :
    (begun s i w b).slot i = { s.slot i with cur := some (w, b), latch := (s.issued i).latchFor (s.slot i) w } := by
  simp [begun]

theorem begun_fields (s : State) (i : SlotId) (w : Nat) (b : Bool) :
    begun s i w b = { s with swarm := { s.swarm with slots := (begun s i w b).swarm.slots } } := by
  conv => lhs; unfold begun
  conv => rhs; unfold begun
  rw [State.issued_fields]
  rfl

theorem begun_other {s : State} {i : SlotId} {w : Nat} {b : Bool} (hi : i.thread < 4) {j : SlotId} (hj : j.thread < 4)
    (h : j ≠ i) : (begun s i w b).slot j = seenIssue i j (s.slot j) := by
  unfold begun
  rw [State.slot_setSlot_other _ _ (SlotId.key_ne hi hj h), State.issued_slot _ _ _ hj]

/-- Setting slot `i` keeps every other slot. -/
theorem onlySlot_setSlot {i : SlotId} (hi : i.thread < 4) {s t : State} (h : OnlySlot i s t) (u : Slot) :
    OnlySlot i s (t.setSlot i u) := by
  obtain ⟨h1, h2⟩ := h
  constructor
  · rw [h1]; rfl
  · intro j hj hne
    rw [State.slot_setSlot_other _ _ (SlotId.key_ne hi hj hne), h2 j hj hne]

theorem onlySlot_begun {s : State} {i : SlotId} {w : Nat} {b : Bool} (hi : i.thread < 4) : OnlySlot i s (begun s i w b) :=
  ⟨begun_fields s i w b, fun _ hj h => begun_other hi hj h⟩

/-- A retirement that stays below 2,048 sets the slot and nothing else. -/
theorem State.retire_lt {s : State} {x : Issue} {a : After} (h : ((s.slot x.id).retire x.ptr a).ptr < 2048) :
    s.retire x a = s.setSlot x.id ((s.slot x.id).retire x.ptr a) := by
  unfold State.retire
  dsimp only
  rw [if_neg (by omega)]

/-- A command whose work sets only its slot: the slot holds the new registers, retired; nothing else differs. -/
theorem runSlot_issues {s : State} {i : SlotId} {w : Nat} {b : Bool} (h : Issues s i w b) {op : Nat} (ho : cmdOp w = op)
    {f : Slot → Nat → Slot} {u : Slot}
    (hf : (f { s.slot i with cur := some (w, b), latch := (s.issued i).latchFor (s.slot i) w } w).retire (s.slot i).ptr .next = u)
    (hu : u.ptr < 2048) :
    ∃ t, runSlot s i op f = t ∧ t.slot i = u ∧ OnlySlot i s t := by
  have hi := issues_thread_lt h
  refine ⟨_, rfl, ?_⟩
  unfold runSlot
  rw [runCommand_issues h (by simpa using ho)]
  have hb : (begun s i w b).runBody (issueOf s i w b)
      ((fun x => do Cmd.mapSlot i fun t => f t x.word; pure After.next) (issueOf s i w b))
      = ((begun s i w b).setSlot i (f ((begun s i w b).slot i) w)).retire (issueOf s i w b) .next := rfl
  rw [hb, State.begun_slot]
  have hr : (((begun s i w b).setSlot i
      (f { s.slot i with cur := some (w, b), latch := (s.issued i).latchFor (s.slot i) w } w)).slot (issueOf s i w b).id).retire
        (issueOf s i w b).ptr .next = u := by
    rw [show (issueOf s i w b).id = i from rfl, State.slot_setSlot]; exact hf
  rw [State.retire_lt (by rw [hr]; exact hu), hr]
  exact ⟨State.slot_setSlot _ _ _, onlySlot_setSlot hi (onlySlot_setSlot hi (onlySlot_begun hi) _) _⟩

/-- A command whose work ends with `u` and whose pointer stays below 2,048 retires. -/
theorem runCommand_done {s u : State} {i : SlotId} {w : Nat} {b : Bool} (h : Issues s i w b) {row : Nat → Bool}
    (hr : row w = true) {body : Issue → Cmd After} (hb : body (issueOf s i w b) (begun s i w b) = .ok (.next, u))
    (hp : ((u.slot i).retire (s.slot i).ptr .next).ptr < 2048) : runCommand s i row body = done u i (s.slot i).ptr := by
  rw [runCommand_issues h hr, State.runBody, hb]
  exact State.retire_lt hp

/-- What a slot has in progress does not outlive its retirement. -/
@[simp] theorem Slot.retire_cur (t : Slot) (c : Option (Nat × Bool)) (l : Latch) (p : Nat) (a : After) :
    ({ t with cur := c, latch := l } : Slot).retire p a = t.retire p a := rfl

/-- A write to a register leaves what is in progress. -/
theorem Slot.put_cur (t : Slot) (c : Option (Nat × Bool)) (l : Latch) (o : Opnd) (v : Nat) :
    ({ t with cur := c, latch := l } : Slot).put o v = { t.put o v with cur := c, latch := l } := by
  cases o <;> simp only [Slot.put] <;> first | rfl | (simp only [Slot.setP]; split <;> rfl)

theorem Slot.value_cur (t : Slot) (c : Option (Nat × Bool)) (l : Latch) (o : Opnd) :
    ({ t with cur := c, latch := l } : Slot).value o = t.value o := by
  cases o <;> rfl

/-- The loop rule keeps every register but the loops'. -/
theorem Slot.arrive_keeps (t : Slot) (brk : Bool) (p : Nat) (ns : List Nat) :
    t.arrive brk p ns = { t with loops := (t.arrive brk p ns).loops, nest := (t.arrive brk p ns).nest, ptr := (t.arrive brk p ns).ptr } := by
  induction ns generalizing t brk with
  | nil => rfl
  | cons n ns ih =>
    simp only [Slot.arrive]
    split
    · split
      · conv => lhs; rw [ih]
      · rfl
    · rfl

end Sys2Proof.Machine
end

