-- ==== Sys2Proof/Laws/Operands.lean ====
section
/-! SUPPORT. What a word that passes steps 1 to 4 of R492 names, and what a written register reads back as. -/

namespace Sys2Proof.Machine

open Sys2Proof Sys2Proof.Safety

/-- The operand checks of a word that passes them, one by one. -/
theorem shapeReason_none {s : State} {t : Slot} {w : Nat} (h : shapeReason s t w = none) {f : Form}
    (hf : formOf (cmdOp w) (cmdMods w) = some f) :
    opndReason f.a (cmdA w) false = none ∧ opndReason f.b (cmdB w) false = none ∧ opndReason f.d (cmdD w) true = none
      ∧ selOk (cmdOp w) (cmdSel w) = true ∧ cmdMods w &&& f.mask = cmdMods w ∧ modsOk s w = true := by
  simp only [shapeReason, hf] at h
  cases h1 : opndReason f.a (cmdA w) false <;> simp [h1] at h
  cases h3 : opndReason f.b (cmdB w) false <;> simp [h3] at h
  cases h4 : opndReason f.d (cmdD w) true <;> simp [h4] at h
  obtain ⟨_, h6, h7⟩ := h
  exact ⟨rfl, rfl, rfl, h6, h7.1.1, h7.1.2⟩

theorem opndOf_s {x n : Nat} (h : opndOf x = .s n) : n < 16 := by
  unfold opndOf at h; dsimp only at h
  split at h <;> (try split at h) <;> first | (injection h; omega) | cases h

theorem opndOf_v {x n : Nat} (h : opndOf x = .v n) : n < 8 := by
  unfold opndOf at h; dsimp only at h
  split at h <;> (try split at h) <;> first | (injection h; omega) | cases h

theorem opndOf_c {x n : Nat} (h : opndOf x = .c n) : n < 4 := by
  unfold opndOf at h; dsimp only at h
  split at h <;> (try split at h) <;> first | (injection h; omega) | cases h

theorem opndOf_d {x n : Nat} (h : opndOf x = .d n) : n < 32 := by
  unfold opndOf at h; dsimp only at h
  split at h <;> (try split at h) <;> first | (injection h; omega) | cases h

theorem opndOf_p {x n : Nat} (h : opndOf x = .p n) : n < 8 := by
  unfold opndOf at h; dsimp only at h
  split at h <;> (try split at h) <;> first | (injection h; omega) | cases h

theorem opndOf_lc {x n : Nat} (h : opndOf x = .lc n) : n < 2 := by
  unfold opndOf at h; dsimp only at h
  split at h <;> (try split at h) <;> first | (injection h; omega) | cases h

/-- An accepted operand has one of the form's kinds. -/
theorem opndReason_takes {ks : List Kind} {o : Opnd} {dest : Bool} (h : opndReason ks o dest = none) :
    (ks.any fun k => k.takes o) = true := by
  unfold opndReason at h
  cases hk : (ks.any fun k => k.takes o)
  · simp only [hk, Bool.not_false, if_true] at h
    split at h <;> (try split at h) <;> cases h
  · rfl

/-- An accepted destination is not p0. -/
theorem opndReason_p0 {ks : List Kind} {o : Opnd} (h : opndReason ks o true = none) : o ≠ .p 0 := by
  intro e
  subst e
  unfold opndReason at h
  simp only [] at h
  split at h <;> (try split at h) <;> (try split at h) <;> simp_all

theorem takes_s {o : Opnd} (h : Kind.takes .s o = true) : ∃ n, o = .s n := by cases o <;> simp [Kind.takes] at h ⊢
theorem takes_c {o : Opnd} (h : Kind.takes .c o = true) : ∃ n, o = .c n := by cases o <;> simp [Kind.takes] at h ⊢
theorem takes_d {o : Opnd} (h : Kind.takes .d o = true) : ∃ n, o = .d n := by cases o <;> simp [Kind.takes] at h ⊢
theorem takes_p {o : Opnd} (h : Kind.takes .p o = true) : ∃ n, o = .p n := by cases o <;> simp [Kind.takes] at h ⊢
theorem takes_v {o : Opnd} (h : Kind.takes .v o = true) : ∃ n, o = .v n := by cases o <;> simp [Kind.takes] at h ⊢
theorem takes_lc {o : Opnd} (h : Kind.takes .lc o = true) : ∃ n, o = .lc n := by cases o <;> simp [Kind.takes] at h ⊢
theorem takes_pair {o : Opnd} (h : Kind.takes .pair o = true) : ∃ n, o = .s n ∧ n % 2 = 0 := by
  cases o <;> simp [Kind.takes] at h ⊢; exact h

/-! ## Registers read back -/

theorem vector_getD_set {α : Type} {n : Nat} (v : Vector α n) (i j : Nat) (x d : α) :
    (v.setIfInBounds i x).getD j d = if i = j ∧ i < n then x else v.getD j d := by
  by_cases hj : j < n
  · simp only [Vector.getD, Vector.toArray_setIfInBounds, Array.getD_eq_getD_getElem?, Array.getElem?_setIfInBounds, Vector.size_toArray]
    by_cases h : i = j <;> simp_all
  · simp only [Vector.getD, Vector.toArray_setIfInBounds, Array.getD_eq_getD_getElem?, Array.getElem?_setIfInBounds, Vector.size_toArray]
    by_cases h : i = j <;> simp_all <;> (split <;> rfl)

theorem Slot.sreg_setS (t : Slot) {n : Nat} (h : n < 16) (v : Nat) : (t.setS n v).sreg n = BitVec.ofNat 32 v := by
  simp [Slot.setS, Slot.sreg, h, vector_getD_set]

theorem Slot.vreg_setV (t : Slot) {n : Nat} (h : n < 8) (v : Nat) : (t.setV n v).vreg n = BitVec.ofNat 64 v := by
  simp [Slot.setV, Slot.vreg, h, vector_getD_set]

theorem Slot.creg_setC (t : Slot) {n : Nat} (h : n < 4) (v : Nat) : (t.setC n v).creg n = BitVec.ofNat 32 v := by
  simp [Slot.setC, Slot.creg, h, vector_getD_set]

theorem Slot.desc_setD (t : Slot) {n : Nat} (h : n < 32) (v : Nat) : (t.setD n v).desc n = BitVec.ofNat 256 v := by
  simp [Slot.setD, Slot.desc, h, vector_getD_set]

theorem Slot.pred_setP (t : Slot) {n : Nat} (h : n < 8) (h0 : n ≠ 0) (v : Bool) : (t.setP n v).pred n = v := by
  simp [Slot.setP, Slot.pred, h, h0, vector_getD_set]

/-! ## Retirement keeps registers -/

/-- Retirement changes the status, what is in progress, the pointer and the loops alone. -/
theorem Slot.retire_keeps (t : Slot) (p : Nat) (a : After) :
    t.retire p a = { t with status := .ready, cur := none, latch := {}, fetched := [], loops := (t.retire p a).loops
                            nest := (t.retire p a).nest, ptr := (t.retire p a).ptr } := by
  unfold Slot.retire
  dsimp only
  split
  · conv => lhs; rw [Slot.arrive_keeps]
  · conv => lhs; rw [Slot.arrive_keeps]
  · split
    · conv => lhs; rw [Slot.arrive_keeps]
    · rfl

@[simp] theorem Slot.retire_sreg (t : Slot) (p : Nat) (a : After) (n : Nat) : (t.retire p a).sreg n = t.sreg n := by
  rw [Slot.retire_keeps]; rfl
@[simp] theorem Slot.retire_vreg (t : Slot) (p : Nat) (a : After) (n : Nat) : (t.retire p a).vreg n = t.vreg n := by
  rw [Slot.retire_keeps]; rfl
@[simp] theorem Slot.retire_creg (t : Slot) (p : Nat) (a : After) (n : Nat) : (t.retire p a).creg n = t.creg n := by
  rw [Slot.retire_keeps]; rfl
@[simp] theorem Slot.retire_pred (t : Slot) (p : Nat) (a : After) (n : Nat) : (t.retire p a).pred n = t.pred n := by
  rw [Slot.retire_keeps]; rfl
@[simp] theorem Slot.retire_desc (t : Slot) (p : Nat) (a : After) (n : Nat) : (t.retire p a).desc n = t.desc n := by
  rw [Slot.retire_keeps]; rfl
@[simp] theorem Slot.retire_cmp (t : Slot) (p : Nat) (a : After) : (t.retire p a).cmp = t.cmp := by
  rw [Slot.retire_keeps]

/-- The loop rule looks at the loops' state alone: the same pointer results for slots that agree in it. -/
theorem Slot.arrive_ptr_congr (t u : Slot) (h : ∀ n, (t.loop n).active = (u.loop n).active ∧ (t.loop n).first = (u.loop n).first
      ∧ (t.loop n).last = (u.loop n).last ∧ (t.loop n).remaining = (u.loop n).remaining) (hs : t.loops.size = u.loops.size)
    (brk : Bool) (p : Nat) (ns : List Nat) : (t.arrive brk p ns).ptr = (u.arrive brk p ns).ptr := by
  induction ns generalizing t u brk with
  | nil => rfl
  | cons n ns ih =>
    have hn := h n
    simp only [Slot.arrive]
    rw [hn.2.2.1, hn.2.2.2, hn.2.1]
    split
    · split
      · apply ih
        · intro m
          have hm := h m
          simp only [Slot.loop] at hm hn ⊢
          simp only [vector_getD_set]
          by_cases hmn : n = m ∧ n < 2
          · simp only [if_pos hmn, and_self]
          · simp only [if_neg hmn]; exact hm
        · rfl
      · rfl
    · rfl

/-- Retirement goes where the loops' state says. -/
theorem Slot.retire_ptr_congr (t u : Slot) (h : ∀ n, (t.loop n).active = (u.loop n).active ∧ (t.loop n).first = (u.loop n).first
      ∧ (t.loop n).last = (u.loop n).last ∧ (t.loop n).remaining = (u.loop n).remaining) (hn : t.nest = u.nest) (p : Nat) (a : After) :
    (t.retire p a).ptr = (u.retire p a).ptr := by
  unfold Slot.retire
  dsimp only
  rw [hn]
  split
  · apply Slot.arrive_ptr_congr; exacts [h, rfl]
  · apply Slot.arrive_ptr_congr; exacts [h, rfl]
  · split
    · next n _ _ =>
      have hl := (h n).2.2.1
      simp only [Slot.loop] at hl
      simp only [Slot.loop, hl]
      apply Slot.arrive_ptr_congr; exacts [h, rfl]
    · rfl

/-- Writing a register, a loop preset included, does not change where the thread goes. -/
theorem Slot.put_ptr (t : Slot) (o : Opnd) (v p : Nat) (a : After) : ((t.put o v).retire p a).ptr = (t.retire p a).ptr := by
  apply Slot.retire_ptr_congr
  · intro m
    cases o with
    | lc n =>
      simp only [Slot.put, Slot.setLc, Slot.loop, vector_getD_set]
      by_cases h : n = m ∧ n < 2
      · rw [if_pos h, h.1]; exact ⟨rfl, rfl, rfl, rfl⟩
      · rw [if_neg h]; exact ⟨rfl, rfl, rfl, rfl⟩
    | p n => simp only [Slot.put, Slot.setP]; split <;> exact ⟨rfl, rfl, rfl, rfl⟩
    | _ => exact ⟨rfl, rfl, rfl, rfl⟩
  · cases o <;> simp only [Slot.put, Slot.setP] <;> (try split) <;> rfl

/-- The value of a 32-bit operand. -/
theorem Slot.value_lt (t : Slot) (x : Nat) (h : (scalarIn.any fun k => k.takes (opndOf x)) = true) : t.value (opndOf x) < 2 ^ 32 := by
  generalize ho : opndOf x = o at h
  cases o with
  | s n => exact (t.sreg n).isLt
  | c n => exact (t.creg n).isLt
  | lc n => exact (t.lcRead n).isLt
  | imm n =>
    have : n < 4096 := by
      unfold opndOf at ho; dsimp only at ho
      split at ho <;> (try split at ho) <;> first | (injection ho; omega) | cases ho
    simp only [Slot.value, immVal]
    split <;> omega
  | _ => simp [scalarIn, Kind.takes] at h

end Sys2Proof.Machine
end

