-- ==== Sys2Proof/WellFormed.lean ====
section
/-! DEFINITION. Which commands are well formed: every operand within the range its row gives it. -/

namespace Sys2Proof

/-- A thread slot exists (R26). -/
def SlotId.wf (i : SlotId) : Bool := decide (i.cell < 1048576) && decide (i.thread < 4)

/-- The bytes a host request may name (R356–R359): BAR2 is 64 GiB, BAR0 64 MiB, the configuration space 4 KiB. -/
def HostTarget.size : HostTarget → Nat
  | .bar2 => 2 ^ 36
  | .bar0 => 2 ^ 26
  | .config => 4096

/-- A requester context exists (R381): 256 queue pairs, 24-bit nodes, 48-bit MAC addresses. -/
def Ctx.wf : Ctx → Bool
  | .bar0 => true
  | .qp q => decide (q < 256)
  | .node n => decide (n < 2 ^ 24)
  | .field mac => decide (mac < 2 ^ 48)

/-- A link header's fields fit their widths (R343). -/
def LinkHeader.wf (h : LinkHeader) : Bool := decide (h.seq < 65536) && decide (h.tc < 8) && decide (h.sub < 2)

/-- A partner's identity fits its fields (R342). -/
def PartnerId.wf (p : PartnerId) : Bool :=
  decide (p.node < 2 ^ 24) && decide (p.link < 64) && decide (p.nextExpected < 65536)
    && (match p.assigned with
      | none => true
      | some d => decide (d.1 < 4))

/-- A laser reading names a unit of its bank (R350). -/
def LaserReading.wf (r : LaserReading) : Bool := decide (r.wavelength < 8) && decide (r.unit < 2)

/-- A self-test names existing hives, engines and physical combs (R439). -/
def SelfTest.wf (t : SelfTest) : Bool :=
  decide (t.hivesPass < 2 ^ 16) && decide (t.enginesPass < 2 ^ 32)
    && t.combFailures.all fun p => decide (p.1 < 16) && decide (p.2 < 1056)

/-- A command is well formed. -/
def Instr.wf : Instr → Bool
  | .nop s => SlotId.wf s
  | .skip s => SlotId.wf s
  | .loop s => SlotId.wf s
  | .break_ s => SlotId.wf s
  | .halt s => SlotId.wf s
  | .yield s => SlotId.wf s
  | .waitSignal s => SlotId.wf s
  | .waitMemory s => SlotId.wf s
  | .waitTime s => SlotId.wf s
  | .signalWaitEnd s => SlotId.wf s
  | .memoryWaitReread s => SlotId.wf s
  | .timeWaitEnd s _ => SlotId.wf s
  | .waitTimeout s _ => SlotId.wf s
  | .signal s => SlotId.wf s
  | .fence s => SlotId.wf s
  | .mov s => SlotId.wf s
  | .add s => SlotId.wf s
  | .sub s => SlotId.wf s
  | .mul s => SlotId.wf s
  | .logic s => SlotId.wf s
  | .shift s => SlotId.wf s
  | .cmp s => SlotId.wf s
  | .plogic s => SlotId.wf s
  | .next s => SlotId.wf s
  | .dset s => SlotId.wf s
  | .doff s => SlotId.wf s
  | .load s => SlotId.wf s
  | .store s => SlotId.wf s
  | .gather s => SlotId.wf s
  | .scatter s => SlotId.wf s
  | .ldr s => SlotId.wf s
  | .str s => SlotId.wf s
  | .atom s => SlotId.wf s
  | .alloc s => SlotId.wf s
  | .free s => SlotId.wf s
  | .dload s => SlotId.wf s
  | .copy s => SlotId.wf s
  | .mma s => SlotId.wf s
  | .mma24 s => SlotId.wf s
  | .mmasa s => SlotId.wf s
  | .predict s => SlotId.wf s
  | .commit s => SlotId.wf s
  | .pack s => SlotId.wf s
  | .vop s => SlotId.wf s
  | .vcmp s => SlotId.wf s
  | .vsel s => SlotId.wf s
  | .vshuf s => SlotId.wf s
  | .vfma s => SlotId.wf s
  | .vsfu s => SlotId.wf s
  | .vcvt s => SlotId.wf s
  | .tcvt s => SlotId.wf s
  | .tew s => SlotId.wf s
  | .tred s => SlotId.wf s
  | .ttopk s => SlotId.wf s
  | .put s => SlotId.wf s
  | .get s => SlotId.wf s
  | .send s => SlotId.wf s
  | .cpost s => SlotId.wf s
  | .dispatch s => SlotId.wf s
  | .sattach s => SlotId.wf s
  | .seed s => SlotId.wf s
  | .step s => SlotId.wf s
  | .scale s => SlotId.wf s
  | .time s => SlotId.wf s
  | .ident s => SlotId.wf s
  | .specMultiplyRoomStart s => SlotId.wf s
  | .launchPortPost s _ => SlotId.wf s
  | .threadStart _ comb => decide (comb < 16384)
  | .launchComplete _ => true
  | .combGate comb _ => decide (comb < 16384)
  | .combFailure comb => decide (comb < 16384)
  | .combMove comb spare => decide (comb < 16384) && decide (spare < 1056)
  | .hiveFailure hive => decide (hive < 16)
  | .bankSwapRequest c _ => Ctx.wf c
  | .bankSwap comb => decide (comb < 16384)
  | .debugProgramWrite c data => Ctx.wf c && data.length == 32
  | .bar2Read o length => decide (o.offset + length ≤ o.target.size)
  | .bar2Write o data => decide (o.offset + data.bytes.length ≤ o.target.size)
  | .bar2RemoteReadTimeout _ _ => true
  | .windowBaseWrite _ => true
  | .queuePairEnable q _ => decide (q < 256)
  | .queuePairDisable q => decide (q < 256)
  | .queuePairDrained q => decide (q < 256)
  | .sqTailDoorbell q _ => decide (q < 256)
  | .cqHeadDoorbell q _ => decide (q < 256)
  | .sqNop q => decide (q < 256)
  | .sqDmaToModule q => decide (q < 256)
  | .sqDmaToHost q => decide (q < 256)
  | .sqLaunch q => decide (q < 256)
  | .sqPost q => decide (q < 256)
  | .sqDictionary q => decide (q < 256)
  | .sqFree q => decide (q < 256)
  | .sqEntryComplete q _ => decide (q < 256)
  | .hostReceiveFrame tc => decide (tc < 8)
  | .hostReceiveTimeout tc _ => decide (tc < 8)
  | .hostPortReset _ => true
  | .perstAssert => true
  | .pcieL1Entry _ => true
  | .dictRead c index subindex offset length => Ctx.wf c && decide (index < 65536) && decide (subindex < 256) && decide (offset < 2 ^ 32) && decide (length < 2 ^ 16)
  | .dictWrite c index subindex offset data => Ctx.wf c && decide (index < 65536) && decide (subindex < 256) && decide (offset < 2 ^ 32) && decide (data.length < 2 ^ 16)
  | .dictDescribe c index subindex => Ctx.wf c && decide (index < 65536) && decide (subindex < 256)
  | .dictDescribeNext c index subindex => Ctx.wf c && decide (index < 65536) && decide (subindex < 256)
  | .dictWindowGo _ => true
  | .managementFrame => true
  | .managementResultFrame => true
  | .dictRemoteTimeout _ _ => true
  | .vdpFrame mac payload => decide (mac < 281474976710656) && decide (payload.length ≤ 1500)
  | .unlockChallengeRead c => Ctx.wf c
  | .unlockResponseWrite c data => Ctx.wf c && decide (data.length < 2 ^ 16)
  | .challengeExpiry c _ => Ctx.wf c
  | .lockWrite c _ => Ctx.wf c
  | .roleTimeout c _ => Ctx.wf c
  | .storeCommit c => Ctx.wf c
  | .storeCommitDone _ => true
  | .storeRevert c => Ctx.wf c
  | .storeClear c => Ctx.wf c
  | .registerWrite c index subindex offset data => Ctx.wf c && decide (index < 65536) && decide (subindex < 256) && decide (offset < 2 ^ 32) && decide (data.length < 2 ^ 16)
  | .recordBind c _ => Ctx.wf c
  | .recordUnbind c _ => Ctx.wf c
  | .recordClearAlarms c _ => Ctx.wf c
  | .scaleExport c => Ctx.wf c
  | .scaleImport c => Ctx.wf c
  | .scaleTransferDone => true
  | .hbmRowRepair _ => true
  | .poolRecordWrite c pool _ => Ctx.wf c && decide (pool < 16)
  | .poolInitComplete pool => decide (pool < 16)
  | .frameHeaderConfirm link lh _ => decide (link < 64) && LinkHeader.wf lh
  | .frameTrailerArrival link payload _ _ => decide (link < 64) && (payload.length % 64 == 0 && decide (64 ≤ payload.length ∧ payload.length ≤ 4096))
  | .putFrame port tc => decide (port < 256) && decide (tc < 8)
  | .getFrame port tc => decide (port < 256) && decide (tc < 8)
  | .getDataFrame port tc => decide (port < 256) && decide (tc < 8)
  | .atomicFrame port tc => decide (port < 256) && decide (tc < 8)
  | .atomicResultFrame port tc => decide (port < 256) && decide (tc < 8)
  | .ackFrame port tc => decide (port < 256) && decide (tc < 8)
  | .ackCoalesceTimeout node tc _ => decide (node < 16777216) && decide (tc < 8)
  | .errorFrame port tc => decide (port < 256) && decide (tc < 8)
  | .freeFrame port tc => decide (port < 256) && decide (tc < 8)
  | .freeResultFrame port tc => decide (port < 256) && decide (tc < 8)
  | .geometryCommit c _ => Ctx.wf c
  | .egressSelect port => decide (port < 256)
  | .shaperTick port tc _ => decide (port < 256) && decide (tc < 8)
  | .captureRingEnable c _ => Ctx.wf c
  | .reorderTimeout port tc _ => decide (port < 256) && decide (tc < 8)
  | .injectionUnlockWrite c _ => Ctx.wf c
  | .streamFrame port tc => decide (port < 256) && decide (tc < 8)
  | .streamSpillReadback handle => decide (handle < 65536)
  | .streamComplete handle => decide (handle < 65536)
  | .streamDetach c _ => Ctx.wf c
  | .engineDisable engine => decide (engine < 32)
  | .contextRecordWrite c _ => Ctx.wf c
  | .dispatchTokenFrame port tc => decide (port < 256) && decide (tc < 8)
  | .holdAreaReadback context => decide (context < 32)
  | .dispatchRowCopyFrame port tc => decide (port < 256) && decide (tc < 8)
  | .dispatchCloseFrame port tc => decide (port < 256) && decide (tc < 8)
  | .returnDoorbellStore expert _ => decide (expert < 4096)
  | .returnFrame port tc => decide (port < 256) && decide (tc < 8)
  | .groupDefine c _ => Ctx.wf c
  | .groupUndefine c _ => Ctx.wf c
  | .collectiveDataFrame port tc => decide (port < 256) && decide (tc < 8)
  | .grantFrame port tc => decide (port < 256) && decide (tc < 8)
  | .countsFrame port tc => decide (port < 256) && decide (tc < 8)
  | .barrierFrame port tc => decide (port < 256) && decide (tc < 8)
  | .abortFrame port tc => decide (port < 256) && decide (tc < 8)
  | .grantResend _ _ _ => true
  | .collectiveTimeout _ _ => true
  | .collectiveAbortRequest c _ => Ctx.wf c
  | .portEnable c _ => Ctx.wf c
  | .portDisable c _ => Ctx.wf c
  | .portSplit c _ => Ctx.wf c
  | .lightDetect link _ => decide (link < 64)
  | .trainingLock link _ partner => decide (link < 64) && PartnerId.wf partner
  | .trainingTimeout link _ => decide (link < 64)
  | .trainingRetry link _ => decide (link < 64)
  | .laneLockLoss link lane _ => decide (link < 64) && decide (lane < 8)
  | .laneRetry link lane _ => decide (link < 64) && decide (lane < 8)
  | .linkLoss link => decide (link < 64)
  | .linkAckReceive link next_ => decide (link < 64) && decide (next_ < 65536)
  | .linkNakReceive link next_ => decide (link < 64) && decide (next_ < 65536)
  | .linkCreditReceive link channel granted => decide (link < 64) && decide (channel < 32) && decide (granted < 2 ^ 24)
  | .handoverReceive link lost next_ => decide (link < 64) && decide (lost < 64) && decide (next_ < 65536)
  | .nakResendTimer link _ => decide (link < 64)
  | .ackTimeoutReplay link _ => decide (link < 64)
  | .handoverTimeout link _ => decide (link < 64)
  | .creditRefresh link _ => decide (link < 64)
  | .laserBiasAdjust bank readings _ => decide (bank < 8) && readings.all LaserReading.wf
  | .forcedSwap c _ => Ctx.wf c
  | .ringCalibration port lane _ heater _ _ => decide (port < 256) && decide (lane < 8) && decide (heater < 65536)
  | .inputRise => true
  | .inputLow => true
  | .inputHigh => true
  | .inputPowerLoss => true
  | .enBreak => true
  | .powerRequestDormant c => Ctx.wf c
  | .powerRequestActive c => Ctx.wf c
  | .quiescenceReached => true
  | .entryDrainTimeout _ => true
  | .wakeComplete _ => true
  | .thermalLevelStep temps _ => temps.length == 26
  | .thermalTrip die _ => decide (die < 26)
  | .moduleFatal cause unit => decide (cause < 256) && decide (unit < 2 ^ 16)
  | .pllLockLoss unit => decide (unit < 2 ^ 16)
  | .warmReset c => Ctx.wf c
  | .coldResetRequest c => Ctx.wf c
  | .hiveReset c _ => Ctx.wf c
  | .portReset c _ => Ctx.wf c
  | .combDrain c _ => Ctx.wf c
  | .combRestart c _ => Ctx.wf c
  | .combDrained comb => decide (comb < 16384)
  | .startupComplete test => SelfTest.wf test
  | .islandReset => true
  | .islandSourceChangeover _ => true
  | .measurementTick _ _ => true
  | .piTick _ => true
  | .leakClear c _ => Ctx.wf c
  | .serviceOutputTest c _ => Ctx.wf c
  | .serviceOutputTestEnd _ => true
  | .svcOutRetry _ => true
  | .fieldRestart c _ => Ctx.wf c
  | .timeSyncLost _ => true
  | .barrierStateTimer _ => true
  | .barrierDictRequest _ _ => true
  | .barrierDictResult _ _ => true
  | .telemetryPushMsg _ => true
  | .coolingStateMsg _ => true
  | .wakeMsg _ => true
  | .dormantRequestMsg _ => true
  | .throttleMsg _ => true
  | .thermalTripMsg _ => true
  | .serviceFlagMsg _ _ => true
  | .timeSyncMsg _ => true
  | .attestationRequestMsg _ _ => true
  | .attestationQuoteMsg _ _ => true
  | .firmwareImageBlockMsg _ => true
  | .measureBank c _ => Ctx.wf c
  | .quoteNonceWrite c nonce => Ctx.wf c && nonce.length == 32
  | .attestationHostTimeout _ => true
  | .fwStage c _ => Ctx.wf c
  | .fwStageDone => true
  | .fwActivate c _ => Ctx.wf c
  | .fwConfirm c _ => Ctx.wf c
  | .hbmScrub address _ => decide (address < 2 ^ 40)
  | .nearStoreScrub address _ => decide (address < 2 ^ 40)
  | .programStoreScrub address _ => decide (address < 2 ^ 40)
  | .telemetrySample _ _ => true
  | .telemetryRingEnable c _ => Ctx.wf c
  | .snapshotRequest c _ => Ctx.wf c
  | .snapshotFrame => true
  | .snapshotTake _ => true
  | .delayRequestTimer _ => true
  | .delayRequestFrame _ _ => true
  | .delayResponseFrame _ => true
  | .setFabricTime c _ => Ctx.wf c
  | .parentLossTimeout _ => true
  | .islandPowerLoss => true
  | .enMate => true
  | .perstDeassert => true
  | .inputNormal => true
  | .hostReadCompletionTimeout q _ _ => decide (q < 256)
  | .policerTokenAccrual port tc _ => decide (port < 256) && decide (tc < 8)
  | .eventVectorDeferred _ => true
  | .tripResetRelease => true
  | .powerCapLevelUpdate level => decide (level < 101)

end Sys2Proof
end

