-- ==== Sys2Proof/Laws/PerInstr.lean ====
section
/-! SUPPORT. A well-formed command names only threads and requester contexts that exist (R26, R381): the statement per command and one
lemma for each. -/

namespace Sys2Proof.Laws.Bounds

open Sys2Proof

/-- The thread slots a command names. -/
def slots : Instr → List SlotId
  | .nop s => [s]
  | .skip s => [s]
  | .loop s => [s]
  | .break_ s => [s]
  | .halt s => [s]
  | .yield s => [s]
  | .waitSignal s => [s]
  | .waitMemory s => [s]
  | .waitTime s => [s]
  | .signalWaitEnd s => [s]
  | .memoryWaitReread s => [s]
  | .timeWaitEnd s _ => [s]
  | .waitTimeout s _ => [s]
  | .signal s => [s]
  | .fence s => [s]
  | .mov s => [s]
  | .add s => [s]
  | .sub s => [s]
  | .mul s => [s]
  | .logic s => [s]
  | .shift s => [s]
  | .cmp s => [s]
  | .plogic s => [s]
  | .next s => [s]
  | .dset s => [s]
  | .doff s => [s]
  | .load s => [s]
  | .store s => [s]
  | .gather s => [s]
  | .scatter s => [s]
  | .ldr s => [s]
  | .str s => [s]
  | .atom s => [s]
  | .alloc s => [s]
  | .free s => [s]
  | .dload s => [s]
  | .copy s => [s]
  | .mma s => [s]
  | .mma24 s => [s]
  | .mmasa s => [s]
  | .predict s => [s]
  | .commit s => [s]
  | .pack s => [s]
  | .vop s => [s]
  | .vcmp s => [s]
  | .vsel s => [s]
  | .vshuf s => [s]
  | .vfma s => [s]
  | .vsfu s => [s]
  | .vcvt s => [s]
  | .tcvt s => [s]
  | .tew s => [s]
  | .tred s => [s]
  | .ttopk s => [s]
  | .put s => [s]
  | .get s => [s]
  | .send s => [s]
  | .cpost s => [s]
  | .dispatch s => [s]
  | .sattach s => [s]
  | .seed s => [s]
  | .step s => [s]
  | .scale s => [s]
  | .time s => [s]
  | .ident s => [s]
  | .specMultiplyRoomStart s => [s]
  | .launchPortPost s _ => [s]
  | .threadStart _ _ => []
  | .launchComplete _ => []
  | .combGate _ _ => []
  | .combFailure _ => []
  | .combMove _ _ => []
  | .hiveFailure _ => []
  | .bankSwapRequest _ _ => []
  | .bankSwap _ => []
  | .debugProgramWrite _ _ => []
  | .bar2Read _ _ => []
  | .bar2Write _ _ => []
  | .bar2RemoteReadTimeout _ _ => []
  | .windowBaseWrite _ => []
  | .queuePairEnable _ _ => []
  | .queuePairDisable _ => []
  | .queuePairDrained _ => []
  | .sqTailDoorbell _ _ => []
  | .cqHeadDoorbell _ _ => []
  | .sqNop _ => []
  | .sqDmaToModule _ => []
  | .sqDmaToHost _ => []
  | .sqLaunch _ => []
  | .sqPost _ => []
  | .sqDictionary _ => []
  | .sqFree _ => []
  | .sqEntryComplete _ _ => []
  | .hostReceiveFrame _ => []
  | .hostReceiveTimeout _ _ => []
  | .hostPortReset _ => []
  | .perstAssert => []
  | .pcieL1Entry _ => []
  | .dictRead _ _ _ _ _ => []
  | .dictWrite _ _ _ _ _ => []
  | .dictDescribe _ _ _ => []
  | .dictDescribeNext _ _ _ => []
  | .dictWindowGo _ => []
  | .managementFrame => []
  | .managementResultFrame => []
  | .dictRemoteTimeout _ _ => []
  | .vdpFrame _ _ => []
  | .unlockChallengeRead _ => []
  | .unlockResponseWrite _ _ => []
  | .challengeExpiry _ _ => []
  | .lockWrite _ _ => []
  | .roleTimeout _ _ => []
  | .storeCommit _ => []
  | .storeCommitDone _ => []
  | .storeRevert _ => []
  | .storeClear _ => []
  | .registerWrite _ _ _ _ _ => []
  | .recordBind _ _ => []
  | .recordUnbind _ _ => []
  | .recordClearAlarms _ _ => []
  | .scaleExport _ => []
  | .scaleImport _ => []
  | .scaleTransferDone => []
  | .hbmRowRepair _ => []
  | .poolRecordWrite _ _ _ => []
  | .poolInitComplete _ => []
  | .frameHeaderConfirm _ _ _ => []
  | .frameTrailerArrival _ _ _ _ => []
  | .putFrame _ _ => []
  | .getFrame _ _ => []
  | .getDataFrame _ _ => []
  | .atomicFrame _ _ => []
  | .atomicResultFrame _ _ => []
  | .ackFrame _ _ => []
  | .ackCoalesceTimeout _ _ _ => []
  | .errorFrame _ _ => []
  | .freeFrame _ _ => []
  | .freeResultFrame _ _ => []
  | .geometryCommit _ _ => []
  | .egressSelect _ => []
  | .shaperTick _ _ _ => []
  | .captureRingEnable _ _ => []
  | .reorderTimeout _ _ _ => []
  | .injectionUnlockWrite _ _ => []
  | .streamFrame _ _ => []
  | .streamSpillReadback _ => []
  | .streamComplete _ => []
  | .streamDetach _ _ => []
  | .engineDisable _ => []
  | .contextRecordWrite _ _ => []
  | .dispatchTokenFrame _ _ => []
  | .holdAreaReadback _ => []
  | .dispatchRowCopyFrame _ _ => []
  | .dispatchCloseFrame _ _ => []
  | .returnDoorbellStore _ _ => []
  | .returnFrame _ _ => []
  | .groupDefine _ _ => []
  | .groupUndefine _ _ => []
  | .collectiveDataFrame _ _ => []
  | .grantFrame _ _ => []
  | .countsFrame _ _ => []
  | .barrierFrame _ _ => []
  | .abortFrame _ _ => []
  | .grantResend _ _ _ => []
  | .collectiveTimeout _ _ => []
  | .collectiveAbortRequest _ _ => []
  | .portEnable _ _ => []
  | .portDisable _ _ => []
  | .portSplit _ _ => []
  | .lightDetect _ _ => []
  | .trainingLock _ _ _ => []
  | .trainingTimeout _ _ => []
  | .trainingRetry _ _ => []
  | .laneLockLoss _ _ _ => []
  | .laneRetry _ _ _ => []
  | .linkLoss _ => []
  | .linkAckReceive _ _ => []
  | .linkNakReceive _ _ => []
  | .linkCreditReceive _ _ _ => []
  | .handoverReceive _ _ _ => []
  | .nakResendTimer _ _ => []
  | .ackTimeoutReplay _ _ => []
  | .handoverTimeout _ _ => []
  | .creditRefresh _ _ => []
  | .laserBiasAdjust _ _ _ => []
  | .forcedSwap _ _ => []
  | .ringCalibration _ _ _ _ _ _ => []
  | .inputRise => []
  | .inputLow => []
  | .inputHigh => []
  | .inputPowerLoss => []
  | .enBreak => []
  | .powerRequestDormant _ => []
  | .powerRequestActive _ => []
  | .quiescenceReached => []
  | .entryDrainTimeout _ => []
  | .wakeComplete _ => []
  | .thermalLevelStep _ _ => []
  | .thermalTrip _ _ => []
  | .moduleFatal _ _ => []
  | .pllLockLoss _ => []
  | .warmReset _ => []
  | .coldResetRequest _ => []
  | .hiveReset _ _ => []
  | .portReset _ _ => []
  | .combDrain _ _ => []
  | .combRestart _ _ => []
  | .combDrained _ => []
  | .startupComplete _ => []
  | .islandReset => []
  | .islandSourceChangeover _ => []
  | .measurementTick _ _ => []
  | .piTick _ => []
  | .leakClear _ _ => []
  | .serviceOutputTest _ _ => []
  | .serviceOutputTestEnd _ => []
  | .svcOutRetry _ => []
  | .fieldRestart _ _ => []
  | .timeSyncLost _ => []
  | .barrierStateTimer _ => []
  | .barrierDictRequest _ _ => []
  | .barrierDictResult _ _ => []
  | .telemetryPushMsg _ => []
  | .coolingStateMsg _ => []
  | .wakeMsg _ => []
  | .dormantRequestMsg _ => []
  | .throttleMsg _ => []
  | .thermalTripMsg _ => []
  | .serviceFlagMsg _ _ => []
  | .timeSyncMsg _ => []
  | .attestationRequestMsg _ _ => []
  | .attestationQuoteMsg _ _ => []
  | .firmwareImageBlockMsg _ => []
  | .measureBank _ _ => []
  | .quoteNonceWrite _ _ => []
  | .attestationHostTimeout _ => []
  | .fwStage _ _ => []
  | .fwStageDone => []
  | .fwActivate _ _ => []
  | .fwConfirm _ _ => []
  | .hbmScrub _ _ => []
  | .nearStoreScrub _ _ => []
  | .programStoreScrub _ _ => []
  | .telemetrySample _ _ => []
  | .telemetryRingEnable _ _ => []
  | .snapshotRequest _ _ => []
  | .snapshotFrame => []
  | .snapshotTake _ => []
  | .delayRequestTimer _ => []
  | .delayRequestFrame _ _ => []
  | .delayResponseFrame _ => []
  | .setFabricTime _ _ => []
  | .parentLossTimeout _ => []
  | .islandPowerLoss => []
  | .enMate => []
  | .perstDeassert => []
  | .inputNormal => []
  | .hostReadCompletionTimeout _ _ _ => []
  | .policerTokenAccrual _ _ _ => []
  | .eventVectorDeferred _ => []
  | .tripResetRelease => []
  | .powerCapLevelUpdate _ => []

/-- The requester contexts a command names. -/
def contexts : Instr → List Ctx
  | .nop _ => []
  | .skip _ => []
  | .loop _ => []
  | .break_ _ => []
  | .halt _ => []
  | .yield _ => []
  | .waitSignal _ => []
  | .waitMemory _ => []
  | .waitTime _ => []
  | .signalWaitEnd _ => []
  | .memoryWaitReread _ => []
  | .timeWaitEnd _ _ => []
  | .waitTimeout _ _ => []
  | .signal _ => []
  | .fence _ => []
  | .mov _ => []
  | .add _ => []
  | .sub _ => []
  | .mul _ => []
  | .logic _ => []
  | .shift _ => []
  | .cmp _ => []
  | .plogic _ => []
  | .next _ => []
  | .dset _ => []
  | .doff _ => []
  | .load _ => []
  | .store _ => []
  | .gather _ => []
  | .scatter _ => []
  | .ldr _ => []
  | .str _ => []
  | .atom _ => []
  | .alloc _ => []
  | .free _ => []
  | .dload _ => []
  | .copy _ => []
  | .mma _ => []
  | .mma24 _ => []
  | .mmasa _ => []
  | .predict _ => []
  | .commit _ => []
  | .pack _ => []
  | .vop _ => []
  | .vcmp _ => []
  | .vsel _ => []
  | .vshuf _ => []
  | .vfma _ => []
  | .vsfu _ => []
  | .vcvt _ => []
  | .tcvt _ => []
  | .tew _ => []
  | .tred _ => []
  | .ttopk _ => []
  | .put _ => []
  | .get _ => []
  | .send _ => []
  | .cpost _ => []
  | .dispatch _ => []
  | .sattach _ => []
  | .seed _ => []
  | .step _ => []
  | .scale _ => []
  | .time _ => []
  | .ident _ => []
  | .specMultiplyRoomStart _ => []
  | .launchPortPost _ _ => []
  | .threadStart _ _ => []
  | .launchComplete _ => []
  | .combGate _ _ => []
  | .combFailure _ => []
  | .combMove _ _ => []
  | .hiveFailure _ => []
  | .bankSwapRequest c _ => [c]
  | .bankSwap _ => []
  | .debugProgramWrite c _ => [c]
  | .bar2Read _ _ => []
  | .bar2Write _ _ => []
  | .bar2RemoteReadTimeout _ _ => []
  | .windowBaseWrite _ => []
  | .queuePairEnable _ _ => []
  | .queuePairDisable _ => []
  | .queuePairDrained _ => []
  | .sqTailDoorbell _ _ => []
  | .cqHeadDoorbell _ _ => []
  | .sqNop _ => []
  | .sqDmaToModule _ => []
  | .sqDmaToHost _ => []
  | .sqLaunch _ => []
  | .sqPost _ => []
  | .sqDictionary _ => []
  | .sqFree _ => []
  | .sqEntryComplete _ _ => []
  | .hostReceiveFrame _ => []
  | .hostReceiveTimeout _ _ => []
  | .hostPortReset _ => []
  | .perstAssert => []
  | .pcieL1Entry _ => []
  | .dictRead c _ _ _ _ => [c]
  | .dictWrite c _ _ _ _ => [c]
  | .dictDescribe c _ _ => [c]
  | .dictDescribeNext c _ _ => [c]
  | .dictWindowGo _ => []
  | .managementFrame => []
  | .managementResultFrame => []
  | .dictRemoteTimeout _ _ => []
  | .vdpFrame _ _ => []
  | .unlockChallengeRead c => [c]
  | .unlockResponseWrite c _ => [c]
  | .challengeExpiry c _ => [c]
  | .lockWrite c _ => [c]
  | .roleTimeout c _ => [c]
  | .storeCommit c => [c]
  | .storeCommitDone _ => []
  | .storeRevert c => [c]
  | .storeClear c => [c]
  | .registerWrite c _ _ _ _ => [c]
  | .recordBind c _ => [c]
  | .recordUnbind c _ => [c]
  | .recordClearAlarms c _ => [c]
  | .scaleExport c => [c]
  | .scaleImport c => [c]
  | .scaleTransferDone => []
  | .hbmRowRepair _ => []
  | .poolRecordWrite c _ _ => [c]
  | .poolInitComplete _ => []
  | .frameHeaderConfirm _ _ _ => []
  | .frameTrailerArrival _ _ _ _ => []
  | .putFrame _ _ => []
  | .getFrame _ _ => []
  | .getDataFrame _ _ => []
  | .atomicFrame _ _ => []
  | .atomicResultFrame _ _ => []
  | .ackFrame _ _ => []
  | .ackCoalesceTimeout _ _ _ => []
  | .errorFrame _ _ => []
  | .freeFrame _ _ => []
  | .freeResultFrame _ _ => []
  | .geometryCommit c _ => [c]
  | .egressSelect _ => []
  | .shaperTick _ _ _ => []
  | .captureRingEnable c _ => [c]
  | .reorderTimeout _ _ _ => []
  | .injectionUnlockWrite c _ => [c]
  | .streamFrame _ _ => []
  | .streamSpillReadback _ => []
  | .streamComplete _ => []
  | .streamDetach c _ => [c]
  | .engineDisable _ => []
  | .contextRecordWrite c _ => [c]
  | .dispatchTokenFrame _ _ => []
  | .holdAreaReadback _ => []
  | .dispatchRowCopyFrame _ _ => []
  | .dispatchCloseFrame _ _ => []
  | .returnDoorbellStore _ _ => []
  | .returnFrame _ _ => []
  | .groupDefine c _ => [c]
  | .groupUndefine c _ => [c]
  | .collectiveDataFrame _ _ => []
  | .grantFrame _ _ => []
  | .countsFrame _ _ => []
  | .barrierFrame _ _ => []
  | .abortFrame _ _ => []
  | .grantResend _ _ _ => []
  | .collectiveTimeout _ _ => []
  | .collectiveAbortRequest c _ => [c]
  | .portEnable c _ => [c]
  | .portDisable c _ => [c]
  | .portSplit c _ => [c]
  | .lightDetect _ _ => []
  | .trainingLock _ _ _ => []
  | .trainingTimeout _ _ => []
  | .trainingRetry _ _ => []
  | .laneLockLoss _ _ _ => []
  | .laneRetry _ _ _ => []
  | .linkLoss _ => []
  | .linkAckReceive _ _ => []
  | .linkNakReceive _ _ => []
  | .linkCreditReceive _ _ _ => []
  | .handoverReceive _ _ _ => []
  | .nakResendTimer _ _ => []
  | .ackTimeoutReplay _ _ => []
  | .handoverTimeout _ _ => []
  | .creditRefresh _ _ => []
  | .laserBiasAdjust _ _ _ => []
  | .forcedSwap c _ => [c]
  | .ringCalibration _ _ _ _ _ _ => []
  | .inputRise => []
  | .inputLow => []
  | .inputHigh => []
  | .inputPowerLoss => []
  | .enBreak => []
  | .powerRequestDormant c => [c]
  | .powerRequestActive c => [c]
  | .quiescenceReached => []
  | .entryDrainTimeout _ => []
  | .wakeComplete _ => []
  | .thermalLevelStep _ _ => []
  | .thermalTrip _ _ => []
  | .moduleFatal _ _ => []
  | .pllLockLoss _ => []
  | .warmReset c => [c]
  | .coldResetRequest c => [c]
  | .hiveReset c _ => [c]
  | .portReset c _ => [c]
  | .combDrain c _ => [c]
  | .combRestart c _ => [c]
  | .combDrained _ => []
  | .startupComplete _ => []
  | .islandReset => []
  | .islandSourceChangeover _ => []
  | .measurementTick _ _ => []
  | .piTick _ => []
  | .leakClear c _ => [c]
  | .serviceOutputTest c _ => [c]
  | .serviceOutputTestEnd _ => []
  | .svcOutRetry _ => []
  | .fieldRestart c _ => [c]
  | .timeSyncLost _ => []
  | .barrierStateTimer _ => []
  | .barrierDictRequest _ _ => []
  | .barrierDictResult _ _ => []
  | .telemetryPushMsg _ => []
  | .coolingStateMsg _ => []
  | .wakeMsg _ => []
  | .dormantRequestMsg _ => []
  | .throttleMsg _ => []
  | .thermalTripMsg _ => []
  | .serviceFlagMsg _ _ => []
  | .timeSyncMsg _ => []
  | .attestationRequestMsg _ _ => []
  | .attestationQuoteMsg _ _ => []
  | .firmwareImageBlockMsg _ => []
  | .measureBank c _ => [c]
  | .quoteNonceWrite c _ => [c]
  | .attestationHostTimeout _ => []
  | .fwStage c _ => [c]
  | .fwStageDone => []
  | .fwActivate c _ => [c]
  | .fwConfirm c _ => [c]
  | .hbmScrub _ _ => []
  | .nearStoreScrub _ _ => []
  | .programStoreScrub _ _ => []
  | .telemetrySample _ _ => []
  | .telemetryRingEnable c _ => [c]
  | .snapshotRequest c _ => [c]
  | .snapshotFrame => []
  | .snapshotTake _ => []
  | .delayRequestTimer _ => []
  | .delayRequestFrame _ _ => []
  | .delayResponseFrame _ => []
  | .setFabricTime c _ => [c]
  | .parentLossTimeout _ => []
  | .islandPowerLoss => []
  | .enMate => []
  | .perstDeassert => []
  | .inputNormal => []
  | .hostReadCompletionTimeout _ _ _ => []
  | .policerTokenAccrual _ _ _ => []
  | .eventVectorDeferred _ => []
  | .tripResetRelease => []
  | .powerCapLevelUpdate _ => []

/-- A well-formed command names only thread slots and contexts that exist. -/
def Statement (i : Instr) : Prop :=
  i.wf = true → (slots i).all SlotId.wf = true ∧ (contexts i).all Ctx.wf = true

theorem slot_alone {i : SlotId} (h : i.wf = true) : [i].all SlotId.wf = true ∧ ([] : List Ctx).all Ctx.wf = true := by
  simp [h]

theorem context_alone {c : Ctx} (h : c.wf = true) : ([] : List SlotId).all SlotId.wf = true ∧ [c].all Ctx.wf = true := by
  simp [h]

theorem nop (s : SlotId) : Statement (.nop s) := slot_alone
theorem skip (s : SlotId) : Statement (.skip s) := slot_alone
theorem loop (s : SlotId) : Statement (.loop s) := slot_alone
theorem break_ (s : SlotId) : Statement (.break_ s) := slot_alone
theorem halt (s : SlotId) : Statement (.halt s) := slot_alone
theorem yield (s : SlotId) : Statement (.yield s) := slot_alone
theorem waitSignal (s : SlotId) : Statement (.waitSignal s) := slot_alone
theorem waitMemory (s : SlotId) : Statement (.waitMemory s) := slot_alone
theorem waitTime (s : SlotId) : Statement (.waitTime s) := slot_alone
theorem signalWaitEnd (s : SlotId) : Statement (.signalWaitEnd s) := slot_alone
theorem memoryWaitReread (s : SlotId) : Statement (.memoryWaitReread s) := slot_alone
theorem timeWaitEnd (s : SlotId) (at_ : Nat) : Statement (.timeWaitEnd s at_) := slot_alone
theorem waitTimeout (s : SlotId) (at_ : Nat) : Statement (.waitTimeout s at_) := slot_alone
theorem signal (s : SlotId) : Statement (.signal s) := slot_alone
theorem fence (s : SlotId) : Statement (.fence s) := slot_alone
theorem mov (s : SlotId) : Statement (.mov s) := slot_alone
theorem add (s : SlotId) : Statement (.add s) := slot_alone
theorem sub (s : SlotId) : Statement (.sub s) := slot_alone
theorem mul (s : SlotId) : Statement (.mul s) := slot_alone
theorem logic (s : SlotId) : Statement (.logic s) := slot_alone
theorem shift (s : SlotId) : Statement (.shift s) := slot_alone
theorem cmp (s : SlotId) : Statement (.cmp s) := slot_alone
theorem plogic (s : SlotId) : Statement (.plogic s) := slot_alone
theorem next (s : SlotId) : Statement (.next s) := slot_alone
theorem dset (s : SlotId) : Statement (.dset s) := slot_alone
theorem doff (s : SlotId) : Statement (.doff s) := slot_alone
theorem load (s : SlotId) : Statement (.load s) := slot_alone
theorem store (s : SlotId) : Statement (.store s) := slot_alone
theorem gather (s : SlotId) : Statement (.gather s) := slot_alone
theorem scatter (s : SlotId) : Statement (.scatter s) := slot_alone
theorem ldr (s : SlotId) : Statement (.ldr s) := slot_alone
theorem str (s : SlotId) : Statement (.str s) := slot_alone
theorem atom (s : SlotId) : Statement (.atom s) := slot_alone
theorem alloc (s : SlotId) : Statement (.alloc s) := slot_alone
theorem free (s : SlotId) : Statement (.free s) := slot_alone
theorem dload (s : SlotId) : Statement (.dload s) := slot_alone
theorem copy (s : SlotId) : Statement (.copy s) := slot_alone
theorem mma (s : SlotId) : Statement (.mma s) := slot_alone
theorem mma24 (s : SlotId) : Statement (.mma24 s) := slot_alone
theorem mmasa (s : SlotId) : Statement (.mmasa s) := slot_alone
theorem predict (s : SlotId) : Statement (.predict s) := slot_alone
theorem commit (s : SlotId) : Statement (.commit s) := slot_alone
theorem pack (s : SlotId) : Statement (.pack s) := slot_alone
theorem vop (s : SlotId) : Statement (.vop s) := slot_alone
theorem vcmp (s : SlotId) : Statement (.vcmp s) := slot_alone
theorem vsel (s : SlotId) : Statement (.vsel s) := slot_alone
theorem vshuf (s : SlotId) : Statement (.vshuf s) := slot_alone
theorem vfma (s : SlotId) : Statement (.vfma s) := slot_alone
theorem vsfu (s : SlotId) : Statement (.vsfu s) := slot_alone
theorem vcvt (s : SlotId) : Statement (.vcvt s) := slot_alone
theorem tcvt (s : SlotId) : Statement (.tcvt s) := slot_alone
theorem tew (s : SlotId) : Statement (.tew s) := slot_alone
theorem tred (s : SlotId) : Statement (.tred s) := slot_alone
theorem ttopk (s : SlotId) : Statement (.ttopk s) := slot_alone
theorem put (s : SlotId) : Statement (.put s) := slot_alone
theorem get (s : SlotId) : Statement (.get s) := slot_alone
theorem send (s : SlotId) : Statement (.send s) := slot_alone
theorem cpost (s : SlotId) : Statement (.cpost s) := slot_alone
theorem dispatch (s : SlotId) : Statement (.dispatch s) := slot_alone
theorem sattach (s : SlotId) : Statement (.sattach s) := slot_alone
theorem seed (s : SlotId) : Statement (.seed s) := slot_alone
theorem step (s : SlotId) : Statement (.step s) := slot_alone
theorem scale (s : SlotId) : Statement (.scale s) := slot_alone
theorem time (s : SlotId) : Statement (.time s) := slot_alone
theorem ident (s : SlotId) : Statement (.ident s) := slot_alone
theorem specMultiplyRoomStart (s : SlotId) : Statement (.specMultiplyRoomStart s) := slot_alone
theorem launchPortPost (s : SlotId) (data : W64) : Statement (.launchPortPost s data) := slot_alone
theorem threadStart (launch : Nat) (comb : Nat) : Statement (.threadStart launch comb) := fun _ => ⟨rfl, rfl⟩
theorem launchComplete (launch : Nat) : Statement (.launchComplete launch) := fun _ => ⟨rfl, rfl⟩
theorem combGate (comb : Nat) (at_ : Nat) : Statement (.combGate comb at_) := fun _ => ⟨rfl, rfl⟩
theorem combFailure (comb : Nat) : Statement (.combFailure comb) := fun _ => ⟨rfl, rfl⟩
theorem combMove (comb : Nat) (spare : Nat) : Statement (.combMove comb spare) := fun _ => ⟨rfl, rfl⟩
theorem hiveFailure (hive : Nat) : Statement (.hiveFailure hive) := fun _ => ⟨rfl, rfl⟩
theorem bankSwapRequest (c : Ctx) (v : W64) : Statement (.bankSwapRequest c v) := context_alone
theorem bankSwap (comb : Nat) : Statement (.bankSwap comb) := fun _ => ⟨rfl, rfl⟩
theorem debugProgramWrite (c : Ctx) (data : List Byte) : Statement (.debugProgramWrite c data) := by
  intro h; simp_all [slots, contexts, Instr.wf]
theorem bar2Read (offset : HostOffset) (length : Nat) : Statement (.bar2Read offset length) := fun _ => ⟨rfl, rfl⟩
theorem bar2Write (offset : HostOffset) (data : HostData) : Statement (.bar2Write offset data) := fun _ => ⟨rfl, rfl⟩
theorem bar2RemoteReadTimeout (tag : Nat) (at_ : Nat) : Statement (.bar2RemoteReadTimeout tag at_) := fun _ => ⟨rfl, rfl⟩
theorem windowBaseWrite (v : W64) : Statement (.windowBaseWrite v) := fun _ => ⟨rfl, rfl⟩
theorem queuePairEnable (q : Nat) (v : W512) : Statement (.queuePairEnable q v) := fun _ => ⟨rfl, rfl⟩
theorem queuePairDisable (q : Nat) : Statement (.queuePairDisable q) := fun _ => ⟨rfl, rfl⟩
theorem queuePairDrained (q : Nat) : Statement (.queuePairDrained q) := fun _ => ⟨rfl, rfl⟩
theorem sqTailDoorbell (q : Nat) (v : W64) : Statement (.sqTailDoorbell q v) := fun _ => ⟨rfl, rfl⟩
theorem cqHeadDoorbell (q : Nat) (v : W64) : Statement (.cqHeadDoorbell q v) := fun _ => ⟨rfl, rfl⟩
theorem sqNop (q : Nat) : Statement (.sqNop q) := fun _ => ⟨rfl, rfl⟩
theorem sqDmaToModule (q : Nat) : Statement (.sqDmaToModule q) := fun _ => ⟨rfl, rfl⟩
theorem sqDmaToHost (q : Nat) : Statement (.sqDmaToHost q) := fun _ => ⟨rfl, rfl⟩
theorem sqLaunch (q : Nat) : Statement (.sqLaunch q) := fun _ => ⟨rfl, rfl⟩
theorem sqPost (q : Nat) : Statement (.sqPost q) := fun _ => ⟨rfl, rfl⟩
theorem sqDictionary (q : Nat) : Statement (.sqDictionary q) := fun _ => ⟨rfl, rfl⟩
theorem sqFree (q : Nat) : Statement (.sqFree q) := fun _ => ⟨rfl, rfl⟩
theorem sqEntryComplete (q : Nat) (entry : Nat) : Statement (.sqEntryComplete q entry) := fun _ => ⟨rfl, rfl⟩
theorem hostReceiveFrame (tc : Nat) : Statement (.hostReceiveFrame tc) := fun _ => ⟨rfl, rfl⟩
theorem hostReceiveTimeout (tc : Nat) (at_ : Nat) : Statement (.hostReceiveTimeout tc at_) := fun _ => ⟨rfl, rfl⟩
theorem hostPortReset (cause : HostResetCause) : Statement (.hostPortReset cause) := fun _ => ⟨rfl, rfl⟩
theorem perstAssert : Statement (.perstAssert) := fun _ => ⟨rfl, rfl⟩
theorem pcieL1Entry (at_ : Nat) : Statement (.pcieL1Entry at_) := fun _ => ⟨rfl, rfl⟩
theorem dictRead (c : Ctx) (index : Nat) (subindex : Nat) (offset : Nat) (length : Nat) : Statement (.dictRead c index subindex offset length) := by
  intro h; simp_all [slots, contexts, Instr.wf]
theorem dictWrite (c : Ctx) (index : Nat) (subindex : Nat) (offset : Nat) (data : List Byte) : Statement (.dictWrite c index subindex offset data) := by
  intro h; simp_all [slots, contexts, Instr.wf]
theorem dictDescribe (c : Ctx) (index : Nat) (subindex : Nat) : Statement (.dictDescribe c index subindex) := by
  intro h; simp_all [slots, contexts, Instr.wf]
theorem dictDescribeNext (c : Ctx) (index : Nat) (subindex : Nat) : Statement (.dictDescribeNext c index subindex) := by
  intro h; simp_all [slots, contexts, Instr.wf]
theorem dictWindowGo (length : W32) : Statement (.dictWindowGo length) := fun _ => ⟨rfl, rfl⟩
theorem managementFrame : Statement (.managementFrame) := fun _ => ⟨rfl, rfl⟩
theorem managementResultFrame : Statement (.managementResultFrame) := fun _ => ⟨rfl, rfl⟩
theorem dictRemoteTimeout (tag : Nat) (at_ : Nat) : Statement (.dictRemoteTimeout tag at_) := fun _ => ⟨rfl, rfl⟩
theorem vdpFrame (mac : Nat) (payload : List Byte) : Statement (.vdpFrame mac payload) := fun _ => ⟨rfl, rfl⟩
theorem unlockChallengeRead (c : Ctx) : Statement (.unlockChallengeRead c) := context_alone
theorem unlockResponseWrite (c : Ctx) (data : List Byte) : Statement (.unlockResponseWrite c data) := by
  intro h; simp_all [slots, contexts, Instr.wf]
theorem challengeExpiry (c : Ctx) (at_ : Nat) : Statement (.challengeExpiry c at_) := context_alone
theorem lockWrite (c : Ctx) (v : Byte) : Statement (.lockWrite c v) := context_alone
theorem roleTimeout (c : Ctx) (at_ : Nat) : Statement (.roleTimeout c at_) := context_alone
theorem storeCommit (c : Ctx) : Statement (.storeCommit c) := context_alone
theorem storeCommitDone (verified : Bool) : Statement (.storeCommitDone verified) := fun _ => ⟨rfl, rfl⟩
theorem storeRevert (c : Ctx) : Statement (.storeRevert c) := context_alone
theorem storeClear (c : Ctx) : Statement (.storeClear c) := context_alone
theorem registerWrite (c : Ctx) (index : Nat) (subindex : Nat) (offset : Nat) (data : List Byte) : Statement (.registerWrite c index subindex offset data) := by
  intro h; simp_all [slots, contexts, Instr.wf]
theorem recordBind (c : Ctx) (v : W64) : Statement (.recordBind c v) := context_alone
theorem recordUnbind (c : Ctx) (v : W64) : Statement (.recordUnbind c v) := context_alone
theorem recordClearAlarms (c : Ctx) (v : W64) : Statement (.recordClearAlarms c v) := context_alone
theorem scaleExport (c : Ctx) : Statement (.scaleExport c) := context_alone
theorem scaleImport (c : Ctx) : Statement (.scaleImport c) := context_alone
theorem scaleTransferDone : Statement (.scaleTransferDone) := fun _ => ⟨rfl, rfl⟩
theorem hbmRowRepair (row : Nat) : Statement (.hbmRowRepair row) := fun _ => ⟨rfl, rfl⟩
theorem poolRecordWrite (c : Ctx) (pool : Nat) (v : W256) : Statement (.poolRecordWrite c pool v) := by
  intro h; simp_all [slots, contexts, Instr.wf]
theorem poolInitComplete (pool : Nat) : Statement (.poolInitComplete pool) := fun _ => ⟨rfl, rfl⟩
theorem frameHeaderConfirm (link : Nat) (lh : LinkHeader) (header : W256) : Statement (.frameHeaderConfirm link lh header) := fun _ => ⟨rfl, rfl⟩
theorem frameTrailerArrival (link : Nat) (payload : List Byte) (trailer : W64) (codewordOk : Bool) : Statement (.frameTrailerArrival link payload trailer codewordOk) := fun _ => ⟨rfl, rfl⟩
theorem putFrame (port : Nat) (tc : Nat) : Statement (.putFrame port tc) := fun _ => ⟨rfl, rfl⟩
theorem getFrame (port : Nat) (tc : Nat) : Statement (.getFrame port tc) := fun _ => ⟨rfl, rfl⟩
theorem getDataFrame (port : Nat) (tc : Nat) : Statement (.getDataFrame port tc) := fun _ => ⟨rfl, rfl⟩
theorem atomicFrame (port : Nat) (tc : Nat) : Statement (.atomicFrame port tc) := fun _ => ⟨rfl, rfl⟩
theorem atomicResultFrame (port : Nat) (tc : Nat) : Statement (.atomicResultFrame port tc) := fun _ => ⟨rfl, rfl⟩
theorem ackFrame (port : Nat) (tc : Nat) : Statement (.ackFrame port tc) := fun _ => ⟨rfl, rfl⟩
theorem ackCoalesceTimeout (node : Nat) (tc : Nat) (at_ : Nat) : Statement (.ackCoalesceTimeout node tc at_) := fun _ => ⟨rfl, rfl⟩
theorem errorFrame (port : Nat) (tc : Nat) : Statement (.errorFrame port tc) := fun _ => ⟨rfl, rfl⟩
theorem freeFrame (port : Nat) (tc : Nat) : Statement (.freeFrame port tc) := fun _ => ⟨rfl, rfl⟩
theorem freeResultFrame (port : Nat) (tc : Nat) : Statement (.freeResultFrame port tc) := fun _ => ⟨rfl, rfl⟩
theorem geometryCommit (c : Ctx) (v : Byte) : Statement (.geometryCommit c v) := context_alone
theorem egressSelect (port : Nat) : Statement (.egressSelect port) := fun _ => ⟨rfl, rfl⟩
theorem shaperTick (port : Nat) (tc : Nat) (at_ : Nat) : Statement (.shaperTick port tc at_) := fun _ => ⟨rfl, rfl⟩
theorem captureRingEnable (c : Ctx) (v : Byte) : Statement (.captureRingEnable c v) := context_alone
theorem reorderTimeout (port : Nat) (tc : Nat) (at_ : Nat) : Statement (.reorderTimeout port tc at_) := fun _ => ⟨rfl, rfl⟩
theorem injectionUnlockWrite (c : Ctx) (v : Byte) : Statement (.injectionUnlockWrite c v) := context_alone
theorem streamFrame (port : Nat) (tc : Nat) : Statement (.streamFrame port tc) := fun _ => ⟨rfl, rfl⟩
theorem streamSpillReadback (handle : Nat) : Statement (.streamSpillReadback handle) := fun _ => ⟨rfl, rfl⟩
theorem streamComplete (handle : Nat) : Statement (.streamComplete handle) := fun _ => ⟨rfl, rfl⟩
theorem streamDetach (c : Ctx) (v : BitVec 16) : Statement (.streamDetach c v) := context_alone
theorem engineDisable (engine : Nat) : Statement (.engineDisable engine) := fun _ => ⟨rfl, rfl⟩
theorem contextRecordWrite (c : Ctx) (v : W512) : Statement (.contextRecordWrite c v) := context_alone
theorem dispatchTokenFrame (port : Nat) (tc : Nat) : Statement (.dispatchTokenFrame port tc) := fun _ => ⟨rfl, rfl⟩
theorem holdAreaReadback (context : Nat) : Statement (.holdAreaReadback context) := fun _ => ⟨rfl, rfl⟩
theorem dispatchRowCopyFrame (port : Nat) (tc : Nat) : Statement (.dispatchRowCopyFrame port tc) := fun _ => ⟨rfl, rfl⟩
theorem dispatchCloseFrame (port : Nat) (tc : Nat) : Statement (.dispatchCloseFrame port tc) := fun _ => ⟨rfl, rfl⟩
theorem returnDoorbellStore (expert : Nat) (v : W64) : Statement (.returnDoorbellStore expert v) := fun _ => ⟨rfl, rfl⟩
theorem returnFrame (port : Nat) (tc : Nat) : Statement (.returnFrame port tc) := fun _ => ⟨rfl, rfl⟩
theorem groupDefine (c : Ctx) (v : W256) : Statement (.groupDefine c v) := context_alone
theorem groupUndefine (c : Ctx) (v : W256) : Statement (.groupUndefine c v) := context_alone
theorem collectiveDataFrame (port : Nat) (tc : Nat) : Statement (.collectiveDataFrame port tc) := fun _ => ⟨rfl, rfl⟩
theorem grantFrame (port : Nat) (tc : Nat) : Statement (.grantFrame port tc) := fun _ => ⟨rfl, rfl⟩
theorem countsFrame (port : Nat) (tc : Nat) : Statement (.countsFrame port tc) := fun _ => ⟨rfl, rfl⟩
theorem barrierFrame (port : Nat) (tc : Nat) : Statement (.barrierFrame port tc) := fun _ => ⟨rfl, rfl⟩
theorem abortFrame (port : Nat) (tc : Nat) : Statement (.abortFrame port tc) := fun _ => ⟨rfl, rfl⟩
theorem grantResend (collective : Nat) (stream : Nat) (at_ : Nat) : Statement (.grantResend collective stream at_) := fun _ => ⟨rfl, rfl⟩
theorem collectiveTimeout (collective : Nat) (at_ : Nat) : Statement (.collectiveTimeout collective at_) := fun _ => ⟨rfl, rfl⟩
theorem collectiveAbortRequest (c : Ctx) (v : W64) : Statement (.collectiveAbortRequest c v) := context_alone
theorem portEnable (c : Ctx) (v : Byte) : Statement (.portEnable c v) := context_alone
theorem portDisable (c : Ctx) (v : Byte) : Statement (.portDisable c v) := context_alone
theorem portSplit (c : Ctx) (v : Byte) : Statement (.portSplit c v) := context_alone
theorem lightDetect (link : Nat) (lanes : Byte) : Statement (.lightDetect link lanes) := fun _ => ⟨rfl, rfl⟩
theorem trainingLock (link : Nat) (lanes : Byte) (partner : PartnerId) : Statement (.trainingLock link lanes partner) := fun _ => ⟨rfl, rfl⟩
theorem trainingTimeout (link : Nat) (at_ : Nat) : Statement (.trainingTimeout link at_) := fun _ => ⟨rfl, rfl⟩
theorem trainingRetry (link : Nat) (at_ : Nat) : Statement (.trainingRetry link at_) := fun _ => ⟨rfl, rfl⟩
theorem laneLockLoss (link : Nat) (lane : Nat) (at_ : Nat) : Statement (.laneLockLoss link lane at_) := fun _ => ⟨rfl, rfl⟩
theorem laneRetry (link : Nat) (lane : Nat) (at_ : Nat) : Statement (.laneRetry link lane at_) := fun _ => ⟨rfl, rfl⟩
theorem linkLoss (link : Nat) : Statement (.linkLoss link) := fun _ => ⟨rfl, rfl⟩
theorem linkAckReceive (link : Nat) (next_ : Nat) : Statement (.linkAckReceive link next_) := fun _ => ⟨rfl, rfl⟩
theorem linkNakReceive (link : Nat) (next_ : Nat) : Statement (.linkNakReceive link next_) := fun _ => ⟨rfl, rfl⟩
theorem linkCreditReceive (link : Nat) (channel : Nat) (granted : Nat) : Statement (.linkCreditReceive link channel granted) := fun _ => ⟨rfl, rfl⟩
theorem handoverReceive (link : Nat) (lost : Nat) (next_ : Nat) : Statement (.handoverReceive link lost next_) := fun _ => ⟨rfl, rfl⟩
theorem nakResendTimer (link : Nat) (at_ : Nat) : Statement (.nakResendTimer link at_) := fun _ => ⟨rfl, rfl⟩
theorem ackTimeoutReplay (link : Nat) (at_ : Nat) : Statement (.ackTimeoutReplay link at_) := fun _ => ⟨rfl, rfl⟩
theorem handoverTimeout (link : Nat) (at_ : Nat) : Statement (.handoverTimeout link at_) := fun _ => ⟨rfl, rfl⟩
theorem creditRefresh (link : Nat) (at_ : Nat) : Statement (.creditRefresh link at_) := fun _ => ⟨rfl, rfl⟩
theorem laserBiasAdjust (bank : Nat) (readings : List LaserReading) (at_ : Nat) : Statement (.laserBiasAdjust bank readings at_) := fun _ => ⟨rfl, rfl⟩
theorem forcedSwap (c : Ctx) (v : Byte) : Statement (.forcedSwap c v) := context_alone
theorem ringCalibration (port : Nat) (lane : Nat) (transmit : Bool) (heater : Nat) (locks : Bool) (at_ : Nat) : Statement (.ringCalibration port lane transmit heater locks at_) := fun _ => ⟨rfl, rfl⟩
theorem inputRise : Statement (.inputRise) := fun _ => ⟨rfl, rfl⟩
theorem inputLow : Statement (.inputLow) := fun _ => ⟨rfl, rfl⟩
theorem inputHigh : Statement (.inputHigh) := fun _ => ⟨rfl, rfl⟩
theorem inputPowerLoss : Statement (.inputPowerLoss) := fun _ => ⟨rfl, rfl⟩
theorem enBreak : Statement (.enBreak) := fun _ => ⟨rfl, rfl⟩
theorem powerRequestDormant (c : Ctx) : Statement (.powerRequestDormant c) := context_alone
theorem powerRequestActive (c : Ctx) : Statement (.powerRequestActive c) := context_alone
theorem quiescenceReached : Statement (.quiescenceReached) := fun _ => ⟨rfl, rfl⟩
theorem entryDrainTimeout (at_ : Nat) : Statement (.entryDrainTimeout at_) := fun _ => ⟨rfl, rfl⟩
theorem wakeComplete (at_ : Nat) : Statement (.wakeComplete at_) := fun _ => ⟨rfl, rfl⟩
theorem thermalLevelStep (temps : List Int) (at_ : Nat) : Statement (.thermalLevelStep temps at_) := fun _ => ⟨rfl, rfl⟩
theorem thermalTrip (die : Nat) (temp : Int) : Statement (.thermalTrip die temp) := fun _ => ⟨rfl, rfl⟩
theorem moduleFatal (cause : Nat) (unit : Nat) : Statement (.moduleFatal cause unit) := fun _ => ⟨rfl, rfl⟩
theorem pllLockLoss (unit : Nat) : Statement (.pllLockLoss unit) := fun _ => ⟨rfl, rfl⟩
theorem warmReset (c : Ctx) : Statement (.warmReset c) := context_alone
theorem coldResetRequest (c : Ctx) : Statement (.coldResetRequest c) := context_alone
theorem hiveReset (c : Ctx) (v : Byte) : Statement (.hiveReset c v) := context_alone
theorem portReset (c : Ctx) (v : Byte) : Statement (.portReset c v) := context_alone
theorem combDrain (c : Ctx) (v : W64) : Statement (.combDrain c v) := context_alone
theorem combRestart (c : Ctx) (v : W64) : Statement (.combRestart c v) := context_alone
theorem combDrained (comb : Nat) : Statement (.combDrained comb) := fun _ => ⟨rfl, rfl⟩
theorem startupComplete (test : SelfTest) : Statement (.startupComplete test) := fun _ => ⟨rfl, rfl⟩
theorem islandReset : Statement (.islandReset) := fun _ => ⟨rfl, rfl⟩
theorem islandSourceChangeover (fieldVolts : Rat) : Statement (.islandSourceChangeover fieldVolts) := fun _ => ⟨rfl, rfl⟩
theorem measurementTick (m : FieldReadings) (at_ : Nat) : Statement (.measurementTick m at_) := fun _ => ⟨rfl, rfl⟩
theorem piTick (at_ : Nat) : Statement (.piTick at_) := fun _ => ⟨rfl, rfl⟩
theorem leakClear (c : Ctx) (v : Byte) : Statement (.leakClear c v) := context_alone
theorem serviceOutputTest (c : Ctx) (v : Byte) : Statement (.serviceOutputTest c v) := context_alone
theorem serviceOutputTestEnd (at_ : Nat) : Statement (.serviceOutputTestEnd at_) := fun _ => ⟨rfl, rfl⟩
theorem svcOutRetry (at_ : Nat) : Statement (.svcOutRetry at_) := fun _ => ⟨rfl, rfl⟩
theorem fieldRestart (c : Ctx) (v : Byte) : Statement (.fieldRestart c v) := context_alone
theorem timeSyncLost (at_ : Nat) : Statement (.timeSyncLost at_) := fun _ => ⟨rfl, rfl⟩
theorem barrierStateTimer (at_ : Nat) : Statement (.barrierStateTimer at_) := fun _ => ⟨rfl, rfl⟩
theorem barrierDictRequest (toIsland : Bool) (intact : Bool) : Statement (.barrierDictRequest toIsland intact) := fun _ => ⟨rfl, rfl⟩
theorem barrierDictResult (toIsland : Bool) (intact : Bool) : Statement (.barrierDictResult toIsland intact) := fun _ => ⟨rfl, rfl⟩
theorem telemetryPushMsg (intact : Bool) : Statement (.telemetryPushMsg intact) := fun _ => ⟨rfl, rfl⟩
theorem coolingStateMsg (intact : Bool) : Statement (.coolingStateMsg intact) := fun _ => ⟨rfl, rfl⟩
theorem wakeMsg (intact : Bool) : Statement (.wakeMsg intact) := fun _ => ⟨rfl, rfl⟩
theorem dormantRequestMsg (intact : Bool) : Statement (.dormantRequestMsg intact) := fun _ => ⟨rfl, rfl⟩
theorem throttleMsg (intact : Bool) : Statement (.throttleMsg intact) := fun _ => ⟨rfl, rfl⟩
theorem thermalTripMsg (intact : Bool) : Statement (.thermalTripMsg intact) := fun _ => ⟨rfl, rfl⟩
theorem serviceFlagMsg (toIsland : Bool) (intact : Bool) : Statement (.serviceFlagMsg toIsland intact) := fun _ => ⟨rfl, rfl⟩
theorem timeSyncMsg (intact : Bool) : Statement (.timeSyncMsg intact) := fun _ => ⟨rfl, rfl⟩
theorem attestationRequestMsg (toIsland : Bool) (intact : Bool) : Statement (.attestationRequestMsg toIsland intact) := fun _ => ⟨rfl, rfl⟩
theorem attestationQuoteMsg (toIsland : Bool) (intact : Bool) : Statement (.attestationQuoteMsg toIsland intact) := fun _ => ⟨rfl, rfl⟩
theorem firmwareImageBlockMsg (intact : Bool) : Statement (.firmwareImageBlockMsg intact) := fun _ => ⟨rfl, rfl⟩
theorem measureBank (c : Ctx) (v : W32) : Statement (.measureBank c v) := context_alone
theorem quoteNonceWrite (c : Ctx) (nonce : List Byte) : Statement (.quoteNonceWrite c nonce) := by
  intro h; simp_all [slots, contexts, Instr.wf]
theorem attestationHostTimeout (at_ : Nat) : Statement (.attestationHostTimeout at_) := fun _ => ⟨rfl, rfl⟩
theorem fwStage (c : Ctx) (v : Byte) : Statement (.fwStage c v) := context_alone
theorem fwStageDone : Statement (.fwStageDone) := fun _ => ⟨rfl, rfl⟩
theorem fwActivate (c : Ctx) (v : Byte) : Statement (.fwActivate c v) := context_alone
theorem fwConfirm (c : Ctx) (v : Byte) : Statement (.fwConfirm c v) := context_alone
theorem hbmScrub (address : Nat) (found : ScrubFinding) : Statement (.hbmScrub address found) := fun _ => ⟨rfl, rfl⟩
theorem nearStoreScrub (address : Nat) (found : ScrubFinding) : Statement (.nearStoreScrub address found) := fun _ => ⟨rfl, rfl⟩
theorem programStoreScrub (address : Nat) (found : ScrubFinding) : Statement (.programStoreScrub address found) := fun _ => ⟨rfl, rfl⟩
theorem telemetrySample (m : SampleFigures) (at_ : Nat) : Statement (.telemetrySample m at_) := fun _ => ⟨rfl, rfl⟩
theorem telemetryRingEnable (c : Ctx) (v : Byte) : Statement (.telemetryRingEnable c v) := context_alone
theorem snapshotRequest (c : Ctx) (t : W64) : Statement (.snapshotRequest c t) := context_alone
theorem snapshotFrame : Statement (.snapshotFrame) := fun _ => ⟨rfl, rfl⟩
theorem snapshotTake (at_ : Nat) : Statement (.snapshotTake at_) := fun _ => ⟨rfl, rfl⟩
theorem delayRequestTimer (at_ : Nat) : Statement (.delayRequestTimer at_) := fun _ => ⟨rfl, rfl⟩
theorem delayRequestFrame (t2 : Nat) (t3 : Nat) : Statement (.delayRequestFrame t2 t3) := fun _ => ⟨rfl, rfl⟩
theorem delayResponseFrame (t4 : Nat) : Statement (.delayResponseFrame t4) := fun _ => ⟨rfl, rfl⟩
theorem setFabricTime (c : Ctx) (t : W64) : Statement (.setFabricTime c t) := context_alone
theorem parentLossTimeout (at_ : Nat) : Statement (.parentLossTimeout at_) := fun _ => ⟨rfl, rfl⟩
theorem islandPowerLoss : Statement (.islandPowerLoss) := fun _ => ⟨rfl, rfl⟩
theorem enMate : Statement (.enMate) := fun _ => ⟨rfl, rfl⟩
theorem perstDeassert : Statement (.perstDeassert) := fun _ => ⟨rfl, rfl⟩
theorem inputNormal : Statement (.inputNormal) := fun _ => ⟨rfl, rfl⟩
theorem hostReadCompletionTimeout (q : Nat) (entry : Nat) (at_ : HostReadEnd) : Statement (.hostReadCompletionTimeout q entry at_) := fun _ => ⟨rfl, rfl⟩
theorem policerTokenAccrual (port : Nat) (tc : Nat) (at_ : Nat) : Statement (.policerTokenAccrual port tc at_) := fun _ => ⟨rfl, rfl⟩
theorem eventVectorDeferred (at_ : Nat) : Statement (.eventVectorDeferred at_) := fun _ => ⟨rfl, rfl⟩
theorem tripResetRelease : Statement (.tripResetRelease) := fun _ => ⟨rfl, rfl⟩
theorem powerCapLevelUpdate (level : Nat) : Statement (.powerCapLevelUpdate level) := fun _ => ⟨rfl, rfl⟩

end Sys2Proof.Laws.Bounds
end

