-- ==== Sys2Proof/Tests/Slice0.lean ====
section
/-! SUPPORT. Tests of the checks of WellFormed, and for each statement a state and operands that meet its hypotheses together, with what
the command then does there. Expected values are worked out by hand from the rules cited in the statements. -/

namespace Sys2Proof.Tests

open Sys2Proof Sys2Proof.Machine Sys2Proof.Safety

set_option maxRecDepth 8000
set_option Elab.async false

/-! ## Helpers -/

/-- The state a command leaves. -/
def after (c : Instr) (s : State) : State :=
  match exec c s with
  | .next t => t
  | _ => s

/-- Firmware that runs, with an empty image. -/
def plainFirmware : Component := ⟨#v[⟨[], true⟩, ⟨[], false⟩], 0, some 0, false⟩

/-- Reset, with plain measurements, firmware images and MAC address in place of the opaque ones of manufacture, so that states can be
compared. -/
def base : State :=
  { State.reset with isl := { State.reset.isl with fieldSettings := (2, 255, 8, 32, false) }, trust := {
      islandSlots := Vector.replicate 8 0, hostSlots := Vector.replicate 16 0, boots := 1, islandBoot := 1, banks := Vector.replicate 4 {}
      host := plainFirmware, island := plainFirmware, floors := (0, 0), staging := none, nextQuote := 0 } }

/-- Thread 0 of cell 0. -/
def t0 : SlotId := ⟨0, 0⟩

/-- Thread 1 of cell 0. -/
def t1 : SlotId := ⟨0, 1⟩

/-- A command word from its fields (R87): opcode, operands a, b and d, modifiers; no guard and selector 0. -/
def cmd (op a b d mods : Nat) : Nat := op * 2 ^ 120 + a * 2 ^ 96 + b * 2 ^ 80 + d * 2 ^ 64 + mods

/-- The same with a format selector. -/
def cmdSelect (sel : Nat) (w : Nat) : Nat := w + sel * 2 ^ 112

/-- A launch descriptor of one thread on comb 0 with a count of items (R70). -/
def oneThread (items : Nat) : W256 := BitVec.ofNat 256 (2 ^ 248 + 1 * 2 ^ 202 + 1 * 2 ^ 179 + items * 2 ^ 128)

def launch1 : Launch := { Launch.fresh 1 (oneThread 8) (.thread t0) with live := 1, started := [0] }

/-- A module whose one thread stands at its first command `w`. -/
def ready (w : Nat) (f : Slot → Slot) : State :=
  { base with
    mem := { base.mem with bytes := (base.setBytes (progAddr 0 false 0) (natLE 16 w)).mem.bytes }
    swarm := { base.swarm with
      launches := [launch1], slots := SMap.put {} [] t0.key (f { status := .ready, launch := 1, run := some 0 }) } }

/-- `Issues`, decided. -/
def issues (s : State) (w : Nat) : Bool :=
  s.canIssue t0 && decide ((s.slot t0).cur = none) && decide (s.fetch t0 = .word w false) && decide (cmdGuard w ≠ 8)
    && guardPasses (s.slot t0) w && decide (shapeReason s (s.slot t0) w = none)

/-- Where the check holds, the hypothesis of the statements holds. -/
theorem issues_iff (s : State) (w : Nat) : issues s w = true ↔ Issues s t0 w false := by
  unfold issues Issues
  simp only [Bool.and_eq_true, decide_eq_true_eq, and_assoc]

/-- The command issues and, once retired, stays in the program. -/
def goes (s : State) (w : Nat) : Bool := issues s w && decide (nextPtr (s.slot t0) < 2048)

def sx (n : Nat) (v : Nat) (t : Slot) : Slot := t.setS n v

/-! ## The checks of WellFormed refuse ill-formed terms -/

theorem test_wf_slot_cell : Instr.wf (.nop ⟨1048576, 0⟩) = false := by decide
theorem test_wf_slot_thread : Instr.wf (.add ⟨0, 4⟩) = false := by decide
theorem test_wf_slot_good : Instr.wf (.add ⟨1048575, 3⟩) = true := by decide
theorem test_wf_ctx_queue : Instr.wf (.storeCommit (.qp 256)) = false := by decide
theorem test_wf_ctx_node : Instr.wf (.storeCommit (.node (2 ^ 24))) = false := by decide
theorem test_wf_ctx_mac : Instr.wf (.storeCommit (.field (2 ^ 48))) = false := by decide
theorem test_wf_comb : Instr.wf (.combFailure 16384) = false := by decide
theorem test_wf_spare : Instr.wf (.combMove 0 1056) = false := by decide
theorem test_wf_hive : Instr.wf (.hiveFailure 16) = false := by decide
theorem test_wf_debug_write : Instr.wf (.debugProgramWrite .bar0 []) = false := by decide
theorem test_wf_bar2 : Instr.wf (.bar2Read ⟨.bar2, (2 ^ 36)⟩ 1) = false := by decide
theorem test_wf_queue : Instr.wf (.sqNop 256) = false := by decide
theorem test_wf_link_header : LinkHeader.wf ⟨65536, false, 0, false, 0⟩ = false := by decide
theorem test_wf_partner : PartnerId.wf ⟨2 ^ 24, 0, false, false, 0, false, none, 0, false⟩ = false := by decide
theorem test_wf_laser : LaserReading.wf { wavelength := 8, unit := 0, bias := 0, hours := 0, meets := true } = false := by decide
theorem test_wf_selftest : SelfTest.wf { hivesPass := 2 ^ 16, combFailures := [], enginesPass := 0 } = false := by decide

/-! ## The queue and the step -/

theorem test_stepRunsFront : step { base with pending := [.inputLow, .inputHigh] } = exec .inputLow { base with pending := [.inputHigh] } := rfl
theorem test_idle_powered : base.pending = [] ∧ base.pow.powered = true ∧ base.net.entering = [] ∧ base.health.hold = 0 := by decide
theorem test_idle_hold :
    let s : State := { base with health := { base.health with hold := 1 } }
    s.pending = [] ∧ s.pow.powered = true ∧ s.net.entering = [] ∧ s.health.hold = 0 + 1 := by decide
theorem test_idle_unpowered :
    let s : State := { base with pow := { base.pow with powered := false } }
    step s = .next s := rfl
theorem test_reset_canonical : Memory.wf base.mem.bytes = true ∧ SMap.wf none base.swarm.pads = true ∧ Memory.wf base.host.memory = true := by
  decide
theorem test_count_saturates : (after .perstAssert base).reg 0x901005 = 0
    ∧ ((base.setReg 0xB02003 (2 ^ 64 - 1)).bump 0xB02003).reg 0xB02003 = 2 ^ 64 - 1 := by decide +kernel

/-! ## Scalar and control commands -/

def add12 : Nat := cmd 0x11 0x1001 0x1002 0x1003 0
theorem test_add : let s := ready add12 (sx 1 0xFFFFFFFF ∘ sx 2 2)
    goes s add12 = true ∧ ((after (.add t0) s).slot t0).sreg 3 = 1 ∧ ((after (.add t0) s).slot t0).ptr = 1 := by decide +kernel

def sub12 : Nat := cmd 0x12 0x1001 0x1002 0x1001 0
theorem test_sub : let s := ready sub12 (sx 1 1 ∘ sx 2 2)
    goes s sub12 = true ∧ ((after (.sub t0) s).slot t0).sreg 1 = 0xFFFFFFFF := by decide +kernel

def mul12 : Nat := cmd 0x13 0x1001 0x1002 0x3002 0
theorem test_mul : let s := ready mul12 (sx 1 0x10001 ∘ sx 2 0x10000)
    goes s mul12 = true ∧ ((after (.mul t0) s).slot t0).creg 2 = 0x10000 := by decide +kernel

def logic3 : Nat := cmd 0x14 0x1001 0x7FF0 0x1001 3
theorem test_logic : let s := ready logic3 (sx 1 0xFFF)
    goes s logic3 = true ∧ ((after (.logic t0) s).slot t0).sreg 1 = 0xF := by decide +kernel

def shift2 : Nat := cmd 0x15 0x1001 0x1002 0x1003 2
theorem test_shift : let s := ready shift2 (sx 1 0x80000000 ∘ sx 2 33)
    goes s shift2 = true ∧ ((after (.shift t0) s).slot t0).sreg 3 = 0xC0000000 := by decide +kernel

def movImm : Nat := cmd 0x10 0 0 0x2001 0x123456789
theorem test_mov : let s := ready movImm id
    goes s movImm = true ∧ ((after (.mov t0) s).slot t0).vreg 1 = 0x123456789 := by decide +kernel

def movLc : Nat := cmd 0x10 0x1001 0 0x6001 0
theorem test_mov_loop : let s := ready movLc (sx 1 7)
    goes s movLc = true ∧ (((after (.mov t0) s).slot t0).loop 1).preset = 7 := by decide +kernel

def cmpS : Nat := cmd 0x16 0x1001 0x1002 0x5001 (2 + 1 * 4)
theorem test_cmp : let s := ready cmpS (sx 1 0x80000000 ∘ sx 2 1)
    goes s cmpS = true ∧ ((after (.cmp t0) s).slot t0).cmp.getD 0 .clear = .lt ∧ ((after (.cmp t0) s).slot t0).pred 1 = true := by decide +kernel

def plogic3 : Nat := cmd 0x17 0x5001 0x5002 0x5003 3
theorem test_plogic : let s := ready plogic3 fun t => t.setP 1 true
    goes s plogic3 = true ∧ ((after (.plogic t0) s).slot t0).pred 3 = true := by decide +kernel

def dset4 : Nat := cmd 0x19 0x1001 0 0x4002 4
theorem test_dset : let s := ready dset4 (sx 1 0x12345)
    goes s dset4 = true ∧ ((after (.dset t0) s).slot t0).desc 2 = BitVec.ofNat 256 (0x2345 * 2 ^ 96) := by decide +kernel

def dset0 : Nat := cmd 0x19 0x1002 0 0x4002 0
theorem test_dset_base : let s := ready dset0 (sx 2 5 ∘ sx 3 6)
    goes s dset0 = true ∧ (Desc.of (((after (.dset t0) s).slot t0).desc 2)).base = 6 * 2 ^ 32 + 5 := by decide +kernel

def doff3 : Nat := cmd 0x1A 0x4001 0x1001 0x4002 256
theorem test_doff : let s := ready doff3 (sx 1 3 ∘ fun t => t.setD 1 (2 ^ 192 * (2 ^ 64 - 256) + 9))
    goes s doff3 = true ∧ ((after (.doff t0) s).slot t0).desc 2 = BitVec.ofNat 256 (2 ^ 192 * 512 + 9) := by decide +kernel

def nop0 : Nat := cmd 0 0 0 0 0
theorem test_nop : let s := ready nop0 id
    goes s nop0 = true ∧ ((after (.nop t0) s).slot t0).ptr = 1 := by decide +kernel

def skip255 : Nat := cmd 0x01 0 0 0 255
theorem test_skip : let s := ready skip255 id
    issues s skip255 = true ∧ ((s.slot t0).retire 0 (.to 256)).ptr < 2048 ∧ ((after (.skip t0) s).slot t0).ptr = 256 := by decide +kernel

def loop3 : Nat := cmd 0x02 0x7003 0 0x6000 2
theorem test_loop : let s := ready loop3 id
    issues s loop3 = true ∧ loopCount (s.slot t0) loop3 = 3 ∧ (after (.loop t0) s).slot t0
      = { s.slot t0 with ptr := 1, nest := [0], loops := #v[⟨0, 2, 1, 2, true⟩, {}] } := by decide +kernel

def loop0 : Nat := cmd 0x02 0x7000 0 0x6000 2
theorem test_loop_zero : let s := ready loop0 id
    issues s loop0 = true ∧ loopCount (s.slot t0) loop0 = 0 ∧ ((after (.loop t0) s).slot t0).ptr = 3 := by decide +kernel

def inLoop (r last : Nat) (t : Slot) : Slot := { t with nest := [0], loops := #v[⟨5, BitVec.ofNat 32 r, 0, last, true⟩, {}] }

def break0 : Nat := cmd 0x03 0 0 0 0
theorem test_break : let s := ready break0 (inLoop 2 4)
    issues s break0 = true ∧ ((s.slot t0).retire 0 .brk).ptr < 2048 ∧ ((after (.break_ t0) s).slot t0).ptr = 5
      ∧ ((after (.break_ t0) s).slot t0).nest = [] := by decide +kernel

theorem test_loopRule :
    (((inLoop 1 3 {}).retire 3 .next).ptr = 0 ∧ ((inLoop 1 3 {}).retire 3 .next).lcRead 0 = 0)
      ∧ (((inLoop 0 3 {}).retire 3 .next).ptr = 4 ∧ ((inLoop 0 3 {}).retire 3 .next).lcRead 0 = 5)
      ∧ ((inLoop 1 3 {}).retire 2 .next).ptr = 3 := by decide +kernel

def yield0 : Nat := cmd 0x05 0 0 0 0
def twoThreads (w : Nat) (f : Slot → Slot) : State :=
  let s := ready w f
  { s with swarm := { s.swarm with slots := SMap.put {} s.swarm.slots t1.key { status := .ready, launch := 1, index := 1 } } }
theorem test_yield : let s := twoThreads yield0 id
    goes s yield0 = true ∧ ((after (.yield t0) s).slot t0).yieldTo = [1] := by decide +kernel

def halt1 : Nat := cmd 0x04 0 0 0 0xF0
theorem test_halt : let s := ready halt1 id
    issues s halt1 = true ∧ (s.slot t0).held = none ∧ (after (.halt t0) s).slot t0 = {}
      ∧ ((after (.halt t0) s).launch? 1).map Launch.abnormal = some 1
      ∧ (after (.halt t0) s).rawByte (slotRecordAt t0 + 31) = 0xF0#8 := by decide +kernel

def next0 : Nat := cmd 0x18 0 0 0x5001 0
theorem test_next : let s := ready next0 fun t => { t with item := some 0, run := some 0 }
    goes s next0 = true ∧ ((after (.next t0) s).slot t0).creg 0 = 1 ∧ ((after (.next t0) s).slot t0).pred 1 = true := by decide +kernel

/-- A launch of 128 threads on combs 0 and 1, two items to a run, with the queues given by hand. -/
def dynLaunch (runs : SMap (Nat × Nat)) : Launch :=
  { launch1 with desc := BitVec.ofNat 256 (2 * 2 ^ 202 + 128 * 2 ^ 179 + 1 * 2 ^ 171 + 1024 * 2 ^ 128), dynamic := true, runs := runs }
def withLaunch (l : Launch) (s : State) : State := { s with swarm := { s.swarm with launches := [l] } }
theorem test_next_in_run : let s := withLaunch { dynLaunch [] with dynamic := false } (ready next0 fun t => { t with item := some 2, run := some 1 })
    goes s next0 = true ∧ ((after (.next t0) s).slot t0).creg 0 = 3 := by decide +kernel
theorem test_next_static_end : let s := withLaunch { dynLaunch [] with dynamic := false } (ready next0 fun t => { t with item := some 1023, run := some 511 })
    goes s next0 = true ∧ ((after (.next t0) s).slot t0).creg 0 = 0xFFFFFFFF ∧ ((after (.next t0) s).slot t0).pred 1 = false := by decide +kernel
/-- Run 5 of the queue of comb 0 is run 5 of the launch; its first item is 10. -/
theorem test_next_dynamic : let s := withLaunch (dynLaunch [(0, (5, 7))]) (ready next0 fun t => { t with item := some 1, run := some 0 })
    goes s next0 = true ∧ (dynLaunch [(0, (5, 7))]).queueOf 0 = (5, 7) ∧ ((after (.next t0) s).slot t0).creg 0 = 10 := by decide +kernel
/-- Comb 0 has none left; comb 1 has its runs 64 to 66, of which the last is stolen; its first item is 132. -/
theorem test_next_steal : let l := dynLaunch [(0, (7, 7)), (1, (0, 3))]
    let s := withLaunch l (ready next0 fun t => { t with item := some 1, run := some 0 })
    goes s next0 = true ∧ l.richest 0 = some 1 ∧ ((after (.next t0) s).slot t0).creg 0 = 132 := by decide +kernel
theorem test_next_nothing_left : let l := dynLaunch [(0, (7, 7)), (1, (3, 3))]
    let s := withLaunch l (ready next0 fun t => { t with item := some 1, run := some 0 })
    goes s next0 = true ∧ l.richest 0 = none ∧ ((after (.next t0) s).slot t0).creg 0 = 0xFFFFFFFF := by decide +kernel

def waitSig : Nat := cmd 0x06 0 0 0x5001 0
theorem test_waitSignal : let s := ready waitSig fun t => { t with signals := 1 }
    goes s waitSig = true ∧ ((after (.waitSignal t0) s).slot t0).signals = 0 ∧ ((after (.waitSignal t0) s).slot t0).pred 1 = true := by decide +kernel
theorem test_waitSignal_waits : let s := ready waitSig id
    goes s waitSig = true ∧ ((after (.waitSignal t0) s).slot t0).status = .waiting ⟨.signal, 0, 0, 1⟩ := by decide +kernel

def waitTime : Nat := cmd 0x06 0x1002 0 0x5001 2
theorem test_waitTime : let s := ready waitTime id
    goes s waitTime = true ∧ ((after (.waitTime t0) s).slot t0).pred 1 = true := by decide +kernel
theorem test_waitTime_waits : let s := ready waitTime (sx 2 1)
    goes s waitTime = true ∧ ((after (.waitTime t0) s).slot t0).status = .waiting ⟨.time 1, 0, 0, 1⟩ := by decide +kernel

/-- Wait for a near-store word of 0 equal to b. -/
def waitMem : Nat := cmd 0x06 0x1002 0x1004 0x5001 (1 + 2 * 4)
theorem test_waitMemory : let s := ready waitMem id
    goes s waitMem = true ∧ waitableAt 0 = true
      ∧ reads (Cmd.readGlobal (issueOf s t0 waitMem false) [(0, 4)]) (begun s t0 waitMem false) [0, 0, 0, 0] = true
      ∧ ((after (.waitMemory t0) s).slot t0).pred 1 = true ∧ ((after (.waitMemory t0) s).slot t0).ptr = 1 := by decide +kernel
theorem test_waitMemory_waits : let s := ready waitMem (sx 4 1)
    goes s waitMem = true ∧ ((after (.waitMemory t0) s).slot t0).status = .waiting ⟨.memory 0 1 2 false, 0, 0, 1⟩ := by decide +kernel

def waiting (f : WaitFor) (signals : Nat) : State := ready nop0 fun t => { t with status := .waiting ⟨f, 0, 2, 1⟩, signals := signals }
theorem test_signalWaitEnd : let s := waiting .signal 1
    s.waitOf t0 = some ⟨.signal, 0, 2, 1⟩ ∧ nextPtr (s.slot t0) < 2048 ∧ ((after (.signalWaitEnd t0) s).slot t0).status = .ready
      ∧ ((after (.signalWaitEnd t0) s).slot t0).pred 1 = true := by decide +kernel
theorem test_memoryWaitReread : let s := waiting (.memory 0 0 2 false) 0
    s.waitOf t0 = some ⟨.memory 0 0 2 false, 0, 2, 1⟩ ∧ (s.memRead (Requester.ofThread t0) [(0, 4)]).2.toOption = some [0, 0, 0, 0]
      ∧ ((after (.memoryWaitReread t0) s).slot t0).status = .ready := by decide +kernel
theorem test_memoryWaitReread_unreadable : let s := waiting (.memory 0 0 2 false) 0
    let s : State := { s with mem := { s.mem with poison := SMap.put false [] 0 true } }
    s.waitOf t0 = some ⟨.memory 0 0 2 false, 0, 2, 1⟩ ∧ (s.memRead (Requester.ofThread t0) [(0, 4)]).2.toOption = none
      ∧ (after (.memoryWaitReread t0) s).slot t0 = {} := by decide +kernel

theorem test_timeWaitEnd : let s := waiting (.time 5) 0
    s.waitOf t0 = some ⟨.time 5, 0, 2, 1⟩ ∧ ((after (.timeWaitEnd t0 5) s).slot t0).status = .ready
      ∧ (after (.timeWaitEnd t0 5) s).now = 5 ∧ ((after (.timeWaitEnd t0 4) s).slot t0).status ≠ .ready := by decide +kernel
theorem test_waitTimeout : let s := waiting .signal 0
    s.waitOf t0 = some ⟨.signal, 0, 2, 1⟩ ∧ ((after (.waitTimeout t0 2000) s).slot t0).status = .ready
      ∧ ((after (.waitTimeout t0 2000) s).slot t0).pred 1 = false ∧ ((after (.waitTimeout t0 1999) s).slot t0).status ≠ .ready := by decide +kernel

def signal1 : Nat := cmd 0x07 0x1001 0 0 1
theorem test_signal : let s := twoThreads signal1 id
    goes s signal1 = true ∧ s.hiveWorks 0 = true ∧ ((after (.signal t0) s).slot t1).signals = 1 := by decide +kernel
theorem test_signal_saturates :
    let s := twoThreads signal1 id
    let s := s.setSlot t1 { s.slot t1 with signals := 65535 }
    ((after (.signal t0) s).slot t1).signals = 65535 := by decide +kernel

theorem test_signal_nowhere : let s := ready signal1 (sx 1 1048576)
    goes s signal1 = true ∧ (after (.signal t0) s).slot t0 = {} := by decide +kernel
theorem test_signal_failed_hive :
    let s := ready signal1 (sx 1 65536)
    let s : State := { s with swarm := { s.swarm with hives := 1 } }
    goes s signal1 = true ∧ s.hiveWorks 1 = false ∧ (after (.signal t0) s).slot t0 = {} := by decide +kernel

def fence1 : Nat := cmd 0x08 0 0 0 1
theorem test_fence : let s := ready fence1 id
    goes s fence1 = true ∧ s.writesHeld = false ∧ s.outstanding t0 = false ∧ ((after (.fence t0) s).slot t0).ptr = 1 := by decide +kernel

theorem test_fence_waits : let s := (ready fence1 id).setComb 5 { heldWrites := [(progAddr 5 true 0, [1])] }
    goes s fence1 = true ∧ s.writesHeld = true ∧ ((after (.fence t0) s).slot t0).status = .remote := by decide +kernel

def time2 : Nat := cmd 0x70 0 0 0x1002 0
theorem test_time : let s : State := { ready time2 id with now := 2 ^ 32 + 7 }
    goes s time2 = true ∧ ((after (.time t0) s).slot t0).sreg 2 = 7 ∧ ((after (.time t0) s).slot t0).sreg 3 = 1 := by decide +kernel

def ident8 : Nat := cmd 0x71 0 0 0x1002 8
theorem test_ident : let s := ready ident8 (sx 2 9)
    goes s ident8 = true ∧ ((after (.ident t0) s).slot t0).sreg 2 = 0 := by decide +kernel

theorem test_ident_swap_accepted : let s := (ready ident8 id).setComb 0 { swaps := 1 }
    goes s ident8 = true ∧ ((after (.ident t0) s).slot t0).sreg 2 = 1 := by decide +kernel

def seed5 : Nat := cmd 0x60 0x7005 0x1002 0 0
theorem test_seed : let s := ready seed5 (sx 2 11)
    goes s seed5 = true ∧ (after (.seed t0) s).seedOf 5 = 11 ∧ (after (.seed t0) s).seedOf 6 = 0 := by decide +kernel

def step2 : Nat := cmd 0x61 0x1002 0 0x5001 0
theorem test_step : let s := ready step2 id
    goes s step2 = true ∧ (after (.step t0) s).stepCount = 1 ∧ ((after (.step t0) s).slot t0).pred 1 = true := by decide +kernel
theorem test_step_other : let s := ready step2 (sx 2 1)
    goes s step2 = true ∧ (after (.step t0) s).stepCount = 0 ∧ ((after (.step t0) s).slot t0).pred 1 = false := by decide +kernel
/-! ## Memory and vector commands -/

/-- An action that answers something and leaves the state as it is. -/
def clean {α : Type} (c : Cmd α) (s : State) : Bool :=
  match c s with
  | .ok (_, t) => decide (t = s)
  | .error _ => false

/-- Such an action meets the hypothesis `reads` with the value it answers. -/
theorem clean_reads {α : Type} [DecidableEq α] (c : Cmd α) (s : State) : clean c s = true ↔ ∃ v, reads c s v = true := by
  unfold clean reads
  cases h : c s with
  | error e => simp
  | ok p => simp

/-- The state that an action leaves. -/
def left (c : Cmd Unit) (s : State) : State :=
  match c s with
  | .ok (_, u) => u
  | .error _ => s

/-- What an action answers. -/
def answerOf {α : Type} (c : Cmd α) (s : State) : Option α :=
  match c s with
  | .ok (v, _) => some v
  | .error _ => none

/-- A tile descriptor (R94): base, rows, columns, stride, format and the bits below 60. -/
def tile (base rows cols stride fmt low : Nat) : Nat := base * 2 ^ 192 + rows * 2 ^ 112 + cols * 2 ^ 96 + stride * 2 ^ 64 + fmt * 2 ^ 60 + low

/-- The bit that places a tile at global addresses. -/
def inMemory : Nat := 2 ^ 53

def dx (n v : Nat) (t : Slot) : Slot := t.setD n v

theorem test_localMemory : base.nodeValid 0 = true ∧ place 0x7FFFFFFF8 = .near 15 ∧ base.hiveWorks 15 = true ∧ base.poisoned 0x7FFFFFFF8 = false
    ∧ (left (Cmd.writeGlobal (issueOf base t0 0 false) [(0x7FFFFFFF8, [1, 2])] 5 0) base).rawByte 0x7FFFFFFF9 = 2#8
    ∧ clean (Cmd.readGlobal (issueOf base t0 0 false) [(0x7FFFFFFF8, 8)]) base = true := by decide +kernel

theorem test_padAccess : (left (Cmd.writePad (issueOf base t0 0 false) [(8190, [7, 8])]) base).padByte 0 8191 = 8#8 := by decide +kernel

def ldr0 : Nat := cmd 0x24 0x1002 0 0x1004 0xFFFFFFFC
theorem test_ldr : let s := (ready ldr0 (sx 2 0x104)).setBytes 0x100 [1, 2, 3, 4]
    goes s ldr0 = true ∧ clean (Cmd.readGlobal (issueOf s t0 ldr0 false) [(0x100, 4)]) (begun s t0 ldr0 false) = true
      ∧ ((after (.ldr t0) s).slot t0).sreg 4 = 0x04030201 := by decide +kernel

def str8 : Nat := cmd 0x25 0x1002 0x2001 0 8
theorem test_str : let s := ready str8 (sx 2 0x100 ∘ fun t => t.setV 1 0x1122334455667788)
    goes s str8 = true ∧ (begun s t0 str8 false).unit8 t0 0x108 = .none
      ∧ clean (Cmd.holdLines (issueOf s t0 str8 false) ⟨true, [(0x108, 8)]⟩) (begun s t0 str8 false) = true
      ∧ (after (.str t0) s).rawByte 0x108 = 0x88#8 ∧ (after (.str t0) s).rawByte 0x10F = 0x11#8 := by decide +kernel

def dload1 : Nat := cmd 0x29 0x1002 0 0x401F 1
theorem test_dload : let s := (ready dload1 (sx 2 0x100)).setBytes 0x100 (natLE 32 (2 ^ 255 + 5))
    goes s dload1 = true ∧ clean (Cmd.readGlobal (issueOf s t0 dload1 false) [(0x100, 32)]) (begun s t0 dload1 false) = true
      ∧ ((after (.dload t0) s).slot t0).desc 31 = BitVec.ofNat 256 (2 ^ 255 + 5) := by decide +kernel

/-- Add 2 to a 32-bit word; the old value goes to s6. -/
def atomAdd : Nat := cmd 0x26 0x1002 0x1004 0x1006 0
theorem test_atom : let s := (ready atomAdd (sx 2 0x100 ∘ sx 4 2)).setBytes 0x100 [0xFF, 0xFF, 0xFF, 0xFF, 9]
    goes s atomAdd = true ∧ (after (.atom t0) s).rawBytes 0x100 5 = [1, 0, 0, 0, 9]
      ∧ ((after (.atom t0) s).slot t0).sreg 6 = 0xFFFFFFFF := by decide +kernel

def tileA : Nat := tile 0x100 1 2 8 0xA inMemory
def load12 : Nat := cmd 0x20 0x4001 0 0x4002 0
theorem test_load : let s := (ready load12 (dx 1 tileA ∘ dx 2 (tile 8184 1 2 8 0xA 0))).setBytes 0x100 [1, 2, 3, 4, 5, 6, 7, 8]
    let x := issueOf s t0 load12 false
    let u := begun s t0 load12 false
    issues s load12 = true ∧ (Desc.of (BitVec.ofNat 256 tileA)).reason [0, 1, 2, 3] true = none
      ∧ clean (Cmd.read x true [(0x100, 8)]) u = true ∧ clean (Cmd.holdLines x ⟨false, [(8184, 8)]⟩) u = true
      ∧ (after (.load t0) s).padBytes 0 8184 8 = [1, 2, 3, 4, 5, 6, 7, 8] ∧ ((after (.load t0) s).slot t0).ptr = 1 := by decide +kernel

def store12 : Nat := cmd 0x21 0x4001 0 0x4002 0
theorem test_store :
    let r := ready store12 (dx 1 (tile 0 1 2 8 0xA 0) ∘ dx 2 tileA)
    let s := left (Cmd.writePad (issueOf base t0 0 false) [(0, [1, 2, 3, 4, 5, 6, 7, 8])]) r
    issues s store12 = true ∧ clean (Cmd.read (issueOf s t0 store12 false) false [(0, 8)]) (begun s t0 store12 false) = true
      ∧ (after (.store t0) s).rawBytes 0x100 8 = [1, 2, 3, 4, 5, 6, 7, 8] := by decide +kernel

def copy12 : Nat := cmd 0x2A 0x4001 0 0x4002 0
theorem test_copy : let s := (ready copy12 (dx 1 tileA ∘ dx 2 (tile 0x200 1 2 8 0xA inMemory))).setBytes 0x100 [1, 2, 3, 4, 5, 6, 7, 8]
    issues s copy12 = true ∧ (after (.copy t0) s).rawBytes 0x200 8 = [1, 2, 3, 4, 5, 6, 7, 8] := by decide +kernel

/-- A table of two rows, and the indices 1 and 2 (out of range). -/
def gather3 : Nat := cmd 0x22 0x4001 0x4002 0x4003 0
theorem test_gather : let s := ((ready gather3 (dx 1 (tile 0x100 2 2 8 0xA inMemory) ∘ dx 2 (tile 0x180 1 2 8 0xA inMemory)
        ∘ dx 3 (tile 0x200 2 2 8 0xA inMemory))).setBytes 0x108 [1, 2, 3, 4, 5, 6, 7, 8]).setBytes 0x180 [1, 0, 0, 0, 2]
    issues s gather3 = true ∧ (answerOf (Cmd.indices (issueOf s t0 gather3 false) (Desc.of (BitVec.ofNat 256 (tile 0x180 1 2 8 0xA inMemory)))) s)
        = some [1, 2]
      ∧ (after (.gather t0) s).rawBytes 0x200 16 = [1, 2, 3, 4, 5, 6, 7, 8, 0, 0, 0, 0, 0, 0, 0, 0]
      ∧ (after (.gather t0) s).reg 0x206001 = 1 := by decide +kernel

def scatter3 : Nat := cmd 0x23 0x4001 0x4002 0x4003 0
theorem test_scatter : let s := ((ready scatter3 (dx 1 (tile 0x100 2 2 8 0xA inMemory) ∘ dx 2 (tile 0x180 1 2 8 0xA inMemory)
        ∘ dx 3 (tile 0x200 2 2 8 0xA inMemory))).setBytes 0x100 [1, 2, 3, 4, 5, 6, 7, 8, 9]).setBytes 0x180 [1, 0, 0, 0, 2]
    issues s scatter3 = true ∧ (after (.scatter t0) s).rawBytes 0x200 16 = [0, 0, 0, 0, 0, 0, 0, 0, 1, 2, 3, 4, 5, 6, 7, 8]
      ∧ (after (.scatter t0) s).reg 0x206001 = 1 := by decide +kernel

/-- A pool of 16 buffers of 256 B in HBM, enabled and ready. -/
def poolRecord : W256 := BitVec.ofNat 256 (2 ^ 255 + 15 * 2 ^ 223 + 0x8000000000 * 2 ^ 128 + 0x8000100000 * 2 ^ 64)
def withPool (s : State) : State := s.setPool 3 { record := poolRecord, state := 1, free := 16, cache := List.range 16 }

def alloc3 : Nat := cmd 0x27 0x7003 0 0x1002 1
theorem test_alloc : let s := withPool (ready alloc3 id)
    goes s alloc3 = true ∧ s.ringSize = 0 ∧ (s.pool 3).base + (s.pool 3).count * (s.pool 3).size ≤ 2 ^ 40
      ∧ ((s.cacheReady 3).pool 3).cache.all (fun k => decide (k < 16) && !s.poolBit (s.pool 3) k && !s.poisoned ((s.pool 3).bitAt k)) = true
      ∧ ((after (.alloc t0) s).pool 3).free = 15 ∧ ((after (.alloc t0) s).pool 3).record = poolRecord := by decide +kernel

def free2 : Nat := cmd 0x28 0x1002 0 0 1
theorem test_free :
    let s := withPool (ready free2 (sx 2 0x100 ∘ sx 3 0x80))
    let q := s.pool 3
    let s := (s.setPool 3 { q with free := 15, cache := (List.range 16).erase 1 }).setByte (q.bitAt 1) 2
    goes s free2 = true ∧ s.poolBit q 1 = true ∧ (s.slot t0).pair 2 = s.globalOf (q.base + q.size)
      ∧ plainRegion.inHbmRange q.meta q.metaBytes = true
      ∧ (after (.free t0) s).poolBit q 1 = false ∧ ((after (.free t0) s).pool 3).free = 16
      ∧ ((after (.free t0) s).pool 3).cache.getLast? = some 1 := by decide +kernel
/-- A pool of 512 buffers whose cache has 128 entries is refilled to 256 from its ring; one that reaches 384 spills to 256 (R209). -/
def bigPool : Pool := { record := BitVec.ofNat 256 (2 ^ 255 + 511 * 2 ^ 223 + 0x8000000000 * 2 ^ 128 + 0x8000100000 * 2 ^ 64), state := 1 }
theorem test_pool_refill :
    let s := base.setPool 3 { bigPool with cache := List.range 128, ringHead := 128, ringHeld := 384 }
    let t := (s.refillCache 3).pool 3
    t.cache.length = 256 ∧ t.ringHead = 256 ∧ t.ringHeld = 256 := by decide +kernel
theorem test_pool_spill :
    let s := base.setPool 3 { bigPool with cache := List.range 384, ringHead := 384, ringHeld := 128 }
    let u := s.spillCache 3
    (u.pool 3).cache = List.range' 128 256 ∧ (u.pool 3).ringHeld = 256 ∧ u.rawBytes (0x8000100000 + 4 * 127) 4 = [127, 0, 0, 0] := by
  decide +kernel
theorem test_free_zero : let s := ready free2 id
    goes s free2 = true ∧ ((after (.free t0) s).slot t0).pred 1 = true := by decide +kernel

def vx (n v : Nat) (t : Slot) : Slot := t.setV n v

def vopMax : Nat := cmd 0x40 0x2001 0x2002 0x2003 (3 + 8 + 32)
theorem test_vop : let s := ready vopMax (vx 1 0x8000000000017FFF ∘ vx 2 0x0001000100008000)
    goes s vopMax = true ∧ ((after (.vop t0) s).slot t0).vreg 3 = 0x0001000100017FFF := by decide +kernel

def vcmpEq : Nat := cmd 0x41 0x2001 0x2002 0x2003 (2 * 4 + 1 * 256)
theorem test_vcmp : let s := ready vcmpEq (vx 1 0x0102 ∘ vx 2 0x0002)
    goes s vcmpEq = true ∧ ((after (.vcmp t0) s).slot t0).vreg 3 = 0xFFFFFFFFFFFF00FF ∧ ((after (.vcmp t0) s).slot t0).pred 1 = true := by decide +kernel

def vsel7 : Nat := cmd 0x42 0x2001 0x2002 0x2003 7
theorem test_vsel : let s := ready vsel7 (vx 1 0xFFFF ∘ vx 2 0xA00000 ∘ vx 7 0x0F0F)
    goes s vsel7 = true ∧ ((after (.vsel t0) s).slot t0).vreg 3 = 0xA00F0F := by decide +kernel

def vshuf7 : Nat := cmd 0x43 0x2001 0 0x2003 7
theorem test_vshuf : let s := ready vshuf7 (vx 1 0x1122334455667788)
    goes s vshuf7 = true ∧ ((after (.vshuf t0) s).slot t0).vreg 3 = 0x8888888888888811 := by decide +kernel

/-- FP32 lanes: 1.5 × 2 + 1 = 4. -/
def vfma32 : Nat := cmdSelect 0xA (cmd 0x44 0x2001 0x2002 0x2003 0)
theorem test_vfma : let s := ready vfma32 (vx 1 0x3FC00000 ∘ vx 2 0x40000000 ∘ vx 3 0x3F800000)
    goes s vfma32 = true ∧ ((after (.vfma t0) s).slot t0).vreg 3 = 0x40800000 := by decide +kernel

def vsfu0 : Nat := cmdSelect 9 (cmd 0x45 0x2001 0 0x2003 0)
theorem test_vsfu : let s := ready vsfu0 (vx 1 0x3C00)
    goes s vsfu0 = true ∧ ((after (.vsfu t0) s).slot t0).vreg 3 = BitVec.ofNat 64 ((List.range 4).map fun k =>
      sfuLane 0 (if k = 0 then 0x3C00 else 0) % 2 ^ 16 * 2 ^ (16 * k)).sum := by decide +kernel

/-- FP32 to BF16: 1.00390625 lies halfway and goes to even. -/
def vcvtBf : Nat := cmdSelect 8 (cmd 0x46 0x2001 0 0x2003 0xA)
theorem test_vcvt : let s := ready vcvtBf (vx 1 0x3F8080003F818000)
    goes s vcvtBf = true ∧ ((after (.vcvt t0) s).slot t0).vreg 3 = 0x3F803F82 := by decide +kernel
/-! ## Tile arithmetic and speculation -/

/-- FP32 tiles of one row of two in memory: [1.0, 2.0] at 0x100. -/
def twoFloats (s : State) : State := s.setBytes 0x100 (natLE 4 0x3F800000 ++ natLE 4 0x40000000)
def rowA : Desc := Desc.of (BitVec.ofNat 256 tileA)

def tcvt12 : Nat := cmd 0x47 0x4001 0 0x4002 1
theorem test_tcvt : let s := twoFloats (ready tcvt12 (dx 1 tileA ∘ dx 2 (tile 0x200 1 2 8 8 inMemory)))
    issues s tcvt12 = true ∧ tcvtReason false rowA (Desc.of (BitVec.ofNat 256 (tile 0x200 1 2 8 8 inMemory))) = none
      ∧ clean (Cmd.values (issueOf s t0 tcvt12 false) rowA) (begun s t0 tcvt12 false) = true
      ∧ (after (.tcvt t0) s).rawBytes 0x200 4 = [0x80, 0x3F, 0x00, 0x40] := by decide +kernel

def tew0 : Nat := cmd 0x48 0x4001 0x4001 0x4002 0
theorem test_tew : let s := twoFloats (ready tew0 (dx 1 tileA ∘ dx 2 (tile 0x200 1 2 8 0xA inMemory)))
    issues s tew0 = true ∧ tewReason 0 false rowA rowA (Desc.of (BitVec.ofNat 256 (tile 0x200 1 2 8 0xA inMemory))) = none
      ∧ (after (.tew t0) s).rawBytes 0x200 8 = natLE 4 0x40000000 ++ natLE 4 0x40800000 := by decide +kernel

def tred0 : Nat := cmd 0x49 0x4001 0 0x4002 0
theorem test_tred : let s := twoFloats (ready tred0 (dx 1 tileA ∘ dx 2 (tile 0x200 1 1 8 0xA inMemory)))
    issues s tred0 = true ∧ tredReason 0 rowA (Desc.of (BitVec.ofNat 256 (tile 0x200 1 1 8 0xA inMemory))) = none
      ∧ (after (.tred t0) s).rawBytes 0x200 4 = natLE 4 0x40400000 := by decide +kernel

/-- The larger of two, and its column. -/
def ttopk1 : Nat := cmd 0x4A 0x4001 0 0x4002 (1 + 3 * 2 ^ 11)
theorem test_ttopk :
    let s := twoFloats (ready ttopk1 (dx 1 tileA ∘ dx 2 (tile 0x200 1 1 8 0xA inMemory) ∘ dx 3 (tile 0x280 1 1 8 0xA inMemory)))
    let out (base : Nat) := Desc.of (BitVec.ofNat 256 (tile base 1 1 8 0xA inMemory))
    issues s ttopk1 = true ∧ ttopkReason 1 rowA (out 0x200) (out 0x280) = none
      ∧ clean (Cmd.values (issueOf s t0 ttopk1 false) rowA) (begun s t0 ttopk1 false) = true := by decide +kernel

/-- INT8 tiles of one row of four, all ones, and the FP32 code tile at pad address 0. -/
def ones : Nat := tile 0x100 1 4 8 7 (inMemory + 2 ^ 59)
def padTile : Nat := tile 0 1 1 8 0xA 0
def onesAt (s : State) : State := s.setBytes 0x100 [1, 1, 1, 1]

def mma0 : Nat := cmd 0x30 0x4001 0x4001 0x4002 0
theorem test_mma : let s := onesAt (ready mma0 (dx 1 ones ∘ dx 2 padTile))
    let d := Desc.of (BitVec.ofNat 256 ones)
    issues s mma0 = true ∧ s.reg 0x304001 = 0 ∧ mulReason 0x30 false d d (Desc.of (BitVec.ofNat 256 padTile)) = none
      ∧ clean (Cmd.tile (issueOf s t0 mma0 false) d) (begun s t0 mma0 false) = true
      ∧ (after (.mma t0) s).padBytes 0 0 4 = [4, 0, 0, 0] := by decide +kernel

/-- A 2:4 sparse b: 1 and 1 at positions 0 and 1 of four columns. -/
def pairs24 : Nat := tile 0x100 1 4 8 7 (inMemory + 2 ^ 59 + 2 ^ 54) + 8 * 2 ^ 128
def fourOf (base : Nat) : Nat := tile base 1 4 8 7 (inMemory + 2 ^ 59)
def mma24w : Nat := cmd 0x31 0x4003 0x4001 0x4002 0
theorem test_mma24 :
    let s := (ready mma24w (dx 1 pairs24 ∘ dx 3 (fourOf 0x120) ∘ dx 2 padTile)).setBytes 0x100 [1, 1, 0, 0, 0, 0, 0, 0, 4]
    let a := Desc.of (BitVec.ofNat 256 (fourOf 0x120))
    let b := Desc.of (BitVec.ofNat 256 pairs24)
    issues s mma24w = true ∧ s.reg 0x304001 = 0 ∧ mulReason 0x31 false a b (Desc.of (BitVec.ofNat 256 padTile)) = none
      ∧ clean (Cmd.tile (issueOf s t0 mma24w false) a) (begun s t0 mma24w false) = true
      ∧ (answerOf (Cmd.tile (issueOf s t0 mma24w false) b) s).map (fun t => (t.row 0 0).map fun e => (e.pos, e.val)) =
        some [(0, FVal.num false 1 0), (1, FVal.num false 1 0)]
      ∧ clean (Cmd.tile (issueOf s t0 mma24w false) b) (begun s t0 mma24w false) = true := by decide +kernel

/-- Bitmap sparse a: columns 0 and 3 present. -/
def bitmap : Nat := tile 0x100 1 4 8 7 (inMemory + 2 ^ 59 + 2 * 2 ^ 54) + 8 * 2 ^ 128
def mmasaw : Nat := cmd 0x32 0x4001 0x4003 0x4002 0
theorem test_mmasa :
    let s := (ready mmasaw (dx 1 bitmap ∘ dx 3 (fourOf 0x120) ∘ dx 2 padTile)).setBytes 0x100 [1, 2, 0, 0, 0, 0, 0, 0, 9]
    let a := Desc.of (BitVec.ofNat 256 bitmap)
    let b := Desc.of (BitVec.ofNat 256 (fourOf 0x120))
    issues s mmasaw = true ∧ s.reg 0x304001 = 0 ∧ mulReason 0x32 false a b (Desc.of (BitVec.ofNat 256 padTile)) = none
      ∧ clean (Cmd.tile (issueOf s t0 mmasaw false) a) (begun s t0 mmasaw false) = true
      ∧ (answerOf (Cmd.tile (issueOf s t0 mmasaw false) a) s).map (fun t => (t.row 0 0).map fun e => (e.pos, e.val)) =
        some [(0, FVal.num false 1 0), (3, FVal.num false 2 0)]
      ∧ clean (Cmd.tile (issueOf s t0 mmasaw false) b) (begun s t0 mmasaw false) = true := by decide +kernel

def predicted (codes : List Nat) (t : Slot) : Slot := { t with prediction := some ⟨1, 1, codes, 0⟩ }

def spec0 : Nat := cmd 0x30 0x4001 0x4001 0x4002 2
theorem test_mma_speculative : let s := onesAt (ready spec0 (dx 1 ones ∘ dx 2 padTile ∘ predicted [0]))
    goes s spec0 = true ∧ (begun s t0 spec0 false).hasRoom t0 4 = true
      ∧ (((after (.mma t0) s).slot t0).held.map HeldTile.acc) = some [4] := by decide +kernel

theorem test_specMultiplyRoomStart :
    let s := onesAt (ready spec0 (dx 1 ones ∘ dx 2 padTile ∘ predicted [0] ∘ fun t => { t with status := .room, cur := some (spec0, false) }))
    let s := { s with swarm := { s.swarm with roomQueue := SMap.put [] [] 0 [0] } }
    (s.slot t0).status = .room ∧ (s.roomQueue 0).head? = some 0
      ∧ (s.setSlot t0 { s.slot t0 with status := .ready }).canIssue t0 = true
      ∧ (((after (.specMultiplyRoomStart t0) s).slot t0).held.map HeldTile.acc) = some [4]
      ∧ (after (.specMultiplyRoomStart t0) s).roomQueue 0 = [] := by decide +kernel

def commit0 : Nat := cmd 0x34 0 0 0 0
theorem test_commit : let s := ready commit0 (predicted [0])
    goes s commit0 = true ∧ ((after (.commit t0) s).slot t0).prediction = none ∧ ((after (.commit t0) s).slot t0).ptr = 1 := by decide +kernel

def pack0 : Nat := cmd 0x35 0x4001 0 0x4002 0
def packed : Nat := tile 0x200 1 4 8 7 (inMemory + 2 ^ 59 + 2 ^ 54) + 8 * 2 ^ 128
theorem test_pack :
    let s := (ready pack0 (dx 1 ones ∘ dx 2 packed)).setBytes 0x100 [5, 0, 0, 6]
    let d := Desc.of (BitVec.ofNat 256 packed)
    let x := issueOf s t0 pack0 false
    issues s pack0 = true ∧ packReason (Desc.of (BitVec.ofNat 256 ones)) d = none ∧ clean (Cmd.holdLines x d.dest) (begun s t0 pack0 false) = true
      ∧ clean (Cmd.tile x (Desc.of (BitVec.ofNat 256 ones))) (begun s t0 pack0 false) = true := by decide +kernel

/-- A held tile of one entry whose verdict is 0, with its destination in the pad. -/
def heldOne (t : Slot) : Slot :=
  { t with held := some { dest := BitVec.ofNat 256 padTile, verdicts := ⟨1, 1, [0], 0⟩, initial := [0], acc := [7], clamps := [0], wide := [false], conflicts := 0, dropped := 0, chain := [] } }
theorem test_commit_held : let s := ready commit0 heldOne
    goes s commit0 = true ∧ (s.slot t0).held.isSome = true ∧ ((after (.commit t0) s).slot t0).held = none
      ∧ (after (.commit t0) s).padBytes 0 0 4 = [7, 0, 0, 0] ∧ (after (.commit t0) s).reg 0x208107 = 1 := by decide +kernel
/-! ## Fabric, engine and record commands; launches, combs and hives -/

def put12 : Nat := cmd 0x50 0x4001 0 0x4002 0
theorem test_put :
    let r := ready put12 (dx 1 (tile 0 1 2 8 0xA 0) ∘ dx 2 tileA)
    let s := left (Cmd.writePad (issueOf base t0 0 false) [(0, [1, 2, 3, 4, 5, 6, 7, 8])]) r
    let a := Desc.of (BitVec.ofNat 256 (tile 0 1 2 8 0xA 0))
    issues s put12 = true ∧ a.reason [0, 1, 2, 3] true = none ∧ a.agrees rowA = true ∧ (begun s t0 put12 false).localTile a = true
      ∧ clean (Cmd.read (issueOf s t0 put12 false) a.global a.ranges) (begun s t0 put12 false) = true
      ∧ (after (.put t0) s).rawBytes 0x100 8 = [1, 2, 3, 4, 5, 6, 7, 8] ∧ ((after (.put t0) s).slot t0).ptr = 1 := by decide +kernel

def get12 : Nat := cmd 0x51 0x4001 0 0x4002 0
theorem test_get : let s := (ready get12 (dx 1 tileA ∘ dx 2 (tile 8 1 2 8 0xA 0))).setBytes 0x100 [1, 2, 3, 4, 5, 6, 7, 8]
    issues s get12 = true ∧ (s.slot t0).fetched = [] ∧ (begun s t0 get12 false).firstInvalid rowA.ranges = none
      ∧ (after (.get t0) s).padBytes 0 8 8 = [1, 2, 3, 4, 5, 6, 7, 8] ∧ ((after (.get t0) s).slot t0).ptr = 1 := by decide +kernel

/-- The tile lies on node 1: its request goes out and the thread waits; once it is answered the thread goes on. -/
theorem test_get_remote : let s := (ready get12 (dx 1 (tile (2 ^ 40 + 0x100) 1 2 8 0xA inMemory) ∘ dx 2 (tile 8 1 2 8 0xA 0)))
    let s : State := { s with net := { s.net with dims := 2 } }
    issues s get12 = true ∧ s.nodeValid 1 = true
      ∧ (begun s t0 get12 false).firstInvalid (Desc.of (BitVec.ofNat 256 (tile (2 ^ 40 + 0x100) 1 2 8 0xA inMemory))).ranges = none
      ∧ ((after (.get t0) s).slot t0).status = .remote ∧ (after (.get t0) s).net.tags.length = 1 := by decide +kernel
theorem test_get_answered :
    let s := ready get12 (dx 1 tileA ∘ dx 2 (tile 8 1 2 8 0xA 0) ∘ fun t => { t with cur := some (get12, false), fetched := [(sentKey, some 0)] })
    s.canIssue t0 = true ∧ guardPasses (s.slot t0) get12 = true ∧ shapeReason s (s.slot t0) get12 = none
      ∧ ((after (.get t0) s).slot t0).ptr = 1 := by decide +kernel

/-- A template to the host endpoint of this module, of kind MSG. -/
def template : Hdr := { destEp := 0x2000, kind := 0x10, tc := 1 }
def line16 : Nat := tile 0x100 1 16 64 0xA inMemory
def send0 : Nat := cmd 0x52 0x4001 0x1002 0 0
theorem test_send :
    let s := (ready send0 (dx 1 line16 ∘ sx 2 0x80)).setBytes 0x80 (natLE 32 template.encode.toNat)
    let s1 := begun s t0 send0 false
    let x := issueOf s t0 send0 false
    let a := Desc.of (BitVec.ofNat 256 line16)
    issues s send0 = true ∧ a.reason [0] false = none ∧ a.rows * a.rowBytes = 64 ∧ clean (Cmd.readGlobal x [(0x80, 32)]) s1 = true
      ∧ s1.templateReason template.encode = none ∧ clean (Cmd.read x true [(0x100, 64)]) s1 = true
      ∧ ((after (.send t0) s).slot t0).ptr = 1 := by decide +kernel

/-- Dispatch context 5: valid, one part of 64 B. -/
def withContext (s : State) : State :=
  { s with eng := { s.eng with contexts := SMap.put {} s.eng.contexts 5 { record := BitVec.ofNat 512 (2 ^ 511) } } }
def routes17 : Nat := tile 0x200 1 17 72 0xA inMemory
def dispatch5 : Nat := cmd 0x54 0x4001 0x4002 0 5
theorem test_dispatch :
    let s := withContext (ready dispatch5 (dx 1 tileA ∘ dx 2 routes17))
    let a := rowA
    let bt := Desc.of (BitVec.ofNat 256 routes17)
    let c := s.ctx 5
    issues s dispatch5 = true ∧ bitOf c.record.toNat 511 = true ∧ bt.reason [0] false = none ∧ bt.cols = 17 ∧ a.rows = bt.rows * c.partCount
      ∧ a.rowBytes + a.scaleBytes ≤ c.partBytes
      ∧ clean (Cmd.readParts (issueOf s t0 dispatch5 false) true [(0x200, 68)]) (begun s t0 dispatch5 false) = true
      ∧ ((after (.dispatch t0) s).slot t0).ptr = 1 := by decide +kernel

def sattach2 : Nat := cmd 0x55 0x1002 0 0x5001 0
theorem test_sattach : let s := ready sattach2 (sx 2 0x100)
    issues s sattach2 = true ∧ clean (Cmd.record512 (issueOf s t0 sattach2 false) 0x100) (begun s t0 sattach2 false) = true
      ∧ ((after (.sattach t0) s).slot t0).ptr = 1 ∧ ((after (.sattach t0) s).slot t0).pred 1 = false
      ∧ (after (.sattach t0) s).reg 0x580004 = 1 := by decide +kernel

def cpost2 : Nat := cmd 0x53 0x1002 0 0x5001 0
theorem test_cpost : let s := ready cpost2 (sx 2 0x100)
    issues s cpost2 = true ∧ clean (Cmd.record512 (issueOf s t0 cpost2 false) 0x100) (begun s t0 cpost2 false) = true
      ∧ ((after (.cpost t0) s).slot t0).ptr = 1 ∧ ((after (.cpost t0) s).slot t0).pred 1 = false
      ∧ (after (.cpost t0) s).reg 0x502002 = 1 := by decide +kernel

def scale7 : Nat := cmd 0x62 0x7007 0 0x1002 0
theorem test_scale_unbound : let s := ready scale7 id
    goes s scale7 = true ∧ s.recordOf 7 = none ∧ ((after (.scale t0) s).slot t0).sreg 2 = 0xFF := by decide +kernel

/-- Record 3 bound to tensor 7, primed with code 130. -/
def withRecord (s : State) : State := s.setRecord 3 { s.record 3 with tensor := 7, bound := true, primed := true, scale := 130 }
theorem test_scale_bound : let s := withRecord (ready scale7 id)
    goes s scale7 = true ∧ (s.recordOf 7).isSome = true ∧ ((after (.scale t0) s).slot t0).sreg 2 = 130 := by decide +kernel

def scale7b : Nat := cmd 0x62 0x7007 0x4001 0x1002 0
theorem test_scale_tile : let s := withRecord (twoFloats (ready scale7b (dx 1 tileA)))
    issues s scale7b = true ∧ clean (Cmd.values (issueOf s t0 scale7b false) rowA) (begun s t0 scale7b false) = true
      ∧ ((after (.scale t0) s).slot t0).ptr = 1 := by decide +kernel

/-! ### Launches -/

def posted (s : State) : State := { s with swarm := { s.swarm with ports := SMap.put 0 s.swarm.ports t0.key (BitVec.ofNat 192 (oneThread 8).toNat) } }
theorem test_launchPortPost :
    let s := posted (ready nop0 id)
    let v := BitVec.ofNat 64 (2 ^ 56 + 2 ^ 10)
    let t := after (.launchPortPost t0 v) s
    s.running = true ∧ s.occupied t0 = true ∧ s.launchRefusal (Launch.fresh (s.swarm.nextLaunch + 1) (BitVec.ofNat 256
        (v.toNat * 2 ^ 192 + (SMap.get 0 s.swarm.ports t0.key).toNat)) (.thread t0)) = none
      ∧ t.swarm.launches.length = 2 ∧ t.reg 0x201002 = 1 := by decide +kernel
theorem test_launchPortPost_refused :
    let t := after (.launchPortPost t0 0) (ready nop0 id)
    t.swarm.launches.length = 1 ∧ t.reg 0x201003 = 1 := by decide +kernel

def freshLaunch : Launch := Launch.fresh 1 (oneThread 8) (.thread t0)
theorem test_threadStart :
    let s : State := { base with swarm := { base.swarm with launches := [freshLaunch] } }
    let t := after (.threadStart 1 0) s
    (s.launch? 1).isSome = true ∧ s.mayStart freshLaunch 0 = true ∧ (t.slot t0).status = .ready ∧ (t.slot t0).sreg 3 = 1
      ∧ (t.launch? 1).map Launch.started = some [0] := by decide +kernel
theorem test_launchComplete :
    let s : State := { base with swarm := { base.swarm with launches := [{ freshLaunch with started := [0], abnormal := 2 }] } }
    let t := after (.launchComplete 1) s
    s.launchOver { freshLaunch with started := [0], abnormal := 2 } = true ∧ launchCompletion freshLaunch.desc = 0
      ∧ t.launch? 1 = none ∧ t.reg 0x201004 = 1 := by decide +kernel
/-- The completion record of a launch goes to a word of HBM: 2 abnormal halts, status 1. -/
def toMemory : Launch := { freshLaunch with desc := oneThread 8 + BitVec.ofNat 256 0x8000000100, started := [0], abnormal := 2 }
theorem test_launchComplete_memory :
    let s : State := { base with swarm := { base.swarm with launches := [toMemory] } }
    s.launchOver toMemory = true ∧ launchCompletion toMemory.desc = 0x8000000100 ∧ place (localOf 0x8000000100) = .hbm
      ∧ s.inPoolMeta 0x8000000107 = false ∧ s.poisoned 0x8000000107 = false
      ∧ (after (.launchComplete 1) s).rawBytes 0x8000000100 8 = natLE 8 (launchRecord 2 1) := by decide +kernel
/-- A launch that names bank B starts on a comb whose bank A is active: its thread halts before its first command. -/
theorem test_threadStart_bank :
    let l := { freshLaunch with desc := oneThread 8 + BitVec.ofNat 256 (2 * 2 ^ 246) }
    let s : State := { base with swarm := { base.swarm with launches := [l] } }
    launchBank l.desc = 2 ∧ (s.startThread 1 0 0).slot (l.slotAt 0 0) = {} ∧ (s.startThread 1 0 0).reg 0x205002 = 1 := by decide +kernel
theorem test_combGate :
    let s := base.setReg 0x204001 2
    let t := after (.combGate 3 2000) s
    s.running = true ∧ s.combEmpty 3 = true ∧ s.awaitedComb 3 = false ∧ (t.comb 3).gated = true ∧ t.reg 0x204003 = 1 ∧ t.now = 2000 := by
  decide +kernel

/-! ### Combs, hives and banks -/

/-- Each logical comb of hive 0 on the physical comb of its own number. -/
def plainMap : State := { base with swarm := { base.swarm with combMap := (List.range' 0 1024).map fun n => (n, some n) } }

theorem get_identity (k : Nat) : ∀ n a, a ≤ k → k < a + n → SMap.get none ((List.range' a n).map fun m => (m, some m)) k = some k := by
  intro n
  induction n with
  | zero => intro a h1 h2; omega
  | succ n ih =>
    intro a h1 h2
    rw [List.range'_succ, List.map_cons]
    by_cases h : k = a
    · simp [SMap.get, h]
    · simpa [SMap.get, h] using ih (a + 1) (by omega) (by omega)

theorem test_combFailure : plainMap.swarmOn = true ∧ plainMap.hiveWorks 0 = true ∧ (plainMap.comb 5).movePending = false
    ∧ plainMap.failedIn 0 < 32 := by decide +kernel
/-- A comb that fails when all 32 spares of its hive have failed takes its hive with it. -/
def noSpares : State :=
  { plainMap with swarm := { plainMap.swarm with failedCombs := (List.range 32).map fun k => (1024 + k, true) } }
theorem test_combFailure_no_spare : noSpares.swarmOn = true ∧ noSpares.hiveWorks 0 = true ∧ (noSpares.comb 5).movePending = false
    ∧ noSpares.failedIn 0 = 32 ∧ (after (.combFailure 5) noSpares).hiveWorks 0 = false := by decide +kernel
def awaiting5 : State := plainMap.setComb 5 { movePending := true }
theorem test_combMove : awaiting5.swarmOn = true ∧ awaiting5.combEmpty 5 = true ∧ awaiting5.combFailed 0 1030 = false
    ∧ awaiting5.combMapped 0 1030 = false := by
  refine ⟨by decide +kernel, by decide +kernel, by decide +kernel, ?_⟩
  simp only [State.combMapped, List.any_eq_false, List.mem_range, decide_eq_true_eq]
  intro x hx
  have h : awaiting5.physicalOf x = x := by
    show (match SMap.get none ((List.range' 0 1024).map fun n => (n, some n)) x with | some p => p | none => (factoryCombs (x / 1024)).getD (x % 1024) 0) = x
    rw [get_identity x 1024 0 (by omega) (by omega)]
  simp only [Nat.zero_mul, Nat.zero_add, h]
  omega
theorem test_hiveFailure : base.hiveWorks 7 = true ∧ (after (.hiveFailure 7) base).hiveWorks 7 = false
    ∧ (after (.hiveFailure 7) base).hiveWorks 6 = true := by decide +kernel
theorem test_combDrained : let s := base.setComb 4 { base.comb 4 with draining := true }
    s.combEmpty 4 = true ∧ ((after (.combDrained 4) s).comb 4).drained = true := by decide +kernel
theorem test_bankSwap_writes :
    let s := base.setComb 4 { base.comb 4 with swaps := 1, heldWrites := [(progAddr 4 false 0, [7])], alteredA := true }
    (s.host.readsHeld = []) ∧ (after (.bankSwap 4) s).rawByte (progAddr 4 false 0) = 7#8 ∧ ((after (.bankSwap 4) s).comb 4).alteredA = false
      ∧ ((after (.bankSwap 4) s).comb 4).heldWrites = [] := by decide +kernel
theorem test_bankSwap : let s := base.setComb 4 { base.comb 4 with swaps := 1 }
    ((after (.bankSwap 4) s).comb 4).bankB = true ∧ ((after (.bankSwap 4) s).comb 4).swaps = 0 ∧ (after (.bankSwap 4) s).reg 0x202004 = 1 := by
  decide +kernel
/-! ## The object dictionary -/

/-- A module whose BAR0 context holds the highest role. -/
def raised : State := base.setContext ⟨.bar0, 2, [], 0, none, 0, none⟩

/-- The status byte of the response kept. -/
def statusOf (t : State) : Option Nat := t.dict.response.map fun r => numAt r.2 1 1

theorem test_dictRead : base.reachable .bar0 = true ∧ (base.touch .bar0).served .bar0 0x901006 = true
    ∧ statusOf (after (.dictRead .bar0 0x9010 6 0 1) base) = some 0 := by decide +kernel
/-- Port 12 is not fitted on the T grade (R3); hive port 0x47 belongs to a failed hive. -/
theorem test_dictRead_refusals :
    let s := after (.dictWrite .bar0 0x6020 1 0 [12]) { base with grade := .reduced }
    let f : State := { base with swarm := { base.swarm with hives := 0xFF7F } }
    let f := after (.dictWrite .bar0 0x4100 1 0 [0x47]) f
    (s.touch .bar0).fitted 0x602002 12 = false ∧ statusOf (after (.dictRead .bar0 0x6020 2 0 1) s) = some 8
      ∧ (f.touch .bar0).unitFailed 0x410002 0x47 = true ∧ statusOf (after (.dictRead .bar0 0x4100 2 0 4) f) = some 9 := by decide +kernel
theorem test_dictDescribe : (resolve 0x9010 6).isSome = true ∧ statusOf (after (.dictDescribe .bar0 0x9010 6) base) = some 0
    ∧ statusOf (after (.dictDescribe .bar0 0x0FFF 6) base) = some 1 := by decide +kernel
theorem test_dictDescribeNext : (nextName (0x9010 * 256 + 1)) = some (0x9010 * 256 + 2)
    ∧ statusOf (after (.dictDescribeNext .bar0 0x9010 1) base) = some 0 := by decide +kernel
theorem test_unlockChallengeRead : base.reachable .bar0 = true ∧ (base.touch .bar0).served .bar0 0x103001 = true
    ∧ ((base.touch .bar0).context .bar0).challengeAfter ≤ base.now ∧ (after (.unlockChallengeRead .bar0) base).dict.challenges = 1 := by
  decide +kernel

theorem test_dictWrite : writeReaches base .bar0 0x3000 1 1 = true ∧ (after (.dictWrite .bar0 0x3000 1 0 [1]) base).reg 0x300001 = 1
    ∧ statusOf (after (.dictWrite .bar0 0x3000 1 0 [1]) base) = some 0 := by decide +kernel
theorem test_registerWrite : (after (.registerWrite .bar0 0x3000 1 0 [1]) base).reg 0x300001 = 1
    ∧ statusOf (after (.registerWrite .bar0 0x3000 1 0 [9]) base) = some 6 ∧ (after (.registerWrite .bar0 0x3000 1 0 [9]) base).reg 0x106001 = 1 := by
  decide +kernel
theorem test_seedsWrite : (base.touch .bar0).served .bar0 0x301002 = true
    ∧ (after (.dictWrite .bar0 0x3010 2 16 (natLE 8 7 ++ natLE 8 9)) base).seedOf 3 = 9 := by decide +kernel
theorem test_dictWrite_refusals :
    statusOf (after (.dictWrite .bar0 0x0FFF 1 0 [1]) base) = some 1
      ∧ statusOf (after (.dictWrite .bar0 0x9010 6 0 [1]) base) = some 3
      ∧ statusOf (after (.dictWrite .bar0 0xC000 1 0 [1]) base) = some 4
      ∧ statusOf (after (.dictWrite .bar0 0x3000 1 0 [1, 0]) base) = some 5 := by decide +kernel

/-- In DORMANT a stored value of a gated unit is held, a command is not (R397). -/
theorem test_dictWrite_dormant :
    let s : State := { base with pow := { base.pow with state := 3 } }
    writeArrives s .bar0 0x2040 1 4 = true ∧ gatedKey 0x204001 = true ∧ isRws 0x204001 = true
      ∧ statusOf (after (.dictWrite .bar0 0x2040 1 0 [10, 0, 0, 0]) s) = some 0
      ∧ (after (.dictWrite .bar0 0x2040 1 0 [10, 0, 0, 0]) s).dict.heldWrites = [(0x204001 * 65536, 10)]
      ∧ gatedKey 0x202001 = true ∧ isRws 0x202001 = false ∧ statusOf (after (.dictWrite .bar0 0x2020 1 0 (natLE 8 0)) s) = some 9 := by decide +kernel

theorem test_unlock_without_challenge :
    let d := List.replicate 2432 (1 : Byte)
    writeReaches base .bar0 0x1030 2 2432 = true ∧ ((base.touch .bar0).liveChallenge .bar0) = none
      ∧ statusOf (after (.unlockResponseWrite .bar0 d) base) = some 4
      ∧ ((after (.unlockResponseWrite .bar0 d) base).context .bar0).challengeAfter = 1000000000 := by decide +kernel
def challenged : State := base.setContext ⟨.bar0, 1, [], 0, some ([1, 2], 0), 0, none⟩
theorem test_unlock_challenge : writeReaches challenged .bar0 0x1030 2 2432 = true ∧ (challenged.touch .bar0).liveChallenge .bar0 = some [1, 2] := by
  decide +kernel
theorem test_lockWrite : writeReaches raised .bar0 0x1030 4 1 = true ∧ raised.roleOf .bar0 = 2
    ∧ (after (.lockWrite .bar0 1) raised).roleOf .bar0 = 0 := by decide +kernel
theorem test_challengeExpiry : ((after (.challengeExpiry .bar0 60000000000) challenged).context .bar0).challenge = none
    ∧ ((after (.challengeExpiry .bar0 59999999999) challenged).context .bar0).challenge.isSome = true := by decide +kernel
theorem test_roleTimeout : (after (.roleTimeout .bar0 1800000000000) raised).roleOf .bar0 = 0
    ∧ (after (.roleTimeout .bar0 1799999999999) raised).roleOf .bar0 = 2 := by decide +kernel

theorem test_storeCommit : writeReaches base .bar0 0x1050 1 1 = true ∧ base.isl.powered = true ∧ base.dict.committing = none
    ∧ (after (.storeCommit .bar0) base).dict.committing.map StoreSlot.generation = some 1 ∧ (after (.storeCommit .bar0) base).reg 0x105002 = 1 := by
  decide +kernel
theorem test_storeClear : (raised.touch .bar0).roleOf .bar0 ≠ 0 ∧ (after (.storeClear .bar0) raised).dict.committing = some ⟨true, 1, []⟩ := by
  decide +kernel
theorem test_storeRevert :
    let s := after (.registerWrite .bar0 0x3000 1 0 [1]) base
    s.reg 0x300001 = 1 ∧ (after (.storeRevert .bar0) s).reg 0x300001 = 0 := by decide +kernel
theorem test_storeCommitDone :
    let s : State := { base with dict := { base.dict with committing := some ⟨true, 5, []⟩ } }
    (after (.storeCommitDone true) s).newestImage.map StoreSlot.generation = some 5
      ∧ (after (.storeCommitDone false) s).newestImage.map StoreSlot.generation = some 0
      ∧ (after (.storeCommitDone false) s).reg 0x105002 = 2 := by decide +kernel

theorem test_bankSwapRequest :
    let t := after (.bankSwapRequest .bar0 (BitVec.ofNat 64 (5 + 2 * 2 ^ 14))) base
    writeReaches base .bar0 0x2020 1 8 = true ∧ (t.comb 4).swaps = 0 ∧ (t.comb 5).swaps = 1 ∧ (t.comb 6).swaps = 1 ∧ (t.comb 7).swaps = 0 := by
  decide +kernel
/-- Command 7 of bank B of comb 4. -/
def debugWrite : List Byte := natLE 2 4 ++ [1, 0] ++ natLE 2 7 ++ List.replicate 10 0 ++ List.replicate 16 9
theorem test_debugProgramWrite :
    let s := raised.setComb 4 { swaps := 1 }
    let h := raised.setComb 4 { bankB := true, swaps := 1 }
    writeReaches raised .bar0 0x2020 5 32 = true ∧ debugWrite.length = 32 ∧ (s.comb 4).shownB = true ∧ (h.comb 4).shownB = false
      ∧ (after (.debugProgramWrite .bar0 debugWrite) s).reg 0x202006 = 1
      ∧ (after (.debugProgramWrite .bar0 debugWrite) raised).rawByte (progAddr 4 true 112) = 9#8
      ∧ (after (.debugProgramWrite .bar0 debugWrite) raised).reg 0x202006 = 0
      ∧ ((after (.debugProgramWrite .bar0 debugWrite) h).comb 4).heldWrites.length = 2 := by decide +kernel
theorem test_measureBank : writeReaches base .bar0 0xA010 1 4 = true ∧ base.hiveWorks 0 = true := by decide +kernel
theorem test_quoteNonceWrite : writeReaches base .bar0 0xA040 1 32 = true ∧ base.islandUp = true
    ∧ (base.dict.quotes.any fun q => q.open_ .bar0 base.now) = false ∧ (base.isl.quotes.any fun q => q.open_ .bar0 base.now) = false := by
  decide +kernel
theorem test_firmware :
    let staged : State := base.setComponent 1 { base.component 1 with staged := true }
    writeReaches raised .bar0 0xA020 2 1 = true ∧ (raised.touch .bar0).roleOf .bar0 ≠ 0 ∧ raised.trust.staging = none
      ∧ (raised.component 1).running = some 0
      ∧ (after (.fwActivate .bar0 0x12) staged).component 1 = { plainFirmware with active := 1 }
      ∧ statusOf (after (.fwConfirm .bar0 0x13) raised) = some 0 := by decide +kernel
theorem test_fwStageDone :
    let s : State := { base with trust := { base.trust with staging := some (1, [1, 2]) } }
    s.pow.powered = true ∧ s.trust.staging = some (1, [1, 2]) := by decide +kernel

/-- Bind record 9 to tensor 7 in FP8 E4M3, scaled. -/
def bind9 : W64 := BitVec.ofNat 64 (9 + 7 * 2 ^ 12 + 4 * 2 ^ 28 + 2 ^ 32)
theorem test_recordBind : writeReaches base .bar0 0x3030 1 8 = true
    ∧ ((after (.recordBind .bar0 bind9) base).recordOf 7).map Prod.fst = some 9
    ∧ statusOf (after (.recordBind .bar0 bind9) base) = some 0 := by decide +kernel
def bound9 : State := base.setRecord 9 { base.record 9 with tensor := 7, format := 4, bound := true, zeroAlarm := true }
theorem test_recordBind_again : ((after (.recordBind .bar0 bind9) bound9).record 9).scaled = true := by decide +kernel
theorem test_recordUnbind : (after (.recordUnbind .bar0 9) bound9).recordOf 7 = none := by decide +kernel
theorem test_recordClearAlarms : ((after (.recordClearAlarms .bar0 9) bound9).record 9).zeroAlarm = false := by decide +kernel

def region : State := base.setReg 0x303301 0x8000000000
theorem test_scaleTransfers : writeReaches region .bar0 0x3033 2 1 = true ∧ region.num.transfer = none ∧ nodeOf (region.reg 0x303301) = region.node
    ∧ plainRegion (localOf (region.reg 0x303301)) imageBytes = true := by decide +kernel
theorem test_scaleTransferDone :
    let s : State := { base with num := { base.num with transfer := some ⟨true, 0, 2⟩ } }
    s.running = true ∧ (after .scaleTransferDone s).reg 0x303303 = 2 ∧ (after .scaleTransferDone s).num.transfer = none := by decide +kernel

theorem test_poolRecordWrite :
    let row (s : State) := after (.poolRecordWrite .bar0 3 poolRecord) s
    let q : Pool := { base.pool 3 with record := poolRecord }
    writeReaches base .bar0 0x7103 1 32 = true ∧ base.poolOk 3 q = true ∧ base.fallbackOk q = true
      ∧ ((row base).pool 3).state = 3 ∧ ((row base).pool 3).enabled = true ∧ ((row (row base)).pool 3).state = 3
      ∧ statusOf (row (row base)) = some 0 := by decide +kernel
theorem test_poolRecordWrite_disabled :
    let off : W256 := BitVec.ofNat 256 (poolRecord.toNat - 2 ^ 255)
    let s := base.setPool 3 { record := poolRecord, state := 3 }
    statusOf (after (.poolRecordWrite .bar0 3 off) base) = some 0 ∧ statusOf (after (.poolRecordWrite .bar0 3 off) s) = some 0
      ∧ ((after (.poolRecordWrite .bar0 3 off) s).pool 3).enabled = false := by decide +kernel
theorem test_poolInitComplete :
    let s := base.setPool 3 { record := poolRecord, state := 3 }
    let t := after (.poolInitComplete 3) s
    plainRegion.inHbmRange (s.pool 3).meta (s.pool 3).metaBytes = true ∧ (t.pool 3).state = 1 ∧ (t.pool 3).free = 16
      ∧ (t.pool 3).cache = List.range 16 ∧ (t.pool 3).ringHeld = 0
      ∧ t.rawByte ((s.pool 3).meta + 4 * 15) = 15#8 := by decide +kernel
/-! ## Entries of the switch, the engines, the ports, power and the island; messages -/

theorem test_geometryCommit : writeReaches base .bar0 0x6010 5 1 = true ∧ base.geometryOk = true
    ∧ statusOf (after (.geometryCommit .bar0 1) base) = some 0 := by decide +kernel

def ringAt (key a : Nat) : State := base.setReg key a
theorem test_captureRingEnable :
    let s := ringAt 0x430001 0x8000000000
    writeReaches s .bar0 0x4300 2 1 = true ∧ ringFits (s.reg 0x430001) 10 80 = true
      ∧ (after (.captureRingEnable .bar0 0x8A) s).reg 0x430002 = 0x8A
      ∧ statusOf (after (.captureRingEnable .bar0 0x0A) (s.setReg 0x430002 0x8A)) = some 6 := by decide +kernel
theorem test_telemetryRingEnable :
    let s := ringAt 0xB04001 0x8000000000
    writeReaches s .bar0 0xB040 2 1 = true ∧ ringFits (s.reg 0xB04001) 8 64 = true
      ∧ (after (.telemetryRingEnable .bar0 0x88) s).reg 0xB04002 = 0x88
      ∧ (after (.telemetryRingEnable .bar0 0x08) (s.setReg 0xB04002 0x88)).reg 0xB04002 = 0x08 := by decide +kernel

theorem test_injectionUnlock : writeReaches raised .bar0 0xC000 1 1 = true := by decide +kernel

def stream3 : Stream := Stream.fresh (BitVec.ofNat 512 (3 * 2 ^ 496)) 0 [] false
theorem test_streamDetach :
    let s : State := { base with eng := { base.eng with streams := [{ stream3 with handle := 3 }] } }
    writeReaches s .bar0 0x5800 9 2 = true ∧ (s.eng.streams.any fun x => x.handle == 3) = true
      ∧ (after (.streamDetach .bar0 3) s).eng.streams.length = 0 := by decide +kernel

def contextRecord : W512 :=
  BitVec.ofNat 512 (2 ^ 511 + 0x8000000000 * 2 ^ 320 + 0x8000010000 * 2 ^ 256 + 0x100000 * 2 ^ 192 + 0x200000 * 2 ^ 128 + 64 * 2 ^ 96 + 0x300000)
theorem test_contextRecordWrite :
    let t := after (.contextRecordWrite .bar0 contextRecord) base
    let u := after (.contextRecordWrite .bar0 (BitVec.ofNat 512 (contextRecord.toNat % 2 ^ 511))) t
    writeReaches base .bar0 0x5810 2 64 = true ∧ base.contextOk { record := contextRecord } = true ∧ (t.ctx 0).state = 1 ∧ (u.ctx 0).state = 0
      ∧ statusOf u = some 0 := by decide +kernel

/-- A group of one axis with one member. -/
def groupWord : W256 := BitVec.ofNat 256 (2 ^ 255 + 4 * 2 ^ 48)
theorem test_groupDefine :
    let t := after (.groupDefine .bar0 groupWord) base
    let u := after (.groupUndefine .bar0 0) t
    writeReaches base .bar0 0x5000 2 32 = true ∧ base.groupOk groupWord = true ∧ reservedFor groupWord = 0 ∧ groupValid (t.group 0).record = true
      ∧ groupValid (u.group 0).record = false := by decide +kernel
def oneCollective : Collective :=
  { id := 4, group := 0, generation := 0, sequence := 1, hub := 0, record := 0, entry := none, started := 0, fp16Inf := false, streams := [] }
def withCollective : State := { base with coll := { base.coll with active := [oneCollective] } }
theorem test_collectiveAbort : writeReaches withCollective .bar0 0x5030 1 8 = true
    ∧ (withCollective.coll.active.find? fun y => y.group == 0 && y.sequence == 1 && !y.reported) = some oneCollective := by decide +kernel
theorem test_snapshotRequest_group :
    let s := (base.setReg 0xB05005 5).setReg 0x4000 0
    let s : State := { s with net := { s.net with groups := SMap.put 0 s.net.groups 5 (BitVec.ofNat 128 (2 ^ 127)) } }
    bitOf (s.groupEntry (s.reg 0xB05005)) 127 = true ∧ (after (.snapshotRequest .bar0 10000) s).health.snapshot = some 10000 := by decide +kernel
theorem test_snapshotRequest :
    writeReaches base .bar0 0xB050 1 8 = true ∧ (4096 ≤ base.reg 0xB05005 ∨ bitOf (base.groupEntry (base.reg 0xB05005)) 127 = false)
      ∧ (after (.snapshotRequest .bar0 10000) base).health.snapshot = some 10000
      ∧ (after (.snapshotRequest .bar0 9999) base).health.snapshot = none := by decide +kernel
theorem test_setFabricTime : writeReaches base .bar0 0x9040 4 8 = true ∧ base.isRoot = true ∧ (after (.setFabricTime .bar0 77) base).now = 77 := by
  decide +kernel

theorem test_portControl :
    let off := base.setReg 0x602002 0 0
    writeReaches base .bar0 0x6020 2 1 = true ∧ base.portEnabled 0 = true ∧ off.portEnabled 0 = false
      ∧ bitOf (base.linkDir 0) 7 = false ∧ bitOf (base.linkDir 1) 7 = false := by
  decide +kernel
theorem test_forcedSwap :
    let s : State := { raised with opt := { raised.opt with lasers := [(0, some ⟨1, 0, 0, true⟩), (1, some ⟨0, 0, 0, true⟩)] } }
    writeReaches s .bar0 0x6040 4 1 = true ∧ s.activeUnit 0 0 = some 0 ∧ (s.laser 0 0 1).state = 0 ∧ s.bankFitted 0 = true
      ∧ s.bankTraining 0 = false ∧ (s.linkTo 3 3).bankTraining 0 = true ∧ writeReaches (s.linkTo 3 3) .bar0 0x6040 4 1 = true
      ∧ (after (.forcedSwap .bar0 0) (s.linkTo 3 3)).opt.swapsHeld = [(0, 0)]
      ∧ ((({ s with opt := { s.opt with swapsHeld := [(0, 0)] } } : State).makeHeldSwaps 0).laser 0 0 1).state = 1 := by decide +kernel
theorem test_laserBiasAdjust :
    let r : LaserReading := { wavelength := 2, unit := 0, bias := 40, hours := 3, meets := true }
    base.running = true ∧ base.bankFitted 7 = true ∧ LaserReading.wf r = true ∧ SMap.get 0 base.opt.lastBias 7 + 100000000 ≤ max base.now 100000000 := by decide +kernel
theorem test_ringCalibration : base.running = true ∧ base.portFitted 3 = true
    ∧ SMap.get 0 (after (.ringCalibration 3 1 true 5 true 100000000) base).opt.heaters ((3 * 8 + 1) * 2) = 5
    ∧ SMap.get 0 (after (.ringCalibration 3 1 true 5 true 99999999) base).opt.heaters ((3 * 8 + 1) * 2) = 0
    ∧ SMap.get false base.opt.failedRings ((3 * 8 + 1) * 2) = false := by decide +kernel

theorem test_powerRequests : writeReaches base .bar0 0x1020 1 1 = true ∧ (after (.powerRequestDormant .bar0) base).pow.request = 1
    ∧ (after (.powerRequestActive .bar0) (after (.powerRequestDormant .bar0) base)).pow.request = 0
    ∧ (base.setRequest 1).pow.state = 2 := by decide +kernel
theorem test_powerRequests_field :
    let c : Ctx := .field 5
    writeReaches base c 0x1020 1 1 = true ∧ (after (.powerRequestDormant c) base).isl.dormantRequest = true
      ∧ (after (.powerRequestActive c) base).isl.wakeRequest = true := by decide +kernel
theorem test_resets : writeReaches base .bar0 0x9010 1 1 = true ∧ writeReaches raised .bar0 0x9010 1 1 = true
    ∧ base.pow.state ≠ 5 ∧ (raised.touch .bar0).roleOf .bar0 ≠ 0 := by decide +kernel
theorem test_hiveReset : writeReaches base .bar0 0x9010 2 1 = true
    ∧ fieldOf 95 64 ((after (.hiveReset .bar0 0) base).reg 0x901007) = 1 := by decide +kernel
theorem test_portReset : writeReaches base .bar0 0x9010 3 1 = true ∧ statusOf (after (.portReset .bar0 0) base) = some 0
    ∧ statusOf (after (.portReset .bar0 0x4F) base) = some 0 ∧ statusOf (after (.portReset .bar0 0x50) base) = some 0 := by decide +kernel
theorem test_combDrain :
    let v : W64 := BitVec.ofNat 64 (5 + 2 * 2 ^ 14)
    writeReaches base .bar0 0x9010 4 8 = true ∧ ((after (.combDrain .bar0 v) base).comb 6).draining = true
      ∧ ((after (.combDrain .bar0 v) base).comb 7).draining = false
      ∧ ((after (.combRestart .bar0 v) (after (.combDrain .bar0 v) base)).comb 6).draining = false := by decide +kernel
/-- A thermal trip whose dies are still above 100 °C holds a warm reset (R434). -/
theorem test_warmReset_held :
    let s : State := { base with pow := { base.pow with state := 5, tripped := true, temps := base.pow.temps.set 0 10001 } }
    writeReaches s .bar0 0x9010 1 1 = true ∧ (after (.warmReset .bar0) s).pow.tripHold = true := by decide +kernel
theorem test_leakClear :
    let s : State := { base with isl := { base.isl with leakLatched := true } }
    writeReaches s .bar0 0x8020 0x0A 1 = true ∧ s.isl.wet = false ∧ s.diag 0x30 = false ∧ s.diag 0x31 = false ∧ s.diag 0x32 = false
      ∧ (after (.leakClear .bar0 1) s).isl.leakLatched = false := by decide +kernel
theorem test_serviceOutputTest : writeReaches base .bar0 0x8050 2 1 = true
    ∧ (after (.serviceOutputTest .bar0 1) base).isl.svcTestUntil = some 5000000000 := by decide +kernel
theorem test_fieldRestart : writeReaches base .bar0 0x8011 1 1 = true ∧ statusOf (after (.fieldRestart .bar0 1) base) = some 0 := by decide +kernel

/-- A message to this module of one DESCRIBE of 9010.06. -/
def message1 : List Byte := [1, 1] ++ natLE 2 24 ++ [0, 0, 0] ++ [1] ++ [3, 0, 0x10, 0x90, 6] ++ List.replicate 11 0
theorem test_dictWindowGo :
    let s : State := { base with host := { base.host with request := (List.range 24).map fun i => (i, message1.getD i 0) } }
    let bs := (List.range 24).map fun i => SMap.get 0 s.host.request i
    s.reachable .bar0 = true ∧ s.host.goBusy = false ∧ (parseMessage bs true).toOption.isSome = true ∧ s.elsewhere bs = false
      ∧ (after (.dictWindowGo 15) s).host.goStatus = 2 ∧ (after (.dictWindowGo 24) s).host.goLength = 40
      ∧ (after (.dictWindowGo 24) { s with host := { s.host with goBusy := true } }).reg 0x106002 = 1 := by decide +kernel
theorem test_give : 8 ≤ (base.failMessage 2).length ∧ (base.give .window (base.failMessage 2)).host.goStatus = 2
    ∧ (base.give .window (base.failMessage 2)).host.goBusy = false := by decide +kernel
/-- A frame delivered at a port. -/
def delivered (port tc kind : Nat) (h : Hdr) (payload : List Byte) (s : State) : State :=
  { s with net := { s.net with rx := [⟨port, ⟨({ h with kind := kind, tc := tc } : Hdr).encode, payload⟩, 0x40, 0, 0, false⟩] } }
theorem test_dictWindowGo_bad :
    let s : State := { base with host := { base.host with request := (List.range 24).map fun i => (i, if i = 0 then 9 else message1.getD i 0) } }
    let bs := (List.range 24).map fun i => SMap.get 0 s.host.request i
    (parseMessage bs true).toOption.isSome = false ∧ (after (.dictWindowGo 24) s).host.goStatus ≠ 0
      ∧ (after (.dictWindowGo 24) s).host.goBusy = false := by decide +kernel
theorem test_managementFrame :
    let s := delivered 0x84 0 0x40 { srcNode := 9, seq := 5 } message1 base
    s.running = true ∧ (s.take 0x84 0 0x40).isSome = true ∧ (parseMessage message1 false).toOption.isSome = true := by decide +kernel
def forward5 : Forwarded := ⟨5, 100, 9, .window⟩
theorem test_managementResultFrame :
    let s := delivered 0x84 0 0x42 { srcNode := 9, seq := 5 } message1 base
    let s : State := { s with dict := { s.dict with forwarded := [forward5] } }
    (s.take 0x84 0 0x42).isSome = true ∧ (s.dict.forwarded.find? fun y => y.tag == 5 && y.target == 9) = some forward5
      ∧ (after .managementResultFrame s).dict.forwarded = [] := by decide +kernel
theorem test_dictRemoteTimeout :
    let s : State := { base with dict := { base.dict with forwarded := [forward5] } }
    (after (.dictRemoteTimeout 5 10000100) s).dict.forwarded = [] ∧ (after (.dictRemoteTimeout 5 10000099) s).dict.forwarded = [forward5] := by
  decide +kernel
def vdp1 : List Byte := [0x56, 0x44, 1, 1, 7, 0, 0, 0] ++ message1
theorem test_vdpFrame : base.islandUp = true ∧ vdpOk vdp1 = true ∧ vdpOk message1 = false ∧ (after (.vdpFrame 3 message1) base).reg 0x801006 = 1
    ∧ (parseMessage (vdp1.drop 8) false).toOption.isSome = true ∧ (after (.vdpFrame 3 vdp1) base).reg 0x801005 = 1 := by decide +kernel
theorem test_vdpFrame_busy :
    let s : State := { base with dict := { base.dict with jobs := [{ id := 1, carrier := .vdp 3 7, ctx := .field 3, header := [], items := [], done := [] }] } }
    s.vdpBusy 3 7 = true ∧ (after (.vdpFrame 3 vdp1) s).dict.repeats = [(3, 7)] := by decide +kernel
theorem test_vdpFrame_repeat :
    let s := base.setContext ⟨.field 3, 0, [], 0, none, 0, none⟩
    let s : State := { s with dict := { s.dict with kept := [(3, 7, [1, 2])] } }
    (after (.vdpFrame 3 vdp1) s).isl.fieldSent = [(3, [1, 2])] := by decide +kernel
/-! ## The host interface and the switch core -/

theorem test_bar2Read : let s := base.setBytes 0x10 [5, 6]
    s.hostUp = true ∧ s.bar2Served = true ∧ s.nodeValid s.node = true ∧ (splitNode (s.host.windowBase.toNat + 0x10) 2) = [(0x10, 2)]
      ∧ (after (.bar2Read ⟨.bar2, 0x10⟩ 2) s).host.completions = [.data [5, 6]]
      ∧ (after (.bar2Read ⟨.bar2, (2 ^ 36 - 1)⟩ 2) s).host.completions = [.unsupported] ∧ (after (.bar2Read ⟨.bar2, (2 ^ 36 - 1)⟩ 2) s).reg 0x104001 = 1 := by
  decide +kernel
theorem test_bar2Write : (base.tlp.memWrite bar2Requester [(0x11, [7, 8])]).2 = none
    ∧ (after (.bar2Write ⟨.bar2, 0x11⟩ ⟨[7, 8], false⟩) base).rawBytes 0x10 4 = [0, 7, 8, 0] := by decide +kernel
def read5 : Bar2Read := ⟨[5], 100, 0, 4, []⟩
theorem test_bar2RemoteReadTimeout :
    let s : State := { base with host := { base.host with reads := [read5] } }
    s.readOf 5 = some read5 ∧ (after (.bar2RemoteReadTimeout 5 5000100) s).host.completions = [.abort]
      ∧ (after (.bar2RemoteReadTimeout 5 5000099) s).host.completions = [] := by decide +kernel
theorem test_windowBaseWrite : (after (.windowBaseWrite 0xFFFFFFFF) base).host.windowBase = 0xC0000000 := by decide +kernel
theorem test_pcieL1Entry :
    let s : State := { base with host := { base.host with pci := { base.host.pci with aspmL1 := true } } }
    s.hostUp = true ∧ s.host.inL1 = false ∧ (after (.pcieL1Entry 16000) s).host.inL1 = true
      ∧ (after (.pcieL1Entry 15999) s).host.inL1 = false ∧ (after (.pcieL1Entry 16000) base).host.inL1 = false := by decide +kernel
/-- BAR0 and the configuration space: the window base, the capability pointer, an access across a doubleword, start-up, a poisoned write. -/
theorem test_bar0Read : base.reachable .bar0 = true ∧ bar0Ok 0x120000 8 = true ∧ bar0Ok 0x120004 8 = false
    ∧ (after (.bar2Read ⟨.bar0, 0x120000⟩ 8) base).host.completions = [.data (List.replicate 8 0)]
    ∧ (after (.bar2Read ⟨.bar0, 0x120004⟩ 8) base).host.completions = [.unsupported] := by decide +kernel
theorem test_configRead : base.retries .config = false ∧ configOk 0x34 4 = true ∧ configOk 0x36 4 = false
    ∧ (after (.bar2Read ⟨.config, 0x34⟩ 4) base).host.completions = [.data [0x40, 0, 0, 0]]
    ∧ (after (.bar2Read ⟨.config, 0x36⟩ 4) base).host.completions = [.unsupported] := by decide +kernel
theorem test_configRetry : let s : State := { base with pow := { base.pow with startingUp := true } }
    s.retries .config = true ∧ (after (.bar2Read ⟨.config, 0⟩ 4) s).host.completions = [.retry] := by decide +kernel
theorem test_bar2Write_poisoned : base.hostTakes .bar2 = true ∧ base.retries .bar2 = false
    ∧ (after (.bar2Write ⟨.bar2, 0x11⟩ ⟨[7, 8], true⟩) base).host.aer = [.poisoned]
    ∧ (after (.bar2Write ⟨.bar2, 0x11⟩ ⟨[7, 8], true⟩) base).rawBytes 0x10 4 = [0, 0, 0, 0] := by decide +kernel
theorem test_bar2Read_held : let s := base.setComb 5 { swaps := 1, heldWrites := [(progAddr 5 true 0, [1])] }
    s.writesHeld = true ∧ s.bar2Served = true ∧ (after (.bar2Read ⟨.bar2, 0x10⟩ 2) s).host.readsHeld = [⟨0x10, 2, 0, none⟩] := by decide +kernel
/-- A read of node 1 goes out as a GET on TC5 (R20), and one while the hubs come up waits (R431). -/
def far : State := { base with net := { base.net with dims := 1 } }
theorem test_bar2Read_remote : let s := { far with host := { far.host with windowBase := BitVec.ofNat 64 (2 ^ 40) } }
    s.bar2Served = true ∧ splitNode (2 ^ 40 + 0x10) 2 = [(2 ^ 40 + 0x10, 2)] ∧ nodeOf (2 ^ 40 + 0x10) = 1 ∧ s.nodeValid 1 = true ∧ s.node = 0 ∧ pieces 0 2 = [(0, 2)] := by
  decide +kernel
theorem test_bar2_waits : let s : State := { base with pow := { base.pow with state := 4 } }
    s.bar2Waits = true ∧ (after (.bar2Read ⟨.bar2, 0x10⟩ 2) s).host.readsHeld = [⟨0x10, 2, 0, none⟩]
      ∧ (after (.bar2Write ⟨.bar2, 0x10⟩ ⟨[7], false⟩) s).host.writesWaiting = [(0x10, [7])] := by decide +kernel
theorem test_bar2_held_timeout : let s : State := { base with host := { base.host with readsHeld := [⟨2 ^ 40, 2, 0, some 9⟩] } }
    s.readOf 9 = none ∧ (after (.bar2RemoteReadTimeout 9 5000000) s).host.completions = [.abort]
      ∧ (after (.bar2RemoteReadTimeout 9 4999999) s).host.completions = [] := by decide +kernel
theorem test_hostReceiveTimeout :
    let s := delivered 0x50 1 0x10 { destEp := 0x2003 } (List.replicate 64 0)
      (base.setPair 3 { config := BitVec.ofNat 512 (2 ^ 363), state := 1, cqUsed := 16 })
    (s.rxFind 0x50 1 isReceived).isSome = true ∧ s.bestEffort 1 = false ∧ (s.pair 3).takes 0x10 = true ∧ (s.pair 3).cqFree = false
      ∧ (after (.hostReceiveTimeout 1 1000000) s).reg 0x104003 = 1
      ∧ (after (.hostReceiveTimeout 1 999999) s).reg 0x104003 = 0 := by decide +kernel
theorem test_hostReceive_untaken :
    let s := delivered 0x50 1 0x10 { destEp := 0x2003 } (List.replicate 64 0) base
    s.pow.state = 1 ∧ (s.pair 3).takes 0x10 = false ∧ (after (.hostReceiveFrame 1) s).net.rx = [] := by decide +kernel

/-- Queue pair 3, enabled, empty, with both queues at host address 0. -/
def pair3 : State := after (.queuePairEnable 3 (BitVec.ofNat 512 (2 ^ 364))) base
/-- It takes frames, into buffers of pool 3, which has one free buffer of 256 B. -/
def onePool : Pool := { record := poolRecord, state := 1, free := 1, cache := [0] }
def receiver (free : Nat) : State :=
  let s := base.setPool 3 { onePool with free := free }
  let p : QueuePair := { config := BitVec.ofNat 512 (2 ^ 364 + 2 ^ 363 + 3 * 2 ^ 358), state := 1 }
  delivered 0x50 1 0x10 { destEp := 0x2003 } (List.replicate 64 7) (s.setPair 3 p)
theorem test_hostReceive_waits : (receiver 0).hostUp = true ∧ ((receiver 0).rxFind 0x50 1 isReceived).isSome = true
    ∧ ((receiver 0).pair 3).takes 0x10 = true ∧ ((receiver 0).pair 3).cqFree = true ∧ ((receiver 0).pair 3).pool = 3
    ∧ ((receiver 0).alloc 3).1 = 0 ∧ (after (.hostReceiveFrame 1) (receiver 0)).net.rx.map Delivered.waiting = [true] := by decide +kernel
theorem test_hostReceive_no_slot :
    let s := (receiver 1).setPair 3 { (receiver 1).pair 3 with cqUsed := ((receiver 1).pair 3).cqSize }
    (s.pair 3).takes 0x10 = true ∧ (s.pair 3).cqFree = false
      ∧ (after (.hostReceiveFrame 1) s).net.rx.map Delivered.waiting = [true] := by decide +kernel
/-- With one buffer in the cache the free choice of an ALLOC is that buffer. -/
theorem alloc_one (s : State) (p : Nat) (h1 : (s.pool p).state = 1) (h2 : 0 < (s.pool p).free) (h3 : ((s.cacheReady p).pool p).cache = [0])
    (h4 : ((s.cacheReady p).pool p).state = 1) (h5 : (s.cacheReady p).poisoned (((s.cacheReady p).pool p).bitAt 0) = false) :
    ∃ t : State, (s.alloc p).1 = t.globalOf ((s.cacheReady p).pool p).base := by
  have h6 : (s.cacheReady p).draw.2.poisoned (((s.cacheReady p).pool p).bitAt 0) = false := h5
  simp [State.alloc, State.allocFrom, State.takeBuffer, h1, h2, h4, h3, h6, Nat.mod_one]
  exact ⟨_, rfl⟩
theorem test_hostReceive_buffer : ((receiver 1).pair 3).takes 0x10 = true ∧ ((receiver 1).pair 3).cqFree = true
    ∧ ((receiver 1).alloc 3).1 ≠ 0 := by
  refine ⟨by decide +kernel, by decide +kernel, ?_⟩
  obtain ⟨t, h⟩ := alloc_one (receiver 1) 3 (by decide +kernel) (by decide +kernel) (by decide +kernel) (by decide +kernel) (by decide +kernel)
  have h8 : (((receiver 1).cacheReady 3).pool 3).base = 0x8000000000 := by decide +kernel
  rw [h, h8]
  unfold State.globalOf
  omega
theorem test_queuePairEnable : (base.pair 3).state = 0 ∧ (pair3.pair 3).state = 1
    ∧ ((after (.queuePairEnable 3 (BitVec.ofNat 512 (2 ^ 364 + 15 * 2 ^ 380))) base).pair 3).fault = 3 := by decide +kernel
theorem test_queuePairDisable : ((after (.queuePairDisable 3) pair3).pair 3).state = 3 := by decide +kernel
theorem test_queuePairDrained : ((after (.queuePairDrained 3) (after (.queuePairDisable 3) pair3)).pair 3).state = 0 := by decide +kernel
theorem test_doorbells : (pair3.pair 3).sqSize ≤ 65535 ∧ ((after (.sqTailDoorbell 3 1) pair3).pair 3).sqTail = 1
    ∧ ((after (.sqTailDoorbell 3 0xFFFF) pair3).pair 3).fault = 1 ∧ ((after (.cqHeadDoorbell 3 1) pair3).pair 3).cqHead = 1 := by decide +kernel
theorem test_hostPortReset : base.pow.powered = true ∧ ((after (.hostPortReset .hotReset) pair3).pair 3).state = 0
    ∧ fieldOf 127 96 ((after (.hostPortReset .hotReset) pair3).reg 0x901007) = 1 := by decide +kernel

/-- One entry at the head of pair 3's queue. -/
def entry (bs : List Byte) : State := after (.sqTailDoorbell 3 1) (pair3.setHostBytes 0 (padTo 64 bs))
def results (t : State) : List (Option (Nat × Nat)) := (t.pair 3).entries.map fun x => x.result
theorem test_sqNop : (entry []).canStart 3 = true ∧ entryLegal ((entry []).nextEntryBytes 3) = true ∧ results (after (.sqNop 3) (entry [])) = [some (0, 0)]
    ∧ results (after (.sqNop 3) (entry [7])) = [some (0x10, 0)] := by decide +kernel
/-- DMA of 4 bytes between host address 0x400 and the near store at 0x80. -/
def dma (op : Byte) : List Byte := [op, 0, 0, 0, 0, 0, 0, 0] ++ natLE 8 0x400 ++ natLE 8 0x80 ++ natLE 4 4
theorem test_sqDmaToModule : let s := (entry (dma 1)).setHostBytes 0x400 [9, 8, 7, 6]
    s.canStart 3 = true ∧ entryLegal (s.nextEntryBytes 3) = true ∧ (after (.sqDmaToModule 3) s).rawBytes 0x80 4 = [9, 8, 7, 6]
      ∧ results (after (.sqDmaToModule 3) s) = [some (0, 0)] := by decide +kernel
theorem test_sqDmaToHost : let s := (entry (dma 2)).setBytes 0x80 [1, 2, 3, 4]
    entryLegal (s.nextEntryBytes 3) = true ∧ (after (.sqDmaToHost 3) s).hostBytes 0x400 4 = [1, 2, 3, 4]
      ∧ results (after (.sqDmaToHost 3) s) = [some (0, 0)] := by decide +kernel
theorem test_sqLaunch : let s := entry ([3] ++ List.replicate 31 0 ++ natLE 32 (oneThread 8).toNat)
    entryLegal (s.nextEntryBytes 3) = true ∧ (after (.sqLaunch 3) s).swarm.launches.length = 1 := by decide +kernel
theorem test_sqPost : let s := entry ([4] ++ List.replicate 7 0 ++ natLE 8 0x200)
    entryLegal (s.nextEntryBytes 3) = true ∧ plainRegion 0x200 64 = true ∧ (after (.sqPost 3) s).reg 0x502002 = 1 := by decide +kernel
theorem test_sqDictionary : let s := entry ([5] ++ List.replicate 7 0 ++ natLE 8 0x400 ++ natLE 8 0x800 ++ natLE 2 24 ++ natLE 2 40)
    let s := s.setHostBytes 0x400 message1
    entryLegal (s.nextEntryBytes 3) = true ∧ results (after (.sqDictionary 3) s) = [some (0, 40)] := by decide +kernel
theorem test_sqFree : let s := entry ([6] ++ List.replicate 7 0 ++ natLE 8 0)
    entryLegal (s.nextEntryBytes 3) = true ∧ results (after (.sqFree 3) s) = [some (0, 0)] := by decide +kernel
theorem test_sqEntryComplete :
    let s := after (.sqNop 3) (entry [7])
    let e := (base.pair 3).nextEntry
    (s.entry? 3 e).map Entry.result = some (some (0x10, 0)) ∧ (s.pair 3).cqFree = true
      ∧ (after (.sqEntryComplete 3 e) s).hostBytes ((s.pair 3).cqBase + 4) 4 = [0x10, 0x80, 1, 0]
      ∧ results (after (.sqEntryComplete 3 e) s) = [] := by decide +kernel
theorem test_hostReadCompletionTimeout :
    let p := pair3.pair 3
    let s := pair3.setPair 3 { p with entries := [⟨9, dma 1, 4, none⟩] }
    (s.entry? 3 9).isSome = true ∧ results (after (.hostReadCompletionTimeout 3 9 ⟨50, .timeout⟩) s) = [some (0x13, 0x400)]
      ∧ (after (.hostReadCompletionTimeout 3 9 ⟨50, .abort⟩) s).reg 0x104002 = 1 := by decide +kernel
theorem test_hostRead_next : (entry (dma 1)).canStart 3 = true ∧ (entry (dma 1)).entry? 3 ((entry (dma 1)).pair 3).nextEntry = none := by
  decide +kernel

/-- Link 5 up. -/
def up5 : State := base.setLink 5 { state := 4 }
def lh (seq : Nat) : LinkHeader := ⟨seq, false, 1, false, 0⟩
def goodHeader : W256 := ({ destEp := 0x1002, kind := 0x10, tc := 1 } : Hdr).encode
theorem test_frameHeaderConfirm_badCrc :
    up5.linkUp 5 = true ∧ SMap.get none up5.net.arriving 5 = none ∧ (up5.link 5).awaiting = false ∧ headerOk 1 = false
      ∧ (SMap.get none (after (.frameHeaderConfirm 5 (lh 0) 1) up5).net.arriving 5).map Arriving.verdict = some 1 := by decide +kernel
theorem test_frameHeaderConfirm_sequence : headerOk goodHeader = true
    ∧ (SMap.get none (after (.frameHeaderConfirm 5 (lh 9) goodHeader) up5).net.arriving 5).map Arriving.verdict = some 2 := by decide +kernel
theorem test_frameHeaderConfirm_local : up5.route 5 goodHeader = .local_ 0x42 ∧ up5.bestEffort 1 = false
    ∧ (SMap.get none (after (.frameHeaderConfirm 5 (lh 0) goodHeader) up5).net.arriving 5).map Arriving.egress = some (some 0x42) := by decide +kernel
def arriving5 : State := up5.setArriving 5 (some
  { lh := lh 0, header := goodHeader, accepted := true, verdict := 0, route := .local_ 0x42, egress := some 0x42, cut := false, sessions := [], at_ := 0 })
def zeros64 : List Byte := List.replicate 64 0
def goodTrailer : W64 := BitVec.ofNat 64 (frameCrc ⟨goodHeader, zeros64⟩)
theorem test_frameTrailerArrival : (SMap.get none arriving5.net.arriving 5).isSome = true ∧ trailerVerdict ⟨goodHeader, zeros64⟩ goodTrailer = .confirmed
    ∧ ((arriving5.acceptFrame 5).link 5).expected = 1 := by decide +kernel
theorem test_frameTrailerArrival_stomped :
    let t : W64 := BitVec.ofNat 64 (2 ^ 32 + (2 ^ 32 - 1 - frameCrc ⟨goodHeader, zeros64⟩))
    trailerVerdict ⟨goodHeader, zeros64⟩ t = .stomped ∧ trailerVerdict ⟨goodHeader, zeros64⟩ 0 = .corrupt := by decide +kernel

def put1 : State := delivered 0x82 5 1 { srcNode := 9, srcEp := 0x1000, offset := 0x8000000000, seq := 3 } (List.replicate 64 7) base
theorem test_putFrame : (put1.take 0x82 5 1).isSome = true
    ∧ ((put1.memWrite ⟨4, 9⟩ [(0x8000000000, List.replicate 64 7)]).2) = none ∧ (after (.putFrame 0x82 5) put1).rawByte 0x800000003F = 7#8
    ∧ (after (.putFrame 0x82 5) put1).net.acks.map AckSet.tags = [[3]] := by decide +kernel
theorem test_ackCoalesceTimeout :
    let s := after (.putFrame 0x82 5) put1
    (after (.ackCoalesceTimeout 9 5 1000) s).net.acks = [] ∧ (after (.ackCoalesceTimeout 9 5 999) s).net.acks.length = 1 := by decide +kernel
theorem test_putFrame_fails :
    let s := delivered 0x82 5 1 { srcNode := 9, offset := 2 ^ 40 - 1 } (List.replicate 64 7) base
    (s.take 0x82 5 1).isSome = true ∧ (s.memWrite ⟨4, 9⟩ [(2 ^ 40 - 1, List.replicate 64 7)]).2.isSome = true := by decide +kernel
def asks (kind : Nat) (payload : List Byte) : State :=
  delivered 0x82 5 kind { srcNode := 9, srcEp := 0x1000, offset := 0x8000000000, seq := 3 } (padTo 64 payload) (base.setBytes 0x8000000000 [1, 2, 3, 4])
theorem test_getFrame : let s := asks 2 (natLE 8 0x40 ++ natLE 4 4)
    (s.take 0x82 5 2).isSome = true ∧ (s.memRead ⟨4, 9⟩ [(0x8000000000, 4)]).2.toOption = some [1, 2, 3, 4]
      ∧ (after (.getFrame 0x82 5) s).net.rx = [] := by decide +kernel
theorem test_atomicFrame : let s := asks 4 ([0] ++ List.replicate 7 0 ++ natLE 8 5)
    (s.take 0x82 5 4).isSome = true ∧ atomicAt 0x8000000000 4 = true ∧ (after (.atomicFrame 0x82 5) s).rawBytes 0x8000000000 4 = [6, 2, 3, 4] := by
  decide +kernel
theorem test_freeFrame : let s := asks 8 (natLE 8 0)
    (s.take 0x82 5 8).isSome = true ∧ (after (.freeFrame 0x82 5) s).net.rx = [] := by decide +kernel

/-- Thread 0 waits for tag 3 of node 9. -/
def outstanding (owner : TagOwner) (kind : Nat) (s : State) : State :=
  { s with net := { s.net with tags := [(3, some ⟨owner, some 1, kind, 5, 9, 0x100, some 0x200, 4, 0⟩)] } }
def answered (kind : Nat) (owner : TagOwner) (asked : Nat) (payload : List Byte) : State :=
  outstanding owner asked (delivered 0x40 5 kind { srcNode := 9, seq := 3 } (padTo 64 payload) (ready nop0 id))
theorem test_getDataFrame : let s := answered 3 (.threadGet t0) 2 [1, 2, 3, 4]
    (s.take 0x40 5 3).isSome = true ∧ (s.request 3 2 9).isSome = true ∧ s.occupied t0 = true
      ∧ (after (.getDataFrame 0x40 5) s).tag 3 = none ∧ ((after (.getDataFrame 0x40 5) s).slot t0).fetched.length = 4 := by decide +kernel
theorem test_atomicResultFrame : let s := answered 5 (.threadAtom t0) 4 [1, 2, 3, 4]
    (s.take 0x40 5 5).isSome = true ∧ (after (.atomicResultFrame 0x40 5) s).tag 3 = none
      ∧ ((after (.atomicResultFrame 0x40 5) s).slot t0).fetched.length = 8 := by decide +kernel
theorem test_freeResultFrame : let s := answered 9 (.threadFree t0) 8 [1]
    (s.take 0x40 5 9).isSome = true ∧ (after (.freeResultFrame 0x40 5) s).tag 3 = none
      ∧ ((after (.freeResultFrame 0x40 5) s).slot t0).fetched.length = 8 := by decide +kernel
theorem test_ackFrame : let s := answered 6 (.threadPut t0) 1 ([1, 0, 0, 0] ++ natLE 4 3)
    (s.take 0x40 5 6).isSome = true ∧ (after (.ackFrame 0x40 5) s).tag 3 = none := by decide +kernel
theorem test_errorFrame : let s := answered 7 (.threadGet t0) 2 ([4, 2, 0, 0] ++ natLE 4 3)
    (s.take 0x40 5 7).isSome = true ∧ (s.request 3 2 9).isSome = true ∧ (after (.errorFrame 0x40 5) s).tag 3 = none
      ∧ (after (.errorFrame 0x40 5) s).slot t0 = {} := by decide +kernel

/-- One frame queued for the memory agent's port. -/
def queued (port : Nat) : State := base.setQueue port 4 [⟨⟨goodHeader, zeros64⟩, 0x40, 0, 0, true, false, false⟩]
theorem test_egressSelect : (queued 0x50).portReady 0x50 = true ∧ ((queued 0x50).eligible 0x50 4).isSome = true
    ∧ ((queued 0x50).selectFrame 0x50 1000 (SMap.get {} (queued 0x50).net.drr 0x50)).isSome = true
    ∧ (after (.egressSelect 0x50) (queued 0x50)).queue 0x50 4 = [] := by decide +kernel
theorem test_shaperTick : let s := base.setReg 0x412002 (2 ^ (64 * 2 + 32) + 2 ^ (64 * 2)) 5
    (s.bucketElement 0x412002 5 2).1 ≠ 0 ∧ (after (.shaperTick 5 2 7) s).now = 7 := by decide +kernel
theorem test_policerTokenAccrual : let s := base.setReg 0x413002 (2 ^ (64 * 2 + 32) + 2 ^ (64 * 2)) 5
    (s.bucketElement 0x413002 5 2).1 ≠ 0 ∧ (after (.policerTokenAccrual 5 2 7) s).now = 7 := by decide +kernel
theorem test_reorderTimeout :
    let d : Delivered := ⟨0x50, ⟨goodHeader, zeros64⟩, 0x40, 0, 0, false⟩
    let s : State := { base with net := { base.net with reorder := [d] } }
    (after (.reorderTimeout 0x40 1 10000) s).net.rx = [d] ∧ (after (.reorderTimeout 0x40 1 9999) s).net.rx = [] := by decide +kernel
/-! ## Streams, experts and collectives -/

/-- Stream 3 of engine 2 with one source, one chunk of 256 bytes and an empty program. -/
def aStream : Stream := { Stream.fresh (BitVec.ofNat 512 (2 * 2 ^ 499 + 3 * 2 ^ 484)) 0 [] false with handle := 3 }
def withStream (t : Stream) (s : State) : State := { s with eng := { s.eng with streams := [t] } }
def chunkOf (group : Nat) (t : Stream) (len : Nat) : State :=
  delivered 0x62 3 0x11 { srcNode := 9, group := group } (List.replicate len 1) (withStream t base)
theorem test_streamFrame_none : ((chunkOf 9 aStream 64).rxFind 0x62 3 fun h _ => enginePort 0x62 && h.kind == 0x11).isSome = true
    ∧ (chunkOf 9 aStream 64).stream? 9 = none ∧ (after (.streamFrame 0x62 3) (chunkOf 9 aStream 64)).reg 0x580007 = 1 := by decide +kernel
theorem test_streamFrame_ended : (after (.streamFrame 0x62 3) (chunkOf 3 { aStream with ended := true } 64)).reg 0x580007 = 1
    ∧ (after (.streamFrame 0x62 3) (chunkOf 3 { aStream with ended := true } 64)).eng.streams.map Stream.refused = [1]
    ∧ aStream.engine = 2 := by decide +kernel
theorem test_streamFrame_refused : aStream.refuses { srcNode := 9, group := 3 } 63 = true
    ∧ (after (.streamFrame 0x62 3) (chunkOf 3 aStream 63)).eng.streams.map Stream.refused = [1] := by decide +kernel
def longStream : Stream := { aStream with record := BitVec.ofNat 512 (aStream.record.toNat + 1024 * 2 ^ 416) }
theorem test_streamFrame_taken : longStream.fast = false ∧ longStream.engine = 2 ∧ longStream.refuses { srcNode := 9, group := 3 } 64 = false
    ∧ ((chunkOf 3 longStream 64).stream? 3).isSome = true := by decide +kernel
theorem test_streamSpillReadback :
    let t := { aStream with chunks := [⟨0, 0, 0, [], true⟩] }
    let s := withStream t base
    (s.memRead engineRequester [(localOf t.spill, t.chunk)]).2.toOption.isSome = true
      ∧ (t.chunks.filter fun c => c.spilled && t.due c.rank c.offset).length = 1 := by decide +kernel
theorem test_streamComplete :
    let s := withStream { aStream with ended := true } base
    s.streamWaits 3 = false ∧ (after (.streamComplete 3) s).eng.streams = [] := by decide +kernel
theorem test_engineDisable :
    let s := base.setCtx 5 { state := 1, engine := 6 }
    s.eng.working.getLsbD 6 = true ∧ (after (.engineDisable 6) s).eng.working.getLsbD 6 = false
      ∧ (({ s with eng := { s.eng with working := s.eng.working &&& ~~~ (BitVec.ofNat 32 (2 ^ 6)) } } : State).peerOf 6).isSome = true := by
  decide +kernel

/-- Context 5 armed for two tokens of one part of 64 bytes. -/
def armed5 : State := base.setCtx 5
  { record := BitVec.ofNat 512 (2 ^ 511 + 2 ^ 441 + 0x8000000000 * 2 ^ 320 + 0x8000010000 * 2 ^ 256), state := 1 }
def tokenPart (t : Nat) (s : State) : State := delivered 0x60 3 0x20 { srcNode := 0, tensor := 5 } (natLE 4 t ++ List.replicate 124 0) s
theorem test_dispatchToken_refused :
    ((tokenPart 1 base).rxFind 0x60 3 fun h _ => enginePort 0x60 && h.kind == 0x20 && h.sop != 2).isSome = true
      ∧ ((after (.dispatchTokenFrame 0x60 3) (tokenPart 1 base)).ctx 5).counts.getD 5 0 = 1 := by decide +kernel
theorem test_dispatchToken_fits : (armed5.ctx 5).tokens = 2 ∧ (armed5.ctx 5).partCount = 1 ∧ (armed5.ctx 5).next = 0
    ∧ ((tokenPart 0 armed5).rxFind 0x60 3 fun h _ => enginePort 0x60 && h.kind == 0x20 && h.sop != 2).isSome = true := by decide +kernel
theorem test_dispatchToken_held :
    let c := (after (.dispatchTokenFrame 0x60 3) (tokenPart 1 armed5)).ctx 5
    ((tokenPart 1 armed5).engineWrite ((armed5.ctx 5).holdAt 1 0) [0]).2 = none ∧ c.parts = [⟨1, 0, [], true⟩] := by decide +kernel
theorem test_holdAreaReadback :
    let c := armed5.ctx 5
    let s := armed5.setCtx 5 { c with parts := [⟨0, 0, [], true⟩] }
    (s.memRead engineRequester [(localOf (c.holdAt 0 0), c.frameBytes)]).2.toOption.isSome = true := by decide +kernel

/-- Expert 7 at home here: rows of 64 bytes from 0x10000, tags from 0x20000, capacity 8. -/
def expert7 : W512 := BitVec.ofNat 512 (2 ^ 511 + 8 * 2 ^ 486 + 64 * 2 ^ 408 + 0x10000 * 2 ^ 320 + 0x20000 * 2 ^ 256)
def home7 : State := { base with eng := { base.eng with experts := SMap.put 0 [] 7 expert7 } }
theorem test_rowCopy :
    let s := delivered 0x82 3 0x20 { srcNode := 0, group := 7, sop := 1, offset := 0x10040 } (List.replicate 64 1) home7
    (s.rxFind 0x82 3 fun h _ => memoryPort 0x82 && h.kind == 0x20).isSome = true ∧ s.isHome 7 = true
      ∧ (after (.dispatchRowCopyFrame 0x82 3) s).rawByte 0x1007F = 1#8 := by decide +kernel
theorem test_rowCopy_refused :
    let s := delivered 0x82 3 0x20 { srcNode := 0, group := 7, sop := 1, offset := 0x10040 } (List.replicate 64 1) base
    s.isHome 7 = false ∧ (after (.dispatchRowCopyFrame 0x82 3) s).net.rx = [] := by decide +kernel
theorem test_dispatchClose :
    let s := delivered 0x60 3 0x20 { group := 7, sop := 2 } (natLE 4 0 ++ natLE 4 1 ++ natLE 4 9 ++ List.replicate 52 0) home7
    (s.rxFind 0x60 3 fun h _ => enginePort 0x60 && h.kind == 0x20 && h.sop == 2).isSome = true ∧ s.isHome 7 = true := by decide +kernel
theorem test_returnDoorbell : home7.running = true ∧ expCapacity (home7.expert 7) = 8
    ∧ ((after (.returnDoorbellStore 7 99) home7).home 7).mark = 8 := by decide +kernel
theorem test_returnFrame_refused :
    let s := delivered 0x60 4 0x21 { tensor := 5, seq := 0 } (List.replicate 64 0) armed5
    (s.rxFind 0x60 4 fun h _ => enginePort 0x60 && h.kind == 0x21).isSome = true
      ∧ ((after (.returnFrame 0x60 4) s).ctx 5).counts.getD 6 0 = 1 := by decide +kernel
theorem test_returnFrame :
    let c := armed5.ctx 5
    let s := delivered 0x60 4 0x21 { tensor := 5, seq := 0 } (List.replicate 64 0) (armed5.setCtx 5 { c with state := 2, kept := [(0, some 1)] })
    let c := s.ctx 5
    c.state = 2 ∧ (SMap.get none c.kept 0).isSome = true ∧ c.received 0 0 64 = false ∧ c.yBytes = 64
      ∧ (s.engineWrite c.staging (List.replicate 64 0)).2 = none := by decide +kernel

def aBarrier : Collective :=
  { oneCollective with
      record := BitVec.ofNat 512 (8 * 2 ^ 496), streams := [{ axis := 0, phase := 0, negative := false, given := 1, grantedAt := 5 }] }
def withColl (c : Collective) : State := { base with coll := { base.coll with active := [c] } }
def collFrame (kind tc : Nat) (off : Nat) (payload : List Byte) (s : State) : State :=
  delivered 0x80 tc kind { srcNode := 9, group := 0, seq := 1, offset := off } (padTo 64 payload) s
theorem test_collectiveData_none : let s := collFrame 0x30 1 0 [] base
    seqHub 0x80 = some 0 ∧ s.matchColl 0 { seq := 1 } = none ∧ (after (.collectiveDataFrame 0x80 1) s).reg 0x502005 = 1 := by decide +kernel
theorem test_collectiveData_noStream : let s := collFrame 0x30 1 (2 ^ 62) [] (withColl aBarrier)
    (s.matchColl 0 { seq := 1 }).isSome = true ∧ aBarrier.findStream 1 0 false = none
      ∧ (after (.collectiveDataFrame 0x80 1) s).reg 0x502005 = 1 := by decide +kernel
theorem test_collectiveData_stream : aBarrier.findStream 0 0 false = some 0
    ∧ { aBarrier with streams := [{ axis := 0, phase := 2, negative := false }] }.findStream 0 2 false = some 0 := by decide +kernel
theorem test_grantFrame : let s := collFrame 0x31 1 0 ([1, 0, 0, 0] ++ natLE 4 6) (withColl aBarrier)
    (s.matchColl 0 { seq := 1 }).isSome = true ∧ (s.rxFind 0x80 1 fun h x => h.kind == 0x31 && controlType x == 1).isSome = true := by decide +kernel
theorem test_grantFrame_bad : (after (.grantFrame 0x80 0) (collFrame 0x31 0 0 [9] base)).reg 0x502005 = 1 := by decide +kernel
/-- Group 0 defined, with nothing posted. -/
def defined0 : State := base.setGroup 0 ⟨groupWord, 0, [], 0⟩
theorem test_keepPending : (after (.grantFrame 0x80 0) (collFrame 0x31 0 0 ([1, 0, 0, 0] ++ natLE 4 6) defined0)).coll.pending.length = 1
    ∧ (after (.countsFrame 0x80 0) (collFrame 0x31 0 0 [2] defined0)).coll.pending.length = 1
    ∧ (after (.abortFrame 0x80 0) (collFrame 0x32 0 0 [1] defined0)).coll.pending.length = 1
    ∧ (after (.grantFrame 0x80 0) (collFrame 0x31 0 0 ([1, 0, 0, 0] ++ natLE 4 6) base)).reg 0x502005 = 1 := by decide +kernel
theorem test_keepPending_full :
    let p := List.replicate 256 (⟨0, false, ⟨0, []⟩⟩ : PendingControl)
    let s : State := { defined0 with coll := { defined0.coll with pending := p } }
    (after (.grantFrame 0x80 0) (collFrame 0x31 0 0 ([1, 0, 0, 0] ++ natLE 4 6) s)).reg 0x502006 = 1 := by decide +kernel
theorem test_barrierFrame : let s := collFrame 0x31 0 0 [3] (withColl aBarrier)
    (s.rxFind 0x80 0 fun h x => h.kind == 0x31 && controlType x == 3).isSome = true ∧ aBarrier.op = 8
      ∧ (after (.barrierFrame 0x80 0) (collFrame 0x31 0 0 [3] base)).reg 0x502005 = 1 := by decide +kernel
theorem test_countsFrame : let s := collFrame 0x31 0 0 [2] (withColl aBarrier)
    (s.rxFind 0x80 0 fun h x => h.kind == 0x31 && controlType x == 2).isSome = true ∧ (s.matchColl 0 { seq := 1 }).isSome = true := by decide +kernel
theorem test_abortFrame : let s := collFrame 0x32 0 0 [1] (withColl aBarrier)
    (s.rxFind 0x80 0 fun h _ => h.kind == 0x32).isSome = true ∧ (s.matchColl 0 { seq := 1 }).isSome = true := by decide +kernel
theorem test_collTimers : let s := withColl { aBarrier with record := BitVec.ofNat 512 (8 * 2 ^ 496 + 2 ^ 448) }
    (s.coll? 4).isSome = true ∧ aBarrier.reported = false ∧ (SMap.get 0 (aBarrier.streams.headD { axis := 0, phase := 0, negative := false }).chunks 0) = 0 := by
  decide +kernel
theorem test_returnFrame_nothing :
    let c := { armed5.ctx 5 with state := 2, kept := [(0, some 1)] }
    let s := delivered 0x60 4 0x21 { tensor := 5, seq := 0, offset := 64 } (List.replicate 64 0) (armed5.setCtx 5 c)
    c.received 0 64 1 = false ∧ min 64 (c.yBytes - 64) = 0 ∧ ((after (.returnFrame 0x60 4) s).ctx 5).returned = []
      ∧ ((after (.returnFrame 0x60 4) s).ctx 5).counts.getD 6 0 = 0 := by decide +kernel
/-! ## Links -/

def partner9 : PartnerId := ⟨9, 10, false, false, 0xFF, false, none, 0, false⟩
def linkIn (k : Link) : State := base.setLink 10 k
theorem test_lightDetect : (linkIn { state := 2 }).running = true ∧ (linkIn { state := 2 }).linkExists 10 = true
    ∧ (linkIn { state := 2 }).portEnabled 5 = true := by decide +kernel
theorem test_trainingLock : (linkIn { state := 3 }).wiredRight 10 partner9 = true
    ∧ (linkIn { state := 3 }).wiredRight 10 ⟨9, 10, true, false, 0xFF, false, none, 0, false⟩ = false
    ∧ (linkIn { state := 3 }).lanesMeet 10 ((0xFF : Byte).toNat &&& (linkIn { state := 3 }).workLanes 10 &&& partner9.lanes.toNat) = true
    ∧ (((linkIn { state := 3 }).bringUp 10 partner9).link 10).state = 4 := by decide +kernel
theorem test_trainingLock_few_lanes : (linkIn { state := 3 }).lanesMeet 10 3 = false
    ∧ ((after (.trainingLock 10 3 partner9) (linkIn { state := 3 })).link 10).state = 3
    ∧ ((after (.trainingLock 10 3 partner9) (linkIn { state := 3 })).link 10).partner = some partner9 := by decide +kernel
theorem test_trainingLock_retrain :
    let s := linkIn { state := 3, retrain := true, nextSeq := 7, expected := 8 }
    (decide ((s.link 10).state = 3) && (s.link 10).retrain) = true ∧ (s.link 10).replayFrom = none ∧ s.wiredRight 10 partner9 = true
      ∧ s.lanesMeet 10 ((0xFF : Byte).toNat &&& s.workLanes 10 &&& partner9.lanes.toNat) = true := by decide +kernel
theorem test_lightDetect_miswired : (linkIn { state := 5 }).lanesMeet 10 ((0xFF : Byte).toNat &&& (linkIn { state := 5 }).workLanes 10) = true
    ∧ ((after (.lightDetect 10 0xFF) (linkIn { state := 5 })).link 10).state = 3
    ∧ ((after (.lightDetect 10 0xFF) (linkIn { state := 5 })).link 10).sent.isSome = true := by decide +kernel
theorem test_trainingTimeout : (linkIn { state := 3 }).pow.powered = true ∧ ((linkIn { state := 3 }).link 10).retrain = false := by decide +kernel
theorem test_trainingRetry :
    ((after (.trainingRetry 10 100000007) (linkIn { state := 2, failedAt := some 7 })).link 10).failedAt = none
      ∧ ((after (.trainingRetry 10 100000006) (linkIn { state := 2, failedAt := some 7 })).link 10).failedAt = some 7 := by decide +kernel
/-- An up link with all lanes, one frame held. -/
def heldFrame : HeldFrame := ⟨5, ⟨⟨goodHeader, zeros64⟩, 0x40, 0, 0, true, false, false⟩, 1, false⟩
def upLink : Link := { state := 4, lanes := 0xFF, held := [heldFrame], partner := some partner9 }
theorem test_linkLoss : ((linkIn upLink).link 10).state = 4 ∧ bitOf 0xFF 3 = true := by decide +kernel
theorem test_laneRetry : bitOf ((linkIn { upLink with lostLanes := 8 }).workLanes 10) 3 = true := by decide +kernel
theorem test_linkAckReceive : ((after (.linkAckReceive 10 6) (linkIn upLink)).link 10).held = []
    ∧ ((after (.linkAckReceive 10 5) (linkIn upLink)).link 10).held = [heldFrame] := by decide +kernel
theorem test_linkNakReceive : ((linkIn upLink).link 10).held.any (fun h => h.seq == 5) = true := by decide +kernel
theorem test_linkCreditReceive : SMap.get 0 ((after (.linkCreditReceive 10 4 (2 ^ 24 + 9)) (linkIn upLink)).link 10).granted 4 = 9 := by
  decide +kernel
theorem test_nakResendTimer : let s := linkIn { upLink with awaiting := true, nakAt := 5 }
    ((after (.nakResendTimer 10 20005) s).link 10).nakAt = 20005 ∧ ((after (.nakResendTimer 10 20004) s).link 10).nakAt = 5 := by decide +kernel
theorem test_ackTimeoutReplay : ((linkIn upLink).link 10).ackAt + 20000 ≤ 20000 ∧ ((linkIn upLink).link 10).held = [heldFrame] := by decide +kernel
theorem test_handover :
    let lost := { upLink with state := 2, handover := true }
    let s := (linkIn upLink).setLink 20 lost
    ((List.range 64).find? fun m => (s.link m).handover && (match (s.link m).partner, (s.link 10).partner with
      | some p, some q => p.node == q.node && p.link == 10
      | _, _ => false)) = some 20
    ∧ ((after (.handoverReceive 10 10 6) s).link 20).held = [] ∧ ((after (.handoverTimeout 20 100000) s).link 20).held = [] := by decide +kernel
theorem test_creditRefresh : ((linkIn upLink).link 10).creditAt = 0 ∧ ((after (.creditRefresh 10 10000) (linkIn upLink)).link 10).creditAt = 10000 := by
  decide +kernel

/-! ## Power -/

theorem test_input : base.pow.input = 0 ∧ (after .inputLow base).pow.inputLevel = 30 ∧ (after .inputHigh base).pow.input = 2
    ∧ (after .inputNormal (after .inputLow base)).pow.inputLevel = 100 ∧ after .inputRise base = base := by decide +kernel
/-- The host side without power. -/
def dark : State := { base with pow := { base.pow with powered := false, state := 0, input := 3 } }
theorem test_inputRise : dark.pow.enJoined = true ∧ (after .inputRise dark).pow.powered = true ∧ (after .inputRise dark).pow.startingUp = true := by
  decide +kernel
theorem test_inputRise_open :
    let s : State := { dark with pow := { dark.pow with enJoined := false } }
    (after .inputRise s).pow.powered = false ∧ (after .inputRise s).pow.input = 0
      ∧ (after .enMate (after .inputRise s)).pow.powered = true := by decide +kernel
/-- The input comes back low: the host side waits for it to rise. -/
theorem test_input_low_wait :
    let s := after .inputLow { dark with pow := { dark.pow with input := 0 } }
    (decide (s.pow.input = 1) && !s.pow.powered && s.pow.enJoined) = true ∧ (after .inputNormal s).pow.powered = true := by decide +kernel
theorem test_powerLoss : (after .inputPowerLoss base).pow.powered = false ∧ (after .enBreak base).pow.enJoined = false := by decide +kernel

/-- The host side on its way to DORMANT. -/
def entering : State := { base with pow := { base.pow with state := 2, request := 1, draining := true } }
theorem test_quiescence : entering.quiescent = true ∧ entering.bufferEmpty = true := by decide +kernel
theorem test_entryDrainTimeout : (after (.entryDrainTimeout 1999999) entering).pow.state = 2 := by decide +kernel
theorem test_wakeComplete :
    let s : State := { base with pow := { base.pow with state := 4 } }
    s.dict.heldWrites = [] ∧ (after (.wakeComplete 5000) s).pow.state = 1 ∧ (after (.wakeComplete 5000) s).reg 0x102101 = 5 := by decide +kernel
theorem test_thermalLevelStep :
    (after (.thermalLevelStep [10000] 100000) base).pow.thermalLevel = 90 ∧ (after (.thermalLevelStep [9999] 100000) base).pow.thermalLevel = 100
      ∧ (after (.thermalLevelStep [] 1100000) (after (.thermalLevelStep [10000] 100000) base)).pow.thermalLevel = 100 := by decide +kernel
theorem test_thermalLevelStep_trip : (after (.thermalLevelStep [0, 11000] 5) base).pow.state = 5
    ∧ (after (.thermalLevelStep [0, 11000] 5) base).pow.tripDie = some 1 := by decide +kernel
theorem test_powerCapLevelUpdate : (after (.powerCapLevelUpdate 40) base).pow.capLevel = 40 := by decide +kernel
theorem test_stops : base.pow.state ≠ 5 ∧ base.pow.state = 1 ∧ base.pow.startingUp = false := by decide +kernel
def starting : State := { base with pow := { base.pow with startingUp := true } }
theorem test_startupComplete : starting.pow.warmHeld = false ∧ starting.trust.host.running.isSome = true := by decide +kernel
theorem test_tripResetRelease :
    let s : State := { base with pow := { base.pow with tripHold := true } }
    (s.pow.temps.toList.all fun t => decide (t ≤ 10000)) = true := by decide +kernel
theorem test_perst : base.pow.perst = false ∧ base.reg 0x901005 ≠ 1 ∧ (after .perstAssert base).pow.perst = true
    ∧ (after .perstDeassert (after .perstAssert base)).host.inReset = false ∧ (after .perstAssert dark).host.inReset = true := by decide +kernel

/-! ## The island and the barrier -/

def readings0 : FieldReadings :=
  { fieldVolts := 24, rtd1AC := some 110, rtd1AB := 1, rtd1PinAbove5 := false, rtd2AC := some 110, rtd2AB := 1, rtd2PinAbove5 := false
    flowPulses := [5, 500000005], flowAbove20 := false, leakOhm := some 6999, leakPinAbove5 := false, valveMilliamp := 10
    valveVolts := 5, valvePinAbove30 := false, svcOverload := false, t1sShort := false, t1sAtSupply := false
    t1sOpen := false }
theorem test_islandReset :
    let s : State := { base with isl := { base.isl with powered := false, leakLatched := true } }
    (after .islandReset s).isl.powered = true ∧ (after .islandReset s).isl.leakLatched = false := by decide +kernel
theorem test_islandSource : (after (.islandSourceChangeover 17) base).isl.fieldSupply = false
    ∧ (after (.islandSourceChangeover 18) base).isl.fieldSupply = true := by decide +kernel
theorem test_islandPowerLoss : base.isl.powered = true ∧ dark.pow.powered = false ∧ (after .islandPowerLoss dark).isl.powered = false := by
  decide +kernel
theorem test_measurementTick : base.islandUp = true ∧ base.isl.tickAt + 99000000 ≤ max base.now 99000000 ∧ readings0.leakOhm = some 6999 := by
  decide +kernel
theorem test_piTick_off : base.reg 0x802001 = 1 ∨ base.reg 0x802001 = 0 ∨ base.reg 0x802001 = 2 := by decide +kernel
def inMode (m : Nat) (i : Island → Island) : State := let s := base.setReg 0x802001 m; { s with isl := i s.isl }
theorem test_piTick_remote_and_reserved : (after (.piTick 495000000) (inMode 2 fun i => { i with demand := 7, tripped := none })).isl.mode = 2
    ∧ (after (.piTick 495000000) (inMode 3 fun i => { i with demand := 7, tripped := none })).isl.demand = 7 := by decide +kernel
theorem test_piTick : (after (.piTick 495000000) (inMode 0 fun i => { i with demand := 7 })).isl.demand = 7
    ∧ (after (.piTick 495000000) (inMode 1 fun i => { i with demand := 7, outlet := none })).isl.demand = 100
    ∧ (after (.piTick 495000000) (inMode 2 fun i => { i with demand := 7, tripped := some 3 })).isl.demand = 100 := by decide +kernel
theorem test_svcTimers :
    let s : State := { base with isl := { base.isl with svcTestUntil := some 50, svcOverload := some 9 } }
    (after (.serviceOutputTestEnd 50) s).isl.svcTestUntil = none ∧ (after (.serviceOutputTestEnd 49) s).isl.svcTestUntil = some 50
      ∧ (after (.svcOutRetry 1000000009) s).isl.svcOverload = none ∧ (after (.svcOutRetry 1000000008) s).isl.svcOverload = some 9 := by
  decide +kernel
theorem test_timeSyncLost : after (.timeSyncLost 2000000000) base = { base with now := 2000000000 } := by decide +kernel
theorem test_barrierStateTimer : base.isl.sentAt + 100000000 ≤ max base.now 100000000 ∧ base.pow.sentAt + 100000000 ≤ max base.now 100000000 := by
  decide +kernel

def toHost (k : Nat) (bs : List Byte) : State := { base with isl := { base.isl with toHost := [⟨crossingBytes k 0 bs, 0⟩] } }
def toIsland (k : Nat) (bs : List Byte) : State := { base with isl := { base.isl with toIsland := [⟨crossingBytes k 0 bs, 0⟩] } }
def zeros (n : Nat) : List Byte := List.replicate n 0
theorem test_messages_toHost :
    (after (.telemetryPushMsg true) (toHost 3 (7 :: zeros 59))).pow.telemetry = 7 :: zeros 59
      ∧ (after (.telemetryPushMsg false) (toHost 3 (7 :: zeros 59))).reg 0x800003 = 1
      ∧ (after (.telemetryPushMsg true) (toHost 3 (7 :: zeros 58))).reg 0x800003 = 1
      ∧ (after (.coolingStateMsg true) (toHost 4 (7 :: zeros 7))).pow.cooling = 7 :: zeros 7
      ∧ (after (.dormantRequestMsg true) (toHost 6 [])).pow.request = 1
      ∧ (after (.wakeMsg true) { toHost 5 [] with pow := { base.pow with request := 1 } }).pow.request = 0
      ∧ (after (.throttleMsg true) (toHost 7 [40])).pow.throttle = 40 := by decide +kernel
theorem test_messages_toHost_more :
    (after (.serviceFlagMsg false true) (toHost 0x0C [1])).pow.islandService = true
      ∧ (after (.barrierDictResult false true) (toHost 2 (zeros 24))).isl.toHost = []
      ∧ (after (.attestationQuoteMsg false true) (toHost 0x0A (zeros 5))).reg 0x800003 = 0
      ∧ (after (.barrierDictRequest false false) (toHost 1 (zeros 24))).reg 0x800003 = 1
      ∧ (after (.attestationRequestMsg false false) (toHost 9 (zeros 36))).reg 0x800003 = 1 := by decide +kernel
theorem test_messages_toIsland : base.islandUp = true ∧ (after (.thermalTripMsg true) (toIsland 8 [3])).isl.tripped = some 3
    ∧ (after (.firmwareImageBlockMsg true) (toIsland 0x0B [4, 0, 0, 0, 9])).isl.blocks = [(4, [9])]
    ∧ (after (.serviceFlagMsg true true) (toIsland 0x0C [1, 0, 0, 0])).isl.hostService = true
    ∧ (after (.timeSyncMsg true) (toIsland 0x0D ([8, 0, 0, 0, 0, 0, 0, 0] ++ [2]))).isl.time = 8 := by decide +kernel
theorem test_messages_toIsland_more : (after (.barrierDictRequest true false) (toIsland 1 (zeros 24))).reg 0x800003 = 1
    ∧ (after (.barrierDictResult true true) (toIsland 2 (zeros 24))).reg 0x800003 = 0
    ∧ (after (.attestationQuoteMsg true true) (toIsland 0x0A (zeros 1028))).reg 0x800003 = 0
    ∧ (after (.attestationRequestMsg true false) (toIsland 9 (zeros 1028))).reg 0x800003 = 1 := by decide +kernel
/-- A trip in force ends with the ACTIVE the host side tells (R420). -/
theorem test_trip_ends : let s := toIsland 0x0D (zeros 8 ++ [1])
    (after (.timeSyncMsg true) { s with isl := { s.isl with tripped := some 3 } }).isl.tripped = none := by decide +kernel
/-- The boot ROM in recovery hears no time (R452). -/
theorem test_recovery_deaf : let s := toIsland 0x0D (zeros 8 ++ [1])
    let r := { s with trust := { s.trust with island := { s.trust.island with running := none } } }
    r.islandUp = false ∧ r.isl.powered = true ∧ (after (.timeSyncMsg true) r).isl.toIsland = [] ∧ (after (.timeSyncMsg true) r).isl.syncAge = r.isl.syncAge := by
  decide +kernel
theorem test_attestationHostTimeout :
    let q : IslandQuote := { tag := 1, ctx := some (.field 7), asked := 5 }
    let s : State := { base with isl := { base.isl with quotes := [{ q with part := some [] }, q] } }
    s.islandUp = true ∧ (s.isl.quotes.find? fun q => q.part.isNone) = some q := by decide +kernel

/-! ## Scarab, telemetry and time -/

theorem test_scrubs : inHbm 0x8000000000 1 = true ∧ base.running = true ∧ base.hiveWorks 0 = true
    ∧ (after (.nearStoreScrub 0x100 .corrected) base).reg 0x701004 = 1 ∧ (after (.hbmScrub 0x4000000040 .clean) base).health.hbmPos = 2 := by
  decide +kernel
theorem test_scrub_soft :
    let s : State := { base with mem := { base.mem with soft := SMap.put false [] 0x100 true } }
    (after (.nearStoreScrub 0x100 .clean) s).reg 0x701004 = 1 ∧ (after (.nearStoreScrub 0x100 .clean) s).mem.soft = []
      ∧ (after (.nearStoreScrub 0x100 .clean) base).reg 0x701004 = 0 := by decide +kernel
theorem test_programStoreScrub : progOf (progAddr 3 true 0) = some (3, true)
    ∧ (after (.programStoreScrub (progAddr 3 true 0) .corrected) base).reg 0xB02002 = 1 := by decide +kernel
theorem test_hbmRowRepair :
    let s : State := { base with mem := { base.mem with candidates := [(6, true)] } }
    SMap.get false s.mem.candidates 6 = true ∧ (s.mem.poison.any fun e => inHbm e.1 1 && e.2 && decide (Config.rowOf e.1 = 6)) = false := by
  decide +kernel
theorem test_telemetrySample :
    let s := base.setReg 0xB04005 1
    s.health.sampledAt + s.reg 0xB04005 * 1000000 ≤ max s.now 1000000 ∧ (after (.telemetrySample ⟨1, 2, 3, 4, 5⟩ 1000000) s).now = 1000000 := by
  decide +kernel
def timeFrame (kind : Byte) (payload : List Byte) : State :=
  { base with net := { base.net with
      rx := [⟨0x85, ⟨({ destEp := 0x3201, srcNode := 9, kind := 0x41 } : Hdr).encode, padTo 64 ([kind] ++ payload)⟩, 10, 0, 0, false⟩] } }
theorem test_snapshotFrame :
    let s (t : Nat) := timeFrame 3 (List.replicate 31 0 ++ natLE 8 t)
    (after .snapshotFrame (s 10000)).health.snapshot = some 10000 ∧ (after .snapshotFrame (s 9999)).reg 0xB05006 = 1 := by decide +kernel
theorem test_snapshotTake :
    let s : State := { base with health := { base.health with snapshot := some 5 } }
    base.pow.state = 1 ∧ (after (.snapshotTake 4) s).health.snapshot = some 5 := by decide +kernel
theorem test_delayRequestTimer : base.health.requestedAt + 1000000 ≤ max base.now 1000000 ∧ base.running = true := by decide +kernel
theorem test_delayRequestFrame : SMap.get 0xFF (after (.delayRequestFrame 8 9) (timeFrame 1 [4])).health.depths 10 = 4 := by decide +kernel
theorem test_delayResponseFrame :
    let s := timeFrame 2 ([4] ++ List.replicate 6 0 ++ natLE 8 100 ++ natLE 8 10100 ++ natLE 8 10100)
    let s : State := { s with health := { s.health with parent := some 10 } }
    let s := s.setReg 0x904002 5
    s.isRoot = false ∧ (s.rxFind 0x85 0 fun h x => h.kind == 0x41 && numAt x.payload 0 1 == 2).isSome = true := by decide +kernel
theorem test_parentLossTimeout :
    let s : State := { base with health := { base.health with lostSince := some 3 } }
    let s := s.setReg 0x904002 5
    s.isRoot = false ∧ s.running = true ∧ s.health.lostSince = some 3 := by decide +kernel
theorem test_eventVectorDeferred :
    let s : State := { base with health := { base.health with vectorAt := some 3, vectorWaiting := true } }
    (after (.eventVectorDeferred 10003) s).health.vectorWaiting = false ∧ (after (.eventVectorDeferred 10002) s).health.vectorWaiting = true := by
  decide +kernel

/-! ## Forms and clauses beside the common ones -/

/-- Frames wait to enter at port 0x50: the idle step lets them in where there is room, and a mirror copy likewise (R241, R256, R261). -/
def waitingFrame : Frame := ⟨({ destEp := 0x1002, kind := 0x10, units := 1, tc := 1 } : Hdr).encode, zeros64⟩
theorem test_idle_entering :
    let s : State := { base with net := { base.net with entering := [(0x50, [waitingFrame])] } }
    s.net.copies = [] ∧ ([waitingFrame].all (base.admits 0x50)) = true := by decide +kernel
/-- No room is left for TC 1 at a port. -/
def fullAt (port : Nat) : State := { base with net := { base.net with
  shared := SMap.put 0 [] (port * 8 + 1) 1000000, charges := SMap.put 0 [] (port * 32 + (Hdr.of waitingFrame.header).channel) 1000000 } }
theorem test_idle_entering_full : ([waitingFrame].all ((fullAt 0x50).admits 0x50)) = false := by decide +kernel
def mirrorCopy1 : Queued := ⟨waitingFrame, 0x84, 0x84, 0, true, false, false⟩
theorem test_idle_copies : base.roomFor 0x84 mirrorCopy1.channel mirrorCopy1.cells = true
    ∧ (fullAt 0x84).roomFor 0x84 mirrorCopy1.channel mirrorCopy1.cells = false := by decide +kernel

theorem test_snapshot_saturated :
    let s := { base.setReg 0x104003 (2 ^ 64 - 1) with health := { base.health with snapshot := some 5 } }
    isCounter 0x104003 = true ∧ SMap.wf none s.dict.regs = true ∧ SMap.get none s.dict.regs (0x104003 * 65536) ≠ none
      ∧ SMap.get 0 (after (.snapshotTake 5) s).dict.shadows (0x104003 * 65536) = 2 ^ 64 - 1 := by decide +kernel

/-- HALT with a held tile: reason 0x20, counted at 2081.09 (R144). -/
def halt0 : Nat := cmd 0x04 0 0 0 0
theorem test_halt_held : let s := ready halt0 heldOne
    issues s halt0 = true ∧ (s.slot t0).held.isSome = true ∧ (after (.halt t0) s).slot t0 = {}
      ∧ (after (.halt t0) s).reg 0x208109 = 1 ∧ (after (.halt t0) s).rawByte (slotRecordAt t0 + 31) = 0x20#8 := by decide +kernel

/-- An 8 B STR to the thread's launch port, to its post word, and to the return doorbell of expert 7. -/
def strPort : Nat := cmd 0x25 0x1002 0x2001 0 0
theorem test_str_port : let s := ready strPort (sx 2 0x40000008 ∘ sx 3 0x10 ∘ fun t => t.setV 1 0x1122334455667788)
    issues s strPort = true ∧ nodeOf 0x1040000008 = s.node ∧ place (localOf 0x1040000008) = .hub false (launchPortBase + 32 * t0.key + 8 * 1)
      ∧ fieldOf 127 64 (SMap.get 0 (after (.str t0) s).swarm.ports t0.key).toNat = 0x1122334455667788 := by decide +kernel
theorem test_str_post : let s := ready strPort (sx 2 0x40000018 ∘ sx 3 0x10)
    issues s strPort = true ∧ place (localOf 0x1040000018) = .hub false (launchPortBase + 32 * t0.key + 0x18)
      ∧ (((after (.launchPortPost t0 0) (begun s t0 strPort false)).slot t0).retire 0 .next).ptr < 2048 := by decide +kernel
theorem test_str_doorbell : let s := ready strPort (sx 2 0x02000038 ∘ sx 3 0x10 ∘ fun t => t.setV 1 99)
    let s : State := { s with eng := { s.eng with experts := SMap.put 0 [] 7 expert7 } }
    issues s strPort = true ∧ place (localOf 0x1002000038) = .hub (decide (16 ≤ expEngine (s.expert 7))) (doorbellBase + 8 * 7)
      ∧ ((after (.str t0) s).home 7).mark = 8 := by decide +kernel

/-- Pool 5 is empty and falls back to pool 3 (R210). -/
def fallbackRecord : W256 := BitVec.ofNat 256 (poolRecord.toNat + 2 ^ 251 + 3 * 2 ^ 247)
def alloc5 : Nat := cmd 0x27 0x7005 0 0x1002 1
theorem test_alloc_fallback : let s := (withPool (ready alloc5 id)).setPool 5 { record := fallbackRecord, state := 1, free := 0 }
    goes s alloc5 = true ∧ (s.pool 5).fallbackValid = true ∧ (s.pool 5).fallback = 3
      ∧ ((after (.alloc t0) s).pool 3).free = 15 ∧ (after (.alloc t0) s).reg 0x710005 5 = 1 := by decide +kernel
theorem test_alloc_fails : let s := ready alloc5 fun t => t.setP 1 true
    goes s alloc5 = true ∧ (s.pool 5).state ≠ 1 ∧ ((after (.alloc t0) s).slot t0).pair 2 = 0
      ∧ ((after (.alloc t0) s).slot t0).pred 1 = false ∧ (after (.alloc t0) s).reg 0x710006 5 = 1 := by decide +kernel
theorem test_free_rejected :
    let s := withPool (ready free2 (sx 2 0x100 ∘ sx 3 0x80))
    goes s free2 = true ∧ s.poolBit (s.pool 3) 1 = false ∧ ((after (.free t0) s).slot t0).pred 1 = false
      ∧ (after (.free t0) s).reg 0x710007 3 = 1 ∧ (after (.free t0) s).mem.rejections.length = 1 := by decide +kernel
theorem test_free_nowhere : let s := ready free2 (sx 2 0x100 ∘ sx 3 0x80)
    goes s free2 = true ∧ s.nodeValid (nodeOf 0x8000000100) = true ∧ (after (.free t0) s).reg 0x720002 = 1
      ∧ ((after (.free t0) s).slot t0).pred 1 = false := by decide +kernel

/-- A measurement in progress refuses the next with 0x07, and ends in slot 12 + 1 (R446). -/
def measuring1 : State := { base with trust := { base.trust with measuring := some ⟨1, 5, true, [], false, false⟩ } }
theorem test_measure_busy : writeReaches measuring1 .bar0 0xA010 1 4 = true ∧ measuring1.hiveWorks 0 = true
    ∧ statusOf (after (.measureBank .bar0 5) measuring1) = some 7 := by decide +kernel
theorem test_measure_finishes : let t := measuring1.trust.finishMeasure
    t.measuring = none ∧ (t.banks.getD 1 {}).measurements = 1 ∧ (t.banks.getD 1 {}).watched = [(5, true)]
      ∧ ((t.markBank 5 true true).banks.getD 1 {}).altered = true ∧ ((t.markBank 5 false true).banks.getD 1 {}).changed = false := by decide +kernel
/-- Between activate and boot the slot a stage would write is the running one: the stage is refused with 0x06 (R453). -/
theorem test_stage_refused : let s := raised.setComponent 1 { plainFirmware with active := 1 }
    writeReaches s .bar0 0xA020 2 1 = true ∧ (s.component 1).running = some 0
      ∧ statusOf (after (.fwStage .bar0 0x11) s) = some 6 := by decide +kernel

/-- A message through the window to node 1 goes there as a MANAGEMENT frame (R390); to a node that does not exist, status 3. -/
def toNode (n : Nat) : List Byte := message1.take 4 ++ natLE 3 n ++ [0] ++ message1.drop 8
def windowed (bs : List Byte) (s : State) : State := { s with host := { s.host with request := (List.range 24).map fun i => (i, bs.getD i 0) } }
theorem test_dictWindowGo_forwards :
    let s := windowed (toNode 1) far
    let bs := (List.range 24).map fun i => SMap.get 0 s.host.request i
    s.reachable .bar0 = true ∧ s.host.goBusy = false ∧ s.elsewhere bs = true ∧ s.nodeValid 1 = true ∧ (parseMessage bs true).toOption.isSome = true
      ∧ (after (.dictWindowGo 24) s).dict.forwarded.map Forwarded.target = [1] ∧ (after (.dictWindowGo 24) s).host.goBusy = true := by decide +kernel
theorem test_dictWindowGo_no_node :
    let s := windowed (toNode 9) far
    s.nodeValid 9 = false ∧ (after (.dictWindowGo 24) s).host.goStatus = 3 := by decide +kernel
/-- A known context with a sequence not kept is served anew (R391). -/
theorem test_vdpFrame_new_sequence :
    let s := base.setContext ⟨.field 3, 0, [], 0, none, 0, none⟩
    let s : State := { s with dict := { s.dict with kept := [(3, 6, [1, 2])] } }
    (s.dict.contexts.any fun x => x.ctx == .field 3) = true ∧ s.vdpBusy 3 7 = false ∧ s.elsewhere (vdp1.drop 8) = false
      ∧ (s.dict.kept.any fun (x : Nat × Nat × List Byte) => x.1 == 3 && x.2.1 == 7) = false
      ∧ (after (.vdpFrame 3 vdp1) s).isl.fieldSent.length = 1 := by decide +kernel

/-- The writes held for the wake are performed with it (R397). -/
theorem test_wakeComplete_held :
    let s : State := { base with pow := { base.pow with state := 4 }, dict := { base.dict with heldWrites := [(0x204001 * 65536, 10)] } }
    (after (.wakeComplete 5000) s).reg 0x204001 = 10 ∧ (after (.wakeComplete 5000) s).dict.heldWrites = [] := by decide +kernel
/-- A trip in a stop is told and counted once (R434). -/
theorem test_trip_in_stop :
    let s : State := { base with pow := { base.pow with state := 5 } }
    s.canStop = false ∧ s.pow.tripped = false ∧ (after (.thermalTrip 3 11000) s).pow.tripped = true
      ∧ (after (.thermalTrip 3 11000) s).reg 0x903003 = 1
      ∧ (after (.thermalTrip 3 11000) (after (.thermalTrip 3 11000) s)).reg 0x903003 = 1 := by decide +kernel
theorem test_zeroNear :
    let s := (base.setBytes 0x100 [7]).setBytes 0x8000000000 [9]
    s.zeroNear.rawByte 0x100 = 0 ∧ s.zeroNear.rawByte 0x8000000000 = 9 := by decide +kernel
theorem test_islandSource_lost :
    let s : State := { base with pow := { base.pow with powered := false } }
    s.isl.powered = true ∧ (after (.islandSourceChangeover 17) s).isl.powered = false := by decide +kernel
/-- Two pulses 0.5 s apart are kept by the tick that sees them (R410). -/
theorem test_measurementTick_pulses :
    (after (.measurementTick readings0 99000000) base).isl.pulses = pulsesKept [5, 500000005] ∧ pulsesKept [5, 500000005] ≠ [] := by decide +kernel

/-- A PUT into a bank that waits for a swap waits (R117, R236); its frame stays delivered. -/
theorem test_putFrame_waits :
    let s := delivered 0x82 5 1 { srcNode := 9, srcEp := 0x1000, offset := progAddr 5 false 0, seq := 3 } (List.replicate 64 7)
      (base.setComb 5 { swaps := 1 })
    (s.take 0x82 5 1).isSome = true ∧ s.heldForSwap (progAddr 5 false 0) 64 = true ∧ (after (.putFrame 0x82 5) s).net.rx.length = 1 := by
  decide +kernel

end Sys2Proof.Tests
end

section
/-! SUPPORT. What a fold leaves alone, and what posting an event leaves alone (R467–R470). -/

namespace Sys2Proof.Machine

open Sys2Proof

/-- A fold whose every step leaves what `g` reads leaves it. -/
theorem foldl_keeps {α β γ : Type} (g : β → γ) {f : β → α → β} (h : ∀ b a, g (f b a) = g b) (l : List α) (b : β) :
    g (l.foldl f b) = g b := by
  induction l generalizing b with
  | nil => rfl
  | cons a l ih => exact (ih _).trans (h b a)

/-- The state with everything erased that posting an event may touch: memory (the telemetry ring), the host port (MSI-X), the logs and the
values of the dictionary. -/
def State.sansEvent (s : State) : State := { s with mem := {}, host := {}, health := {}, dict := { s.dict with regs := [] } }

theorem State.setBytes_sansEvent (s : State) (a : Nat) (bs : List Byte) : (s.setBytes a bs).sansEvent = s.sansEvent := by
  induction bs generalizing s a with
  | nil => rfl
  | cons b bs ih => exact ih _ _

theorem State.sendMsix_sansEvent (s : State) (v : Nat) : (s.sendMsix v).sansEvent = s.sansEvent := by
  unfold State.sendMsix
  repeat' split
  all_goals rfl

theorem State.eventMessage_sansEvent (s : State) : s.eventMessage.sansEvent = s.sansEvent := by
  unfold State.eventMessage
  lift_lets
  intro free
  split
  · exact State.sendMsix_sansEvent s _
  · rfl

theorem State.ringWrite_sansEvent (s : State) (rec_ : List Byte) : (s.ringWrite rec_).2.sansEvent = s.sansEvent := by
  unfold State.ringWrite
  dsimp only
  split
  · rfl
  · exact State.setBytes_sansEvent _ _ _

/-- Posting an event touches memory, the host port, the logs and the dictionary's values alone (R467–R470). -/
theorem State.postEvent_sansEvent (s : State) (code cls detail : Nat) : (s.postEvent code cls detail).sansEvent = s.sansEvent := by
  unfold State.postEvent
  by_cases hc : code = 1 <;> simp only [hc, if_true, if_false]
  all_goals
    split
    · split
      · exact State.eventMessage_sansEvent _
      · rfl
    · split
      · exact (State.eventMessage_sansEvent _).trans (State.ringWrite_sansEvent _ _)
      · exact State.ringWrite_sansEvent _ _

@[simp] theorem State.postEvent_net (s : State) (code cls detail : Nat) : (s.postEvent code cls detail).net = s.net :=
  (congrArg State.net (s.postEvent_sansEvent code cls detail) :)

@[simp] theorem State.postEvent_eng (s : State) (code cls detail : Nat) : (s.postEvent code cls detail).eng = s.eng :=
  (congrArg State.eng (s.postEvent_sansEvent code cls detail) :)

theorem State.postEvent_shadows (s : State) (code cls detail : Nat) : (s.postEvent code cls detail).dict.shadows = s.dict.shadows :=
  (congrArg (fun t : State => t.dict.shadows) (s.postEvent_sansEvent code cls detail) :)

end Sys2Proof.Machine
end

section
/-! SUPPORT. Saturating counts (R11), and the copies that a snapshot makes of them (R472). -/

namespace Sys2Proof.Machine

open Sys2Proof

/-- A saturating sum is the sum while that fits (R11). -/
theorem satAdd_eq (w a n : Nat) : satAdd w a n = if a + n < 2 ^ w then a + n else 2 ^ w - 1 := by
  have hw : 0 < 2 ^ w := Nat.two_pow_pos w
  unfold satAdd
  split <;> omega

/-! ## Snapshots (R472) -/

theorem SMap.wf_of_above {V : Type} [DecidableEq V] {d : V} {lo : Nat} {m : SMap V} (h : SMap.above d lo m = true) :
    SMap.wf d m = true := by
  cases m with
  | nil => rfl
  | cons e m =>
    obtain ⟨k, v⟩ := e
    simp only [SMap.above, SMap.wf, Bool.and_eq_true, decide_eq_true_eq] at h ⊢
    exact ⟨h.1.2, h.2⟩

/-- One listed value copied to its shadow, where its entry is a counter. -/
def copyCounter (m : SMap Nat) (e : Nat × Option Nat) : SMap Nat :=
  match e.2 with
  | some v => if isCounter (e.1 / 65536) then SMap.put 0 m e.1 v else m
  | none => m

/-- With no mirror session and no dispatch context in use, the shadows are the copies of the listed counters. -/
theorem State.copyCounters_eq {s : State} (hm : s.net.mirrors = []) (hx : s.eng.contexts = []) :
    s.copyCounters = s.dict.regs.foldl copyCounter [] := by
  unfold State.copyCounters
  rw [hm, hx]
  rfl

theorem get_copyCounter_other (m : SMap Nat) {e : Nat × Option Nat} {k : Nat} (h : k ≠ e.1) :
    SMap.get 0 (copyCounter m e) k = SMap.get 0 m k := by
  unfold copyCounter
  split
  · split
    · exact SMap.get_put_other _ _ _ h
    · rfl
  · rfl

/-- Values listed above a key leave its shadow. -/
theorem get_foldl_copyCounter_above {lo k : Nat} (hk : k ≤ lo) {rs : SMap (Option Nat)} (h : SMap.above none lo rs = true)
    (m : SMap Nat) : SMap.get 0 (rs.foldl copyCounter m) k = SMap.get 0 m k := by
  induction rs generalizing lo m with
  | nil => rfl
  | cons e rs ih =>
    obtain ⟨k', v'⟩ := e
    simp only [SMap.above, Bool.and_eq_true, decide_eq_true_eq] at h
    rw [List.foldl_cons, ih (by omega) h.2, get_copyCounter_other _ (by dsimp only; omega)]

/-- A listed counter reads back at its shadow. -/
theorem get_foldl_copyCounter {k v : Nat} (hc : isCounter (k / 65536) = true) {rs : SMap (Option Nat)}
    (h : SMap.wf none rs = true) (hv : SMap.get none rs k = some v) (m : SMap Nat) :
    SMap.get 0 (rs.foldl copyCounter m) k = v := by
  induction rs generalizing m with
  | nil => cases hv
  | cons e rs ih =>
    obtain ⟨k', v'⟩ := e
    simp only [SMap.wf, Bool.and_eq_true] at h
    simp only [SMap.get] at hv
    rw [List.foldl_cons]
    split at hv
    · next hk =>
      subst hk hv
      rw [get_foldl_copyCounter_above le_rfl h.2, copyCounter]
      simp only [hc, if_true, SMap.get_put_same]
    · exact ih (SMap.wf_of_above h.2) hv _

/-- A snapshot taken while the module runs puts a copy of every counter in the shadows. -/
theorem State.takeSnapshot_shadows {s : State} {t at_ : Nat} (hp : s.pow.powered = true) (hs : s.pow.state = 1 ∨ s.pow.state = 2)
    (ht : s.health.snapshot = some t) (hat : t ≤ max s.now at_) : (s.takeSnapshot at_).dict.shadows = (s.at_ at_).copyCounters := by
  have hn : ¬ ((!s.pow.powered) = true ∨ max s.now at_ < t) := by simp [hp]; omega
  unfold State.takeSnapshot
  simp only [ht, if_neg hn, State.at_pow, if_pos hs, State.postEvent_shadows]
  rfl

end Sys2Proof.Machine
end

section
/-! PROOF. Counts saturate, and a snapshot reads them (R11, R472). -/

namespace Sys2Proof.Proofs

open Sys2Proof Sys2Proof.Machine Sys2Proof.Safety

/-- Settles O8: a sum of counts is capped at the largest value, and a snapshot copies what each listed counter holds. -/
theorem countsSaturate : Obligations.CountsSaturate := by
  unfold Obligations.CountsSaturate
  refine ⟨fun s k n u => ⟨?_, fun k' u' h => ?_, rfl⟩, fun s k n => ⟨?_, fun k' u' h => ?_, rfl⟩, satAdd_eq, ?_⟩
  · rw [State.bump, State.reg_setReg, satAdd_eq]
  · exact State.reg_setReg_other s h
  · rw [State.bump32, State.reg_setReg, satAdd_eq]
  · rw [State.bump32, State.reg_setReg_other s (by rwa [Nat.add_zero])]
  · intro s k t at_ hc hp hs ht hat hw hm hx
    refine ⟨_, rfl, fun u hu hr => ?_⟩
    obtain ⟨v, hv⟩ := Option.ne_none_iff_exists'.mp hr
    have hk : (k * 65536 + u) / 65536 = k := by omega
    have he : (s.at_ at_).copyCounters = s.dict.regs.foldl copyCounter [] := by
      rw [State.copyCounters_eq (by rw [State.at_net, hm]) (by rw [State.at_eng, hx]), State.at_dict]
    rw [State.takeSnapshot_shadows hp hs ht hat, he, get_foldl_copyCounter (by rwa [hk]) hw hv, State.reg, hv]

end Sys2Proof.Proofs
end

section
/-! SUPPORT. Little-endian numbers, cleared fields, and the reserved bits of a group record (R9, R309, R378). -/

namespace Sys2Proof.Machine

open Sys2Proof

/-! ## Little-endian numbers and cleared fields -/

theorem natLE_length (n v : Nat) : (natLE n v).length = n := by
  induction n generalizing v with
  | zero => rfl
  | succ n ih => rw [natLE, List.length_cons, ih]

theorem leNat_natLE (n v : Nat) : leNat (natLE n v) = v % 256 ^ n := by
  induction n generalizing v with
  | zero => rw [Nat.pow_zero, Nat.mod_one]; rfl
  | succ n ih =>
    have hp : 256 ^ (n + 1) = 2 ^ 8 * 256 ^ n := Nat.pow_succ'
    rw [natLE, leNat, ih, BitVec.toNat_ofNat, hp, Nat.mod_mul]
    rfl

theorem toNat_lt_bytes {n : Nat} (v : BitVec (8 * n)) : v.toNat < 256 ^ n := by
  have h := v.isLt
  rwa [Nat.pow_mul] at h

/-- Clearing a field splits a number into what lies above and below the field. -/
theorem setField_zero (v lo w : Nat) : setField v lo w 0 = 2 ^ lo * (2 ^ w * (v / 2 ^ lo / 2 ^ w)) + v % 2 ^ lo := by
  have hv := Nat.div_add_mod v (2 ^ lo)
  have hq := Nat.div_add_mod (v / 2 ^ lo) (2 ^ w)
  have hm : 2 ^ lo * (v / 2 ^ lo) = 2 ^ lo * (2 ^ w * (v / 2 ^ lo / 2 ^ w)) + (v / 2 ^ lo % 2 ^ w) * 2 ^ lo := by
    conv => lhs; rw [← hq, Nat.mul_add, Nat.mul_comm (2 ^ lo) (v / 2 ^ lo % 2 ^ w)]
  unfold setField
  rw [Nat.zero_mod, Nat.zero_mul, Nat.add_zero]
  omega

theorem testBit_setField_zero (v lo w i : Nat) :
    (setField v lo w 0).testBit i = (v.testBit i && !(decide (lo ≤ i) && decide (i < lo + w))) := by
  rw [setField_zero, Nat.testBit_two_pow_mul_add _ (Nat.mod_lt _ (Nat.two_pow_pos lo))]
  by_cases hlo : i < lo
  · simp [hlo, Nat.testBit_mod_two_pow]
  · rw [if_neg hlo, Nat.testBit_two_pow_mul, Nat.testBit_div_two_pow, Nat.testBit_div_two_pow]
    by_cases hw : i < lo + w
    · simp [hw, show ¬ w ≤ i - lo by omega, show lo ≤ i by omega]
    · rw [show i - lo - w + w + lo = i by omega]
      simp [hw, show w ≤ i - lo by omega]

theorem bitOf_eq_testBit (v i : Nat) : bitOf v i = v.testBit i := by
  rw [bitOf, Nat.testBit_eq_decide_div_mod_eq]

/-- A field all of whose bits are 0 is 0. -/
theorem fieldOf_eq_zero {hi lo v : Nat} (h : ∀ i, lo ≤ i → i ≤ hi → v.testBit i = false) : fieldOf hi lo v = 0 := by
  unfold fieldOf
  apply Nat.eq_of_testBit_eq
  intro i
  rw [Nat.testBit_mod_two_pow, Nat.testBit_div_two_pow, Nat.zero_testBit]
  by_cases hi' : i < hi + 1 - lo
  · simp [h (i + lo) (by omega) (by omega)]
  · simp [hi']

/-- A group record is kept with its reserved bits 0 (R9, R309). -/
theorem testBit_groupRecord (v : W256) {i : Nat}
    (h : (64 ≤ i ∧ i < 236) ∨ ∃ lo ∈ [0, 16, 32, 48], lo ≤ i ∧ i < lo + 2) :
    (groupRecord v).toNat.testBit i = false := by
  have hc : ([0, 16, 32, 48].foldl (fun x lo => setField x lo 2 0) (setField v.toNat 64 172 0)).testBit i = false := by
    rw [List.foldl_cons, List.foldl_cons, List.foldl_cons, List.foldl_cons, List.foldl_nil]
    simp only [testBit_setField_zero, Bool.and_eq_false_iff, Bool.not_eq_false', Bool.and_eq_true, decide_eq_true_eq]
    simp only [List.mem_cons, List.not_mem_nil, or_false, exists_eq_or_imp, exists_eq_left] at h
    omega
  rw [groupRecord, BitVec.toNat_ofNat, Nat.testBit_mod_two_pow, hc, Bool.and_false]

end Sys2Proof.Machine
end

section
/-! SUPPORT. A dictionary write that reaches its entry does what the entry makes of it, and is answered so (R382, R385, R386). -/

namespace Sys2Proof.Machine

open Sys2Proof Sys2Proof.Safety

/-! ## A request is heard -/

/-- Hearing a context changes the list of contexts alone. -/
theorem State.touch_fields (s : State) (c : Ctx) :
    s.touch c = { s with dict := { s.dict with contexts := (s.touch c).dict.contexts } } := by
  unfold State.touch
  dsimp only
  split <;> rfl

@[simp] theorem State.touch_pow (s : State) (c : Ctx) : (s.touch c).pow = s.pow := by rw [State.touch_fields]
@[simp] theorem State.touch_eng (s : State) (c : Ctx) : (s.touch c).eng = s.eng := by rw [State.touch_fields]
@[simp] theorem State.touch_coll (s : State) (c : Ctx) : (s.touch c).coll = s.coll := by rw [State.touch_fields]
@[simp] theorem State.reg_touch (s : State) (c : Ctx) (k u : Nat) : (s.touch c).reg k u = s.reg k u := by
  rw [State.touch_fields]; rfl
theorem State.node_touch (s : State) (c : Ctx) : (s.touch c).node = s.node := by rw [State.touch_fields]; rfl
theorem State.geometryOk_touch (s : State) (c : Ctx) : (s.touch c).geometryOk = s.geometryOk := by
  rw [State.touch_fields]; rfl

/-! ## A write that reaches its entry (R382, R386) -/

/-- A write is performed at once in ACTIVE and on its way to DORMANT, and always where no power-gated unit is concerned (R397). -/
theorem State.perform_now {s : State} {key : Nat} (hkey : key ≠ 0x105001)
    (hp : gatedKey key = false ∨ s.pow.state = 1 ∨ s.pow.state = 2) (c : Ctx) (role u v : Nat) (bs : List Byte) :
    s.perform c role key u v bs = s.act c role key u v bs := by
  rw [State.perform, if_neg hkey, State.actIn, if_pos (by simpa using hp)]

/-- A write that reaches its entry does what the entry makes of it. -/
theorem State.writeItem_reaches {s : State} {c : Ctx} {index sub n : Nat} {m : Named} (hm : resolve index sub = some m)
    (hkey : m.entry.key ≠ 0x105001) (h : writeReaches s c index sub n = true) {bs : List Byte} (hbs : bs.length = n) :
    (s.touch c).writeItem c m 0 bs
      = (s.touch c).act c ((s.touch c).roleOf c) m.entry.key ((s.touch c).unitOf c m) (cleanValue m.entry.key (leNat bs)) bs := by
  simp only [writeReaches, writeArrives, hm, Bool.and_eq_true, decide_eq_true_eq, Bool.not_eq_true', bne_iff_ne, ne_eq,
    Bool.or_eq_true, beq_iff_eq] at h
  obtain ⟨⟨-, ⟨⟨⟨⟨⟨⟨⟨hpath, hshadow⟩, haccess⟩, hrole⟩, hfitted⟩, hserved⟩, hfailed⟩, hsize⟩, hn⟩, hpower⟩ := h
  subst hn
  rw [← State.perform_now hkey (by rw [State.touch_pow]; simpa [or_assoc] using hpower)]
  simp [State.writeItem, hpath, hshadow, haccess, Nat.not_lt.mpr hrole, hfitted, hserved, hfailed, Nat.not_lt.mpr hsize, hbs]

/-- A write that reaches an entry is brought by its context, and names no vendor object (R377). -/
theorem writeReaches_index {s : State} {c : Ctx} {index sub n : Nat} (h : writeReaches s c index sub n = true) :
    s.reachable c = true ∧ index < 0xF000 := by
  simp only [writeReaches, writeArrives, Bool.and_eq_true, decide_eq_true_eq] at h
  exact h.1.1

/-- The answer to a write that reaches its entry: its status, and the state its entry leaves. -/
theorem State.answerItem_reaches {s : State} {c : Ctx} {index sub n : Nat} {m : Named} (hm : resolve index sub = some m)
    (hkey : m.entry.key ≠ 0x105001) (h : writeReaches s c index sub n = true) {bs : List Byte} (hbs : bs.length = n)
    {st : Nat} {u : State}
    (hact : (s.touch c).act c ((s.touch c).roleOf c) m.entry.key ((s.touch c).unitOf c m) (cleanValue m.entry.key (leNat bs)) bs
      = (st, u)) :
    (s.touch c).answerItem c 2 index sub 0 bs.length bs false = (m.answer st (index * 256 + sub) [], u) := by
  obtain ⟨-, hindex⟩ := writeReaches_index h
  have hi : ¬ (0xF000 ≤ index ∧ !decide ((s.touch c).roleOf c = 2)) := fun hc => absurd hc.1 (by omega)
  unfold State.answerItem
  simp only [hm, if_neg hi, State.writeItem_reaches hm hkey h hbs, hact]
  rfl

/-- The status byte of a response item (R385). -/
theorem numAt_answer_status (a : Answer) (op off : Nat) : numAt (a.bytes op off) 1 1 = a.status % 256 := by
  simp [Answer.bytes, numAt, slice, leNat]

/-- A write whose entry takes it is performed. -/
theorem State.itemRow_performed {s : State} {c : Ctx} {index sub n : Nat} {m : Named} (hm : resolve index sub = some m)
    (hkey : m.entry.key ≠ 0x105001) (h : writeReaches s c index sub n = true) {bs : List Byte} (hbs : bs.length = n) {u : State}
    (hact : (s.touch c).act c ((s.touch c).roleOf c) m.entry.key ((s.touch c).unitOf c m) (cleanValue m.entry.key (leNat bs)) bs
      = (0, u)) :
    Performed c u (s.itemRow c 2 index sub 0 bs.length bs) := by
  unfold State.itemRow State.item
  rw [(writeReaches_index h).1, State.answerItem_reaches hm hkey h hbs hact]
  exact ⟨rfl, _, rfl, numAt_answer_status _ _ _⟩

/-- A write that its entry refuses leaves the entry as it was, and is counted (R376). -/
theorem State.itemRow_refused {s : State} {c : Ctx} {index sub n : Nat} {m : Named} (hm : resolve index sub = some m)
    (hkey : m.entry.key ≠ 0x105001) (h : writeReaches s c index sub n = true) {bs : List Byte} (hbs : bs.length = n) {st : Nat}
    (hst : st ≠ 0) (hst' : st < 256)
    (hact : (s.touch c).act c ((s.touch c).roleOf c) m.entry.key ((s.touch c).unitOf c m) (cleanValue m.entry.key (leNat bs)) bs
      = (st, s.touch c)) :
    Refused c st (s.touch c) (s.itemRow c 2 index sub 0 bs.length bs) := by
  have hs : (m.answer st (index * 256 + sub) []).status = st := rfl
  unfold State.itemRow State.item
  rw [(writeReaches_index h).1, State.answerItem_reaches hm hkey h hbs hact]
  dsimp only
  rw [hs, if_neg hst]
  exact ⟨rfl, _, rfl, (numAt_answer_status _ _ _).trans (Nat.mod_eq_of_lt hst')⟩

/-- A write of a number is performed where its entry takes the number without its reserved bits. -/
theorem State.writeRow_performed {s : State} {c : Ctx} {index sub n v : Nat} {m : Named} (hm : resolve index sub = some m)
    (hkey : m.entry.key ≠ 0x105001) (hv : v < 256 ^ n) (h : writeReaches s c index sub n = true) {u : State}
    (hact : (s.touch c).act c ((s.touch c).roleOf c) m.entry.key ((s.touch c).unitOf c m) (cleanValue m.entry.key v) (natLE n v)
      = (0, u)) :
    Performed c u (s.writeRow c index sub n v) := by
  have hl := natLE_length n v
  have := State.itemRow_performed hm hkey h hl (by rwa [leNat_natLE, Nat.mod_eq_of_lt hv])
  rwa [hl] at this

theorem State.writeRow_refused {s : State} {c : Ctx} {index sub n v : Nat} {m : Named} (hm : resolve index sub = some m)
    (hkey : m.entry.key ≠ 0x105001) (hv : v < 256 ^ n) (h : writeReaches s c index sub n = true) {st : Nat}
    (hst : st ≠ 0) (hst' : st < 256)
    (hact : (s.touch c).act c ((s.touch c).roleOf c) m.entry.key ((s.touch c).unitOf c m) (cleanValue m.entry.key v) (natLE n v)
      = (st, s.touch c)) :
    Refused c st (s.touch c) (s.writeRow c index sub n v) := by
  have hl := natLE_length n v
  have := State.itemRow_refused hm hkey h hl hst hst' (by rwa [leNat_natLE, Nat.mod_eq_of_lt hv])
  rwa [hl] at this

/-- A row that writes a number has the effect that its entry gives the write. -/
theorem performs_of_act {row : State → Host.Outcome State Fault Refusal} {c : Ctx} {index sub n v : Nat} {m : Named}
    {ok : State → Prop} {f : State → State} (hrow : ∀ s, row s = .next (s.writeRow c index sub n v))
    (hm : resolve index sub = some m) (hkey : m.entry.key ≠ 0x105001) (hv : v < 256 ^ n)
    (hact : ∀ u, ok u → u.act c (u.roleOf c) m.entry.key (u.unitOf c m) (cleanValue m.entry.key v) (natLE n v) = (0, f u)) :
    Performs row c index sub n ok f :=
  fun s h hok => ⟨_, hrow s, State.writeRow_performed hm hkey hv h (hact _ hok)⟩

end Sys2Proof.Machine
end

section
/-! SUPPORT. What the writes of the switch, the engines, the sequencers and fabric time make of an accepted value. -/

namespace Sys2Proof.Machine

open Sys2Proof

/-! ## Geometry (R245) -/

@[simp] theorem State.syncTo_net (s : State) (state depth : Nat) : (s.syncTo state depth).net = s.net := by
  unfold State.syncTo
  dsimp only
  split
  · rfl
  · rw [State.postEvent_net]

/-- Choosing the parent again leaves the switch as it is. -/
theorem State.reparent_net (s : State) : s.reparent.net = s.net := by
  unfold State.reparent
  split
  · rw [State.syncTo_net]
  · dsimp only
    split <;> split <;> simp

theorem State.train_net (s : State) (l : Nat) (lanes : Byte) (retrain : Bool) : (s.train l lanes retrain).net = s.net := rfl

/-- Training miswired links again leaves the switch as it is. -/
theorem State.retrainMiswired_net (s : State) : s.retrainMiswired.net = s.net := by
  apply foldl_keeps State.net
  intro s l
  split
  · exact State.train_net _ _ _ _
  · rfl

/-- What applying a geometry puts in force. -/
theorem State.applyGeometry_net (s : State) : s.applyGeometry.net = { s.net with
    dims := BitVec.ofNat 32 (s.reg 0x601002), coords := BitVec.ofNat 32 (s.reg 0x601003), dirs := BitVec.ofNat 512 (s.reg 0x601004) } :=
  rfl

/-! ## Rings (R262, R469) -/

theorem State.writeRing_enable {s : State} {key lo hi size v : Nat} (hoff : bitOf (s.reg (key + 1)) 7 = false)
    (hon : bitOf v 7 = true) (hlo : lo ≤ v % 32) (hhi : v % 32 ≤ hi) (hfit : ringFits (s.reg key) (v % 32) size = true) :
    s.writeRing key lo hi size v = some (((s.setReg (key + 1) (128 + v % 32)).setReg (key + 2) 0).setReg (key + 3) 0) := by
  simp [State.writeRing, hoff, hon, hlo, hhi, hfit]

theorem State.writeRing_disable {s : State} {key v : Nat} (lo hi size : Nat) (hv : bitOf v 7 = false)
    (hcap : key = 0x430001 → bitOf (s.reg (key + 1)) 7 = false) :
    s.writeRing key lo hi size v = some (s.setReg (key + 1) (v % 32)) := by
  cases hon : bitOf (s.reg (key + 1)) 7 with
  | false => simp [State.writeRing, hon, hv]
  | true =>
    have hkey : key ≠ 0x430001 := fun hk => by simp [hcap hk] at hon
    simp [State.writeRing, hon, hv, hkey]

theorem State.writeRing_enabled_capture {s : State} (lo hi size v : Nat) (hon : bitOf (s.reg 0x430002) 7 = true) :
    s.writeRing 0x430001 lo hi size v = none := by
  simp [State.writeRing, hon]

/-! ## Fault injection (R264, R265) -/

/-- A write of the unlock restarts the counts of frames seen, and clearing it releases the held frames. -/
theorem State.restartInjection_unlock (s : State) (v : Byte) :
    (s.setReg 0xC00001 v.toNat).restartInjection
      = if v = 0 then
          { s.setReg 0xC00001 v.toNat with net := { s.net with seen := [], rx := s.net.rx ++ s.net.reorder, reorder := [] } }
        else { s.setReg 0xC00001 v.toNat with net := { s.net with seen := [] } } := by
  have hr : (s.setReg 0xC00001 v.toNat).reg 0xC00001 = v.toNat := State.reg_setReg s 0xC00001 v.toNat 0
  unfold State.restartInjection
  by_cases hv : v = 0
  · rw [if_pos hv]
    exact if_pos (hr.trans (congrArg BitVec.toNat hv))
  · rw [if_neg hv]
    exact if_neg fun h => hv (BitVec.eq_of_toNat_eq (hr.symm.trans h))

/-! ## Dispatch contexts (R290) -/

/-- A context as a write of its record leaves it: idle, with its counts. -/
def State.freshContext (s : State) (n : Nat) (r : W512) : DispatchContext :=
  { record := r, engine := fieldOf 507 503 r.toNat, counts := (s.ctx n).counts }

theorem State.writeContext_arm {s : State} {n : Nat} {r : W512} (hold : bitOf (s.ctx n).record.toNat 511 = false)
    (hnew : bitOf r.toNat 511 = true) (hok : s.contextOk (s.freshContext n r) = true) :
    s.writeContext n r = some (s.setCtx n (s.freshContext n r).armed) := by
  simp only [State.writeContext, hold, hnew, Bool.false_eq_true, if_false, if_true]
  exact if_pos hok

theorem State.writeContext_idle {s : State} {n : Nat} {r : W512} (hold : bitOf (s.ctx n).record.toNat 511 = true)
    (hnew : bitOf r.toNat 511 = false) (hsame : r.toNat % 2 ^ 511 = (s.ctx n).record.toNat % 2 ^ 511) :
    s.writeContext n r = some (s.setCtx n (s.freshContext n r)) := by
  simp only [State.writeContext, hold, hnew, hsame, ne_eq, not_true_eq_false, Bool.false_eq_true, if_false, if_true]
  rfl

theorem State.writeContext_off {s : State} {n : Nat} {r : W512} (hold : bitOf (s.ctx n).record.toNat 511 = false)
    (hnew : bitOf r.toNat 511 = false) : s.writeContext n r = some (s.setCtx n (s.freshContext n r)) := by
  simp only [State.writeContext, hold, hnew, Bool.false_eq_true, if_false]
  rfl

/-! ## Groups (R310, R312, R326) -/

theorem groupValid_set (v : W256) : groupValid (BitVec.ofNat 256 (setField v.toNat 255 1 1)) = true := by
  have hv := v.isLt
  rw [groupValid, bitOf_eq_testBit, BitVec.toNat_ofNat, Nat.testBit_mod_two_pow, Nat.testBit_eq_decide_div_mod_eq]
  unfold setField
  simp
  omega

theorem groupValid_clear (v : W256) : groupValid (BitVec.ofNat 256 (setField v.toNat 255 1 0)) = false := by
  rw [groupValid, bitOf_eq_testBit, BitVec.toNat_ofNat, Nat.testBit_mod_two_pow, testBit_setField_zero]
  simp

theorem setField_255_lt (v : W256) (x : Nat) : setField v.toNat 255 1 x < 256 ^ 32 := by
  have hv := v.isLt
  unfold setField
  omega

theorem State.writeGroup_define {s : State} {g : Nat} {w : W256} (hbusy : s.groupBusy g = false) (hvalid : groupValid w = true)
    (hok : s.groupOk w = true) (hpool : reservedFor w = 0 ∨ s.stagingPoolOk (s.reg 0x501001) = true)
    (hall : reservedFor w ≤ (s.takeChunks (s.reg 0x501001) (reservedFor w)).1.length) :
    s.writeGroup g w
      = (true, ((s.takeChunks (s.reg 0x501001) (reservedFor w)).2.freeChunks (groupHub (s.group g).record) (s.group g).reserved).setGroup g
          ⟨w, 0, (s.takeChunks (s.reg 0x501001) (reservedFor w)).1, s.reg 0x501001⟩) := by
  have hp : ¬ (reservedFor w ≠ 0 ∧ (!s.stagingPoolOk (s.reg 0x501001)) = true) := by
    rcases hpool with h | h <;> simp [h]
  simp only [State.writeGroup, hbusy, hvalid, hok, Bool.not_true, Bool.false_eq_true, if_false, if_neg hp, if_neg (Nat.not_lt.mpr hall)]

theorem State.writeGroup_undefine {s : State} {g : Nat} {w : W256} (hbusy : s.groupBusy g = false) (hvalid : groupValid w = false) :
    s.writeGroup g w
      = (true, (s.freeChunks (groupHub (s.group g).record) (s.group g).reserved).setGroup g { record := groupRecord w }) := by
  simp only [State.writeGroup, hbusy, hvalid, Bool.not_false, Bool.false_eq_true, if_false, if_true]

/-! ## Snapshots and fabric time (R472, R476) -/

/-- A snapshot at `t` is pending. -/
def State.snapshotDue (s : State) (t : Nat) : State := ({ s with health := { s.health with snapshot := some t } } : State).setReg 0xB05003 1

theorem State.scheduleSnapshot_ready {s : State} {t : Nat} (hnone : s.health.snapshot = none) (ht : s.now + 10000 ≤ t) :
    s.scheduleSnapshot t = (0, s.snapshotDue t) := by
  simp only [State.scheduleSnapshot, hnone, Option.isSome_none, Bool.false_eq_true, if_false, if_neg (Nat.not_lt.mpr ht)]
  rfl

theorem State.requestSnapshot_alone {s : State} {t : Nat} (hnone : s.health.snapshot = none) (ht : s.now + 10000 ≤ t)
    (hg : 4096 ≤ s.reg 0xB05005 ∨ bitOf (s.groupEntry (s.reg 0xB05005)) 127 = false) :
    s.requestSnapshot t = (0, s.snapshotDue t) := by
  have hn : ¬ (s.reg 0xB05005 < 4096 ∧ bitOf (s.groupEntry (s.reg 0xB05005)) 127 = true) := by
    rintro ⟨h1, h2⟩
    rcases hg with h | h
    · omega
    · simp [h] at h2
  simp only [State.requestSnapshot, State.scheduleSnapshot_ready hnone ht, ne_eq, not_true_eq_false, if_false, if_neg hn]

theorem State.requestSnapshot_group {s : State} {t : Nat} (hnone : s.health.snapshot = none) (ht : s.now + 10000 ≤ t)
    (hg : s.reg 0xB05005 < 4096) (hvalid : bitOf (s.groupEntry (s.reg 0xB05005)) 127 = true) :
    s.requestSnapshot t = (0, (s.snapshotDue t).send 0x85
      ⟨({ s.timeHeader 0 with mc := true, group := s.reg 0xB05005 } : Hdr).encode, (s.snapshotDue t).timePayload 3 [0, 0, 0, t]⟩) := by
  simp only [State.requestSnapshot, State.scheduleSnapshot_ready hnone ht, ne_eq, not_true_eq_false, if_false, if_pos (And.intro hg hvalid)]

end Sys2Proof.Machine
end

section
/-! SUPPORT. Memory, the switch and completion records leave the stream engines as they are; a stream that ends is removed. -/

namespace Sys2Proof.Machine

open Sys2Proof

@[simp] theorem State.setBytes_eng (s : State) (a : Nat) (bs : List Byte) : (s.setBytes a bs).eng = s.eng :=
  (congrArg State.eng (s.setBytes_sansEvent a bs) :)

@[simp] theorem State.freshWord_eng (s : State) (w : Nat) : (s.freshWord w).eng = s.eng := rfl

/-! ## Memory leaves the stream engines as they are -/

@[simp] theorem State.logMemory_eng (s : State) (who : Requester) (a access : Nat) : (s.logMemory who a access).eng = s.eng := by
  unfold State.logMemory State.memoryRecord
  dsimp only
  rw [State.postEvent_eng]
  split <;> rfl

/-- A failed access other than to an uncorrectable pad word halts no thread: it is logged at most (R203). -/
theorem State.accessFailed_eng (s : State) (who : Requester) {e : MemErr} (he : e.cause ≠ .pad) (access : Nat) :
    (s.accessFailed who e access).eng = s.eng := by
  unfold State.accessFailed
  split
  · rw [State.logMemory_eng]
  · next hc => exact absurd hc he
  · rfl

theorem State.writeFault_ne_pad (s : State) (whole8 : Bool) (a : Nat) : s.writeFault whole8 a ≠ some .pad := by
  unfold State.writeFault
  split <;> repeat' split
  all_goals simp

/-- No write meets a pad word: the window to the pads is read-only (R23). -/
theorem State.firstWriteFault_cause {s : State} {all segs : List Seg} {e : MemErr} (h : s.firstWriteFault all segs = some e) :
    e.cause ≠ .pad := by
  induction segs with
  | nil => cases h
  | cons g gs ih =>
    unfold State.firstWriteFault at h
    split at h
    · next e' hf =>
      cases h
      obtain ⟨i, -, hi⟩ := List.exists_of_findSome?_eq_some hf
      split at hi
      · next c hc =>
        cases hi
        exact fun hp => State.writeFault_ne_pad s _ _ (hc.trans (congrArg some hp))
      · split at hi
        · cases hi
          exact nofun
        · cases hi
    · exact ih h

@[simp] theorem State.correctAt_eng (s : State) (a : Nat) : (s.correctAt a).eng = s.eng := by
  unfold State.correctAt
  split
  · unfold State.correctPadWord
    dsimp only
    split <;> rfl
  · split
    · unfold State.countCorrection State.rowCorrected
      dsimp only
      repeat' split
      all_goals rfl
    · rfl

@[simp] theorem State.correctPartial_eng (s : State) (all : List Seg) : (s.correctPartial all).eng = s.eng := by
  unfold State.correctPartial
  split
  · rfl
  · exact foldl_keeps State.eng (fun _ _ => State.correctAt_eng _ _) _ _

@[simp] theorem State.progWrite_eng (s : State) (a : Nat) (bs : List Byte) : (s.progWrite a bs).2.eng = s.eng := by
  unfold State.progWrite State.storePiece
  dsimp only
  repeat' split
  all_goals simp

@[simp] theorem State.storeSeg_eng (s : State) (g : WSeg) : (s.storeSeg g).2.eng = s.eng := by
  unfold State.storeSeg
  split
  · rw [State.setBytes_eng]
    exact foldl_keeps State.eng (f := fun s i => s.freshWord (wordOf (g.1 + i))) (fun _ _ => rfl) _ _
  · exact foldl_keeps (fun r : Option Nat × State => r.2.eng) (fun _ _ => State.progWrite_eng _ _ _) _ _

@[simp] theorem State.storeSegs_eng (s : State) (segs : List WSeg) : (s.storeSegs segs).2.eng = s.eng := by
  refine foldl_keeps (fun r : Option Nat × State => r.2.eng) (fun r g => ?_) segs (none, s)
  exact State.storeSeg_eng r.2 g

/-- A write of memory, refused or not, leaves the stream engines. -/
@[simp] theorem State.memWrite_eng (s : State) (who : Requester) (segs : List WSeg) : (s.memWrite who segs).1.eng = s.eng := by
  unfold State.memWrite
  split
  · next e he => exact State.accessFailed_eng s who (State.firstWriteFault_cause he) 1
  · simp

/-! ## The switch leaves the stream engines as they are -/

@[simp] theorem State.noteMode_eng (s : State) (port tc : Nat) : (s.noteMode port tc).eng = s.eng := by
  unfold State.noteMode
  split <;> rfl

@[simp] theorem State.newStore_eng (s : State) (port ch cells copies : Nat) : (s.newStore port ch cells copies).2.eng = s.eng :=
  State.noteMode_eng _ _ _

@[simp] theorem State.unref_eng (s : State) (id : Nat) : (s.unref id).eng = s.eng := by
  unfold State.unref
  dsimp only
  repeat' split
  all_goals rfl

@[simp] theorem State.shaperSpend_eng (s : State) (port tc n : Nat) : (s.shaperSpend port tc n).eng = s.eng := by
  unfold State.shaperSpend
  split <;> rfl

@[simp] theorem State.policerSpend_eng (s : State) (port tc n : Nat) : (s.policerSpend port tc n).eng = s.eng := by
  unfold State.policerSpend
  split <;> rfl

@[simp] theorem State.inject_eng (s : State) (port tc a : Nat) : (s.inject port tc a).2.eng = s.eng := by
  unfold State.inject
  dsimp only
  repeat' split
  all_goals rfl

@[simp] theorem State.captureRecord_eng (s : State) (rec_ : List Byte) : (s.captureRecord rec_).eng = s.eng := by
  unfold State.captureRecord
  dsimp only
  repeat' split
  all_goals simp

@[simp] theorem State.addToFifo_eng (s : State) (port : Nat) (q : Queued) : (s.addToFifo port q).eng = s.eng := by
  unfold State.addToFifo
  dsimp only
  split <;> simp

@[simp] theorem State.stageRun_eng (s : State) (link tc n : Nat) : (s.stageRun link tc n).eng = s.eng := by
  induction n generalizing s with
  | zero => rfl
  | succ n ih =>
    unfold State.stageRun
    split
    · rfl
    · split
      · rfl
      · simp [ih]

@[simp] theorem State.enqueue_eng (s : State) (from_ final : Nat) (q : Queued) (joins : Bool) :
    (s.enqueue from_ final q joins).eng = s.eng := by
  unfold State.enqueue
  dsimp only
  split <;> simp

@[simp] theorem State.storeCopy_eng (s : State) (q : Queued) : (s.storeCopy q).eng = s.eng := by
  simp [State.storeCopy]

@[simp] theorem State.mirrorCopy_eng (s : State) (i : Nat) (f : Frame) (m : Nat) : (s.mirrorCopy i f m).eng = s.eng := by
  unfold State.mirrorCopy
  dsimp only
  repeat' split
  all_goals simp

@[simp] theorem State.mirrorAll_eng (s : State) (ids : List Nat) (f : Frame) (time ingress egress depth : Nat)
    (dirEgress discarded : Bool) : (s.mirrorAll ids f time ingress egress depth dirEgress discarded).eng = s.eng := by
  unfold State.mirrorAll State.mirrorCopies State.mirrorRecords
  rw [foldl_keeps State.eng (fun _ _ => State.mirrorCopy_eng _ _ _ _), foldl_keeps State.eng (fun _ _ => State.captureRecord_eng _ _)]

@[simp] theorem State.mirrorOut_eng (s : State) (port : Nat) (q : Queued) : (s.mirrorOut port q).eng = s.eng :=
  State.mirrorAll_eng _ _ _ _ _ _ _ _ _

@[simp] theorem State.reorderPick_eng (s : State) (port : Nat) (q : Queued) : (s.reorderPick port q).2.eng = s.eng := by
  unfold State.reorderPick
  dsimp only
  repeat' split
  all_goals simp

@[simp] theorem State.deliver_eng (s : State) (port : Nat) (q : Queued) : (s.deliver port q).eng = s.eng := by
  unfold State.deliver
  dsimp only
  split <;> simp

@[simp] theorem State.logDiscard_eng (s : State) (reason ingress egress : Nat) (w : W256) :
    (s.logDiscard reason ingress egress w).eng = s.eng := by
  simp [State.logDiscard]

@[simp] theorem State.startSend_eng (s : State) (port : Nat) (q : Queued) (v : Nat) : (s.startSend port q v).eng = s.eng := by
  unfold State.startSend State.releaseMirror
  dsimp only
  repeat' split
  all_goals simp

@[simp] theorem State.linkCount_eng (s : State) (l i n : Nat) : (s.linkCount l i n).eng = s.eng := by
  unfold State.linkCount
  split <;> rfl

@[simp] theorem State.holdOnLink_eng (s : State) (l : Nat) (q : Queued) : (s.holdOnLink l q).eng = s.eng := by
  unfold State.holdOnLink
  dsimp only
  repeat' split
  all_goals simp

@[simp] theorem State.place1_eng (s : State) (from_ final : Nat) (q : Queued) : (s.place1 from_ final q).eng = s.eng := by
  unfold State.place1 State.countStored
  repeat' split
  all_goals simp

@[simp] theorem State.dropPick_eng (s : State) (ingress final : Nat) (h : Hdr) : (s.dropPick ingress final h).2.eng = s.eng := by
  unfold State.dropPick
  dsimp only
  repeat' split
  all_goals simp

@[simp] theorem State.screenCopies_eng (s : State) (ingress : Nat) (w : W256) (r : Route) :
    (s.screenCopies ingress w r).2.eng = s.eng := by
  have hfold (links : List (Nat × Nat)) : (links.foldl (fun (s : State) x => s.logDiscard 7 ingress x.1 w) s).eng = s.eng :=
    foldl_keeps State.eng (fun _ _ => State.logDiscard_eng _ _ _ _ _) links s
  unfold State.screenCopies
  split
  · dsimp only
    repeat' split
    all_goals simp only [State.logDiscard_eng, hfold]
  · rfl

@[simp] theorem State.dropCopies_eng (s : State) (ingress : Nat) (w : W256) (r : Route) :
    (s.dropCopies ingress w r).2.eng = s.eng := by
  unfold State.dropCopies
  extract_lets h keep
  have hkeep (u : State) (p : Nat) : (keep u p).2.eng = u.eng := by
    unfold keep
    dsimp only
    split <;> simp
  clear_value keep
  split
  · exact hkeep _ _
  · exact hkeep _ _
  · rfl
  · next loc links _ =>
    refine (foldl_keeps (fun x : List (Nat × Nat) × State => x.2.eng) (fun x l => hkeep x.2 l.1) links _).trans ?_
    cases loc with
    | none => rfl
    | some p => exact hkeep s p
  · rfl

@[simp] theorem State.confirmCopies_eng (s : State) (ingress : Nat) (w : W256) (r : Route) :
    (s.confirmCopies ingress w r).2.eng = s.eng := by
  simp [State.confirmCopies]

/-- Forwarding a frame leaves the stream engines, where answering its discard does. -/
theorem State.forwardWith_eng {answer : State → Hdr → Nat → State} (ha : ∀ u h r, (answer u h r).eng = u.eng) (s : State)
    (ingress : Nat) (r : Route) (f : Frame) (sessions : List Nat) (replay : Bool) (time : Nat) (stored : Option Nat) :
    (State.forwardWith answer s ingress r f sessions replay time stored).eng = s.eng := by
  unfold State.forwardWith
  extract_lets h cells keep free discard full store place
  have hfree (u : State) : (free u).eng = u.eng := by
    unfold free
    split <;> simp
  have hdiscard (u : State) (reason egress : Nat) : (discard u reason egress).eng = u.eng := by
    unfold discard
    dsimp only
    split <;> simp [ha, hfree]
  have hstore (u : State) (n : Nat) : (store u n).2.eng = u.eng := by
    unfold store
    dsimp only
    repeat' split
    all_goals simp
  have hplace (u : State) (outs : List (Nat × W256)) : (place u outs).eng = u.eng := by
    unfold place
    split
    · simp
    · split
      · exact hdiscard _ _ _
      · rw [State.mirrorAll_eng]
        refine (foldl_keeps State.eng (fun v x => ?_) _ _).trans (hstore u _)
        split <;> simp
  clear_value discard place
  split
  · exact hdiscard _ _ _
  · exact hplace _ _
  · exact hplace _ _
  · rw [hplace]
    repeat' split
    all_goals simp

@[simp] theorem State.dropBuilt_eng (s : State) (ingress egress : Nat) (f : Frame) (stored : Option Nat) :
    (s.dropBuilt ingress egress f stored).eng = s.eng := by
  unfold State.dropBuilt
  dsimp only
  split <;> simp

@[simp] theorem State.forwardQuiet_eng (s : State) (ingress : Nat) (f : Frame) : (s.forwardQuiet ingress f).eng = s.eng := by
  unfold State.forwardQuiet
  extract_lets go
  have hgo (u : State) (r : Route) : (go u r).eng = u.eng := State.forwardWith_eng (fun _ _ _ => rfl) _ _ _ _ _ _ _ _
  clear_value go
  split
  · exact hgo _ _
  · dsimp only
    split <;> simp [hgo]

@[simp] theorem State.sendError_eng (s : State) (h : Hdr) (reason fault : Nat) : (s.sendError h reason fault).eng = s.eng := by
  rw [State.sendError, State.forwardQuiet_eng]

@[simp] theorem State.discardFrame_eng (s : State) (reason ingress egress : Nat) (w : W256) :
    (s.discardFrame reason ingress egress w).eng = s.eng := by
  unfold State.discardFrame
  dsimp only
  split <;> simp

/-- The ERROR frame that answers a discarded memory request (R228), under a name: below a projection the kernel does not
compare the function that `forwardBy` hands on with its value at an argument before it has unfolded both. -/
def State.answerDiscard (s : State) (h : Hdr) (reason : Nat) : State := s.sendError h reason (requestAddress h)

theorem State.answerDiscard_eng (s : State) (h : Hdr) (reason : Nat) : (s.answerDiscard h reason).eng = s.eng := by
  rw [State.answerDiscard, State.sendError_eng]

theorem State.forwardBy_eq (s : State) (ingress : Nat) (r : Route) (f : Frame) (sessions : List Nat) (replay : Bool) (time : Nat)
    (stored : Option Nat) : s.forwardBy ingress r f sessions replay time stored
      = State.forwardWith State.answerDiscard s ingress r f sessions replay time stored := rfl

@[simp] theorem State.forwardBy_eng (s : State) (ingress : Nat) (r : Route) (f : Frame) (sessions : List Nat) (replay : Bool)
    (time : Nat) (stored : Option Nat) : (s.forwardBy ingress r f sessions replay time stored).eng = s.eng := by
  rw [State.forwardBy_eq, State.forwardWith_eng State.answerDiscard_eng]

@[simp] theorem State.sendOn_eng (s : State) (ingress : Nat) (r : Route) (f : Frame) (stored : Option Nat) :
    (s.sendOn ingress r f stored).eng = s.eng := by
  unfold State.sendOn
  dsimp only
  split
  · simp
  · split <;> simp

@[simp] theorem State.enter_eng (s : State) (ingress : Nat) (f : Frame) (stored : Option Nat) :
    (s.enter ingress f stored).eng = s.eng := by
  unfold State.enter
  split <;> simp

@[simp] theorem State.storeShared_eng (s : State) (ingress : Nat) (fs : List Frame) : (s.storeShared ingress fs).2.eng = s.eng := by
  refine foldl_keeps (fun x : List (List Byte × Nat) × State => x.2.eng) (fun x f => ?_) fs ([], s)
  dsimp only
  split <;> simp

@[simp] theorem State.enterSet_eng (s : State) (ingress : Nat) (fs : List Frame) : (s.enterSet ingress fs).eng = s.eng := by
  unfold State.enterSet
  exact (foldl_keeps State.eng (fun _ _ => State.enter_eng _ _ _ _) _ _).trans (State.storeShared_eng _ _ _)

/-- Sending a frame, by whatever way it takes, leaves the stream engines. -/
@[simp] theorem State.send_eng (s : State) (ingress : Nat) (f : Frame) : (s.send ingress f).eng = s.eng := by
  unfold State.send State.sendSet
  split <;> simp

/-! ## Records, and the end of a stream (R275, R494) -/

@[simp] theorem State.sendPut_eng (s : State) (o : Origin) (tag : Tag) (n a tensor : Nat) (bs : List Byte) :
    (s.sendPut o tag n a tensor bs).eng = s.eng := by
  have ht (t : Tag) : (s.newTag t).2.eng = s.eng := rfl
  unfold State.sendPut
  rw [State.send_eng, ht]

@[simp] theorem State.recordFailed_eng (s : State) (kind a cause : Nat) : (s.recordFailed kind a cause).eng = s.eng := by
  simp [State.recordFailed]

/-- Writing a completion record leaves the stream engines. -/
@[simp] theorem State.writeRecord_eng (s : State) (kind : Nat) (who : Requester) (o : Origin) (a : Nat) (bs : List Byte) :
    (s.writeRecord kind who o a bs).eng = s.eng := by
  have hw := State.memWrite_eng s who [(localOf a, bs)]
  unfold State.writeRecord
  split
  · simp
  · split
    · split
      · next s' he => simpa [he] using hw
      · next s' e he => simpa [he] using hw
    · simp

/-- A stream that ends is removed. -/
theorem State.endStream_streams {s : State} {h : Nat} (hs : (s.eng.streams.any fun x => x.handle == h) = true) (status : Nat) :
    (s.endStream h status).eng.streams = s.eng.streams.filter (fun x => x.handle != h) := by
  unfold State.endStream
  split
  · next hn =>
    rw [List.find?_eq_none] at hn
    simp only [List.any_eq_true] at hs
    obtain ⟨x, hx, hh⟩ := hs
    exact absurd hh (hn x hx)
  · rw [State.writeRecord_eng]
    split <;> simp

end Sys2Proof.Machine
end

section
/-! PROOF. Accepted writes to the switch, the engines, the sequencers, the rings and fabric time have their effect. -/

namespace Sys2Proof.Proofs

open Sys2Proof Sys2Proof.Machine Sys2Proof.Safety

/-! ## The rows of the entries (R247, R269, R308, R336, R457, R480) -/

theorem resolve_geometryCommit : resolve 0x6010 5 = some ⟨⟨0x601005, .u8, .wo, 1, 0, 3, 0, false, false, 0⟩, false, 0⟩ := by
  decide +kernel
theorem resolve_captureControl : resolve 0x4300 2 = some ⟨⟨0x430002, .u8, .rw, 1, 0, 3, 0, false, false, 0⟩, false, 0⟩ := by
  decide +kernel
theorem resolve_telemetryControl : resolve 0xB040 2 = some ⟨⟨0xB04002, .u8, .rw, 1, 0, 3, 0, false, false, 0⟩, false, 0⟩ := by
  decide +kernel
theorem resolve_injectionUnlock : resolve 0xC000 1 = some ⟨⟨0xC00001, .bool, .rw, 1, 0, 3, 1, false, false, 0⟩, false, 0⟩ := by
  decide +kernel
theorem resolve_detach : resolve 0x5800 9 = some ⟨⟨0x580009, .u16, .wo, 2, 0, 3, 0, false, false, 0⟩, false, 0⟩ := by
  decide +kernel
theorem resolve_contextRecord :
    resolve 0x5810 2 = some ⟨⟨0x581002, .blob, .rw, 64, 0, 3, 0, false, false, 0x581001⟩, false, 0⟩ := by decide +kernel
theorem resolve_groupRecord :
    resolve 0x5000 2 = some ⟨⟨0x500002, .blob, .rw, 32, 0, 3, 0, false, false, 0x500001⟩, false, 0⟩ := by decide +kernel
theorem resolve_abortRequest : resolve 0x5030 1 = some ⟨⟨0x503001, .u64, .wo, 8, 0, 3, 0, false, false, 0⟩, false, 0⟩ := by
  decide +kernel
theorem resolve_snapshotAt : resolve 0xB050 1 = some ⟨⟨0xB05001, .time64, .wo, 8, 0, 7, 0, false, false, 0⟩, false, 0⟩ := by
  decide +kernel
theorem resolve_setTime : resolve 0x9040 4 = some ⟨⟨0x904004, .time64, .wo, 8, 0, 3, 0, false, false, 0⟩, false, 0⟩ := by
  decide +kernel

/-- Bits [15:12] of a handle are reserved (R275). -/
theorem cleanValue_handle (v : BitVec 16) : cleanValue 0x580009 v.toNat = v.toNat % 4096 := by
  have hv := v.isLt
  show v.toNat - (v.toNat / 2 ^ 12 % 2 ^ (15 + 1 - 12)) * 2 ^ 12 + 0 % 2 ^ (15 + 1 - 12) * 2 ^ 12 = _
  omega

/-- Bits [31:8] of an abort request are reserved (R334). -/
theorem cleanValue_abort (v : Nat) : cleanValue 0x503001 v % 256 = v % 256 ∧ cleanValue 0x503001 v / 2 ^ 32 = v / 2 ^ 32 := by
  have h : cleanValue 0x503001 v = v - (v / 2 ^ 8 % 2 ^ (31 + 1 - 8)) * 2 ^ 8 + 0 % 2 ^ (31 + 1 - 8) * 2 ^ 8 := rfl
  omega

/-! ## The clauses -/

theorem geometryCommit_performed {s : State} {c : Ctx} (h : writeReaches s c 0x6010 5 1 = true) (hg : s.geometryOk = true) :
    ∃ t, exec (.geometryCommit c 1) s = .next t ∧ t.net.dims = BitVec.ofNat 32 (s.reg 0x601002)
      ∧ t.net.coords = BitVec.ofNat 32 (s.reg 0x601003) ∧ t.net.dirs = BitVec.ofNat 512 (s.reg 0x601004)
      ∧ Performed c (s.touch c).applyGeometry.retrainMiswired.reparent t := by
  have hact : (s.touch c).act c ((s.touch c).roleOf c) 0x601005 0 1 (natLE 1 1)
      = (0, (s.touch c).applyGeometry.retrainMiswired.reparent) := by
    show orRefused _ (s.touch c).commitGeometry = _
    rw [State.commitGeometry, State.geometryOk_touch, if_pos hg]
    rfl
  have hp := State.writeRow_performed resolve_geometryCommit (by decide) (by decide) h hact
  have hnet : (s.writeRow c 0x6010 5 1 1).net = (s.touch c).applyGeometry.net := by
    rw [hp.1, State.reparent_net, State.retrainMiswired_net]
  rw [State.applyGeometry_net, State.reg_touch, State.reg_touch, State.reg_touch] at hnet
  exact ⟨_, rfl, congrArg Switch.dims hnet, congrArg Switch.coords hnet, congrArg Switch.dirs hnet, hp⟩

/-- The control entry of a ring takes a write that enables it and fits, and one that disables it. -/
theorem ringControl_performs {row : State → Host.Outcome State Fault Refusal} {c : Ctx} {index key lo hi size : Nat} {v : Byte}
    {e : DictEntry} (hrow : ∀ s, row s = .next (s.writeRow c index 2 1 v.toNat)) (hm : resolve index 2 = some ⟨e, false, 0⟩)
    (hkey : e.key ≠ 0x105001)
    (hact : ∀ (u : State) role un bs, u.act c role e.key un (cleanValue e.key v.toNat) bs = orRefused u (u.writeRing key lo hi size v.toNat)) :
    Performs row c index 2 1
        (fun u => bitOf (u.reg (key + 1)) 7 = false ∧ bitOf v.toNat 7 = true ∧ lo ≤ v.toNat % 32 ∧ v.toNat % 32 ≤ hi
          ∧ ringFits (u.reg key) (v.toNat % 32) size = true)
        (fun u => ((u.setReg (key + 1) (128 + v.toNat % 32)).setReg (key + 2) 0).setReg (key + 3) 0)
      ∧ Performs row c index 2 1 (fun u => bitOf v.toNat 7 = false ∧ (key = 0x430001 → bitOf (u.reg (key + 1)) 7 = false))
        (fun u => u.setReg (key + 1) (v.toNat % 32)) := by
  constructor
  · refine performs_of_act hrow hm hkey v.isLt ?_
    rintro u ⟨hoff, hon, hlo, hhi, hfit⟩
    rw [hact, State.writeRing_enable hoff hon hlo hhi hfit]
    rfl
  · refine performs_of_act hrow hm hkey v.isLt ?_
    rintro u ⟨hv, hcap⟩
    rw [hact, State.writeRing_disable _ _ _ hv hcap]
    rfl

theorem captureControl_enabled_refused {s : State} {c : Ctx} {v : Byte} (h : writeReaches s c 0x4300 2 1 = true)
    (hon : bitOf ((s.touch c).reg 0x430002) 7 = true) :
    ∃ t, exec (.captureRingEnable c v) s = .next t ∧ Refused c 6 (s.touch c) t := by
  refine ⟨_, rfl, State.writeRow_refused resolve_captureControl (by decide) v.isLt h (by decide) (by decide) ?_⟩
  show orRefused _ ((s.touch c).writeRing 0x430001 10 24 80 v.toNat) = _
  rw [State.writeRing_enabled_capture _ _ _ _ hon]
  rfl

/-- A write of the injection unlock is recorded (R445). -/
theorem act_injectionUnlock (s : State) (c : Ctx) (role u : Nat) {v : Byte} (hv : v.toNat ≤ 1) :
    s.act c role 0xC00001 u (cleanValue 0xC00001 v.toNat) (natLE 1 v.toNat)
      = (0, (s.setReg 0xC00001 v.toNat).restartInjection.serviceEvent 2 c role 0xC00001 [v]) := by
  have hbytes : natLE 1 v.toNat = [v] := by simp [natLE]
  rw [hbytes]
  exact if_neg (Nat.not_lt.mpr hv)

theorem streamDetach_performed {s : State} {c : Ctx} {v : BitVec 16} (h : writeReaches s c 0x5800 9 2 = true)
    (hs : (s.eng.streams.any fun x => x.handle == v.toNat % 4096) = true) :
    ∃ t, exec (.streamDetach c v) s = .next t ∧ t.eng.streams = s.eng.streams.filter (fun x => x.handle != v.toNat % 4096)
      ∧ Performed c ((s.touch c).endStream (v.toNat % 4096) 2) t := by
  have hs' : ((s.touch c).eng.streams.any fun x => x.handle == v.toNat % 4096) = true := by rwa [State.touch_eng]
  have hact : (s.touch c).act c ((s.touch c).roleOf c) 0x580009 0 (cleanValue 0x580009 v.toNat) (natLE 2 v.toNat)
      = (0, (s.touch c).endStream (v.toNat % 4096) 2) := by
    rw [cleanValue_handle]
    show orRefused _ ((s.touch c).detach (v.toNat % 4096)) = _
    rw [State.detach, if_pos hs']
    rfl
  have hp := State.writeRow_performed resolve_detach (by decide) v.isLt h hact
  have heng : (s.writeRow c 0x5800 9 2 v.toNat).eng = ((s.touch c).endStream (v.toNat % 4096) 2).eng := by
    rw [hp.1]
  refine ⟨_, rfl, ?_, hp⟩
  rw [heng, State.endStream_streams hs', State.touch_eng]

theorem collectiveAbort_performed {s : State} {c : Ctx} {v : W64} {x : Collective} (h : writeReaches s c 0x5030 1 8 = true)
    (hx : (s.coll.active.find? fun y => y.group == v.toNat % 256 && y.sequence == v.toNat / 2 ^ 32 && !y.reported) = some x) :
    ∃ t, exec (.collectiveAbortRequest c v) s = .next t
      ∧ Performed c (((s.touch c).endColl x.id 3 4 s.node).settleGroup x.group) t := by
  refine ⟨_, rfl, State.writeRow_performed resolve_abortRequest (by decide) v.isLt h ?_⟩
  show orRefused _ ((s.touch c).abortRequest (cleanValue 0x503001 v.toNat)) = _
  rw [State.abortRequest, (cleanValue_abort _).1, (cleanValue_abort _).2, State.touch_coll, hx, State.node_touch]
  rfl

theorem cleanValue_groupRecord (v : Nat) : cleanValue 0x500002 v = v := rfl

theorem act_groupRecord (s : State) (c : Ctx) (role g v : Nat) (bs : List Byte) :
    s.act c role 0x500002 g v bs
      = (if (s.writeGroup g (BitVec.ofNat 256 v)).1 then 0 else 6, (s.writeGroup g (BitVec.ofNat 256 v)).2) := rfl

/-- A write of a group record has the effect that `writeGroup` gives it where that takes it. -/
theorem groupRecord_performs {row : State → Host.Outcome State Fault Refusal} {c : Ctx} {v : Nat} {ok : State → Prop}
    {f : State → State} (hrow : ∀ s, row s = .next (s.writeRow c 0x5000 2 32 v)) (hv : v < 256 ^ 32)
    (hw : ∀ u, ok u → u.writeGroup (u.selected c 0x500001) (BitVec.ofNat 256 v) = (true, f u)) :
    Performs row c 0x5000 2 32 ok f := by
  refine performs_of_act hrow resolve_groupRecord (by decide) hv fun u hok => ?_
  have hunit : u.unitOf c ⟨⟨0x500002, .blob, .rw, 32, 0, 3, 0, false, false, 0x500001⟩, false, 0⟩ = u.selected c 0x500001 := rfl
  rw [cleanValue_groupRecord, act_groupRecord, hunit, hw u hok]
  rfl

/-- A record with valid set that R310 accepts, whose staging chunks are found, defines the group. -/
theorem groupDefine_performs {c : Ctx} {v w : W256} (hw : w = BitVec.ofNat 256 (setField v.toNat 255 1 1)) :
    Performs (exec (.groupDefine c v)) c 0x5000 2 32
      (fun u => u.groupBusy (u.selected c 0x500001) = false ∧ u.groupOk w = true
        ∧ (reservedFor w = 0 ∨ u.stagingPoolOk (u.reg 0x501001) = true)
        ∧ reservedFor w ≤ (u.takeChunks (u.reg 0x501001) (reservedFor w)).1.length)
      (fun u => ((u.takeChunks (u.reg 0x501001) (reservedFor w)).2.freeChunks (groupHub (u.group (u.selected c 0x500001)).record)
          (u.group (u.selected c 0x500001)).reserved).setGroup (u.selected c 0x500001)
        ⟨w, 0, (u.takeChunks (u.reg 0x501001) (reservedFor w)).1, u.reg 0x501001⟩) := by
  refine groupRecord_performs (fun _ => rfl) (setField_255_lt v 1) ?_
  rintro u ⟨hbusy, hok, hpool, hall⟩
  rw [← hw]
  exact State.writeGroup_define hbusy (hw ▸ groupValid_set v) hok hpool hall

theorem groupUndefine_performs (c : Ctx) (v : W256) :
    Performs (exec (.groupUndefine c v)) c 0x5000 2 32 (fun u => u.groupBusy (u.selected c 0x500001) = false) fun u =>
      (u.freeChunks (groupHub (u.group (u.selected c 0x500001)).record) (u.group (u.selected c 0x500001)).reserved).setGroup
        (u.selected c 0x500001) { record := groupRecord (BitVec.ofNat 256 (setField v.toNat 255 1 0)) } :=
  groupRecord_performs (fun _ => rfl) (setField_255_lt v 0) fun _ hbusy => State.writeGroup_undefine hbusy (groupValid_clear v)

/-- A write of a context record has the effect that `writeContext` gives it where that takes it. -/
theorem contextRecord_performs {c : Ctx} {v : W512} {ok : State → Prop} {f : State → State}
    (hw : ∀ u, ok u → u.writeContext (u.selected c 0x581001) (BitVec.ofNat 512 (cleanValue 0x581002 v.toNat)) = some (f u)) :
    Performs (exec (.contextRecordWrite c v)) c 0x5810 2 64 ok f := by
  refine performs_of_act (fun _ => rfl) resolve_contextRecord (by decide) (toNat_lt_bytes (n := 64) v) fun u hok => ?_
  show orRefused u (u.writeContext (u.selected c 0x581001) (BitVec.ofNat 512 (cleanValue 0x581002 v.toNat))) = _
  rw [hw u hok]
  rfl

/-- A request for a snapshot has the effect that `requestSnapshot` gives it where that takes it. -/
theorem snapshotRequest_performs {c : Ctx} {at_ : W64} {ok : State → Prop} {f : State → State}
    (hw : ∀ u, ok u → u.requestSnapshot at_.toNat = (0, f u)) :
    Performs (exec (.snapshotRequest c at_)) c 0xB050 1 8 ok f :=
  performs_of_act (fun _ => rfl) resolve_snapshotAt (by decide) at_.isLt hw

theorem setFabricTime_performs (c : Ctx) (time : W64) :
    Performs (exec (.setFabricTime c time)) c 0x9040 4 8 (fun u => u.isRoot = true ∧ u.now < time.toNat)
      (fun u => u.stepTime time.toNat) := by
  refine performs_of_act (fun _ => rfl) resolve_setTime (by decide) time.isLt fun u hok => ?_
  show orRefused u (u.setTime time.toNat) = _
  rw [State.setTime, if_pos hok]
  rfl

/-- Settles O43: each entry's own write lemma, brought to its row by `performs_of_act`. -/
theorem switchAndEngineWrites : Obligations.SwitchAndEngineWrites := by
  unfold Obligations.SwitchAndEngineWrites
  refine ⟨fun s c h hg => geometryCommit_performed h hg, ?rings, ?injection, fun s c v h hs => streamDetach_performed h hs, ?contexts, ?groups,
    fun s c v x h hx => collectiveAbort_performed h hx, ?snapshots, setFabricTime_performs⟩
  case rings =>
    intro c v ring
    exact ⟨ringControl_performs (fun _ => rfl) resolve_captureControl (by decide) fun _ _ _ _ => rfl,
      ringControl_performs (fun _ => rfl) resolve_telemetryControl (by decide) fun _ _ _ _ => rfl,
      fun s h hon => captureControl_enabled_refused h hon⟩
  case injection =>
    intro c v hv
    refine performs_of_act (fun _ => rfl) resolve_injectionUnlock (by decide) v.isLt fun u _ => ?_
    rw [act_injectionUnlock _ _ _ _ hv, State.restartInjection_unlock]
    rfl
  case contexts =>
    intro c v r n fresh
    exact ⟨contextRecord_performs fun u ⟨hold, hnew, hok⟩ => State.writeContext_arm hold hnew hok,
      contextRecord_performs fun u ⟨hold, hnew, hsame⟩ => State.writeContext_idle hold hnew hsame,
      contextRecord_performs fun u ⟨hold, hnew⟩ => State.writeContext_off hold hnew⟩
  case groups =>
    intro c v n w x taken
    have hw : w = BitVec.ofNat 256 (setField v.toNat 255 1 1) := rfl
    have htaken : ∀ u, taken u = u.takeChunks (u.reg 0x501001) (reservedFor w) := fun _ => rfl
    clear_value taken w
    simp only [htaken]
    refine ⟨groupDefine_performs hw, groupUndefine_performs c v, ?_⟩
    constructor
    · intro d lo hd hlo
      rw [bitOf_eq_testBit]
      exact testBit_groupRecord _ (.inr ⟨16 * d, by simp; omega, by omega, by omega⟩)
    · exact fieldOf_eq_zero fun i h64 h235 => testBit_groupRecord _ (.inl ⟨h64, by omega⟩)
  case snapshots =>
    intro c at_ scheduled ready group
    refine ⟨snapshotRequest_performs ?_, snapshotRequest_performs ?_⟩
    · rintro u ⟨⟨hnone, ht⟩, hg⟩
      exact State.requestSnapshot_alone hnone ht hg
    · rintro u ⟨⟨hnone, ht⟩, hg, hvalid⟩
      exact State.requestSnapshot_group hnone ht hg hvalid

end Sys2Proof.Proofs
end

section
/-! PROOF. A read by a thread of its own memory, where the thread is of no cell there is. -/
namespace Sys2Proof.Proofs
open Sys2Proof Sys2Proof.Machine Sys2Proof.Safety

/-- A thread's read that reaches its own cell's pad through the window halts it with reason 0x10 (R23). -/
theorem readGlobal_ownPad {x : Issue} {rs : List Range'} {tc a : Nat} {s : State} (hv : s.firstInvalid rs = none)
    (hh : s.heldOver (((segsOf rs).filter fun g => decide (nodeOf g.1 = s.node)).map fun g => (localOf g.1, g.2)) = false)
    (ha : (((segsOf rs).filter fun g => decide (nodeOf g.1 = s.node)).findSome? fun g => ownPadIn x.id.cell (localOf g.1) g.2) = some a) :
    Cmd.readGlobal x rs tc s = .error (.halt 0x10 (s.globalOf a) s) := by
  unfold Cmd.readGlobal
  simp only [hv, hh, ha]
  rfl

/-- Refutes O20: an `Issue` may bear a cell number at which no cell is, and the pad window of cell 0x2000000 would lie at the base
of HBM: there a read of one byte of HBM halts with reason 0x10 as a read of the thread's own pad (R23). -/
theorem not_localMemoryAccess : ¬ Obligations.LocalMemoryAccess := by
  intro h
  let x : Issue := ⟨⟨0x2000000, 0⟩, 0, false, 0⟩
  have halts : Cmd.readGlobal x [((hbmBase : Int), 1)] 5 State.reset = .error (.halt 0x10 (State.reset.globalOf hbmBase) State.reset) :=
    readGlobal_ownPad (by decide) (by decide) (by decide)
  obtain ⟨v, hv, -⟩ := (h State.reset x hbmBase 1 (by decide) (by decide) (by decide) (by decide) (by decide)
    (fun k hk => by obtain rfl : k = 0 := by omega
                    exact ⟨.inl ⟨by decide, by decide⟩, by decide⟩)).1 (by decide) 5
  cases halts.symm.trans hv

end Sys2Proof.Proofs
end

section
/-! SUPPORT. Answers to requests (R242): a delivered answer is taken, its request's tag is dropped, and a remote BAR2 read that ends takes
the tags of all its requests with it (R359). -/

namespace Sys2Proof.Machine

open Sys2Proof

/-! ## Tags that are dropped -/

theorem State.tag_dropTag (s : State) (t k : Nat) : (s.dropTag t).tag k = if k = t then none else s.tag k := by
  unfold State.tag State.dropTag
  split
  · next h => rw [h, SMap.get_put_same]
  · next h => rw [SMap.get_put_other _ _ _ h]

theorem State.tag_foldl_dropTag (ts : List Nat) (s : State) (k : Nat) :
    (ts.foldl State.dropTag s).tag k = if k ∈ ts then none else s.tag k := by
  induction ts generalizing s with
  | nil => simp
  | cons t ts ih =>
    rw [List.foldl_cons, ih, State.tag_dropTag]
    by_cases hk : k ∈ ts
    · simp [hk]
    · simp [hk]

/-- Dropping tags changes the tags alone. -/
theorem State.foldl_dropTag_fields (ts : List Nat) (s : State) :
    ts.foldl State.dropTag s = { s with net := (ts.foldl State.dropTag s).net } := by
  induction ts generalizing s with
  | nil => rfl
  | cons t ts ih => exact (ih (s.dropTag t)).trans rfl

/-- A remote read that is removed leaves the list of reads, and its tags are dropped; nothing else changes. -/
theorem State.dropRead_fields (s : State) (r : Bar2Read) :
    s.dropRead r = { s with host := { s.host with reads := s.host.reads.erase r }, net := (s.dropRead r).net } := by
  unfold State.dropRead
  rw [State.foldl_dropTag_fields]

@[simp] theorem State.dropRead_host (s : State) (r : Bar2Read) :
    (s.dropRead r).host = { s.host with reads := s.host.reads.erase r } := by
  rw [State.dropRead_fields]

@[simp] theorem State.dropRead_dict (s : State) (r : Bar2Read) : (s.dropRead r).dict = s.dict := by rw [State.dropRead_fields]
@[simp] theorem State.dropRead_now (s : State) (r : Bar2Read) : (s.dropRead r).now = s.now := by rw [State.dropRead_fields]
@[simp] theorem State.dropRead_mem (s : State) (r : Bar2Read) : (s.dropRead r).mem = s.mem := by rw [State.dropRead_fields]
@[simp] theorem State.dropRead_swarm (s : State) (r : Bar2Read) : (s.dropRead r).swarm = s.swarm := by rw [State.dropRead_fields]

theorem State.tag_dropRead (s : State) (r : Bar2Read) (k : Nat) :
    (s.dropRead r).tag k = if k ∈ r.tags then none else s.tag k := State.tag_foldl_dropTag _ _ _

/-! ## The answers (R242, R243) -/

theorem State.answerFrame_take {s u : State} {port tc kind : Nat} {h : Hdr} {f : Frame} (g : State → Hdr → Frame → State)
    (hp : s.pow.powered = true) (ht : s.take port tc kind = some (h, f, u)) : s.answerFrame port tc kind g = g u h f := by
  simp only [State.answerFrame, hp, ht, if_true]

/-- A row that takes an answer leaves what its meaning makes of it. -/
theorem State.next_answerFrame {s u t : State} {port tc kind : Nat} {h : Hdr} {f : Frame} {g : State → Hdr → Frame → State}
    (hp : s.pow.powered = true) (ht : s.take port tc kind = some (h, f, u)) (hg : g u h f = t) :
    (.next (s.answerFrame port tc kind g) : Host.Outcome State Fault Refusal) = .next t :=
  congrArg _ ((State.answerFrame_take g hp ht).trans hg)

/-- The data of a GET DATA frame that answers a request for `n` bytes. -/
def Frame.data (f : Frame) (h : Hdr) (n : Nat) : List Byte := slice (f.payload.take (f.payload.length - h.sop)) 0 n

section
variable {s : State} {h : Hdr} {f : Frame} {x : Tag}

theorem State.getData_threadGet {i : SlotId} (hr : s.request h.seq 2 h.srcNode = some x) (ho : x.owner = .threadGet i)
    (hi : s.occupied i = true) (ht : s.ofThread i x = true) :
    s.getData h f = (s.dropTag h.seq).giveThread i (x.here.getD 0) (f.data h x.count) := by
  simp only [State.getData, hr, ho]
  exact if_pos (Bool.and_eq_true_iff.mpr ⟨hi, ht⟩)

theorem State.getData_threadGetTo {i : SlotId} {pad : Bool} (hr : s.request h.seq 2 h.srcNode = some x)
    (ho : x.owner = .threadGetTo i pad) : s.getData h f = (s.dropTag h.seq).getTo i x pad (f.data h x.count) := by
  simp only [State.getData, hr, ho]
  rfl

theorem State.getData_dma {q e : Nat} {y : Entry} (hr : s.request h.seq 2 h.srcNode = some x) (ho : x.owner = .dma q e)
    (he : s.entry? q e = some y) (hy : y.result = none) :
    s.getData h f = (((s.dropTag h.seq).hostWrite (x.here.getD 0) (f.data h x.count)).dmaMoved q e x.count).dmaRun q e 4 := by
  have he' : (s.dropTag h.seq).entry? q e = some y := he
  simp only [State.getData, hr, ho, he', hy]
  rfl

theorem State.getData_bar2Read (hr : s.request h.seq 2 h.srcNode = some x) (ho : x.owner = .bar2Read) :
    s.getData h f = (s.dropTag h.seq).bar2Data h.seq x (f.data h x.count) := by
  simp only [State.getData, hr, ho]
  rfl

theorem State.atomicResult_threadAtom {i : SlotId} (hr : s.request h.seq 4 h.srcNode = some x) (ho : x.owner = .threadAtom i)
    (hh : x.here.isSome = true) (hi : s.occupied i = true) (ht : s.ofThread i x = true) :
    s.atomicResult h f = (s.dropTag h.seq).giveThread i answerKey (slice f.payload 0 8) := by
  simp only [State.atomicResult, hr, ho]
  exact if_pos (by simp only [Bool.and_eq_true]; exact ⟨⟨hh, hi⟩, ht⟩)

theorem State.freeResult_threadFree {i : SlotId} (hr : s.request h.seq 8 h.srcNode = some x) (ho : x.owner = .threadFree i)
    (hi : s.occupied i = true) (ht : s.ofThread i x = true) :
    s.freeResult h f = (s.dropTag h.seq).giveThread i answerKey (slice f.payload 0 1 ++ List.replicate 7 0) := by
  simp only [State.freeResult, hr, ho]
  exact if_pos (Bool.and_eq_true_iff.mpr ⟨hi, ht⟩)

theorem State.freeResult_entryFree {q e : Nat} (hr : s.request h.seq 8 h.srcNode = some x) (ho : x.owner = .entryFree q e) :
    s.freeResult h f = (s.dropTag h.seq).endEntry q e 0 (numAt f.payload 0 1) := by
  simp only [State.freeResult, hr, ho]

/-- The address an ERROR frame names, or its request's target where it names none. -/
def Frame.failedAt (f : Frame) (x : Tag) : Nat := if numAt f.payload 8 8 = 0 then x.node * 2 ^ 40 + x.remote else numAt f.payload 8 8

theorem State.errorAnswer_entry {q e : Nat} (hr : s.request (numAt f.payload 4 4) (numAt f.payload 1 1) h.srcNode = some x)
    (ho : x.owner = .dma q e ∨ x.owner = .entryFree q e) :
    s.errorAnswer h f = (s.dropTag (numAt f.payload 4 4)).failEntry q e 0x15 (f.failedAt x) := by
  rcases ho with ho | ho <;> simp only [State.errorAnswer, hr, ho, Frame.failedAt]

theorem State.errorAnswer_thread {i : SlotId} (hr : s.request (numAt f.payload 4 4) (numAt f.payload 1 1) h.srcNode = some x)
    (ho : x.owner.thread? = some i) :
    s.errorAnswer h f = (s.dropTag (numAt f.payload 4 4)).threadFault i x 0x11 (f.failedAt x) := by
  cases hx : x.owner <;> simp only [hx, TagOwner.thread?, reduceCtorEq, Option.some.injEq] at ho
  all_goals
    subst ho
    simp only [State.errorAnswer, hr, hx, Frame.failedAt]

theorem State.acknowledge_drops {node tag : Nat} (hr : s.request tag 1 node = some x) (ho : ∀ q e, x.owner ≠ .dma q e) :
    s.acknowledge node tag = s.dropTag tag := by
  cases hx : x.owner with
  | dma q e => exact absurd hx (ho q e)
  | _ => simp only [State.acknowledge, hr, hx]

theorem State.acks_one (hn : numAt f.payload 0 1 = 1) : s.acks h f = s.acknowledge h.srcNode (numAt f.payload 4 4) := by
  unfold State.acks
  rw [hn]
  rfl

end

/-! ## Remote BAR2 reads (R359) -/

/-- The bytes a remote read completes with, of those that have come. -/
def Bar2Read.out (r : Bar2Read) (bytes : SMap (Option Byte)) : List Byte :=
  (List.range r.length).map fun k => (SMap.get none bytes (r.address + k)).getD 0

/-- The last data of a remote read completes it. -/
theorem State.bar2Data_last {s : State} {tag : Nat} {t : Tag} {bs : List Byte} {r : Bar2Read} (hr : s.readOf tag = some r)
    (hl : r.tags.filter (· ≠ tag) = []) :
    s.bar2Data tag t bs = ((s.dropRead r).complete (.data (r.out (State.putBytes r.bytes (t.here.getD 0) bs)))).tlp := by
  simp only [State.bar2Data, hr, hl]
  rfl

/-- Other data of a remote read is kept with it. -/
theorem State.bar2Data_more {s : State} {tag : Nat} {t : Tag} {bs : List Byte} {r : Bar2Read} (hr : s.readOf tag = some r)
    (hl : r.tags.filter (· ≠ tag) ≠ []) :
    s.bar2Data tag t bs = { s with host := { s.host with reads := s.host.reads.map fun y =>
      if y = r then { r with tags := r.tags.filter (· ≠ tag), bytes := State.putBytes r.bytes (t.here.getD 0) bs } else y } } := by
  simp only [State.bar2Data, hr]
  exact if_neg (by simpa using hl)

end Sys2Proof.Machine
end

section
/-! PROOF. Answers give their data to whom they were asked for, and an ERROR reaches who asked. -/

namespace Sys2Proof.Proofs

open Sys2Proof Sys2Proof.Machine Sys2Proof.Safety

/-- Settles O52: the delivered answer is taken, and each owner of its request gets what that owner's lemma says. -/
theorem requestAnswers : Obligations.RequestAnswers := by
  unfold Obligations.RequestAnswers
  intro s u port tc h f i x hp
  refine ⟨fun pad ht hr ho => State.next_answerFrame hp ht (State.getData_threadGetTo hr ho),
    fun q e y ht hr ho he hy => State.next_answerFrame hp ht (State.getData_dma hr ho he hy), ?bar2,
    fun q e ht hr ho => State.next_answerFrame hp ht (State.freeResult_entryFree hr ho),
    fun q e ht hr ho => State.next_answerFrame hp ht (State.errorAnswer_entry hr ho),
    fun ht hr ho hi hx => State.next_answerFrame hp ht (State.getData_threadGet hr ho hi hx),
    fun ht hr ho hh hi hx => State.next_answerFrame hp ht (State.atomicResult_threadAtom hr ho hh hi hx),
    fun ht hr ho hi hx => State.next_answerFrame hp ht (State.freeResult_threadFree hr ho hi hx),
    fun ht hn hr ho => State.next_answerFrame hp ht ((State.acks_one hn).trans (State.acknowledge_drops hr ho)), ?error⟩
  case bar2 =>
    intro r ht hr ho hx
    have hx' : (u.dropTag h.seq).readOf h.seq = some r := hx
    refine ⟨fun hl => ⟨_, State.next_answerFrame hp ht ((State.getData_bar2Read hr ho).trans (State.bar2Data_last hx' hl)), ?_⟩,
      fun hl => ⟨_, State.next_answerFrame hp ht ((State.getData_bar2Read hr ho).trans (State.bar2Data_more hx' hl)), rfl, rfl⟩⟩
    exact ⟨congrArg (·.completions ++ _) (State.dropRead_host _ _), congrArg HostIf.reads (State.dropRead_host _ _),
      State.dropRead_mem _ _, State.dropRead_swarm _ _⟩
  case error =>
    intro ht hr ho
    refine State.next_answerFrame hp ht (State.errorAnswer_thread hr ?_)
    rcases ho with ho | ⟨pad, ho⟩ | ho | ho | ho <;> rw [ho] <;> rfl

end Sys2Proof.Proofs
end

section
/-! SUPPORT. BAR2 and the host's other accesses (R356, R358, R359, R371): what a read or a write comes to, by where its bytes lie and
whether it is served, and the remote reads that get no answer. -/

namespace Sys2Proof.Machine

open Sys2Proof

/-! ## The nodes a range lies in -/

@[simp] theorem length_slice (bs : List Byte) (off len : Nat) : (slice bs off len).length = len := by
  simp only [slice, List.length_append, List.length_take, List.length_drop, List.length_replicate]
  omega

theorem segs_near {s : State} {segs : List Seg} (h : ∀ g ∈ segs, nodeOf g.1 = s.node) :
    segs.filter (fun g => decide (nodeOf g.1 = s.node)) = segs ∧ segs.filter (fun g => decide (nodeOf g.1 ≠ s.node)) = [] := by
  constructor
  · exact List.filter_eq_self.mpr fun g hg => decide_eq_true (h g hg)
  · exact List.filter_eq_nil_iff.mpr fun g hg => by simp [h g hg]

theorem segs_far {s : State} {segs : List Seg} (h : ∀ g ∈ segs, nodeOf g.1 ≠ s.node) :
    segs.filter (fun g => decide (nodeOf g.1 = s.node)) = [] ∧ segs.filter (fun g => decide (nodeOf g.1 ≠ s.node)) = segs := by
  constructor
  · exact List.filter_eq_nil_iff.mpr fun g hg => by simp [h g hg]
  · exact List.filter_eq_self.mpr fun g hg => decide_eq_true (h g hg)

/-! ## BAR2 (R359, R431) -/

theorem State.windowReaches_iff {s : State} {o a len : Nat} : s.windowReaches o a len = true ↔
    o + len ≤ 2 ^ 36 ∧ a + len ≤ 2 ^ 64 ∧ ∀ g ∈ splitNode a len, s.nodeValid (nodeOf g.1) = true := by
  simp only [State.windowReaches, Bool.and_eq_true, decide_eq_true_eq, List.all_eq_true, and_assoc]

theorem State.bar2Waits_of_served {s : State} (h : s.bar2Served = true) : s.bar2Waits = false := by
  simp only [State.bar2Served, Bool.and_eq_true, Bool.not_eq_true', Bool.or_eq_true, beq_iff_eq] at h
  obtain ⟨hs, hp | hp⟩ := h <;> simp [State.bar2Waits, hs, hp]

section
variable {s : State} {o len : Nat}

theorem State.bar2Read_refused
    (h : (s.bar2Served = false ∧ s.bar2Waits = false) ∨ s.windowReaches o (s.host.windowBase.toNat + o) len = false) :
    s.bar2Read o len = s.failRead := by
  refine if_pos ?_
  rcases h with ⟨h1, h2⟩ | h
  · exact .inl (by simp [h1, h2])
  · exact .inr (by simp [h])

theorem State.bar2Read_held (h : s.windowReaches o (s.host.windowBase.toNat + o) len = true)
    (hw : s.bar2Waits = true ∨ (s.bar2Served = true ∧ s.writesHeld = true)) :
    s.bar2Read o len = s.holdRead (s.host.windowBase.toNat + o) len := by
  unfold State.bar2Read
  rcases hw with hw | ⟨hs, hw⟩
  · simp [h, hw]
  · simp [h, hs, hw]

theorem State.bar2Read_now (h : s.windowReaches o (s.host.windowBase.toNat + o) len = true) (hs : s.bar2Served = true)
    (hw : s.writesHeld = false) : s.bar2Read o len = s.bar2Access (s.host.windowBase.toNat + o) len s.now := by
  simp [State.bar2Read, h, hs, hw, State.bar2Waits_of_served hs]

/-- A read held for this module's memory bears no tag. -/
theorem State.holdRead_near {a : Nat} (h : ∀ g ∈ splitNode a len, nodeOf g.1 = s.node) :
    s.holdRead a len = { s with host := { s.host with readsHeld := s.host.readsHeld ++ [⟨a, len, s.now, none⟩] } } := by
  have hr : ((splitNode a len).any fun g => decide (nodeOf g.1 ≠ s.node)) = false :=
    List.any_eq_false.mpr fun g hg => by simp [h g hg]
  simp only [State.holdRead, hr]
  rfl

/-- A read held for memory of another node bears a tag of its own (log entry 26). -/
theorem State.holdRead_far {a : Nat} (h : ∃ g ∈ splitNode a len, nodeOf g.1 ≠ s.node) :
    let u := s.newTag (bar2Tag .bar2Read s.now)
    s.holdRead a len = { u.2 with host := { u.2.host with readsHeld := s.host.readsHeld ++ [⟨a, len, s.now, some u.1⟩] } } := by
  have hr : ((splitNode a len).any fun g => decide (nodeOf g.1 ≠ s.node)) = true :=
    List.any_eq_true.mpr (h.imp fun g hg => ⟨hg.1, decide_eq_true hg.2⟩)
  simp only [State.holdRead, hr]
  rfl

/-- A read of this module's memory completes with its bytes. -/
theorem State.bar2Access_near {a t : Nat} {w : State} {bs : List Byte} (h : ∀ g ∈ splitNode a len, nodeOf g.1 = s.node)
    (hr : s.memRead bar2Requester ((splitNode a len).map fun g => (localOf g.1, g.2)) = (w, .ok bs)) :
    s.bar2Access a len t = w.complete (.data bs) := by
  obtain ⟨h1, h2⟩ := segs_near h
  simp only [State.bar2Access, h1, h2, hr]
  rfl

theorem State.memRead_nil (s : State) (who : Requester) : s.memRead who [] = (s, .ok []) := by
  simp only [State.memRead, State.firstReadFault, State.correctRead]
  split <;> rfl

theorem State.memWrite_nil (s : State) (who : Requester) : s.memWrite who [] = (s, none) := by
  simp only [State.memWrite, List.map_nil, State.firstWriteFault, State.correctPartial]
  split <;> rfl

/-- A read of other nodes' memory goes out as GETs, and waits for their data. -/
theorem State.bar2Access_far {a t : Nat} (h : ∀ g ∈ splitNode a len, nodeOf g.1 ≠ s.node) (hne : splitNode a len ≠ []) :
    let r := (splitNode a len).foldl (fun (r : List Nat × State) g => let x := r.2.bar2Gets g.1 g.2; (r.1 ++ x.1, x.2)) ([], s)
    s.bar2Access a len t = { r.2 with host := { r.2.host with reads := r.2.host.reads ++ [⟨r.1, t, a, len, []⟩] } } := by
  obtain ⟨h1, h2⟩ := segs_far h
  simp only [State.bar2Access, h1, h2, List.map_nil, State.memRead_nil, List.isEmpty_iff, if_neg hne]

/-- One GET of a read that one frame answers. -/
theorem State.bar2Gets_one {a n : Nat} (h : pieces 0 n = [(0, n)]) :
    s.bar2Gets a n = ([s.freeTag s.net.tags.length s.net.nextTag],
      s.sendGet (Origin.queuePair 0) { bar2Tag .bar2Read s.now with here := some a } (nodeOf a) (localOf a) 0 n) := by
  simp only [State.bar2Gets, h]
  rfl

theorem State.bar2Write_now {bs : List Byte} (h : s.windowReaches o (s.host.windowBase.toNat + o) bs.length = true)
    (hs : s.bar2Served = true) : s.bar2Write o bs = s.bar2Store (s.host.windowBase.toNat + o) bs := by
  simp [State.bar2Write, h, hs, State.bar2Waits_of_served hs]

theorem State.bar2Write_waits {bs : List Byte} (h : s.windowReaches o (s.host.windowBase.toNat + o) bs.length = true)
    (hw : s.bar2Waits = true) : s.bar2Write o bs
      = { s with host := { s.host with writesWaiting := s.host.writesWaiting ++ [(s.host.windowBase.toNat + o, bs)] } } := by
  simp [State.bar2Write, h, hw]

/-- A write of this module's memory is a write of it. -/
theorem State.bar2Store_near {a : Nat} {bs : List Byte} {w : State} (h : ∀ g ∈ splitNode a bs.length, nodeOf g.1 = s.node)
    (hw : s.memWrite bar2Requester ((splitNode a bs.length).map fun g => (localOf g.1, slice bs (g.1 - a) g.2)) = (w, none)) :
    s.bar2Store a bs = w := by
  obtain ⟨h1, h2⟩ := segs_near h
  simp only [State.bar2Store, h1, h2, hw]
  rfl

/-- A write of other nodes' memory goes out as PUTs. -/
theorem State.bar2Store_far {a : Nat} {bs : List Byte} (h : ∀ g ∈ splitNode a bs.length, nodeOf g.1 ≠ s.node) :
    s.bar2Store a bs = (splitNode a bs.length).foldl (fun (u : State) g =>
      u.sendPuts (Origin.queuePair 0) (bar2Tag .bar2Write u.now) (nodeOf g.1) (localOf g.1, slice bs (g.1 - a) g.2)) s := by
  obtain ⟨h1, h2⟩ := segs_far h
  simp only [State.bar2Store, h1, h2, List.map_nil, State.memWrite_nil]

end

/-! ## Requests as the endpoint takes them -/

theorem State.hostTakes_of_hostUp {s : State} (h : s.hostUp = true) : s.hostTakes .bar2 = true := by
  simp only [State.hostUp, Bool.and_eq_true] at h
  obtain ⟨⟨⟨hp, -⟩, hw⟩, hr⟩ := h
  simp [State.hostTakes, hp, hw, hr]

section
variable {s : State} {target : HostTarget} {o n : Nat} {bs : List Byte}

theorem exec_read_bar2 (h : s.hostTakes .bar2 = true) : exec (.bar2Read ⟨.bar2, o⟩ n) s = .next (s.tlp.bar2Read o n) := by
  simp only [exec, execBar2Read, h]
  rfl

theorem exec_read_bar0 (h : s.reachable .bar0 = true) : exec (.bar2Read ⟨.bar0, o⟩ n) s = .next (s.tlp.bar0Read o n) := by
  simp only [exec, execBar2Read, State.hostTakes, h]
  rfl

theorem exec_read_config (h : s.reachable .bar0 = true) (hr : s.retries .config = false) :
    exec (.bar2Read ⟨.config, o⟩ n) s = .next (s.tlp.configRead o n) := by
  simp only [exec, execBar2Read, State.hostTakes, h, hr]
  rfl

theorem exec_write_bar2 (h : s.hostTakes .bar2 = true) :
    exec (.bar2Write ⟨.bar2, o⟩ ⟨bs, false⟩) s = .next (s.tlp.bar2Write o bs) := by
  simp only [exec, execBar2Write, h]
  rfl

/-- A poisoned write is reported, and nothing else comes of it (R371). -/
theorem exec_write_poisoned (h : s.hostTakes target = true) (hr : s.retries target = false) :
    exec (.bar2Write ⟨target, o⟩ ⟨bs, true⟩) s = .next (s.tlp.aer .poisoned) := by
  simp only [exec, execBar2Write, h, hr]
  rfl

/-- During start-up a configuration request is to be tried again (R439). -/
theorem exec_config_retry {bad : Bool} (hr : s.retries .config = true) : exec (.bar2Read ⟨.config, o⟩ n) s = .next (s.complete .retry)
    ∧ exec (.bar2Write ⟨.config, o⟩ ⟨bs, bad⟩) s = .next (s.complete .retry) := by
  simp only [exec, execBar2Read, execBar2Write, hr, if_true, and_self]

end

/-! ## Remote reads without an answer (R359) -/

theorem State.reg_congr {s t : State} (h : s.dict.regs = t.dict.regs) (k u : Nat) : s.reg k u = t.reg k u := by
  unfold State.reg
  rw [h]

/-- A read that is aborted: counted, reported, and completed with CA (R371). -/
def State.abortRead (s : State) : State := ((s.barFault .completerAbort).complete .abort).tlp

@[simp] theorem State.abortRead_completions (s : State) : s.abortRead.host.completions = s.host.completions ++ [.abort] := rfl
@[simp] theorem State.abortRead_aer (s : State) : s.abortRead.host.aer = s.host.aer ++ [.completerAbort] := rfl
@[simp] theorem State.abortRead_reads (s : State) : s.abortRead.host.reads = s.host.reads := rfl
@[simp] theorem State.abortRead_readsHeld (s : State) : s.abortRead.host.readsHeld = s.host.readsHeld := rfl
@[simp] theorem State.abortRead_tag (s : State) (k : Nat) : s.abortRead.tag k = s.tag k := by
  simp only [State.abortRead, State.tag, State.tlp_net, State.complete, State.barFault, State.aer_net, State.bump_net]
@[simp] theorem State.abortRead_now (s : State) : s.abortRead.now = s.now := by
  simp only [State.abortRead, State.tlp_now, State.complete, State.barFault, State.aer_now, State.bump_now]
@[simp] theorem State.abortRead_mem (s : State) : s.abortRead.mem = s.mem := by
  simp only [State.abortRead, State.tlp_mem, State.complete, State.barFault, State.aer_mem, State.bump_mem]
@[simp] theorem State.abortRead_swarm (s : State) : s.abortRead.swarm = s.swarm := by
  simp only [State.abortRead, State.tlp_swarm, State.complete, State.barFault, State.aer_swarm, State.bump_swarm]

theorem State.reg_abortRead (s : State) : s.abortRead.reg 0x104001 = satAdd 64 (s.reg 0x104001) 1 := State.reg_setReg _ _ _ _

theorem State.bar2Timeout_sent {s : State} {tag at_ : Nat} {r : Bar2Read} (hr : s.readOf tag = some r) (hp : s.pow.powered = true)
    (hl : r.arrived + 5000000 ≤ max s.now at_) :
    s.bar2Timeout tag at_ = ((s.at_ at_).dropRead r).abortRead := by
  simp only [State.bar2Timeout, hr]
  exact if_pos (by simp only [hp, decide_eq_true hl, Bool.and_self])

/-- A held read is forgotten with its tag. -/
def State.forgetHeldRead (s : State) (tag : Nat) (r : HeldRead) : State :=
  { s.dropTag tag with host := { s.host with readsHeld := s.host.readsHeld.erase r } }

@[simp] theorem State.forgetHeldRead_host (s : State) (tag : Nat) (r : HeldRead) :
    (s.forgetHeldRead tag r).host = { s.host with readsHeld := s.host.readsHeld.erase r } := rfl
@[simp] theorem State.forgetHeldRead_dict (s : State) (tag : Nat) (r : HeldRead) : (s.forgetHeldRead tag r).dict = s.dict := rfl
@[simp] theorem State.forgetHeldRead_mem (s : State) (tag : Nat) (r : HeldRead) : (s.forgetHeldRead tag r).mem = s.mem := rfl
@[simp] theorem State.forgetHeldRead_swarm (s : State) (tag : Nat) (r : HeldRead) : (s.forgetHeldRead tag r).swarm = s.swarm := rfl

@[simp] theorem State.tag_forgetHeldRead (s : State) (tag : Nat) (r : HeldRead) : (s.forgetHeldRead tag r).tag tag = none :=
  (State.tag_dropTag s tag tag).trans (if_pos rfl)

theorem State.bar2Timeout_held {s : State} {tag at_ : Nat} {r : HeldRead} (hn : s.readOf tag = none)
    (hr : (s.host.readsHeld.find? fun x => x.tag == some tag) = some r) (hp : s.pow.powered = true)
    (hl : r.arrived + 5000000 ≤ max s.now at_) :
    s.bar2Timeout tag at_ = ((s.at_ at_).forgetHeldRead tag r).abortRead := by
  simp only [State.bar2Timeout, hn, hr]
  exact if_pos (by simp only [hp, decide_eq_true hl, Bool.and_self])

/-! ## Frames for queue pairs (R369) -/

section
variable {s u w : State} {tc a : Nat} {d : Delivered}

/-- A frame for which its pair has no slot or no buffer: discarded on a best-effort TC, else it waits. -/
def State.keepReceived (s v : State) (tc : Nat) (d : Delivered) : State :=
  if s.bestEffort tc then v.discardReceived d else v.holdReceived d

/-- The pair that a delivered frame is for. -/
def State.pairFor (s : State) (d : Delivered) : QueuePair := s.pair ((Hdr.of d.frame.header).destEp % 256)

/-- Does its pair take a delivered frame? -/
def State.taken (s : State) (d : Delivered) : Bool := (s.pairFor d).takes (Hdr.of d.frame.header).kind

section
variable (hg : (s.hostUp && s.pow.state != 3 && s.pow.state != 5) = true) (hd : s.rxFind 0x50 tc isReceived = some d)
include hg hd

theorem State.hostReceive_notTaken (ht : s.taken d = false) :
    s.hostReceive tc = (s.consume d).logDiscard 6 d.ingress d.port d.frame.header := by
  simp only [State.taken, State.pairFor] at ht
  simp only [State.hostReceive, hg, hd, ht, Bool.not_true, Bool.not_false, Bool.false_eq_true, if_true, if_false]

theorem State.hostReceive_noSlot (ht : s.taken d = true) (hc : (s.pairFor d).cqFree = false) :
    s.hostReceive tc = s.keepReceived s tc d := by
  simp only [State.taken, State.pairFor] at ht hc
  simp only [State.hostReceive, hg, hd, ht, hc, Bool.not_true, Bool.not_false, Bool.false_eq_true, if_true, if_false]
  rfl

variable (ht : s.taken d = true) (hc : (s.pairFor d).cqFree = true)
include ht hc

theorem State.hostReceive_noBuffer (ha : s.alloc (s.pairFor d).pool = (0, u)) : s.hostReceive tc = s.keepReceived u tc d := by
  simp only [State.taken, State.pairFor] at ht hc ha
  simp only [State.hostReceive, hg, hd, ht, hc, ha, Bool.not_true, Bool.false_eq_true, if_true, if_false]
  rfl

variable (ha : s.alloc (s.pairFor d).pool = (a, u)) (h0 : a ≠ 0)
include ha h0

theorem State.hostReceive_tooLong (hb : u.bufferSize a < 64 + d.frame.payload.length) : s.hostReceive tc
    = ((u.freeHere ⟨2, (Hdr.of d.frame.header).destEp % 256⟩ a).2.consume d).logDiscard 6 d.ingress d.port d.frame.header := by
  simp only [State.taken, State.pairFor] at ht hc ha
  simp only [State.hostReceive, hg, hd, ht, hc, ha, if_neg h0, if_pos hb, Bool.not_true, Bool.false_eq_true, if_false]

theorem State.hostReceive_placed (hb : 64 + d.frame.payload.length ≤ u.bufferSize a)
    (hw : u.memWrite ⟨5, 0⟩ [(localOf a, natLE 32 d.frame.header.toNat), (localOf a + 64, d.frame.payload)] = (w, none)) :
    s.hostReceive tc = (w.consume d).writeCq ((Hdr.of d.frame.header).destEp % 256) d.frame.payload.length 0 1 a true := by
  simp only [State.taken, State.pairFor] at ht hc ha
  simp only [State.hostReceive, hg, hd, ht, hc, ha, if_neg h0, if_neg (Nat.not_lt.mpr hb), hw, Bool.not_true, Bool.false_eq_true,
    if_false]

end

theorem State.noPlace_eq_false_iff : s.noPlace d = false ↔
    s.taken d = false ∨ ((s.pairFor d).cqFree = true ∧ (s.alloc (s.pairFor d).pool).1 ≠ 0) := by
  simp only [State.noPlace, State.taken, State.pairFor, Bool.and_eq_false_iff, Bool.or_eq_false_iff, Bool.not_eq_false',
    beq_eq_false_iff_ne]

theorem State.receiveTimeout_eq {at_ : Nat} (hd : s.rxFind 0x50 tc isReceived = some d) (hu : s.hostUp = true)
    (hb : s.bestEffort tc = false) : s.receiveTimeout tc at_
      = if s.noPlace d = true ∧ d.since + 1000000 ≤ max s.now at_ then (s.at_ at_).discardReceived d else s := by
  simp only [State.receiveTimeout, hd, hu, hb, Bool.not_false, true_and]

end

end Sys2Proof.Machine
end

section
/-! PROOF. What the host reads and writes, what it receives, and when its link rests. -/

namespace Sys2Proof.Proofs

open Sys2Proof Sys2Proof.Machine Sys2Proof.Safety

/-- Settles O47: each request is decoded to its target, and comes to what the lemma of its case says. -/
theorem hostAccesses : Obligations.HostAccesses := by
  unfold Obligations.HostAccesses
  refine ⟨?reads, ?get, ?bar0, ?retry, ?writeNear, ?writeFar, ?timeoutSent, ?timeoutHeld, ?window, ?receive, ?receiveTimeout, ?l1⟩
  case reads =>
    intro s o len ht a segs invalid
    have reach (h36 : o + len ≤ 2 ^ 36) (h64 : a + len ≤ 2 ^ 64) (hv : invalid = false) :
        s.tlp.windowReaches o (s.tlp.host.windowBase.toNat + o) len = true :=
      State.windowReaches_iff.mpr ⟨h36, h64, fun g hg => by
        show s.nodeValid (nodeOf g.1) = true
        simpa using List.any_eq_false.mp hv g hg⟩
    refine ⟨fun h => ?refused, fun h36 h64 hv hw => ⟨fun hn => ?heldNear, fun hf => ?heldFar⟩,
      fun hs hw h36 h64 hv hne hf => ?far, fun w bs hs hw h36 h64 hn hv hr => ?near⟩
    case refused =>
      refine ⟨s.tlp.failRead, ?_, rfl, rfl, State.reg_setReg _ _ _ _, rfl, rfl, rfl⟩
      rw [exec_read_bar2 ht, State.bar2Read_refused]
      refine h.imp id fun h => Bool.eq_false_iff.mpr fun hr => ?_
      obtain ⟨h36, h64, hv⟩ := State.windowReaches_iff.mp hr
      rcases h with h | h | h
      · omega
      · exact absurd h64 (Nat.not_le.mpr h)
      · obtain ⟨g, hg, hi⟩ := List.any_eq_true.mp h
        have : s.nodeValid (nodeOf g.1) = true := hv g hg
        simp [this] at hi
    case heldNear =>
      rw [exec_read_bar2 ht, State.bar2Read_held (reach h36 h64 hv) hw]
      exact congrArg Host.Outcome.next (State.holdRead_near hn)
    case heldFar =>
      rw [exec_read_bar2 ht, State.bar2Read_held (reach h36 h64 hv) hw]
      exact congrArg Host.Outcome.next (State.holdRead_far hf)
    case far =>
      rw [exec_read_bar2 ht, State.bar2Read_now (reach h36 h64 hv) hs hw]
      exact congrArg Host.Outcome.next (State.bar2Access_far hf hne)
    case near =>
      have hv : invalid = false := List.any_eq_false.mpr fun g hg => by simp [hn g hg, hv]
      rw [exec_read_bar2 ht, State.bar2Read_now (reach h36 h64 hv) hs hw]
      exact congrArg Host.Outcome.next (State.bar2Access_near hn hr)
  case get => exact fun s a n h => State.bar2Gets_one h
  case bar0 =>
    intro s o n hr
    refine ⟨fun h => ?_, fun h => ?_, fun hc => ⟨fun h => ?_, fun h => ?_⟩⟩
    · rw [exec_read_bar0 hr, State.bar0Read, if_pos h]; rfl
    · rw [exec_read_bar0 hr, State.bar0Read, h]; rfl
    · rw [exec_read_config hr hc, State.configRead, if_pos h]; rfl
    · rw [exec_read_config hr hc, State.configRead, h]; rfl
  case retry =>
    exact fun s target o n bs bad => ⟨exec_config_retry, fun ht hr => ⟨_, exec_write_poisoned ht hr, rfl, rfl⟩⟩
  case writeNear =>
    intro s w o bs hu hs a segs h36 h64 hn hv hw
    have reach : s.tlp.windowReaches o (s.tlp.host.windowBase.toNat + o) bs.length = true :=
      State.windowReaches_iff.mpr ⟨h36, h64, fun g hg => (congrArg s.nodeValid (hn g hg)).trans hv⟩
    rw [exec_write_bar2 (State.hostTakes_of_hostUp hu), State.bar2Write_now reach hs]
    exact congrArg Host.Outcome.next (State.bar2Store_near hn hw)
  case writeFar =>
    intro s o bs ht a segs h36 h64 hv
    have reach : s.tlp.windowReaches o (s.tlp.host.windowBase.toNat + o) bs.length = true := State.windowReaches_iff.mpr ⟨h36, h64, hv⟩
    refine ⟨fun hw => ?_, fun hs hne hf => ?_⟩
    · rw [exec_write_bar2 ht, State.bar2Write_waits reach hw]; rfl
    · rw [exec_write_bar2 ht, State.bar2Write_now reach hs]
      refine congrArg Host.Outcome.next ((State.bar2Store_far (s := s.tlp) hf).trans ?_)
      simp only [State.sendPuts, length_slice]
      rfl
  case timeoutSent =>
    intro s tag at_ r hr hp hl
    refine ⟨_, congrArg Host.Outcome.next (State.bar2Timeout_sent hr hp hl), ?_⟩
    have htag (k : Nat) : ((s.at_ at_).dropRead r).tag k = if k ∈ r.tags then none else s.tag k := by
      rw [State.tag_dropRead, State.tag, State.at_net]
      rfl
    have hreg : ((s.at_ at_).dropRead r).reg 0x104001 = s.reg 0x104001 := State.reg_congr (by simp) _ _
    rw [State.reg_abortRead, hreg]
    simp +contextual [htag]
  case timeoutHeld =>
    intro s tag at_ r hn hr hp hl
    refine ⟨_, congrArg Host.Outcome.next (State.bar2Timeout_held hn hr hp hl), ?_⟩
    have hreg : ((s.at_ at_).forgetHeldRead tag r).reg 0x104001 = s.reg 0x104001 := State.reg_congr (by simp) _ _
    rw [State.reg_abortRead, hreg]
    simp
  case window =>
    intro s v hu
    have hw : s.writeWindow v = { s.tlp with host := { s.tlp.host with windowBase := BitVec.ofNat 64 (v.toNat / 2 ^ 30 * 2 ^ 30) } } :=
      if_pos hu
    exact ⟨_, congrArg Host.Outcome.next hw, rfl, rfl⟩
  case receive =>
    intro s u w tc a d hu h3 h5 hd h q n held
    have hg : (s.hostUp && s.pow.state != 3 && s.pow.state != 5) = true := by simp [hu, h3, h5]
    exact ⟨fun ht hc => congrArg Host.Outcome.next (State.hostReceive_noSlot hg hd ht hc),
      fun ht hc ha => congrArg Host.Outcome.next (State.hostReceive_noBuffer hg hd ht hc ha),
      fun ht hc ha h0 hb => congrArg Host.Outcome.next (State.hostReceive_tooLong hg hd ht hc ha h0 hb),
      fun ht hc ha h0 hb hw => congrArg Host.Outcome.next (State.hostReceive_placed hg hd ht hc ha h0 hb hw),
      fun ht => congrArg Host.Outcome.next (State.hostReceive_notTaken hg hd ht)⟩
  case receiveTimeout =>
    intro s tc at_ d hd hu hb p place
    have heq := State.receiveTimeout_eq (at_ := at_) hd hu hb
    have hplace : place ↔ s.noPlace d = false := (State.noPlace_eq_false_iff).symm
    refine ⟨fun hn hl => congrArg Host.Outcome.next ?_, fun h => congrArg Host.Outcome.next ?_⟩
    · rw [hplace, Bool.not_eq_false] at hn
      exact heq.trans (if_pos ⟨hn, hl⟩)
    · rw [hplace] at h
      exact heq.trans (if_neg fun ⟨hn, hl⟩ => h.elim (by simp [hn]) (by omega))
  case l1 =>
    intro s at_ hu ha hl ht
    exact congrArg Host.Outcome.next (if_pos ⟨hu, ha, by simp [hl], ht⟩)

end Sys2Proof.Proofs
end

section
/-! SUPPORT. Memory, events, the switch and completion records leave the Swarm as it is but for the writes that its combs hold and the
words of its pads: in particular every thread slot, the working hives, and where each comb lies. -/

namespace Sys2Proof.Machine

open Sys2Proof

/-- The Swarm without what accesses to memory and pads change: the writes held for a comb, and the words of pads. -/
def Swarm.core (w : Swarm) : Swarm := { w with combs := [], pads := [], padPoison := [], padSoft := [] }

@[simp] theorem Swarm.core_combs (w : Swarm) (m : SMap Comb) : ({ w with combs := m } : Swarm).core = w.core := rfl
@[simp] theorem Swarm.core_padSoft (w : Swarm) (m : SMap Bool) : ({ w with padSoft := m } : Swarm).core = w.core := rfl
@[simp] theorem Swarm.core_padWord (w : Swarm) (m n : SMap Bool) :
    ({ w with padPoison := m, padSoft := n } : Swarm).core = w.core := rfl
@[simp] theorem Swarm.core_pads (w : Swarm) (m : SMap (Option Byte)) : ({ w with pads := m } : Swarm).core = w.core := rfl

/-- States whose Swarms agree in their core have the same threads. -/
theorem State.slot_of_core {s t : State} (h : t.swarm.core = s.swarm.core) (i : SlotId) : t.slot i = s.slot i := by
  have hs : t.swarm.slots = s.swarm.slots := (congrArg Swarm.slots h :)
  rw [State.slot, hs, State.slot]

/-- A fold over states whose every step keeps the core of the Swarm keeps it. -/
theorem foldl_core {α : Type} {f : State → α → State} (h : ∀ u a, (f u a).swarm.core = u.swarm.core) (l : List α) (s : State) :
    (l.foldl f s).swarm.core = s.swarm.core := foldl_keeps (fun u : State => u.swarm.core) h l s

@[simp] theorem State.postEvent_swarm (s : State) (code cls detail : Nat) : (s.postEvent code cls detail).swarm = s.swarm :=
  (congrArg State.swarm (s.postEvent_sansEvent code cls detail) :)

@[simp] theorem State.setBytes_swarm (s : State) (a : Nat) (bs : List Byte) : (s.setBytes a bs).swarm = s.swarm :=
  (congrArg State.swarm (s.setBytes_sansEvent a bs) :)

@[simp] theorem State.freshWord_swarm (s : State) (w : Nat) : (s.freshWord w).swarm = s.swarm := rfl

@[simp] theorem State.setComb_core (s : State) (n : Nat) (c : Comb) : (s.setComb n c).swarm.core = s.swarm.core := rfl

/-! ## Memory -/

@[simp] theorem State.logMemory_swarm (s : State) (who : Requester) (a access : Nat) : (s.logMemory who a access).swarm = s.swarm := by
  unfold State.logMemory State.memoryRecord
  dsimp only
  rw [State.postEvent_swarm]
  split <;> rfl

/-- A failed access other than to an uncorrectable pad word halts no thread (R203, R114). -/
theorem State.accessFailed_swarm (s : State) (who : Requester) {e : MemErr} (he : e.cause ≠ .pad) (access : Nat) :
    (s.accessFailed who e access).swarm = s.swarm := by
  unfold State.accessFailed
  split
  · rw [State.logMemory_swarm]
  · next hc => exact absurd hc he
  · rfl

@[simp] theorem State.correctPadWord_core (s : State) (cell off : Nat) : (s.correctPadWord cell off).swarm.core = s.swarm.core := by
  unfold State.correctPadWord
  dsimp only
  split <;> rfl

@[simp] theorem State.correctAt_core (s : State) (a : Nat) : (s.correctAt a).swarm.core = s.swarm.core := by
  unfold State.correctAt
  split
  · exact State.correctPadWord_core _ _ _
  · split
    · unfold State.countCorrection State.rowCorrected
      dsimp only
      repeat' split
      all_goals rfl
    · rfl

@[simp] theorem State.correctRead_core (s : State) (segs : List Seg) : (s.correctRead segs).swarm.core = s.swarm.core := by
  unfold State.correctRead
  split
  · rfl
  · exact foldl_core (fun _ _ => State.correctAt_core _ _) _ _

@[simp] theorem State.correctPartial_core (s : State) (all : List Seg) : (s.correctPartial all).swarm.core = s.swarm.core := by
  unfold State.correctPartial
  split
  · rfl
  · exact foldl_core (fun _ _ => State.correctAt_core _ _) _ _

@[simp] theorem State.progWrite_core (s : State) (a : Nat) (bs : List Byte) : (s.progWrite a bs).2.swarm.core = s.swarm.core := by
  unfold State.progWrite State.storePiece
  dsimp only
  repeat' split
  all_goals simp

@[simp] theorem State.storeSeg_core (s : State) (g : WSeg) : (s.storeSeg g).2.swarm.core = s.swarm.core := by
  unfold State.storeSeg
  split
  · rw [State.setBytes_swarm]
    exact foldl_core (f := fun s i => s.freshWord (wordOf (g.1 + i))) (fun _ _ => rfl) _ _
  · exact foldl_keeps (fun r : Option Nat × State => r.2.swarm.core) (fun _ _ => State.progWrite_core _ _ _) _ _

@[simp] theorem State.storeSegs_core (s : State) (segs : List WSeg) : (s.storeSegs segs).2.swarm.core = s.swarm.core := by
  refine foldl_keeps (fun r : Option Nat × State => r.2.swarm.core) (fun r g => ?_) segs (none, s)
  exact State.storeSeg_core r.2 g

/-- A write of memory, refused or not, leaves the core of the Swarm: no write meets a pad word. -/
@[simp] theorem State.memWrite_core (s : State) (who : Requester) (segs : List WSeg) :
    (s.memWrite who segs).1.swarm.core = s.swarm.core := by
  unfold State.memWrite
  split
  · next e he => exact congrArg Swarm.core (State.accessFailed_swarm s who (State.firstWriteFault_cause he) 1)
  · simp

/-! ## The switch -/

@[simp] theorem State.noteMode_swarm (s : State) (port tc : Nat) : (s.noteMode port tc).swarm = s.swarm := by
  unfold State.noteMode
  split <;> rfl

@[simp] theorem State.newStore_swarm (s : State) (port ch cells copies : Nat) : (s.newStore port ch cells copies).2.swarm = s.swarm :=
  State.noteMode_swarm _ _ _

@[simp] theorem State.unref_swarm (s : State) (id : Nat) : (s.unref id).swarm = s.swarm := by
  unfold State.unref
  dsimp only
  repeat' split
  all_goals rfl

@[simp] theorem State.shaperSpend_swarm (s : State) (port tc n : Nat) : (s.shaperSpend port tc n).swarm = s.swarm := by
  unfold State.shaperSpend
  split <;> rfl

@[simp] theorem State.policerSpend_swarm (s : State) (port tc n : Nat) : (s.policerSpend port tc n).swarm = s.swarm := by
  unfold State.policerSpend
  split <;> rfl

@[simp] theorem State.inject_swarm (s : State) (port tc a : Nat) : (s.inject port tc a).2.swarm = s.swarm := by
  unfold State.inject
  dsimp only
  repeat' split
  all_goals rfl

@[simp] theorem State.captureRecord_core (s : State) (rec_ : List Byte) : (s.captureRecord rec_).swarm.core = s.swarm.core := by
  unfold State.captureRecord
  dsimp only
  repeat' split
  all_goals simp

@[simp] theorem State.addToFifo_swarm (s : State) (port : Nat) (q : Queued) : (s.addToFifo port q).swarm = s.swarm := by
  unfold State.addToFifo
  dsimp only
  split <;> simp

@[simp] theorem State.stageRun_swarm (s : State) (link tc n : Nat) : (s.stageRun link tc n).swarm = s.swarm := by
  induction n generalizing s with
  | zero => rfl
  | succ n ih =>
    unfold State.stageRun
    split
    · rfl
    · split
      · rfl
      · simp [ih]

@[simp] theorem State.enqueue_swarm (s : State) (from_ final : Nat) (q : Queued) (joins : Bool) :
    (s.enqueue from_ final q joins).swarm = s.swarm := by
  unfold State.enqueue
  dsimp only
  split <;> simp

@[simp] theorem State.mirrorCopy_swarm (s : State) (i : Nat) (f : Frame) (m : Nat) : (s.mirrorCopy i f m).swarm = s.swarm := by
  unfold State.mirrorCopy State.storeCopy
  dsimp only
  repeat' split
  all_goals simp

@[simp] theorem State.mirrorAll_core (s : State) (ids : List Nat) (f : Frame) (time ingress egress depth : Nat)
    (dirEgress discarded : Bool) : (s.mirrorAll ids f time ingress egress depth dirEgress discarded).swarm.core = s.swarm.core := by
  unfold State.mirrorAll State.mirrorCopies State.mirrorRecords
  rw [foldl_core fun _ _ => congrArg Swarm.core (State.mirrorCopy_swarm _ _ _ _), foldl_core fun _ _ => State.captureRecord_core _ _]

@[simp] theorem State.mirrorOut_core (s : State) (port : Nat) (q : Queued) : (s.mirrorOut port q).swarm.core = s.swarm.core :=
  State.mirrorAll_core _ _ _ _ _ _ _ _ _

@[simp] theorem State.reorderPick_swarm (s : State) (port : Nat) (q : Queued) : (s.reorderPick port q).2.swarm = s.swarm := by
  unfold State.reorderPick
  dsimp only
  repeat' split
  all_goals simp

@[simp] theorem State.deliver_swarm (s : State) (port : Nat) (q : Queued) : (s.deliver port q).swarm = s.swarm := by
  unfold State.deliver
  dsimp only
  split <;> simp

@[simp] theorem State.logDiscard_swarm (s : State) (reason ingress egress : Nat) (w : W256) :
    (s.logDiscard reason ingress egress w).swarm = s.swarm := by
  simp [State.logDiscard]

@[simp] theorem State.releaseMirror_swarm (s : State) (q : Queued) : (s.releaseMirror q).swarm = s.swarm := by
  unfold State.releaseMirror
  dsimp only
  split <;> rfl

@[simp] theorem State.startSend_core (s : State) (port : Nat) (q : Queued) (v : Nat) :
    (s.startSend port q v).swarm.core = s.swarm.core := by
  unfold State.startSend
  dsimp only
  repeat' split
  all_goals simp

@[simp] theorem State.linkCount_swarm (s : State) (l i n : Nat) : (s.linkCount l i n).swarm = s.swarm := by
  unfold State.linkCount
  split <;> rfl

@[simp] theorem State.holdOnLink_swarm (s : State) (l : Nat) (q : Queued) : (s.holdOnLink l q).swarm = s.swarm := by
  unfold State.holdOnLink
  dsimp only
  repeat' split
  all_goals simp

@[simp] theorem State.place1_core (s : State) (from_ final : Nat) (q : Queued) : (s.place1 from_ final q).swarm.core = s.swarm.core := by
  unfold State.place1 State.countStored
  repeat' split
  all_goals simp

@[simp] theorem State.dropPick_swarm (s : State) (ingress final : Nat) (h : Hdr) : (s.dropPick ingress final h).2.swarm = s.swarm := by
  unfold State.dropPick
  dsimp only
  repeat' split
  all_goals simp

@[simp] theorem State.screenCopies_swarm (s : State) (ingress : Nat) (w : W256) (r : Route) :
    (s.screenCopies ingress w r).2.swarm = s.swarm := by
  have hfold (links : List (Nat × Nat)) : (links.foldl (fun (s : State) x => s.logDiscard 7 ingress x.1 w) s).swarm = s.swarm :=
    foldl_keeps State.swarm (fun _ _ => State.logDiscard_swarm _ _ _ _ _) links s
  unfold State.screenCopies
  split
  · dsimp only
    repeat' split
    all_goals simp only [State.logDiscard_swarm, hfold]
  · rfl

@[simp] theorem State.dropCopies_swarm (s : State) (ingress : Nat) (w : W256) (r : Route) :
    (s.dropCopies ingress w r).2.swarm = s.swarm := by
  unfold State.dropCopies
  extract_lets h keep
  have hkeep (u : State) (p : Nat) : (keep u p).2.swarm = u.swarm := by
    unfold keep
    dsimp only
    split <;> simp
  clear_value keep
  split
  · exact hkeep _ _
  · exact hkeep _ _
  · rfl
  · next loc links _ =>
    refine (foldl_keeps (fun x : List (Nat × Nat) × State => x.2.swarm) (fun x l => hkeep x.2 l.1) links _).trans ?_
    cases loc with
    | none => rfl
    | some p => exact hkeep s p
  · rfl

@[simp] theorem State.confirmCopies_swarm (s : State) (ingress : Nat) (w : W256) (r : Route) :
    (s.confirmCopies ingress w r).2.swarm = s.swarm := by
  simp [State.confirmCopies]

/-- Forwarding a frame leaves the core of the Swarm, where answering its discard does. -/
theorem State.forwardWith_core {answer : State → Hdr → Nat → State} (ha : ∀ u h r, (answer u h r).swarm.core = u.swarm.core)
    (s : State) (ingress : Nat) (r : Route) (f : Frame) (sessions : List Nat) (replay : Bool) (time : Nat) (stored : Option Nat) :
    (State.forwardWith answer s ingress r f sessions replay time stored).swarm.core = s.swarm.core := by
  unfold State.forwardWith
  extract_lets h cells keep free discard full store place
  have hfree (u : State) : (free u).swarm = u.swarm := by
    unfold free
    split <;> simp
  have hdiscard (u : State) (reason egress : Nat) : (discard u reason egress).swarm.core = u.swarm.core := by
    unfold discard
    dsimp only
    split <;> simp [ha, hfree]
  have hstore (u : State) (n : Nat) : (store u n).2.swarm = u.swarm := by
    unfold store
    dsimp only
    repeat' split
    all_goals simp
  have hplace (u : State) (outs : List (Nat × W256)) : (place u outs).swarm.core = u.swarm.core := by
    unfold place
    split
    · simp
    · split
      · exact hdiscard _ _ _
      · rw [State.mirrorAll_core]
        refine (foldl_core (fun v x => ?_) _ _).trans (congrArg Swarm.core (hstore u _))
        split <;> simp
  clear_value discard place
  split
  · exact hdiscard _ _ _
  · exact hplace _ _
  · exact hplace _ _
  · rw [hplace]
    repeat' split
    all_goals simp

@[simp] theorem State.dropBuilt_core (s : State) (ingress egress : Nat) (f : Frame) (stored : Option Nat) :
    (s.dropBuilt ingress egress f stored).swarm.core = s.swarm.core := by
  unfold State.dropBuilt
  dsimp only
  split <;> simp

@[simp] theorem State.forwardQuiet_core (s : State) (ingress : Nat) (f : Frame) :
    (s.forwardQuiet ingress f).swarm.core = s.swarm.core := by
  unfold State.forwardQuiet
  extract_lets go
  have hgo (u : State) (r : Route) : (go u r).swarm.core = u.swarm.core := State.forwardWith_core (fun _ _ _ => rfl) _ _ _ _ _ _ _ _
  clear_value go
  split
  · exact hgo _ _
  · dsimp only
    split <;> simp [hgo]

@[simp] theorem State.sendError_core (s : State) (h : Hdr) (reason fault : Nat) :
    (s.sendError h reason fault).swarm.core = s.swarm.core := by
  rw [State.sendError, State.forwardQuiet_core]

@[simp] theorem State.discardFrame_core (s : State) (reason ingress egress : Nat) (w : W256) :
    (s.discardFrame reason ingress egress w).swarm.core = s.swarm.core := by
  unfold State.discardFrame
  dsimp only
  split <;> simp

theorem State.answerDiscard_core (s : State) (h : Hdr) (reason : Nat) : (s.answerDiscard h reason).swarm.core = s.swarm.core := by
  rw [State.answerDiscard, State.sendError_core]

@[simp] theorem State.forwardBy_core (s : State) (ingress : Nat) (r : Route) (f : Frame) (sessions : List Nat) (replay : Bool)
    (time : Nat) (stored : Option Nat) : (s.forwardBy ingress r f sessions replay time stored).swarm.core = s.swarm.core := by
  rw [State.forwardBy_eq, State.forwardWith_core State.answerDiscard_core]

@[simp] theorem State.sendOn_core (s : State) (ingress : Nat) (r : Route) (f : Frame) (stored : Option Nat) :
    (s.sendOn ingress r f stored).swarm.core = s.swarm.core := by
  unfold State.sendOn
  dsimp only
  split
  · simp
  · split <;> simp

@[simp] theorem State.enter_core (s : State) (ingress : Nat) (f : Frame) (stored : Option Nat) :
    (s.enter ingress f stored).swarm.core = s.swarm.core := by
  unfold State.enter
  split <;> simp

@[simp] theorem State.storeShared_swarm (s : State) (ingress : Nat) (fs : List Frame) :
    (s.storeShared ingress fs).2.swarm = s.swarm := by
  refine foldl_keeps (fun x : List (List Byte × Nat) × State => x.2.swarm) (fun x f => ?_) fs ([], s)
  dsimp only
  split <;> simp

@[simp] theorem State.enterSet_core (s : State) (ingress : Nat) (fs : List Frame) :
    (s.enterSet ingress fs).swarm.core = s.swarm.core := by
  unfold State.enterSet
  exact (foldl_core (fun _ _ => State.enter_core _ _ _ _) _ _).trans (congrArg Swarm.core (State.storeShared_swarm _ _ _))

/-- Sending a frame, by whatever way it takes, leaves the core of the Swarm. -/
@[simp] theorem State.send_core (s : State) (ingress : Nat) (f : Frame) : (s.send ingress f).swarm.core = s.swarm.core := by
  unfold State.send State.sendSet
  split <;> simp

/-! ## Requests and records -/

@[simp] theorem State.newTag_swarm (s : State) (t : Tag) : (s.newTag t).2.swarm = s.swarm := rfl

@[simp] theorem State.sendPut_core (s : State) (o : Origin) (tag : Tag) (n a tensor : Nat) (bs : List Byte) :
    (s.sendPut o tag n a tensor bs).swarm.core = s.swarm.core := by
  unfold State.sendPut
  rw [State.send_core, State.newTag_swarm]

@[simp] theorem State.sendGet_core (s : State) (o : Origin) (tag : Tag) (n a ret len : Nat) :
    (s.sendGet o tag n a ret len).swarm.core = s.swarm.core := by
  unfold State.sendGet
  rw [State.send_core, State.newTag_swarm]

@[simp] theorem State.sendGets_core (s : State) (o : Origin) (tag : Tag) (n a ret len : Nat) :
    (s.sendGets o tag n a ret len).swarm.core = s.swarm.core := foldl_core (fun _ _ => State.sendGet_core _ _ _ _ _ _ _) _ _

@[simp] theorem State.recordFailed_swarm (s : State) (kind a cause : Nat) : (s.recordFailed kind a cause).swarm = s.swarm := by
  simp [State.recordFailed]

/-- Writing a completion record leaves the core of the Swarm. -/
@[simp] theorem State.writeRecord_core (s : State) (kind : Nat) (who : Requester) (o : Origin) (a : Nat) (bs : List Byte) :
    (s.writeRecord kind who o a bs).swarm.core = s.swarm.core := by
  have hw := State.memWrite_core s who [(localOf a, bs)]
  unfold State.writeRecord
  split
  · simp
  · split
    · split
      · next s' he => simpa [he] using hw
      · next s' e he => simpa [he] using hw
    · simp

end Sys2Proof.Machine
end

section
/-! SUPPORT. How the actions of a command follow one another, what reading and writing leave of the state, and the fabric, engine and
record commands of a thread from the checks they pass to their end (R102). -/

namespace Sys2Proof.Machine

open Sys2Proof Sys2Proof.Safety

/-! ## Actions in sequence -/

namespace Cmd

section
variable {α β : Type} {s t : State} {x : Issue}

/-- An action that completes hands its answer and its state to what follows. -/
theorem bind_ok {c : Cmd α} {f : α → Cmd β} {v : α} (h : c s = .ok (v, t)) : (c >>= f) s = f v t := by
  show (c s >>= fun r => f r.1 r.2) = _
  rw [h]
  rfl

theorem slot_bind (i : SlotId) (f : Slot → Cmd β) : (Cmd.slot i >>= f) s = f (s.slot i) s := rfl
theorem get_bind (f : State → Cmd β) : ((get : Cmd State) >>= f) s = f s s := rfl
theorem set_bind (u : State) (f : PUnit → Cmd β) : ((set u : Cmd PUnit) >>= f) s = f ⟨⟩ u := rfl
theorem update_bind (g : State → State) (f : Unit → Cmd β) : (Cmd.update g >>= f) s = f () (g s) := rfl
theorem mapSlot_bind (i : SlotId) (g : Slot → Slot) (f : Unit → Cmd β) :
    (Cmd.mapSlot i g >>= f) s = f () (s.setSlot i (g (s.slot i))) := rfl
theorem pure_bind (v : α) (f : α → Cmd β) : ((pure v : Cmd α) >>= f) s = f v s := rfl

theorem check_bind {r : Option Nat} (h : r = none) (f : Unit → Cmd β) : (Cmd.check r >>= f) s = f () s := by
  subst h
  rfl

theorem require_bind {ok : Bool} (h : ok = true) (reason : Nat) (f : Unit → Cmd β) : (Cmd.require ok reason >>= f) s = f () s := by
  subst h
  rfl

/-- Step 10 of R492 passes where no operand meets the held tile. -/
theorem commitOk_bind {ds : List Desc} (h : (s.slot x.id).touchesHeld ds = false) (f : Unit → Cmd β) :
    (Cmd.commitOk x ds >>= f) s = f () s :=
  bind_ok (by rw [Cmd.commitOk, slot_bind, h]; rfl)

theorem into_ok {d : Dest} {c : Cmd α} {v : α} (h : c s = .ok (v, t)) : Cmd.into x d c s = .ok (v, t) := by
  simp only [Cmd.into, h]

/-- A command that leaves its thread waiting does so whatever its destination. -/
theorem into_leave {d : Dest} {c : Cmd α} (h : c s = .error (.leave t)) : Cmd.into x d c s = .error (.leave t) := by
  simp only [Cmd.into, h]

theorem onData_ok {g : State → State} {c : Cmd α} {v : α} (h : c s = .ok (v, t)) : Cmd.onData g c s = .ok (v, t) := by
  simp only [Cmd.onData, h]

theorem of_gives [DecidableEq α] {c : Cmd α} {v : α} (h : gives c s v t = true) : c s = .ok (v, t) := by
  unfold gives at h
  split at h
  · next u s' hc =>
    simp only [Bool.and_eq_true, decide_eq_true_eq] at h
    rw [hc, h.1, h.2]
  · cases h

theorem of_writes {c : Cmd Unit} (h : writes c s t = true) : c s = .ok ((), t) := by
  unfold writes at h
  split at h
  · next u hc => rw [hc, of_decide_eq_true h]
  · cases h

theorem of_reads [DecidableEq α] {c : Cmd α} {v : α} (h : reads c s v = true) : c s = .ok (v, s) := by
  unfold reads at h
  split at h
  · next u t hc =>
    simp only [Bool.and_eq_true, decide_eq_true_eq] at h
    rw [hc, h.1, h.2]
  · cases h

end

/-! ## What an action keeps -/

/-- Wherever the action completes, it leaves what `g` reads. -/
def Keeps {α γ : Type} (g : State → γ) (c : Cmd α) : Prop := ∀ s v t, c s = .ok (v, t) → g t = g s

section
variable {α β γ : Type} {g : State → γ}

theorem keeps_pure (v : α) : Keeps g (pure v : Cmd α) := by
  intro s u t h
  cases h
  rfl

theorem Keeps.bind {c : Cmd α} {f : α → Cmd β} (hc : Keeps g c) (hf : ∀ v, Keeps g (f v)) : Keeps g (c >>= f) := by
  intro s u t h
  cases hcs : c s with
  | error e =>
    have : (c >>= f) s = .error e := by
      show (c s >>= fun r => f r.1 r.2) = _
      rw [hcs]
      rfl
    cases this.symm.trans h
  | ok r => exact (hf _ _ _ _ ((bind_ok hcs).symm.trans h)).trans (hc _ _ _ hcs)

theorem Keeps.ite {p : Prop} [Decidable p] {c d : Cmd α} (hc : Keeps g c) (hd : Keeps g d) : Keeps g (if p then c else d) := by
  split
  · exact hc
  · exact hd

theorem keeps_update {f : State → State} (h : ∀ s, g (f s) = g s) : Keeps g (Cmd.update f) := by
  intro s u t e
  cases e
  exact h s

end

end Cmd

/-! ## Reading -/

/-- The state without what a permitted read may change: the marks and the counts of the errors it corrects (R67, R114, R200, R201). -/
def State.sansMarks (s : State) : State :=
  { s with mem := { s.mem with soft := [], rowCorrections := [], candidates := [] }, dict := { s.dict with regs := [] }
           swarm := { s.swarm with padSoft := [] } }

theorem State.correctPadWord_sansMarks (s : State) (cell off : Nat) : (s.correctPadWord cell off).sansMarks = s.sansMarks := by
  unfold State.correctPadWord
  dsimp only
  split <;> rfl

theorem State.correctAt_sansMarks (s : State) (a : Nat) : (s.correctAt a).sansMarks = s.sansMarks := by
  unfold State.correctAt
  split
  · exact State.correctPadWord_sansMarks _ _ _
  · split
    · unfold State.countCorrection State.rowCorrected
      dsimp only
      repeat' split
      all_goals rfl
    · rfl

theorem State.correctRead_sansMarks (s : State) (segs : List Seg) : (s.correctRead segs).sansMarks = s.sansMarks := by
  unfold State.correctRead
  split
  · rfl
  · exact foldl_keeps State.sansMarks State.correctAt_sansMarks _ _

theorem State.correctPad_sansMarks (s : State) (cell : Nat) (segs : List Seg) : (s.correctPad cell segs).sansMarks = s.sansMarks := by
  unfold State.correctPad
  split
  · rfl
  · exact foldl_keeps State.sansMarks (fun _ _ => State.correctPadWord_sansMarks _ _ _) _ _

/-- A read of memory that succeeds has corrected what it met, and nothing else has happened. -/
theorem State.memRead_ok {s t : State} {who : Requester} {segs : List Seg} {bs : List Byte} (h : s.memRead who segs = (t, .ok bs)) :
    t = s.correctRead segs := by
  unfold State.memRead at h
  split at h
  · cases h
  · cases h
    rfl

theorem Cmd.readGlobal_keeps (x : Issue) (rs : List Range') (tc : Nat) : Cmd.Keeps State.sansMarks (Cmd.readGlobal x rs tc) := by
  intro s v t h
  unfold Cmd.readGlobal at h
  split at h
  · cases h
  · dsimp only at h
    split at h
    · cases h
    · split at h
      · cases h
      · split at h
        · cases h
        · next hm =>
          obtain rfl := State.memRead_ok hm
          split at h
          · cases h
            exact State.correctRead_sansMarks _ _
          · split at h <;> cases h

theorem Cmd.readPad_keeps (x : Issue) (rs : List Range') : Cmd.Keeps State.sansMarks (Cmd.readPad x rs) := by
  intro s v t h
  unfold Cmd.readPad at h
  split at h
  · cases h
    exact State.correctPad_sansMarks _ _ _
  · cases h

theorem Cmd.read_keeps (x : Issue) (global : Bool) (rs : List Range') (tc : Nat) :
    Cmd.Keeps State.sansMarks (Cmd.read x global rs tc) :=
  Cmd.Keeps.ite (Cmd.readGlobal_keeps _ _ _) (Cmd.readPad_keeps _ _)

theorem Cmd.readParts_keeps (x : Issue) (global : Bool) (rs : List Range') (tc : Nat) :
    Cmd.Keeps State.sansMarks (Cmd.readParts x global rs tc) :=
  (Cmd.read_keeps _ _ _ _).bind fun _ => Cmd.keeps_pure _

theorem Cmd.chunks_keeps (x : Issue) (d : Desc) (sc : List Byte) (tc : Nat) : Cmd.Keeps State.sansMarks (Cmd.chunks x d sc tc) := by
  unfold Cmd.chunks
  split
  · exact Cmd.keeps_pure _
  · exact (Cmd.readParts_keeps _ _ _ _).bind fun _ => Cmd.keeps_pure _
  · exact (Cmd.readParts_keeps _ _ _ _).bind fun _ => Cmd.keeps_pure _

theorem Cmd.tile_keeps (x : Issue) (d : Desc) (tc : Nat) : Cmd.Keeps State.sansMarks (Cmd.tile x d tc) := by
  unfold Cmd.tile
  extract_lets rest
  have hrest (sc : List Byte) : Cmd.Keeps State.sansMarks (rest sc) :=
    (Cmd.chunks_keeps _ _ _ _).bind fun _ => (Cmd.readParts_keeps _ _ _ _).bind fun _ => Cmd.keeps_pure _
  exact Cmd.Keeps.ite ((Cmd.read_keeps _ _ _ _).bind hrest) ((Cmd.keeps_pure _).bind hrest)

/-- Reading a tile as values changes no more than a read does, and the sticky flag of wide overflows (R50). -/
theorem Cmd.values_keeps (x : Issue) (d : Desc) : Cmd.Keeps State.sansMarks (Cmd.values x d) := by
  refine (Cmd.tile_keeps _ _ _).bind fun t => Cmd.Keeps.ite ?_ (Cmd.keeps_pure _)
  refine (Cmd.keeps_update fun s => ?_).bind fun _ => Cmd.keeps_pure _
  unfold State.setWide
  split <;> rfl

/-! ## Writing -/

theorem State.correctPad_core (s : State) (cell : Nat) (segs : List Seg) : (s.correctPad cell segs).swarm.core = s.swarm.core := by
  unfold State.correctPad
  split
  · rfl
  · exact foldl_core (fun _ _ => State.correctPadWord_core _ _ _) _ _

theorem State.setPadBytes_core (s : State) (cell off : Nat) (bs : List Byte) :
    (s.setPadBytes cell off bs).swarm.core = s.swarm.core := by
  induction bs generalizing s off with
  | nil => rfl
  | cons b bs ih => exact (ih _ _).trans rfl

theorem State.padWrite_core {s t : State} {cell : Nat} {segs : List WSeg} (h : s.padWrite cell segs = some t) :
    t.swarm.core = s.swarm.core := by
  unfold State.padWrite at h
  dsimp only at h
  split at h
  · cases h
  · injection h with h
    subst h
    rw [foldl_core fun _ _ => State.setPadBytes_core _ _ _ _]
    refine (foldl_core (fun u w => ?_) _ _).trans (State.correctPad_core s cell _)
    rfl

/-- A write that is performed leaves the core of the Swarm: its bytes, and the PUTs of those that lie elsewhere, change no thread. -/
theorem Cmd.write_keeps (x : Issue) (global : Bool) (ws : List WRange) (tc tensor : Nat) :
    Cmd.Keeps (fun s => s.swarm.core) (Cmd.write x global ws tc tensor) := by
  refine Cmd.Keeps.ite ?_ ?_ <;> intro s v t h
  · unfold Cmd.writeGlobal at h
    dsimp only at h
    split at h
    · cases h
    · split at h
      · cases h
      · next s' hm =>
        cases h
        refine (foldl_core (fun _ _ => foldl_core (fun _ _ => State.sendPut_core _ _ _ _ _ _ _) _ _) _ _).trans ?_
        exact (congrArg (fun r : State × Option MemErr => r.1.swarm.core) hm).symm.trans (State.memWrite_core _ _ _)
  · unfold Cmd.writePad at h
    split at h
    · next hm =>
      cases h
      exact State.padWrite_core hm
    · cases h

end Sys2Proof.Machine
end

section
/-! SUPPORT. The fabric, engine and record commands of a thread, from the checks they pass to their end (R102): each body, where its
checks hold, completes with what it was to do. -/

namespace Sys2Proof.Machine

open Sys2Proof Sys2Proof.Safety

section
variable {x : Issue} {s : State} {a d bt : Desc}

/-- PUT reads the local tile and writes its bytes over the destination's ranges (R20). -/
theorem putBody_done {bs : List Byte} {r1 s2 : State} (ha : (s.slot x.id).tile (cmdA x.word) = a)
    (hd : (s.slot x.id).tile (cmdD x.word) = d) (hra : a.reason [0, 1, 2, 3] true = none) (hrd : d.reason [0, 1, 2, 3] true = none)
    (hag : a.agrees d = true) (hl : s.localTile a = true) (hg : d.global = true) (hh : (s.slot x.id).touchesHeld [a, d] = false)
    (hb : Cmd.holdLines x d.dest s = .ok ((), s)) (hr : Cmd.read x a.global a.ranges 5 s = .ok (bs, r1))
    (hw : Cmd.write x d.global (cutBytes d.ranges bs) (fabricTc x.word) d.tensor r1 = .ok ((), s2)) :
    putBody x s = .ok (.next, s2) := by
  unfold putBody
  rw [Cmd.slot_bind]
  simp only [ha, hd]
  rw [Cmd.check_bind (by rw [hra, hrd]; rfl), Cmd.get_bind, Cmd.require_bind (by rw [hl, hg, hag]; rfl), Cmd.commitOk_bind hh,
    Cmd.bind_ok hb, Cmd.bind_ok (Cmd.into_ok ((Cmd.bind_ok (Cmd.onData_ok hr)).trans hw))]
  rfl

/-- The parts of a GET whose sources lie on this module, and those whose sources lie elsewhere. -/
def State.nearParts (s : State) (a d : Desc) : List (Nat × Nat × Nat) :=
  (copyParts a.ranges d.ranges).filter fun p => decide (nodeOf p.1 = s.node)
def State.farParts (s : State) (a d : Desc) : List (Nat × Nat × Nat) :=
  (copyParts a.ranges d.ranges).filter fun p => decide (nodeOf p.1 ≠ s.node)

/-- The requests of a GET for parts that lie elsewhere are sent. -/
def State.requestParts (s : State) (i : SlotId) (tc : Nat) (d : Desc) (far : List (Nat × Nat × Nat)) : State :=
  far.foldl (fun (s' : State) p =>
    s'.sendGets (Origin.hive i.hive)
      { s'.threadTag i (.threadGetTo i (!d.global)) tc with here := some (if d.global then localOf p.2.1 else p.2.1) }
      (nodeOf p.1) (localOf p.1) (if d.global then localOf p.2.1 else padWindow i) p.2.2) s

theorem State.requestParts_core (s : State) (i : SlotId) (tc : Nat) (d : Desc) (far : List (Nat × Nat × Nat)) :
    (s.requestParts i tc d far).swarm.core = s.swarm.core := foldl_core (fun _ _ => State.sendGets_core _ _ _ _ _ _ _) _ _

/-- The thread of a GET whose requests have been sent waits for their answers. -/
def State.awaitParts (s : State) (i : SlotId) : State :=
  let t := s.slot i
  (s.setSlot i { t with fetched := SMap.put none t.fetched sentKey (some 1) }).setSlot i
    { t with fetched := SMap.put none t.fetched sentKey (some 1), status := .remote }

/-- A GET whose checks hold copies the parts that lie here, and requests and awaits the others. -/
theorem getParts_eq {tc : Nat} {bs : List Byte} {r1 s2 : State} (hv : s.firstInvalid a.ranges = none)
    (hf : d.global = true → (s.firstWriteFault [] ((s.farParts a d).map fun p => (localOf p.2.1, p.2.2))).filter
      (fun e => decide (e.cause ≠ .data)) = none)
    (hr : Cmd.readGlobal x ((s.nearParts a d).map fun p => ((p.1 : Int), p.2.2)) 5 s = .ok (bs, r1))
    (hw : Cmd.write x d.global (((s.nearParts a d).zip (splitParts ((s.nearParts a d).map fun p => p.2.2) bs)).map
      fun p => ((p.1.2.1 : Int), p.2)) tc d.tensor r1 = .ok ((), s2)) :
    getParts x a d tc s = if (s.farParts a d).isEmpty then .ok (.next, s2)
      else .error (.leave ((s2.requestParts x.id tc d (s.farParts a d)).awaitParts x.id)) := by
  have hwrong : (if d.global = true then s.firstWriteFault [] ((s.farParts a d).map fun p => (localOf p.2.1, p.2.2)) else none).filter
      (fun e => decide (e.cause ≠ .data)) = none := by
    split
    · next hg => exact hf hg
    · rfl
  simp only [State.nearParts, State.farParts] at hr hw hwrong
  unfold getParts
  rw [Cmd.get_bind]
  simp only [hv, hwrong]
  rw [Cmd.bind_ok hr, Cmd.bind_ok hw]
  by_cases he : (s.farParts a d).isEmpty = true
  · rw [if_pos he]
    rw [State.farParts] at he
    rw [if_pos he]
    rfl
  · rw [if_neg he]
    rw [State.farParts] at he
    rw [if_neg he, Cmd.update_bind, Cmd.mapSlot_bind]
    simp only [Cmd.await, State.slot_setSlot]
    rfl

section
variable (ha : (s.slot x.id).tile (cmdA x.word) = a) (hd : (s.slot x.id).tile (cmdD x.word) = d)
  (hn : (SMap.get none (s.slot x.id).fetched sentKey).isSome = false) (hra : a.reason [0, 1, 2, 3] true = none)
  (hrd : d.reason [0, 1, 2, 3] true = none) (hag : a.agrees d = true) (hl : s.localTile d = true) (hg : a.global = true)
  (hh : (s.slot x.id).touchesHeld [a, d] = false) (hb : s.lineBusy x.id (s.remoteSegs a.ranges) = false)
include ha hd hn hra hrd hag hl hg hh hb

/-- A GET that passes its checks does what its parts come to. -/
theorem getBody_eq : getBody x s = Cmd.into x d.dest (getParts x a d (fabricTc x.word)) s := by
  unfold getBody
  rw [Cmd.slot_bind]
  simp only [ha, hd]
  rw [Cmd.get_bind, hn, if_neg Bool.false_ne_true, Cmd.check_bind (by rw [hra, hrd]; rfl), Cmd.require_bind (by rw [hg, hl, hag]; rfl),
    Cmd.commitOk_bind hh, hb, if_neg Bool.false_ne_true]

end

/-- A GET whose requests have all been answered retires. -/
theorem getBody_answered (hn : (SMap.get none (s.slot x.id).fetched sentKey).isSome = true) : getBody x s = .ok (.next, s) := by
  unfold getBody
  rw [Cmd.slot_bind, Cmd.get_bind, if_pos hn]
  rfl

/-- SEND hands the switch one frame with the template's header, completed, and the payload (R244). -/
theorem sendBody_done {hd bs : List Byte} {r1 r2 : State} {p : Nat} (ha : (s.slot x.id).tile (cmdA x.word) = a)
    (hp : (s.slot x.id).pair (cmdB x.word).num = p) (hra : a.reason [0] false = none) (h64 : 64 ≤ a.rows * a.rowBytes)
    (h4096 : a.rows * a.rowBytes ≤ 4096) (hm : a.rows * a.rowBytes % 64 = 0) (hh : (s.slot x.id).touchesHeld [a] = false)
    (hp32 : p % 32 = 0) (hr : Cmd.readGlobal x [((p : Int), 32)] 5 s = .ok (hd, r1))
    (ht : r1.templateReason (BitVec.ofNat 256 (leNat hd)) = none)
    (hr2 : Cmd.read x a.global ((List.range a.rows).map fun r => (a.rowAt 0 r, a.rowBytes)) 5 r1 = .ok (bs, r2)) :
    let h : Hdr := { Hdr.of (BitVec.ofNat 256 (leNat hd)) with
      srcNode := r1.node, srcEp := 0x1000 + x.id.hive, hop := 0, sub := 0, units := a.rows * a.rowBytes / 64 }
    sendBody x s = .ok (.next, r2.send (0x40 + x.id.hive) ⟨h.encode, bs⟩) := by
  intro h
  unfold sendBody
  rw [Cmd.slot_bind]
  simp only [ha, hp]
  rw [Cmd.check_bind hra, Cmd.require_bind (by simp [h64, h4096, hm]), Cmd.commitOk_bind hh, if_neg (by simp [hp32]), Cmd.bind_ok hr,
    Cmd.get_bind]
  simp only [ht]
  rw [Cmd.bind_ok (Cmd.onData_ok hr2), Cmd.update_bind]
  rfl

/-- SATTACH and CPOST read a record of 64 B, act on it, and write 1 to a named predicate where it was accepted (R274, R313). -/
theorem sattachBody_done {v : W512} {r1 : State} (hv : Cmd.record512 x ((s.slot x.id).pair (cmdA x.word).num) s = .ok (v, r1)) :
    sattachBody x s = .ok (.next, (r1.attachStream v).2.setSlot x.id
      (((r1.attachStream v).2.slot x.id).put (cmdD x.word) (b2n (r1.attachStream v).1))) := by
  unfold sattachBody
  rw [Cmd.slot_bind, Cmd.bind_ok hv, Cmd.get_bind, Cmd.set_bind, Cmd.mapSlot_bind]
  rfl

theorem cpostBody_done {v : W512} {r1 : State} (hv : Cmd.record512 x ((s.slot x.id).pair (cmdA x.word).num) s = .ok (v, r1)) :
    cpostBody x s = .ok (.next, (r1.postCollective v none).2.setSlot x.id
      (((r1.postCollective v none).2.slot x.id).put (cmdD x.word) (b2n (r1.postCollective v none).1))) := by
  unfold cpostBody
  rw [Cmd.slot_bind, Cmd.bind_ok hv, Cmd.get_bind, Cmd.set_bind, Cmd.mapSlot_bind]
  rfl

/-- The code that SCALE answers, and the state it leaves, for a tensor ID and the amax of a named tile (R184, R185). -/
def State.scaleOf (s : State) (tensor : Nat) (amax : Option W32) (l : Latch) : Nat × State :=
  match s.recordOf tensor with
  | none => (0xFF, s)
  | some r =>
    let u := s.rollRecord r.1
    match amax with
    | some a =>
      let p := u.codeOrPrepass tensor a l.headroom
      (p.1, p.2.contribute tensor l.epoch { amax := some a })
    | none => (if (u.record r.1).primed then (u.record r.1).scale else 0xFF, u)

/-- SCALE without a tile. -/
theorem scaleBody_bare (hb : cmdB x.word = .none) :
    let r := s.scaleOf ((s.slot x.id).value (cmdA x.word) % 65536) none (s.slot x.id).latch
    scaleBody x s = .ok (.next, r.2.setSlot x.id ((r.2.slot x.id).put (cmdD x.word) r.1)) := by
  intro r
  unfold scaleBody
  rw [Cmd.slot_bind, hb]
  rfl

/-- SCALE with a tile: its amax goes to the record. -/
theorem scaleBody_tile {n : Nat} {rows : List (List FVal)} {r1 : State} (hb : cmdB x.word = .d n)
    (ht : (s.slot x.id).tile (cmdB x.word) = bt) (hr : bt.reason [0] false = none) (hh : (s.slot x.id).touchesHeld [bt] = false)
    (hv : Cmd.values x bt s = .ok (rows, r1)) :
    let r := r1.scaleOf ((s.slot x.id).value (cmdA x.word) % 65536) (some (amaxOf rows.flatten)) (s.slot x.id).latch
    scaleBody x s = .ok (.next, r.2.setSlot x.id ((r.2.slot x.id).put (cmdD x.word) r.1)) := by
  intro r
  have hn : (!(cmdB x.word).isNone) = true := by rw [hb]; rfl
  unfold scaleBody
  rw [Cmd.slot_bind]
  simp only [ht, hn, if_true]
  rw [Cmd.check_bind hr, Cmd.commitOk_bind hh, Cmd.bind_ok hv]
  rfl

theorem State.scaleOf_unbound {tensor : Nat} (h : s.recordOf tensor = none) (m : Option W32) (l : Latch) :
    s.scaleOf tensor m l = (0xFF, s) := by
  simp only [State.scaleOf, h]

theorem State.scaleOf_bare {tensor : Nat} {r : Nat × TensorRecord} (h : s.recordOf tensor = some r) (l : Latch) :
    s.scaleOf tensor none l = (if ((s.rollRecord r.1).record r.1).primed then ((s.rollRecord r.1).record r.1).scale else 0xFF,
      s.rollRecord r.1) := by
  simp only [State.scaleOf, h]

theorem State.scaleOf_amax {tensor : Nat} {r : Nat × TensorRecord} (h : s.recordOf tensor = some r) (m : W32) (l : Latch) :
    let p := (s.rollRecord r.1).codeOrPrepass tensor m l.headroom
    s.scaleOf tensor (some m) l = (p.1, p.2.contribute tensor l.epoch { amax := some m }) := by
  simp only [State.scaleOf, h]

/-- A roll of a record changes no thread. -/
@[simp] theorem State.rollRecord_swarm (s : State) (n : Nat) : (s.rollRecord n).swarm = s.swarm := by
  unfold State.rollRecord State.rollTo State.underflow
  dsimp only
  split <;> split <;> simp [State.setRecord]

/-- The frame of one part of a token that DISPATCH hands the switch (R293). -/
def State.sendToken (s : State) (i : SlotId) (n : Nat) (c : DispatchContext) (src : Nat) (route body : List Byte) (r : Nat) : State :=
  let h : Hdr :=
    { destNode := src, destEp := 0x3000 + c.engine, srcNode := src, srcEp := 0x1000 + i.hive, kind := 0x20, tc := 3
      units := c.frameBytes / 64, tensor := n, seq := numAt route 0 4 }
  s.send (0x40 + i.hive) ⟨h.encode, routingBlock route (r % c.partCount) ++ slice body 0 c.partBytes⟩

/-- DISPATCH reads the routes, the rows and their scales, and hands the switch one frame per row (R293). -/
theorem dispatchBody_done {c : DispatchContext} {routes rows scales : List (List Byte)} {q0 q1 q2 : State}
    (ha : (s.slot x.id).tile (cmdA x.word) = a) (hb : (s.slot x.id).tile (cmdB x.word) = bt)
    (hc : s.ctx (fieldOf 11 0 (cmdMods x.word)) = c) (hv : bitOf c.record.toNat 511 = true) (hra : a.reason [0] false = none)
    (hrb : bt.reason [0] false = none) (hf : bt.fmt = 0xA) (h17 : bt.cols = 17) (hn : a.rows = bt.rows * c.partCount)
    (hl : a.rowBytes + a.scaleBytes ≤ c.partBytes) (hh : (s.slot x.id).touchesHeld [a, bt] = false)
    (h0 : Cmd.readParts x bt.global ((List.range bt.rows).map fun r => (bt.rowAt 0 r, bt.rowBytes)) 5 s = .ok (routes, q0))
    (h1 : Cmd.readParts x a.global ((List.range a.rows).map fun r => (a.rowAt 0 r, a.rowBytes)) 5 q0 = .ok (rows, q1))
    (h2 : a.scaled = true →
      Cmd.readParts x a.global ((List.range a.rows).map fun r => (a.scaleAt 0 r, a.blocks)) 5 q1 = .ok (scales, q2))
    (h3 : a.scaled = false → scales = [] ∧ q2 = q1) :
    dispatchBody x s = .ok (.next, (List.range a.rows).foldl (fun (u : State) r =>
      u.sendToken x.id (fieldOf 11 0 (cmdMods x.word)) c s.node (routes.getD (r / c.partCount) []) (rows.getD r [] ++ scales.getD r []) r)
      q2) := by
  unfold dispatchBody
  rw [Cmd.slot_bind]
  simp only [ha, hb]
  rw [Cmd.get_bind]
  simp only [hc]
  rw [Cmd.require_bind hv, Cmd.check_bind (by rw [hra, hrb]; rfl), Cmd.require_bind (by simp [hf, h17, hn, hl]), Cmd.commitOk_bind hh,
    Cmd.bind_ok (Cmd.onData_ok h0), Cmd.bind_ok (Cmd.onData_ok h1)]
  by_cases hs : a.scaled = true
  · rw [if_pos hs, Cmd.bind_ok (Cmd.onData_ok (h2 hs)), Cmd.update_bind]
    rfl
  · obtain ⟨rfl, rfl⟩ := h3 (Bool.not_eq_true _ ▸ hs)
    rw [if_neg hs, Cmd.pure_bind, Cmd.update_bind]
    rfl

end

/-! ## The state in which a command's own work begins -/

section
variable (s : State) (i : SlotId) (w : Nat) (b : Bool)

@[simp] theorem begun_tile (o : Opnd) : ((begun s i w b).slot i).tile o = (s.slot i).tile o := by rw [State.begun_slot]; rfl
@[simp] theorem begun_pair (n : Nat) : ((begun s i w b).slot i).pair n = (s.slot i).pair n := by rw [State.begun_slot]; rfl
@[simp] theorem begun_value (o : Opnd) : ((begun s i w b).slot i).value o = (s.slot i).value o := by
  rw [State.begun_slot, Slot.value_cur]
@[simp] theorem begun_touchesHeld (ds : List Desc) : ((begun s i w b).slot i).touchesHeld ds = (s.slot i).touchesHeld ds := by
  rw [State.begun_slot]; rfl
@[simp] theorem begun_fetched : ((begun s i w b).slot i).fetched = (s.slot i).fetched := by rw [State.begun_slot]
@[simp] theorem begun_node : (begun s i w b).node = s.node := by rw [begun_fields]; rfl
@[simp] theorem begun_ctx (n : Nat) : (begun s i w b).ctx n = s.ctx n := by rw [begun_fields]; rfl
@[simp] theorem begun_recordOf (n : Nat) : (begun s i w b).recordOf n = s.recordOf n := by rw [begun_fields]; rfl

/-- A register written and the command retired: what the slot held in progress is gone. -/
theorem begun_put_retire (o : Opnd) (v p : Nat) (a : After) :
    (((begun s i w b).slot i).put o v).retire p a = ((s.slot i).put o v).retire p a := by
  rw [State.begun_slot, Slot.put_cur, Slot.retire_cur]

end

/-! ## A command that goes on -/

theorem canIssue_thread_lt {s : State} {i : SlotId} (h : s.canIssue i = true) : i.thread < 4 := by
  simp only [State.canIssue, Bool.and_eq_true, decide_eq_true_eq] at h
  exact h.1.1.2

theorem canIssue_yieldTo {s : State} {i : SlotId} (h : s.canIssue i = true) : (s.slot i).yieldTo = [] := by
  simp only [State.canIssue, Bool.and_eq_true, decide_eq_true_eq, List.isEmpty_iff] at h
  exact h.1.2

theorem canIssue_issued_self {s : State} {i : SlotId} (h : s.canIssue i = true) : (s.issued i).slot i = s.slot i := by
  rw [State.issued_slot _ _ _ (canIssue_thread_lt h), seenIssue, if_pos rfl, canIssue_yieldTo h, List.filter_nil, ← canIssue_yieldTo h]

theorem onlySlot_issued (s : State) (i : SlotId) : OnlySlot i s (s.issued i) :=
  ⟨State.issued_fields s i, fun j hj _ => State.issued_slot s i j hj⟩

/-- A command in progress goes on where it was: its word, its latch and the checks of its issue stand (R93, R117). -/
theorem runCommand_resumes {s : State} {i : SlotId} {w : Nat} {b : Bool} (hi : s.canIssue i = true)
    (hc : (s.slot i).cur = some (w, b)) (hf : (formOf (cmdOp w) (cmdMods w)).isSome = true) (hg : cmdGuard w ≠ 8)
    (hp : guardPasses (s.slot i) w = true) {row : Nat → Bool} (hr : row w = true) (body : Issue → Cmd After) :
    runCommand s i row body = ((s.issued i).setSlot i (s.slot i)).runBody (issueOf s i w b) (body (issueOf s i w b)) := by
  have hfetch : s.fetch i = .word w b := by simp only [State.fetch, hc]
  have hsame : ({ s.slot i with cur := some (w, b), latch := (s.slot i).latch } : Slot) = s.slot i := by rw [← hc]
  have hform : (formOf (cmdOp w) (cmdMods w)).isNone = false := by rw [← Option.not_isSome, hf]; rfl
  unfold runCommand
  simp only [hi, hfetch, hform, hr, canIssue_issued_self hi, if_neg hg, hp, State.firstShape, hc, Option.isSome_some, Bool.not_true,
    Bool.false_eq_true, if_false, if_true]
  rw [hsame]
  rfl

end Sys2Proof.Machine
end

section
/-! PROOF. O33: the fabric, engine and record commands of a thread. -/

namespace Sys2Proof.Proofs

open Sys2Proof Sys2Proof.Machine Sys2Proof.Safety

section
variable (s : State) (i : SlotId)

theorem exec_put : exec (.put i) s = .next (runCommand s i (fun w => cmdOp w == 0x50) putBody) := rfl
theorem exec_get : exec (.get i) s = .next (runCommand s i (fun w => cmdOp w == 0x51) getBody) := rfl
theorem exec_send : exec (.send i) s = .next (runCommand s i (fun w => cmdOp w == 0x52) sendBody) := rfl
theorem exec_dispatch : exec (.dispatch i) s = .next (runCommand s i (fun w => cmdOp w == 0x54) dispatchBody) := rfl
theorem exec_sattach : exec (.sattach i) s = .next (runCommand s i (fun w => cmdOp w == 0x55) sattachBody) := rfl
theorem exec_cpost : exec (.cpost i) s = .next (runCommand s i (fun w => cmdOp w == 0x53) cpostBody) := rfl
theorem exec_scale : exec (.scale i) s = .next (runCommand s i (fun w => cmdOp w == 0x62) scaleBody) := rfl

end

/-- A read keeps the node's number, the slots and the records. -/
theorem node_of_sansMarks {s t : State} (h : t.sansMarks = s.sansMarks) : t.node = s.node :=
  (congrArg State.node h : t.sansMarks.node = s.sansMarks.node)

theorem slot_of_sansMarks {s t : State} (h : t.sansMarks = s.sansMarks) (i : SlotId) : t.slot i = s.slot i :=
  (congrArg (fun u : State => u.slot i) h : t.sansMarks.slot i = s.sansMarks.slot i)

theorem recordOf_of_sansMarks {s t : State} (h : t.sansMarks = s.sansMarks) (n : Nat) : t.recordOf n = s.recordOf n :=
  (congrArg (fun u : State => u.recordOf n) h : t.sansMarks.recordOf n = s.sansMarks.recordOf n)

section
variable {s : State} {i : SlotId} {w : Nat} {b : Bool}

/-- A read and a write of a command at issue leave its slot as it was. -/
theorem slot_read_write {α : Type} {c : Cmd α} {v : α} {x : Issue} {g : Bool} {ws : List WRange} {tc tensor : Nat} {s1 r1 s2 : State}
    (hc : Cmd.Keeps State.sansMarks c) (hr : c s1 = .ok (v, r1)) (hw : Cmd.write x g ws tc tensor r1 = .ok ((), s2)) (j : SlotId) :
    s2.slot j = s1.slot j :=
  (State.slot_of_core (Cmd.write_keeps _ _ _ _ _ _ _ _ hw) j).trans (slot_of_sansMarks (hc _ _ _ hr) j)

/-- A thread that awaits its requests is the same command still, remote-waiting, and the switch is as the requests left it. -/
theorem awaitParts_slot (s : State) (i : SlotId) :
    ((s.awaitParts i).slot i).status = .remote ∧ ((s.awaitParts i).slot i).cur = (s.slot i).cur
      ∧ ((s.awaitParts i).slot i).ptr = (s.slot i).ptr ∧ (SMap.get none ((s.awaitParts i).slot i).fetched sentKey).isSome = true := by
  rw [State.awaitParts, State.slot_setSlot]
  exact ⟨rfl, rfl, rfl, by rw [SMap.get_put_same]; rfl⟩

theorem awaitParts_net (s : State) (i : SlotId) : (s.awaitParts i).net = s.net := rfl

/-- A GET at issue whose parts all lie here retires; otherwise its thread waits for the answers to its requests. -/
theorem get_done {a d : Desc} {bs : List Byte} {r1 s2 : State} (h : Issues s i w b) (ho : cmdOp w = 0x51)
    (hp : getBody (issueOf s i w b) (begun s i w b) = Cmd.into (issueOf s i w b) d.dest
      (getParts (issueOf s i w b) a d (fabricTc w)) (begun s i w b))
    (hv : (begun s i w b).firstInvalid a.ranges = none)
    (hf : d.global = true → ((begun s i w b).firstWriteFault [] (((begun s i w b).farParts a d).map
      fun p => (localOf p.2.1, p.2.2))).filter (fun e => decide (e.cause ≠ .data)) = none)
    (hr : Cmd.readGlobal (issueOf s i w b) (((begun s i w b).nearParts a d).map fun p => ((p.1 : Int), p.2.2)) 5 (begun s i w b)
      = .ok (bs, r1))
    (hw : Cmd.write (issueOf s i w b) d.global ((((begun s i w b).nearParts a d).zip
      (splitParts (((begun s i w b).nearParts a d).map fun p => p.2.2) bs)).map fun p => ((p.1.2.1 : Int), p.2)) (fabricTc w) d.tensor r1
      = .ok ((), s2)) :
    ((begun s i w b).farParts a d = [] → ((s2.slot i).retire (s.slot i).ptr .next).ptr < 2048 →
        exec (.get i) s = .next (done s2 i (s.slot i).ptr))
      ∧ ((begun s i w b).farParts a d ≠ [] → exec (.get i) s = .next ((s2.requestParts i (fabricTc w) d
          ((begun s i w b).farParts a d)).awaitParts i) ∧ (s2.requestParts i (fabricTc w) d
          ((begun s i w b).farParts a d)).slot i = (begun s i w b).slot i) := by
  have hparts := getParts_eq (x := issueOf s i w b) hv hf hr hw
  have hrow : (cmdOp w == 0x51) = true := by rw [ho]; rfl
  refine ⟨fun hnone hgo => ?_, fun hsome => ⟨?_, ?_⟩⟩
  · rw [hnone] at hparts
    rw [exec_get, runCommand_done h hrow (hp.trans (Cmd.into_ok hparts)) hgo]
  · have hne : ((begun s i w b).farParts a d).isEmpty = false := by simpa using hsome
    rw [hne, if_neg Bool.false_ne_true] at hparts
    rw [exec_get, runCommand_issues h hrow, State.runBody, hp, Cmd.into_leave hparts]
    rfl
  · rw [State.slot_of_core (State.requestParts_core _ _ _ _ _)]
    exact slot_read_write (Cmd.readGlobal_keeps _ _ _) hr hw i

theorem fields_of_setSlot_twice {s t : State} {x y : Slot} (h : t = (s.setSlot i x).setSlot i y) :
    t = { s with swarm := { s.swarm with slots := t.swarm.slots } } := by
  subst h
  rfl

/-- SCALE with no tile answers the code, and only its slot and its record differ. -/
theorem scale_bare {v : Nat} {t : State} (h : Issues s i w b) (ho : cmdOp w = 0x62) (hp : nextPtr (s.slot i) < 2048)
    (hb : cmdB w = .none)
    (hs : (begun s i w b).scaleOf ((s.slot i).value (cmdA w) % 65536) none ((begun s i w b).slot i).latch = (v, t))
    (ht : t.swarm = (begun s i w b).swarm) :
    ∃ u, exec (.scale i) s = .next u ∧ u.slot i = ((s.slot i).put (cmdD w) v).retire (s.slot i).ptr .next
      ∧ ∃ x y, u = (t.setSlot i x).setSlot i y := by
  have hslot : t.slot i = (begun s i w b).slot i := by rw [State.slot, ht, State.slot]
  have hbody : scaleBody (issueOf s i w b) (begun s i w b)
      = .ok (.next, t.setSlot i (((begun s i w b).slot i).put (cmdD w) v)) := by
    refine (scaleBody_bare hb).trans ?_
    show Except.ok (After.next, ((begun s i w b).scaleOf (((begun s i w b).slot i).value (cmdA w) % 65536) none _).2.setSlot i
      ((((begun s i w b).scaleOf (((begun s i w b).slot i).value (cmdA w) % 65536) none _).2.slot i).put (cmdD w)
        ((begun s i w b).scaleOf (((begun s i w b).slot i).value (cmdA w) % 65536) none _).1)) = _
    rw [begun_value, show (issueOf s i w b).id = i from rfl, hs, hslot]
  have hretire : ∀ p a, (((begun s i w b).slot i).put (cmdD w) v).retire p a = ((s.slot i).put (cmdD w) v).retire p a :=
    begun_put_retire s i w b _ _
  refine ⟨_, (exec_scale s i).trans (congrArg Host.Outcome.next (runCommand_done h (by simp [ho]) hbody ?_)), ?_, _, _, rfl⟩
  · rw [State.slot_setSlot, hretire, Slot.put_ptr]
    exact hp
  · rw [done, State.slot_setSlot, State.slot_setSlot, hretire]

/-- A GET whose requests have all been answered retires, and nothing else happens. -/
theorem get_answered (hi : s.canIssue i = true) (hc : (s.slot i).cur = some (w, b)) (ho : cmdOp w = 0x51) (hg : cmdGuard w ≠ 8)
    (hp : guardPasses (s.slot i) w = true) (hf : (formOf 0x51 (cmdMods w)).isSome = true)
    (hn : (SMap.get none (s.slot i).fetched sentKey).isSome = true) (hlt : nextPtr (s.slot i) < 2048) :
    ∃ t, exec (.get i) s = .next t ∧ OnlySlot i s t ∧ t.slot i = (s.slot i).retire (s.slot i).ptr .next := by
  have ht := canIssue_thread_lt hi
  have hself : (((s.issued i).setSlot i (s.slot i)).slot i) = s.slot i := State.slot_setSlot _ _ _
  have hlt' : ((((s.issued i).setSlot i (s.slot i)).slot i).retire (s.slot i).ptr .next).ptr < 2048 := by rw [hself]; exact hlt
  have hrun : runCommand s i (fun w => cmdOp w == 0x51) getBody = ((s.issued i).setSlot i (s.slot i)).setSlot i
      ((s.slot i).retire (s.slot i).ptr .next) := by
    rw [runCommand_resumes hi hc (by rw [ho]; exact hf) hg hp (by simp [ho]) getBody, State.runBody,
      getBody_answered (by rw [show (issueOf s i w b).id = i from rfl, hself]; exact hn)]
    refine (State.retire_lt hlt').trans ?_
    rw [show (issueOf s i w b).id = i from rfl, hself]
    rfl
  exact ⟨_, (exec_get s i).trans (congrArg Host.Outcome.next hrun), onlySlot_setSlot ht (onlySlot_setSlot ht (onlySlot_issued s i) _) _,
    State.slot_setSlot _ _ _⟩

end

/-- Settles O33: each command passes its checks by the clause's premises, its body completes as the body's lemma says, and
`runCommand_done` retires it; a GET with parts elsewhere leaves its thread waiting, and retires once it goes on. -/
theorem fabricCommands : Obligations.FabricCommands := by
  unfold Obligations.FabricCommands
  refine ⟨fun s i w b h => ?_, fun s i w b hi hc ho hg hp hf hn hlt => ?_⟩
  · intro u x s1 a d goes
    refine ⟨?put, ?get, ?send, ?dispatch, ?records, ?bare, ?tile⟩
    case put =>
      intro bs r1 s2 ho hra hrd hag hl hg hh hb hr hw hgo
      rw [exec_put, runCommand_done h (by rw [ho]; rfl) (putBody_done (begun_tile s i w b _) (begun_tile s i w b _) hra hrd hag hl hg
        ((begun_touchesHeld s i w b _).trans hh) (Cmd.of_reads hb) (Cmd.of_gives hr) (Cmd.of_writes hw)) hgo]
    case get =>
      intro bs r1 s2 ho hra hrd hag hl hg hh hn hb hv ps far hf hr hw
      have hnone : (SMap.get none ((begun s i w b).slot i).fetched sentKey).isSome = false := by rw [begun_fetched, hn]; rfl
      have hfar : (begun s i w b).farParts a d = far := by rw [State.farParts, begun_node]
      have hnear : (begun s i w b).nearParts a d = ps := by rw [State.nearParts, begun_node]
      obtain ⟨hdone, hwait⟩ := get_done h ho (a := a) (d := d)
        (getBody_eq (begun_tile s i w b _) (begun_tile s i w b _) hnone hra hrd hag hl hg ((begun_touchesHeld s i w b _).trans hh) hb) hv
        (by rw [hfar]; exact hf) (by rw [hnear]; exact Cmd.of_gives hr) (by rw [hnear]; exact Cmd.of_writes hw)
      rw [hfar] at hdone hwait
      refine ⟨hdone, fun hne => ?_⟩
      obtain ⟨he, hslot⟩ := hwait hne
      refine ⟨_, he, ?_⟩
      rw [State.begun_slot] at hslot
      obtain ⟨hstatus, hcur, hptr, hkey⟩ := awaitParts_slot (s2.requestParts i (fabricTc w) d far) i
      exact ⟨hstatus, hcur.trans (congrArg Slot.cur hslot :), hkey, hptr.trans (congrArg Slot.ptr hslot :),
        (awaitParts_net (s2.requestParts i (fabricTc w) d far) i).trans (by rw [State.requestParts])⟩
    case send =>
      intro hd bs r1 r2 ho hra h64 h4096 hm hh hp32 hr ht hr2 hdr s2 hgo
      have hnode : r1.node = s.node := (node_of_sansMarks (Cmd.readGlobal_keeps _ _ _ _ _ _ (Cmd.of_gives hr))).trans (begun_node s i w b)
      have hbody := sendBody_done (x := issueOf s i w b) (begun_tile s i w b _) (begun_pair s i w b _) hra h64 h4096 hm
        ((begun_touchesHeld s i w b _).trans hh) hp32 (Cmd.of_gives hr) ht (Cmd.of_gives hr2)
      rw [hnode] at hbody
      exact (exec_send s i).trans (congrArg Host.Outcome.next (runCommand_done h (by rw [ho]; rfl) hbody hgo))
    case dispatch =>
      intro routes rows scales q0 q1 q2 ho bt n c hv hra hrb hf h17 hrows hlen hh h0 h1 h2 h3 s2 hgo
      have hbody := dispatchBody_done (x := issueOf s i w b) (begun_tile s i w b _) (begun_tile s i w b _) (begun_ctx s i w b n) hv hra
        hrb hf h17 hrows hlen ((begun_touchesHeld s i w b _).trans hh) (Cmd.of_gives h0) (Cmd.of_gives h1)
        (fun hs => Cmd.of_gives (h2 hs)) h3
      rw [begun_node] at hbody
      exact (exec_dispatch s i).trans (congrArg Host.Outcome.next (runCommand_done h (by rw [ho]; rfl) hbody hgo))
    case records =>
      intro v r1 hv
      have hrec : Cmd.record512 (issueOf s i w b) (((begun s i w b).slot i).pair (cmdA w).num) (begun s i w b) = .ok (v, r1) := by
        rw [begun_pair]
        exact Cmd.of_gives hv
      constructor <;> intro ho r s2 hgo
      · rw [exec_sattach, runCommand_done h (by rw [ho]; rfl) (sattachBody_done (x := issueOf s i w b) hrec) hgo]
        rfl
      · rw [exec_cpost, runCommand_done h (by rw [ho]; rfl) (cpostBody_done (x := issueOf s i w b) hrec) hgo]
        rfl
    case bare =>
      intro ho hp hb tensor
      constructor
      · intro hr
        obtain ⟨t, he, hslot, _, _, rfl⟩ := scale_bare h ho hp hb
          (State.scaleOf_unbound ((begun_recordOf s i w b _).trans hr) _ _) rfl
        have ht := issues_thread_lt h
        exact ⟨_, he, onlySlot_setSlot ht (onlySlot_setSlot ht (onlySlot_begun ht) _) _, hslot⟩
      · intro r hr s2
        obtain ⟨t, he, hslot, p, q, ht⟩ := scale_bare h ho hp hb
          (State.scaleOf_bare ((begun_recordOf s i w b _).trans hr) _) (State.rollRecord_swarm _ _)
        exact ⟨t, he, fields_of_setSlot_twice ht, hslot⟩
    case tile =>
      intro ho n rows r1 hb tensor bt hrb hh hv
      have hbody := scaleBody_tile (x := issueOf s i w b) hb (begun_tile s i w b _) hrb ((begun_touchesHeld s i w b _).trans hh)
        (Cmd.of_gives hv)
      rw [show (issueOf s i w b).id = i from rfl, show (issueOf s i w b).word = w from rfl, begun_value] at hbody
      have hrec : r1.recordOf tensor = s.recordOf tensor :=
        (recordOf_of_sansMarks (Cmd.values_keeps _ _ _ _ _ (Cmd.of_gives hv)) tensor).trans (begun_recordOf s i w b _)
      constructor
      · intro hr s3 hgo
        rw [State.scaleOf_unbound (hrec.trans hr)] at hbody
        exact (exec_scale s i).trans (congrArg Host.Outcome.next (runCommand_done h (by rw [ho]; rfl) hbody hgo))
      · intro r hr p s2 s3 hgo
        rw [State.scaleOf_amax (hrec.trans hr)] at hbody
        exact (exec_scale s i).trans (congrArg Host.Outcome.next (runCommand_done h (by rw [ho]; rfl) hbody hgo))
  · exact get_answered hi hc ho hg hp hf hn hlt

end Sys2Proof.Proofs
end

section
/-! SUPPORT. What a halt leaves of the Swarm (R111–R114), and that no halt makes a slot occupied: the threads of failed combs are gone
(R27, R28, R61). -/

namespace Sys2Proof.Machine

open Sys2Proof

/-! ## Slots that stay empty -/

/-- The hives that work, where each comb lies, and the physical combs that have failed (R27, R28). -/
def State.plant (s : State) : BitVec 16 × SMap (Option Nat) × SMap Bool := (s.swarm.hives, s.swarm.combMap, s.swarm.failedCombs)

/-- From `s` to `t` the plant is the same, and no thread has started. -/
def State.Quiet (s t : State) : Prop := t.plant = s.plant ∧ ∀ i, s.occupied i = false → t.occupied i = false

theorem State.Quiet.refl (s : State) : s.Quiet s := ⟨rfl, fun _ h => h⟩

theorem State.Quiet.trans {s t u : State} (h : s.Quiet t) (h' : t.Quiet u) : s.Quiet u :=
  ⟨h'.1.trans h.1, fun i hi => h'.2 i (h.2 i hi)⟩

/-- Where the core of the Swarm stays, no thread starts. -/
theorem State.quiet_of_core {s t : State} (h : t.swarm.core = s.swarm.core) : s.Quiet t := by
  refine ⟨(congrArg (fun w : Swarm => (w.hives, w.combMap, w.failedCombs)) h :), fun i hi => ?_⟩
  rw [State.occupied, State.slot_of_core h]
  exact hi

/-- Steps that start no thread, taken for each element of a list, start none. -/
theorem State.quiet_foldl {α : Type} {f : State → α → State} (h : ∀ (u : State) a, u.Quiet (f u a)) (l : List α) (s : State) :
    s.Quiet (l.foldl f s) := by
  induction l generalizing s with
  | nil => exact State.Quiet.refl s
  | cons a l ih => exact State.Quiet.trans (h s a) (ih _)

theorem State.Quiet.hives {s t : State} (h : s.Quiet t) : t.swarm.hives = s.swarm.hives := congrArg Prod.fst h.1

theorem State.Quiet.hiveWorks {s t : State} (h : s.Quiet t) (g : Nat) : t.hiveWorks g = s.hiveWorks g := by
  rw [State.hiveWorks, h.hives, State.hiveWorks]

theorem State.Quiet.combMap {s t : State} (h : s.Quiet t) : t.swarm.combMap = s.swarm.combMap :=
  congrArg (fun p : BitVec 16 × SMap (Option Nat) × SMap Bool => p.2.1) h.1

theorem State.Quiet.failedCombs {s t : State} (h : s.Quiet t) : t.swarm.failedCombs = s.swarm.failedCombs :=
  congrArg (fun p : BitVec 16 × SMap (Option Nat) × SMap Bool => p.2.2) h.1

/-! ## Halts -/

/-- The halt log and the counts of a halt, for a reason other than 0x00 (R111, R112). -/
def State.logHalt (s : State) (reason rec_ : Nat) : State :=
  if reason = 0 then s
  else
    let s := { s with swarm := { s.swarm with haltLog := logAppend 64 s.swarm.haltLog (BitVec.ofNat 256 rec_) } }
    let s := s.bump 0x205002
    if reason < 0xF0 then s.contained else s

/-- The launch of a thread that halts counts it (R73), and a tile it held is lost. -/
def State.countHalt (s : State) (t : Slot) (reason : Nat) : State :=
  let s := s.mapLaunch t.launch fun l =>
    { l with live := l.live - 1, abnormal := l.abnormal + b2n (decide (reason ≠ 0)) }
  if t.held.isSome then s.bump 0x208109 else s

/-- What a halt records: in the slot record and the halt log, in the counts, with its launch. -/
def State.noteHalt (s : State) (i : SlotId) (reason bank index fault high : Nat) : State :=
  let rec_ := haltRecord reason bank index i s.now fault high
  ((s.setBytes (slotRecordAt i) (natLE 32 rec_)).logHalt reason rec_).countHalt (s.slot i) reason

/-- Thread `j` of the cell of `i` waits for `i` no longer in a YIELD (R108). -/
def State.unyieldFrom (i : SlotId) (s : State) (j : Nat) : State :=
  let u := s.slot ⟨i.cell, j⟩
  s.setSlot ⟨i.cell, j⟩ { u with yieldTo := u.yieldTo.filter (· ≠ i.thread) }

def State.unyield (s : State) (i : SlotId) : State := (List.range 4).foldl (State.unyieldFrom i) s

/-- A thread that halts waits for no room in its pad (R139). -/
def State.leaveQueue (s : State) (i : SlotId) : State :=
  { s with swarm := { s.swarm with roomQueue := SMap.modify [] s.swarm.roomQueue i.cell (·.filter (· ≠ i.thread)) } }

/-- A comb without an occupied slot is idle from now on, and its banks are marked altered no longer (R120). -/
def State.noteIdle (s : State) (n : Nat) : State :=
  if s.combEmpty n then s.setComb n { s.comb n with alteredA := false, alteredB := false, idleSince := s.now } else s

/-- The slot of a thread that halts becomes empty. -/
def State.freeSlot (s : State) (i : SlotId) : State := (((s.setSlot i {}).unyield i).leaveQueue i).noteIdle i.comb

theorem State.halt_eq (s : State) (i : SlotId) (reason bank index fault high : Nat) :
    s.halt i reason bank index fault high = (s.noteHalt i reason bank index fault high).freeSlot i := rfl

theorem State.logHalt_swarm (s : State) (reason rec_ : Nat) : ∃ log, (s.logHalt reason rec_).swarm = { s.swarm with haltLog := log } := by
  unfold State.logHalt
  split
  · exact ⟨_, rfl⟩
  · split <;> exact ⟨_, rfl⟩

theorem State.countHalt_swarm (s : State) (t : Slot) (reason : Nat) :
    ∃ launches, (s.countHalt t reason).swarm = { s.swarm with launches := launches } := by
  unfold State.countHalt
  dsimp only
  split <;> exact ⟨_, rfl⟩

/-- A halt's records touch the halt log and the launches, and nothing else of the Swarm. -/
theorem State.noteHalt_swarm (s : State) (i : SlotId) (reason bank index fault high : Nat) :
    ∃ log launches, (s.noteHalt i reason bank index fault high).swarm = { s.swarm with haltLog := log, launches := launches } := by
  obtain ⟨log, hlog⟩ := (s.setBytes (slotRecordAt i) (natLE 32 (haltRecord reason bank index i s.now fault high))).logHalt_swarm
    reason (haltRecord reason bank index i s.now fault high)
  obtain ⟨launches, hl⟩ := ((s.setBytes (slotRecordAt i) (natLE 32 (haltRecord reason bank index i s.now fault high))).logHalt
    reason (haltRecord reason bank index i s.now fault high)).countHalt_swarm (s.slot i) reason
  rw [State.setBytes_swarm] at hlog
  exact ⟨log, launches, hl.trans (by rw [hlog])⟩

theorem State.noteHalt_slot (s : State) (i : SlotId) (reason bank index fault high : Nat) (j : SlotId) :
    (s.noteHalt i reason bank index fault high).slot j = s.slot j := by
  obtain ⟨log, launches, h⟩ := s.noteHalt_swarm i reason bank index fault high
  rw [State.slot, h, State.slot]

theorem State.noteHalt_comb (s : State) (i : SlotId) (reason bank index fault high n : Nat) :
    (s.noteHalt i reason bank index fault high).comb n = s.comb n := by
  obtain ⟨log, launches, h⟩ := s.noteHalt_swarm i reason bank index fault high
  rw [State.comb, h, State.comb]

theorem State.noteHalt_plant (s : State) (i : SlotId) (reason bank index fault high : Nat) :
    (s.noteHalt i reason bank index fault high).plant = s.plant := by
  obtain ⟨log, launches, h⟩ := s.noteHalt_swarm i reason bank index fault high
  rw [State.plant, h, State.plant]

/-- Setting a slot to what has its status changes no status. -/
theorem State.status_setSlot {s : State} {i : SlotId} {u : Slot} (h : u.status = (s.slot i).status) (j : SlotId) :
    ((s.setSlot i u).slot j).status = (s.slot j).status := by
  by_cases hk : j.key = i.key
  · simp only [State.slot, State.setSlot, hk, SMap.get_put_same]
    exact h
  · rw [State.slot_setSlot_other _ _ hk]

theorem State.unyieldFrom_status (i : SlotId) (s : State) (k : Nat) (j : SlotId) :
    ((State.unyieldFrom i s k).slot j).status = (s.slot j).status := by
  unfold State.unyieldFrom
  exact State.status_setSlot (by rfl) j

theorem State.unyield_status (s : State) (i j : SlotId) : ((s.unyield i).slot j).status = (s.slot j).status :=
  foldl_keeps (fun u : State => (u.slot j).status) (f := State.unyieldFrom i) (fun u k => State.unyieldFrom_status i u k j) _ s

theorem State.unyield_plant (s : State) (i : SlotId) : (s.unyield i).plant = s.plant :=
  foldl_keeps State.plant (f := State.unyieldFrom i) (fun _ _ => rfl) _ s

theorem State.unyield_comb (s : State) (i : SlotId) (n : Nat) : (s.unyield i).comb n = s.comb n :=
  foldl_keeps (fun u : State => u.comb n) (f := State.unyieldFrom i) (fun _ _ => rfl) _ s

theorem State.noteIdle_slot (s : State) (n : Nat) (j : SlotId) : (s.noteIdle n).slot j = s.slot j := by
  unfold State.noteIdle
  split <;> rfl

theorem State.noteIdle_plant (s : State) (n : Nat) : (s.noteIdle n).plant = s.plant := by
  unfold State.noteIdle
  split <;> rfl

theorem State.noteIdle_draining (s : State) (n m : Nat) : ((s.noteIdle n).comb m).draining = (s.comb m).draining := by
  unfold State.noteIdle
  split
  · by_cases hm : m = n
    · rw [hm, State.comb_setComb]
    · rw [State.comb_setComb_other _ _ hm]
  · rfl

/-- Freeing a slot empties it and leaves the status of every other. -/
theorem State.freeSlot_status (s : State) (i j : SlotId) :
    ((s.freeSlot i).slot j).status = if j.key = i.key then .empty else (s.slot j).status := by
  rw [State.freeSlot, State.noteIdle_slot]
  refine (State.unyield_status (s.setSlot i {}) i j).trans ?_
  split
  · next hk => simp only [State.slot, State.setSlot, hk, SMap.get_put_same]
  · next hk => rw [State.slot_setSlot_other _ _ hk]

theorem State.freeSlot_plant (s : State) (i : SlotId) : (s.freeSlot i).plant = s.plant := by
  rw [State.freeSlot, State.noteIdle_plant]
  exact State.unyield_plant (s.setSlot i {}) i

theorem State.freeSlot_draining (s : State) (i : SlotId) (n : Nat) : ((s.freeSlot i).comb n).draining = (s.comb n).draining := by
  rw [State.freeSlot, State.noteIdle_draining]
  exact congrArg Comb.draining (State.unyield_comb (s.setSlot i {}) i n)

section
variable (s : State) (i : SlotId) (reason bank index fault high : Nat)

/-- The slot of a thread that halts is empty. -/
theorem State.occupied_halt (j : SlotId) (hj : j.key = i.key) : (s.halt i reason bank index fault high).occupied j = false := by
  rw [State.occupied, State.halt_eq, State.freeSlot_status, if_pos hj]
  rfl

/-- A halt starts no thread. -/
theorem State.halt_quiet : s.Quiet (s.halt i reason bank index fault high) := by
  refine ⟨?_, fun j hj => ?_⟩
  · rw [State.halt_eq, State.freeSlot_plant, State.noteHalt_plant]
  · rw [State.occupied, State.halt_eq, State.freeSlot_status, State.noteHalt_slot]
    split
    · rfl
    · exact hj

/-- A halt leaves every comb draining that was, and no other. -/
theorem State.halt_draining (n : Nat) : ((s.halt i reason bank index fault high).comb n).draining = (s.comb n).draining := by
  rw [State.halt_eq, State.freeSlot_draining, State.noteHalt_comb]

end

/-! ## Counts of contained errors (R461) -/

/-- No count of contained errors is taken back, but that it ends at the largest value of its type (R11). -/
def State.Contains (s t : State) : Prop := min (s.reg 0xB02003) (2 ^ 64 - 1) ≤ t.reg 0xB02003

theorem State.contains_of_reg {s t : State} (h : t.reg 0xB02003 = s.reg 0xB02003) : s.Contains t := by
  rw [State.Contains, h]
  exact Nat.min_le_left _ _

theorem State.Contains.trans {s t u : State} (h : s.Contains t) (h' : t.Contains u) : s.Contains u := by
  unfold State.Contains at *
  omega

/-- Raising a count leaves every other. -/
theorem State.reg_bump_other (s : State) {k n u j v : Nat} (h : j * 65536 + v ≠ k * 65536 + u) :
    (s.bump k n u).reg j v = s.reg j v := State.reg_setReg_other _ h

theorem State.reg_contained (s : State) : s.contained.reg 0xB02003 = satAdd 64 (s.reg 0xB02003) 1 := State.reg_setReg _ _ _ _

theorem State.contained_contains (s : State) : s.Contains s.contained := by
  rw [State.Contains, State.reg_contained, satAdd]
  omega

theorem State.reg_setBytes (s : State) (a : Nat) (bs : List Byte) (k u : Nat) : (s.setBytes a bs).reg k u = s.reg k u := by
  induction bs generalizing s a with
  | nil => rfl
  | cons b bs ih => exact ih _ _

theorem State.logHalt_contains (s : State) (reason rec_ : Nat) : s.Contains (s.logHalt reason rec_) := by
  unfold State.logHalt
  split
  · exact State.contains_of_reg rfl
  · dsimp only
    split
    · exact (State.contains_of_reg (State.reg_bump_other _ (by decide))).trans (State.contained_contains _)
    · exact State.contains_of_reg (State.reg_bump_other _ (by decide))

theorem State.countHalt_contains (s : State) (t : Slot) (reason : Nat) : s.Contains (s.countHalt t reason) := by
  unfold State.countHalt
  dsimp only
  split
  · exact State.contains_of_reg (State.reg_bump_other _ (by decide))
  · exact State.contains_of_reg rfl

theorem State.noteHalt_contains (s : State) (i : SlotId) (reason bank index fault high : Nat) :
    s.Contains (s.noteHalt i reason bank index fault high) :=
  ((State.contains_of_reg (State.reg_setBytes s _ _ _ _)).trans (State.logHalt_contains _ _ _)).trans (State.countHalt_contains _ _ _)

theorem State.freeSlot_reg (s : State) (i : SlotId) (k u : Nat) : (s.freeSlot i).reg k u = s.reg k u := by
  have hu : (((s.setSlot i {}).unyield i).leaveQueue i).reg k u = s.reg k u :=
    foldl_keeps (fun v : State => v.reg k u) (f := State.unyieldFrom i) (fun _ _ => rfl) _ (s.setSlot i {})
  rw [State.freeSlot, ← hu]
  unfold State.noteIdle
  split <;> rfl

theorem State.halt_contains (s : State) (i : SlotId) (reason bank index fault high : Nat) :
    s.Contains (s.halt i reason bank index fault high) := by
  rw [State.halt_eq]
  exact (s.noteHalt_contains i reason bank index fault high).trans (State.contains_of_reg (State.freeSlot_reg _ _ _ _))

/-! ## The threads of combs that fail (R61, R437) -/

/-- A thread of the combs halts, unless it has halted already. -/
def State.haltLost (s : State) (i : SlotId) : State :=
  if s.occupied i then s.halt i 0x3F (bankCode (s.comb i.comb).bankB) (s.slot i).upcoming 0 0 else s

theorem State.haltLost_quiet (s : State) (i : SlotId) : s.Quiet (s.haltLost i) := by
  unfold State.haltLost
  split
  · exact State.halt_quiet _ _ _ _ _ _ _
  · exact State.Quiet.refl s

theorem State.haltLost_contains (s : State) (i : SlotId) : s.Contains (s.haltLost i) := by
  unfold State.haltLost
  split
  · exact State.halt_contains _ _ _ _ _ _ _
  · exact State.contains_of_reg rfl

theorem State.haltLost_draining (s : State) (i : SlotId) (n : Nat) : ((s.haltLost i).comb n).draining = (s.comb n).draining := by
  unfold State.haltLost
  split
  · exact State.halt_draining _ _ _ _ _ _ _ _
  · rfl

theorem State.haltLost_empty (s : State) (i : SlotId) : (s.haltLost i).occupied i = false := by
  unfold State.haltLost
  split
  · exact State.occupied_halt _ _ _ _ _ _ _ _ rfl
  · next h => simpa using h

/-- The threads of combs [lo, hi). -/
def State.threadsOf (s : State) (lo hi : Nat) : List SlotId :=
  (s.swarm.slots.filter fun e => decide (lo * 256 ≤ e.1) && decide (e.1 < hi * 256) && decide (e.2.status ≠ .empty)).map
    fun e => SlotId.ofKey e.1

theorem State.haltCombs_eq (s : State) (lo hi : Nat) : s.haltCombs lo hi = (s.threadsOf lo hi).foldl State.haltLost s := rfl

theorem State.haltCombs_quiet (s : State) (lo hi : Nat) : s.Quiet (s.haltCombs lo hi) :=
  State.quiet_foldl State.haltLost_quiet _ _

theorem State.haltCombs_draining (s : State) (lo hi n : Nat) : ((s.haltCombs lo hi).comb n).draining = (s.comb n).draining :=
  foldl_keeps (fun u : State => (u.comb n).draining) (f := State.haltLost) (fun _ _ => State.haltLost_draining _ _ _) _ _

theorem State.haltCombs_contains (s : State) (lo hi : Nat) : s.Contains (s.haltCombs lo hi) := by
  rw [State.haltCombs_eq]
  generalize s.threadsOf lo hi = ids
  induction ids generalizing s with
  | nil => exact State.contains_of_reg rfl
  | cons i ids ih => exact (s.haltLost_contains i).trans (ih _)

/-- Each thread that is to halt has halted. -/
theorem State.occupied_haltLost_foldl {ids : List SlotId} {i : SlotId} (h : i ∈ ids) (s : State) :
    (ids.foldl State.haltLost s).occupied i = false := by
  induction ids generalizing s with
  | nil => cases h
  | cons j ids ih =>
    rcases List.mem_cons.mp h with rfl | h
    · exact (State.quiet_foldl State.haltLost_quiet ids _).2 _ (State.haltLost_empty s i)
    · exact ih h _

/-- What a map holds other than its default is one of its entries. -/
theorem SMap.mem_of_get {V : Type} {d : V} {m : SMap V} {k : Nat} (h : SMap.get d m k ≠ d) : (k, SMap.get d m k) ∈ m := by
  induction m with
  | nil => exact absurd rfl h
  | cons e m ih =>
    obtain ⟨k', v⟩ := e
    rw [SMap.get] at h ⊢
    split
    · next hk => rw [hk]; exact List.mem_cons_self
    · next hk =>
      rw [if_neg hk] at h
      exact List.mem_cons_of_mem _ (ih h)

/-- An occupied slot of the combs is one of their threads. -/
theorem State.mem_threadsOf {s : State} {lo hi : Nat} {i : SlotId} (ht : i.thread < 4) (hl : lo * 256 ≤ i.key) (hh : i.key < hi * 256)
    (ho : s.occupied i = true) : i ∈ s.threadsOf lo hi := by
  have hs : (s.slot i).status ≠ .empty := of_decide_eq_true ho
  have hget : SMap.get {} s.swarm.slots i.key ≠ {} := fun h => hs (by rw [State.slot, h])
  have hkey : SlotId.ofKey i.key = i := by
    obtain ⟨c, t⟩ := i
    simp only [SlotId.key, SlotId.ofKey, SlotId.mk.injEq] at ht ⊢
    omega
  refine List.mem_map.mpr ⟨_, List.mem_filter.mpr ⟨SMap.mem_of_get hget, ?_⟩, hkey⟩
  simp only [Bool.and_eq_true, decide_eq_true_eq]
  exact ⟨⟨hl, hh⟩, hs⟩

/-- No slot of the combs is occupied once their threads have halted. -/
theorem State.occupied_haltCombs (s : State) {lo hi : Nat} {i : SlotId} (ht : i.thread < 4) (hl : lo * 256 ≤ i.key)
    (hh : i.key < hi * 256) : (s.haltCombs lo hi).occupied i = false := by
  by_cases ho : s.occupied i = true
  · exact State.occupied_haltLost_foldl (State.mem_threadsOf ht hl hh ho) s
  · exact (s.haltCombs_quiet lo hi).2 i (by simpa using ho)

end Sys2Proof.Machine
end

section
/-! SUPPORT. What the failure of a hive sets in motion starts no thread: the pools of its memory (R212), the frames bound for it (R246),
the collectives that stage in it (R334), and the BAR2 reads that waited for its combs (R359). -/

namespace Sys2Proof.Machine

open Sys2Proof

/-! ## Buffer pools -/

@[simp] theorem State.faultPool_swarm (s : State) (p : Nat) : (s.faultPool p).swarm = s.swarm := by
  unfold State.faultPool
  dsimp only
  split <;> simp

@[simp] theorem State.poolError_swarm (s : State) (p a access : Nat) : (s.poolError p a access).swarm = s.swarm := by
  rw [State.poolError, State.faultPool_swarm, State.logMemory_swarm]

@[simp] theorem State.lowWater_swarm (s : State) (p : Nat) : (s.lowWater p).swarm = s.swarm := by
  unfold State.lowWater
  dsimp only
  split <;> simp

@[simp] theorem State.setPoolBit_swarm (s : State) (q : Pool) (i : Nat) (b : Bool) : (s.setPoolBit q i b).swarm = s.swarm := rfl

@[simp] theorem State.refillMoves_core (s : State) (p n : Nat) : (s.refillMoves p n).swarm.core = s.swarm.core := by
  induction n generalizing s with
  | zero => rfl
  | succ n ih =>
    unfold State.refillMoves
    dsimp only
    split
    · rfl
    · split <;> simp [ih]

@[simp] theorem State.refillCache_core (s : State) (p : Nat) : (s.refillCache p).swarm.core = s.swarm.core := by
  unfold State.refillCache
  split <;> simp

@[simp] theorem State.spillMoves_core (s : State) (p n : Nat) : (s.spillMoves p n).swarm.core = s.swarm.core := by
  induction n generalizing s with
  | zero => rfl
  | succ n ih =>
    unfold State.spillMoves
    dsimp only
    split
    · rfl
    · split
      · simp
      · rw [ih, State.setPool_swarm, State.storeSeg_core]
        split <;> simp

@[simp] theorem State.spillCache_core (s : State) (p : Nat) : (s.spillCache p).swarm.core = s.swarm.core := by
  unfold State.spillCache
  split <;> simp

@[simp] theorem State.cacheReady_core (s : State) (p : Nat) : (s.cacheReady p).swarm.core = s.swarm.core := by
  unfold State.cacheReady
  split <;> simp

@[simp] theorem State.draw_swarm (s : State) : s.draw.2.swarm = s.swarm := rfl

@[simp] theorem State.takeBuffer_core (s : State) (p : Nat) : (s.takeBuffer p).2.swarm.core = s.swarm.core := by
  unfold State.takeBuffer
  dsimp only
  split
  · simp
  · split <;> simp

@[simp] theorem State.allocFrom_core (s : State) (p fuel : Nat) : (s.allocFrom p fuel).2.swarm.core = s.swarm.core := by
  induction fuel generalizing s p with
  | zero => rfl
  | succ fuel ih =>
    unfold State.allocFrom
    dsimp only
    repeat' split
    all_goals simp [ih]

@[simp] theorem State.alloc_core (s : State) (p : Nat) : (s.alloc p).2.swarm.core = s.swarm.core := by
  have h := State.allocFrom_core s p 8
  unfold State.alloc
  split
  · next he => simpa [he] using h
  · next he => simpa [he] using h

@[simp] theorem State.rejectFree_swarm (s : State) (who : Freer) (a reason p : Nat) : (s.rejectFree who a reason p).2.swarm = s.swarm := by
  unfold State.rejectFree
  dsimp only
  split <;> rfl

@[simp] theorem State.freeHere_core (s : State) (who : Freer) (a : Nat) : (s.freeHere who a).2.swarm.core = s.swarm.core := by
  unfold State.freeHere
  dsimp only
  repeat' split
  all_goals simp

@[simp] theorem State.freeChunks_core (s : State) (hub : Nat) (as : List Nat) : (s.freeChunks hub as).swarm.core = s.swarm.core :=
  foldl_core (fun _ _ => State.freeHere_core _ _ _) _ _

/-! ## Frames discarded from queues (R246) -/

@[simp] theorem State.discardQueued_core (s : State) (reason port : Nat) (q : Queued) :
    (s.discardQueued reason port q).swarm.core = s.swarm.core := by
  simp [State.discardQueued]

/-- Logging discarded MIRROR copies and counting them away, one after another, leaves the Swarm. -/
@[simp] theorem State.dropCopiesFor_swarm (s : State) (reason port : Nat) : (s.dropCopiesFor reason port).swarm = s.swarm := by
  have hstep (u : State) (q : Queued) : ((u.logDiscard reason 0x84 port q.frame.header).releaseMirror q).swarm = u.swarm := by simp
  unfold State.dropCopiesFor
  rw [foldl_keeps State.swarm hstep]

@[simp] theorem State.dropPort_core (s : State) (reason port : Nat) : (s.dropPort reason port).swarm.core = s.swarm.core := by
  rw [State.dropPort, foldl_core fun _ _ => State.discardQueued_core _ _ _ _, State.dropCopiesFor_swarm]
  rfl

@[simp] theorem State.takeBridged_swarm (s : State) (p : Queued → Bool) : (s.takeBridged p).2.swarm = s.swarm := by
  unfold State.takeBridged
  dsimp only
  rw [foldl_keeps State.swarm fun _ _ => State.setQueue_swarm _ _ _ _]

@[simp] theorem State.dropBridged_core (s : State) (reason : Nat) (p : Queued → Bool) :
    (s.dropBridged reason p).swarm.core = s.swarm.core := by
  rw [State.dropBridged, foldl_core fun _ _ => State.discardQueued_core _ _ _ _, State.takeBridged_swarm]

@[simp] theorem State.dropDeliveredIf_core (s : State) (reason : Nat) (p : Delivered → Bool) :
    (s.dropDeliveredIf reason p).swarm.core = s.swarm.core :=
  foldl_core (fun _ _ => by simp) _ _

@[simp] theorem State.dropHive_core (s : State) (reason h : Nat) : (s.dropHive reason h).swarm.core = s.swarm.core := by
  simp [State.dropHive]

/-! ## How collectives end (R330, R333) -/

@[simp] theorem State.scribble_swarm (s : State) (segs : List Seg) : (s.scribble segs).swarm = s.swarm := by
  unfold State.scribble
  refine (foldl_keeps State.swarm (fun u a => ?_) _ _).trans rfl
  repeat' split
  all_goals rfl

@[simp] theorem State.endEntry_swarm (s : State) (q e status detail : Nat) : (s.endEntry q e status detail).swarm = s.swarm := by
  unfold State.endEntry
  dsimp only
  split <;> simp

@[simp] theorem State.sendAborts_core (s : State) (c : Collective) (reason origin : Nat) :
    (s.sendAborts c reason origin).swarm.core = s.swarm.core := foldl_core (fun _ _ => State.send_core _ _ _) _ _

@[simp] theorem State.reportColl_core (s : State) (c : Collective) (status origin : Nat) :
    (s.reportColl c status origin).swarm.core = s.swarm.core := by
  unfold State.reportColl
  dsimp only
  split <;> simp

@[simp] theorem State.removeColl_core (s : State) (c : Collective) : (s.removeColl c).swarm.core = s.swarm.core :=
  State.freeChunks_core _ _ _

@[simp] theorem State.loseOutput_swarm (s : State) (c : Collective) : (s.loseOutput c).swarm = s.swarm := by
  unfold State.loseOutput
  dsimp only
  split <;> simp

@[simp] theorem State.endColl_core (s : State) (id status reason origin : Nat) :
    (s.endColl id status reason origin).swarm.core = s.swarm.core := by
  unfold State.endColl
  split
  · rfl
  · dsimp only
    split <;> simp

@[simp] theorem State.collFault_core (s : State) (id : Nat) : (s.collFault id).swarm.core = s.swarm.core :=
  State.endColl_core _ _ _ _ _

@[simp] theorem State.sendControl_core (s : State) (c : Collective) (t : CollStream) (node type word count : Nat) (tail : List Byte) :
    (s.sendControl c t node type word count tail).swarm.core = s.swarm.core := State.send_core _ _ _

@[simp] theorem State.mapStreamOf_swarm (s : State) (id i : Nat) (f : CollStream → CollStream) :
    (s.mapStreamOf id i f).swarm = s.swarm := rfl

@[simp] theorem State.sendData_core (s : State) (c : Collective) (i : Nat) (t : CollStream) (src offset : Nat) (bs : List Byte) :
    (s.sendData c i t src offset bs).swarm.core = s.swarm.core := by
  unfold State.sendData
  dsimp only
  rw [State.mapStreamOf_swarm]
  repeat' split
  all_goals simp

@[simp] theorem State.sendBarrier_core (s : State) (c : Collective) (i : Nat) (t : CollStream) :
    (s.sendBarrier c i t).2.swarm.core = s.swarm.core := by
  unfold State.sendBarrier
  dsimp only
  split <;> simp

@[simp] theorem State.releaseChunks_core (s : State) (id i : Nat) : (s.releaseChunks id i).swarm.core = s.swarm.core := by
  unfold State.releaseChunks
  split
  · rfl
  · split
    · rfl
    · simp

@[simp] theorem State.grantMore_core (s : State) (id i fuel : Nat) : (s.grantMore id i fuel).swarm.core = s.swarm.core := by
  induction fuel generalizing s with
  | zero => rfl
  | succ fuel ih =>
    unfold State.grantMore
    split
    · rfl
    · split
      · rfl
      · dsimp only
        repeat' split
        all_goals simp [ih]

end Sys2Proof.Machine
end

section
/-! SUPPORT. Reads of memory start no thread, though they may halt some (R114): so neither do the collectives as they go on, nor the BAR2
reads that are released, and a hive that fails stays without threads (R28). -/

namespace Sys2Proof.Machine

open Sys2Proof

/-! ## Reads of memory -/

theorem State.quiet_of_swarm {s t : State} (h : t.swarm = s.swarm) : s.Quiet t := State.quiet_of_core (congrArg Swarm.core h)

theorem State.haltInCommand_quiet (s : State) (i : SlotId) (reason : Nat) : s.Quiet (s.haltInCommand i reason) := by
  unfold State.haltInCommand
  split <;> exact State.halt_quiet _ _ _ _ _ _ _

theorem State.padFatal_quiet (s : State) (cell : Nat) (by_ : Option Nat) : s.Quiet (s.padFatal cell by_) := by
  refine State.quiet_foldl (fun u t => ?_) _ _
  split
  · exact State.Quiet.refl u
  · split
    · exact State.haltInCommand_quiet _ _ _
    · exact State.halt_quiet _ _ _ _ _ _ _

theorem State.accessFailed_quiet (s : State) (who : Requester) (e : MemErr) (access : Nat) : s.Quiet (s.accessFailed who e access) := by
  unfold State.accessFailed
  split
  · exact State.quiet_of_swarm (State.logMemory_swarm _ _ _ _)
  · split
    · exact State.padFatal_quiet _ _ _
    · exact State.Quiet.refl s
  · exact State.Quiet.refl s

theorem State.memRead_quiet {s t : State} {who : Requester} {segs : List Seg} {r : Except MemErr (List Byte)}
    (h : s.memRead who segs = (t, r)) : s.Quiet t := by
  unfold State.memRead at h
  split at h
  · cases h
    exact State.accessFailed_quiet _ _ _ _
  · cases h
    exact State.quiet_of_core (State.correctRead_core _ _)

/-! ## Collectives that go on (R317, R327) -/

/-- However an attempt at values ends, no thread has started. -/
def State.QuietEnd {α : Type} (s : State) : Except State (State × α) → Prop
  | .ok r => s.Quiet r.1
  | .error t => s.Quiet t

theorem State.collRead_quiet (s : State) (id a len : Nat) : s.QuietEnd (s.collRead id a len) := by
  unfold State.collRead
  split
  · next h => exact State.memRead_quiet h
  · next h => exact (State.memRead_quiet h).trans (State.quiet_of_core (State.collFault_core _ _))

theorem State.granuleIn_quiet (s : State) (c : Collective) (g a : Nat) : s.QuietEnd (s.granuleIn c g a) := by
  have h := s.collRead_quiet c.id a (c.span g (g + 1))
  unfold State.granuleIn
  split
  · next he => rw [he] at h; exact h
  · next he => rw [he] at h; exact h

theorem State.heldValue_quiet (s : State) (c : Collective) (r : Ring) (g : Nat) (ws : List W32) :
    s.QuietEnd (s.heldValue c r g ws) := by
  unfold State.heldValue
  split
  · exact State.granuleIn_quiet _ _ _ _
  · exact State.Quiet.refl s

theorem State.heldValue_map_quiet {s : State} {c : Collective} {r : Ring} {g : Nat} {o : Option (List W32)}
    {v : Except State (State × List W32)} (h : o.map (s.heldValue c r g) = some v) : s.QuietEnd v := by
  obtain ⟨ws, -, rfl⟩ := Option.map_eq_some_iff.mp h
  exact State.heldValue_quiet _ _ _ _ _

theorem State.ownValue_quiet {s : State} {c : Collective} {r : Ring} {g k : Nat} {v : Except State (State × List W32)}
    (h : s.ownValue c r g k = some v) : s.QuietEnd v := by
  induction k with
  | zero =>
    cases h
    exact State.granuleIn_quiet _ _ _ _
  | succ k ih =>
    rw [State.ownValue] at h
    split at h
    · exact ih h
    · exact State.heldValue_map_quiet h

theorem State.collect_quiet {s : State} {c : Collective} {r : Ring} {t : CollStream} {first : Bool} {gs : List Nat}
    {v : Except State (State × List Byte)} (h : s.collect c r t first gs = some v) : s.QuietEnd v := by
  induction gs generalizing s v with
  | nil =>
    cases h
    exact State.Quiet.refl s
  | cons g gs ih =>
    have hhere {x : Except State (State × List W32)} (hx : (if t.phase = 1 then (SMap.get none c.results g).map (s.heldValue c r g)
        else if first then s.ownValue c r g t.axis
        else (SMap.get none c.parts (granuleKey t.axis g)).map (s.heldValue c r g)) = some x) : s.QuietEnd x := by
      split at hx
      · exact State.heldValue_map_quiet hx
      · split at hx
        · exact State.ownValue_quiet hx
        · exact State.heldValue_map_quiet hx
    rw [State.collect] at h
    split at h
    · cases h
    · next he =>
      cases h
      exact hhere he
    · next u ws he =>
      have hu : s.Quiet u := hhere he
      split at h
      · next he' =>
        cases h
        exact hu.trans (ih he' : State.QuietEnd _ (.ok _))
      · next hx =>
        have := ih h
        cases v with
        | ok r => exact hu.trans this
        | error t => exact hu.trans this

theorem State.sendRing_quiet (s : State) (c : Collective) (i : Nat) (t : CollStream) : s.Quiet (s.sendRing c i t).2 := by
  unfold State.sendRing
  dsimp only
  split
  · exact State.Quiet.refl s
  · split
    · exact State.Quiet.refl s
    · split
      · exact State.Quiet.refl s
      · next h => exact State.collect_quiet h
      · next u bs h =>
        have hu : s.Quiet u := State.collect_quiet h
        exact hu.trans (State.quiet_of_core (by simp))

theorem State.sendBlock_quiet (s : State) (c : Collective) (i : Nat) (t : CollStream) : s.Quiet (s.sendBlock c i t).2 := by
  unfold State.sendBlock
  dsimp only
  split
  · exact State.Quiet.refl s
  · next key _ =>
    generalize hh : (if (chunkBlock key).1 = (s.ring c.group).rank then _ else _ : Option (Except State (State × List Byte))) = here
    have hhere {v : Except State (State × List Byte)} (hv : here = some v) : s.QuietEnd v := by
      rw [← hh] at hv
      split at hv
      · cases hv
        exact State.collRead_quiet _ _ _ _
      · split at hv
        · cases hv
          exact State.collRead_quiet _ _ _ _
        · cases hv
    split
    · exact State.Quiet.refl s
    · exact hhere rfl
    · next u bs =>
      have hu : s.Quiet u := hhere rfl
      refine hu.trans (State.quiet_of_core ?_)
      dsimp only
      rw [State.mapStreamOf_swarm]
      split <;> simp

theorem State.sendMore_quiet (s : State) (id i fuel : Nat) : s.Quiet (s.sendMore id i fuel) := by
  induction fuel generalizing s with
  | zero => exact State.Quiet.refl s
  | succ fuel ih =>
    unfold State.sendMore
    split
    · exact State.Quiet.refl s
    · next c _ =>
      split
      · exact State.Quiet.refl s
      · next t _ =>
        split
        · exact State.Quiet.refl s
        · extract_lets x
          have hx : s.Quiet x.2 := by
            unfold x
            split
            · exact State.quiet_of_core (State.sendBarrier_core _ _ _ _)
            · split
              · exact State.sendBlock_quiet _ _ _ _
              · exact State.sendRing_quiet _ _ _ _
          split
          · exact hx.trans (ih _)
          · exact hx

/-- One pass over a collective starts no thread. -/
theorem State.collPass_quiet (s : State) (id : Nat) : s.Quiet (s.collPass id) := by
  unfold State.collPass
  split
  · exact State.Quiet.refl s
  · next c _ =>
    split
    · exact State.quiet_of_core (State.endColl_core _ _ _ _ _)
    · extract_lets u v w
      have hw : s.Quiet w :=
        ((State.quiet_foldl (fun _ _ => State.quiet_of_core (State.releaseChunks_core _ _ _)) _ s).trans
          (State.quiet_foldl (fun x i => x.sendMore_quiet id i _) _ u)).trans
            (State.quiet_foldl (fun _ _ => State.quiet_of_core (State.grantMore_core _ _ _ _)) _ v)
      clear_value w
      split
      · exact hw
      · extract_lets r x
        have hx : s.Quiet x := hw.trans (State.quiet_of_core (by unfold x; split <;> simp))
        clear_value x
        split
        · split
          · exact hx.trans (State.quiet_of_core (State.removeColl_core _ _))
          · exact hx
        · exact hx

theorem State.settle_quiet (s : State) (g fuel : Nat) : s.Quiet (s.settle g fuel) := by
  induction fuel generalizing s with
  | zero => exact State.Quiet.refl s
  | succ fuel ih =>
    have hpass := State.quiet_foldl State.collPass_quiet ((s.coll.active.filter fun c => c.group == g).map Collective.id) s
    unfold State.settle
    dsimp only
    split
    · exact hpass
    · exact hpass.trans (ih _)

theorem State.settleAll_quiet (s : State) : s.Quiet s.settleAll := State.quiet_foldl (fun u g => u.settle_quiet g 65) _ _

theorem State.hiveCollectives_quiet (s : State) (hive : Nat) : s.Quiet (s.hiveCollectives hive) :=
  (State.quiet_foldl (fun _ _ => State.quiet_of_core (State.collFault_core _ _)) _ s).trans (State.settleAll_quiet _)

/-! ## BAR2 reads that waited (R359) -/

theorem State.bar2Gets_core (s : State) (a n : Nat) : (s.bar2Gets a n).2.swarm.core = s.swarm.core :=
  foldl_keeps (fun r : List Nat × State => r.2.swarm.core) (fun _ _ => State.sendGet_core _ _ _ _ _ _ _) _ _

theorem State.bar2GetsAll_core (s : State) (ids : List Nat) (segs : List Seg) :
    (segs.foldl (fun r g => let q := r.2.bar2Gets g.1 g.2; (r.1 ++ q.1, q.2)) (ids, s)).2.swarm.core = s.swarm.core := by
  induction segs generalizing ids s with
  | nil => rfl
  | cons g segs ih => exact (ih _ _).trans (State.bar2Gets_core s g.1 g.2)

theorem State.failRead_swarm (s : State) : s.failRead.swarm = s.swarm := rfl

theorem State.bar2Access_quiet (s : State) (a len arrived : Nat) : s.Quiet (s.bar2Access a len arrived) := by
  unfold State.bar2Access
  dsimp only
  split
  · next h => exact (State.memRead_quiet h).trans (State.quiet_of_swarm (State.failRead_swarm _))
  · next u bs h =>
    refine (State.memRead_quiet h).trans ?_
    split
    · exact State.quiet_of_swarm (State.complete_swarm _ _)
    · exact State.quiet_of_core (State.bar2GetsAll_core _ _ _)

theorem State.releaseRead_quiet (s : State) (r : HeldRead) : s.Quiet (s.releaseRead r) := by
  unfold State.releaseRead
  extract_lets u t
  have hu : s.Quiet u := State.quiet_of_swarm (by unfold u; split <;> rfl)
  have ht : s.Quiet t := hu.trans (State.bar2Access_quiet _ _ _ _)
  split
  · exact ht
  · exact ht.trans (State.quiet_of_swarm (State.tlp_swarm t))

theorem State.releaseReads_quiet (s : State) : s.Quiet s.releaseReads := by
  unfold State.releaseReads
  split
  · exact State.Quiet.refl s
  · exact State.Quiet.trans (t := { s with host := { s.host with readsHeld := [] } }) (State.quiet_of_swarm rfl)
      (State.quiet_foldl State.releaseRead_quiet _ _)

theorem State.dropHeldWrites_quiet (s : State) (lo hi : Nat) : s.Quiet (s.dropHeldWrites lo hi) :=
  State.Quiet.trans (State.quiet_of_core (foldl_core (fun _ _ => State.setComb_core _ _ _) _ _)) (State.releaseReads_quiet _)

end Sys2Proof.Machine
end

section
/-! SUPPORT. Combs and hives that fail, and combs that move (R27, R28, R463): what is left of the threads, the plant, the counts and
memory. -/

namespace Sys2Proof.Machine

open Sys2Proof

/-! ## Events -/

theorem State.eventMessage_reg (s : State) (k u : Nat) : s.eventMessage.reg k u = s.reg k u := by
  unfold State.eventMessage State.sendMsix
  dsimp only
  repeat' split
  all_goals rfl

theorem State.eventMessage_mem (s : State) : s.eventMessage.mem = s.mem := by
  unfold State.eventMessage State.sendMsix
  dsimp only
  repeat' split
  all_goals rfl

theorem State.ringWrite_reg (s : State) (rec_ : List Byte) {k : Nat} (h3 : k ≠ 0xB04003) (h6 : k ≠ 0xB04006) :
    (s.ringWrite rec_).2.reg k = s.reg k := by
  unfold State.ringWrite
  dsimp only
  split
  · exact State.reg_bump_other _ (by omega)
  · refine (State.reg_setReg_other _ (by omega)).trans ((State.reg_setBytes _ _ _ _ _).trans rfl)

/-- Posting an event changes the counts of events and of the telemetry ring, and no other value (R467–R470). -/
theorem State.postEvent_reg (s : State) (code cls detail : Nat) {k : Nat} (h0 : k ≠ 0xB03003) (h3 : k ≠ 0xB04003)
    (h6 : k ≠ 0xB04006) : (s.postEvent code cls detail).reg k = s.reg k := by
  have hb (t : State) : (t.bump 0xB03003).reg k = t.reg k := State.reg_bump_other _ (by omega)
  unfold State.postEvent
  by_cases hc : code = 1 <;> simp only [hc, if_true, if_false]
  all_goals
    split
    · split
      · exact (State.eventMessage_reg _ _ _).trans (hb _)
      · exact hb _
    · split
      · exact ((State.eventMessage_reg _ _ _).trans (State.ringWrite_reg _ _ h3 h6)).trans (hb _)
      · exact (State.ringWrite_reg _ _ h3 h6).trans (hb _)

theorem State.postEvent_ringSize (s : State) (code cls detail : Nat) : (s.postEvent code cls detail).ringSize = s.ringSize := by
  rw [State.ringSize, State.postEvent_reg _ _ _ _ (by decide) (by decide) (by decide), State.ringSize]

theorem State.contained_ringSize (s : State) : s.contained.ringSize = s.ringSize := by
  rw [State.ringSize, State.ringSize, State.contained, State.reg_bump_other _ (by decide)]

/-- Without a telemetry ring an event leaves memory as it is. -/
theorem State.postEvent_mem {s : State} (h : s.ringSize = 0) (code cls detail : Nat) : (s.postEvent code cls detail).mem = s.mem := by
  have hr (t : State) : (t.bump 0xB03003).ringSize = t.ringSize := by
    rw [State.ringSize, State.reg_bump_other _ (by decide), State.ringSize]
  unfold State.postEvent
  by_cases hc : code = 1 <;> simp only [hc, if_true, if_false]
  all_goals
    split
    · split
      · exact State.eventMessage_mem _
      · rfl
    · next hn => exact absurd ((hr _).trans h) hn

@[simp] theorem State.updateService_swarm (s : State) : s.updateService.swarm = s.swarm := by
  unfold State.updateService
  dsimp only
  split <;> simp

theorem State.updateService_comb (s : State) (n : Nat) : s.updateService.comb n = s.comb n := by
  rw [State.comb, State.updateService_swarm, State.comb]

theorem State.updateService_occupied (s : State) (i : SlotId) : s.updateService.occupied i = s.occupied i := by
  rw [State.occupied, State.slot, State.updateService_swarm, State.occupied, State.slot]

theorem State.updateService_combFailed (s : State) (h p : Nat) : s.updateService.combFailed h p = s.combFailed h p := by
  rw [State.combFailed, State.updateService_swarm, State.combFailed]

theorem State.updateService_reg (s : State) {k : Nat} (h0 : k ≠ 0xB03003) (h3 : k ≠ 0xB04003) (h6 : k ≠ 0xB04006) :
    s.updateService.reg k = s.reg k := by
  unfold State.updateService
  dsimp only
  split
  · rfl
  · exact State.postEvent_reg _ _ _ _ h0 h3 h6

theorem State.updateService_mem {s : State} (h : s.ringSize = 0) : s.updateService.mem = s.mem := by
  unfold State.updateService
  dsimp only
  split
  · rfl
  · refine (State.postEvent_mem ?_ _ _ _).trans rfl
    exact h

/-! ## A hive that fails (R28) -/

/-- The working bit of a hive that fails is cleared. -/
def State.stopHive (s : State) (h : Nat) (bySpare : Bool) : State :=
  { s with swarm := { s.swarm with
    hives := s.swarm.hives &&& ~~~ (BitVec.ofNat 16 (2 ^ h))
    hiveFailedBySpare := if bySpare then s.swarm.hiveFailedBySpare ||| BitVec.ofNat 16 (2 ^ h) else s.swarm.hiveFailedBySpare } }

theorem State.stopHive_hiveWorks (s : State) (h : Nat) (bySpare : Bool) (g : Nat) :
    (s.stopHive h bySpare).hiveWorks g = (s.hiveWorks g && decide (g ≠ h)) := by
  simp only [State.hiveWorks, State.stopHive, BitVec.getLsbD_and, BitVec.getLsbD_not, BitVec.getLsbD_ofNat, Nat.testBit_two_pow]
  by_cases hg : g < 16 <;> by_cases he : h = g <;> simp [hg, he, eq_comm]

/-- Once the threads of its combs have halted, a hive that fails starts none (R28, R72, R334). -/
theorem State.failHive_quiet (s : State) (h : Nat) (bySpare : Bool) :
    ((s.stopHive h bySpare).haltCombs (h * 1024) (h * 1024 + 1024)).Quiet (s.failHive h bySpare) := by
  unfold State.failHive
  extract_lets _ stopped halted _ lost faulted dropped
  have hl : halted.Quiet lost := ⟨rfl, fun _ hi => hi⟩
  have hf : lost.Quiet faulted := by
    refine State.quiet_foldl (fun t p => ?_) _ lost
    dsimp only
    split
    · exact State.quiet_of_swarm (State.faultPool_swarm _ _)
    · exact State.Quiet.refl t
  have hd : faulted.Quiet dropped := (State.quiet_of_core (State.dropHive_core faulted 6 h)).trans (State.dropHeldWrites_quiet _ _ _)
  have he : dropped.Quiet (((dropped.hiveCollectives h).contained.postEvent 0x23 4 h).updateService) :=
    (State.hiveCollectives_quiet dropped h).trans (State.quiet_of_swarm (by simp))
  exact ((hl.trans hf).trans hd).trans he

theorem State.failHive_hiveWorks (s : State) (h : Nat) (bySpare : Bool) (g : Nat) :
    (s.failHive h bySpare).hiveWorks g = (s.hiveWorks g && decide (g ≠ h)) := by
  rw [(s.failHive_quiet h bySpare).hiveWorks, (State.haltCombs_quiet _ _ _).hiveWorks, State.stopHive_hiveWorks]

theorem State.failHive_combMap (s : State) (h : Nat) (bySpare : Bool) : (s.failHive h bySpare).swarm.combMap = s.swarm.combMap :=
  (s.failHive_quiet h bySpare).combMap.trans (State.haltCombs_quiet (s.stopHive h bySpare) _ _).combMap

theorem State.failHive_combFailed (s : State) (h : Nat) (bySpare : Bool) (g p : Nat) :
    (s.failHive h bySpare).combFailed g p = s.combFailed g p := by
  rw [State.combFailed, (s.failHive_quiet h bySpare).failedCombs, (State.haltCombs_quiet (s.stopHive h bySpare) _ _).failedCombs]
  rfl

/-- A slot that is empty as a hive fails stays empty. -/
theorem State.failHive_stays_empty {s : State} {i : SlotId} (hi : s.occupied i = false) (h : Nat) (bySpare : Bool) :
    (s.failHive h bySpare).occupied i = false :=
  (s.failHive_quiet h bySpare).2 i ((State.haltCombs_quiet (s.stopHive h bySpare) _ _).2 i hi)

/-- A hive that has failed has no occupied slot. -/
theorem State.failHive_empty (s : State) (h : Nat) (bySpare : Bool) {i : SlotId} (ht : i.thread < 4) (hi : i.cell / 65536 = h) :
    (s.failHive h bySpare).occupied i = false := by
  refine (s.failHive_quiet h bySpare).2 i (State.occupied_haltCombs _ ht ?_ ?_) <;> rw [SlotId.key] <;> omega

/-! ## A comb that fails (R27, R463) -/

/-- The failure of a comb is counted and its event posted. -/
def State.noteCombFailure (s : State) (n : Nat) : State := s.contained.postEvent 0x22 2 (n + s.physicalOf n * 2 ^ 16)

/-- A physical comb is recorded as failed. -/
def State.markFailed (s : State) (h p : Nat) : State :=
  { s with swarm := { s.swarm with failedCombs := SMap.put false s.swarm.failedCombs (h * 2048 + p) true } }

/-- The failure of a comb is noted, its threads halt, and its physical comb is recorded as failed. -/
def State.loseComb (s : State) (n : Nat) : State :=
  ((s.noteCombFailure n).haltCombs n (n + 1)).markFailed (n / 1024) (s.physicalOf n)

theorem State.noteCombFailure_swarm (s : State) (n : Nat) : (s.noteCombFailure n).swarm = s.swarm := by simp [State.noteCombFailure]

theorem State.markFailed_combMap (s : State) (h p : Nat) : (s.markFailed h p).swarm.combMap = s.swarm.combMap := rfl
theorem State.markFailed_hives (s : State) (h p : Nat) : (s.markFailed h p).swarm.hives = s.swarm.hives := rfl
theorem State.markFailed_comb (s : State) (h p n : Nat) : (s.markFailed h p).comb n = s.comb n := rfl
theorem State.markFailed_occupied (s : State) (h p : Nat) (i : SlotId) : (s.markFailed h p).occupied i = s.occupied i := rfl
theorem State.markFailed_reg (s : State) (h p k : Nat) : (s.markFailed h p).reg k = s.reg k := rfl

theorem State.markFailed_combFailed (s : State) (h p : Nat) : (s.markFailed h p).combFailed h p = true := by
  simp [State.combFailed, State.markFailed]

theorem State.combFailure_eq {s : State} {n : Nat} (hon : s.swarmOn = true) (hn : n < 16384) (hw : s.hiveWorks (n / 1024) = true)
    (hm : (s.comb n).movePending = false) : s.combFailure n = s.failComb n := by
  simp [State.combFailure, hon, hn, hw, hm]

theorem State.loseComb_combMap (s : State) (n : Nat) : (s.loseComb n).swarm.combMap = s.swarm.combMap := by
  rw [State.loseComb, State.markFailed_combMap, (State.haltCombs_quiet _ _ _).combMap, State.noteCombFailure_swarm]

theorem State.loseComb_hives (s : State) (n : Nat) : (s.loseComb n).swarm.hives = s.swarm.hives := by
  rw [State.loseComb, State.markFailed_hives, (State.haltCombs_quiet _ _ _).hives, State.noteCombFailure_swarm]

theorem State.loseComb_combFailed (s : State) (n : Nat) : (s.loseComb n).combFailed (n / 1024) (s.physicalOf n) = true :=
  State.markFailed_combFailed _ _ _

theorem State.loseComb_empty (s : State) (n : Nat) {i : SlotId} (ht : i.thread < 4) (hi : i.cell / 64 = n) :
    (s.loseComb n).occupied i = false := by
  rw [State.loseComb, State.markFailed_occupied]
  refine State.occupied_haltCombs _ ht ?_ ?_ <;> rw [SlotId.key] <;> omega

theorem State.loseComb_draining (s : State) (n m : Nat) : ((s.loseComb n).comb m).draining = (s.comb m).draining := by
  rw [State.loseComb, State.markFailed_comb, State.haltCombs_draining, State.comb, State.noteCombFailure_swarm, State.comb]

/-- The failure of a comb is a contained error (R461). -/
theorem State.loseComb_contained (s : State) (n : Nat) : satAdd 64 (s.reg 0xB02003) 1 ≤ (s.loseComb n).reg 0xB02003 := by
  have hn : (s.noteCombFailure n).reg 0xB02003 = satAdd 64 (s.reg 0xB02003) 1 := by
    rw [State.noteCombFailure, State.postEvent_reg _ _ _ _ (by decide) (by decide) (by decide), State.reg_contained]
  have hc := State.haltCombs_contains (s.noteCombFailure n) n (n + 1)
  rw [State.Contains, hn] at hc
  rw [State.loseComb, State.markFailed_reg]
  rw [satAdd] at hc ⊢
  omega

/-- The comb awaits its move; a drain of it has ended with its threads (R438, R463). -/
def State.awaitMove (s : State) (n : Nat) : State :=
  s.setComb n { s.comb n with movePending := true, drained := (s.comb n).draining }

theorem State.awaitMove_combMap (s : State) (n : Nat) : (s.awaitMove n).swarm.combMap = s.swarm.combMap := rfl
theorem State.awaitMove_hives (s : State) (n : Nat) : (s.awaitMove n).swarm.hives = s.swarm.hives := rfl
theorem State.awaitMove_occupied (s : State) (n : Nat) (i : SlotId) : (s.awaitMove n).occupied i = s.occupied i := rfl
theorem State.awaitMove_combFailed (s : State) (n h p : Nat) : (s.awaitMove n).combFailed h p = s.combFailed h p := rfl

theorem State.awaitMove_comb (s : State) (n : Nat) :
    (s.awaitMove n).comb n = { s.comb n with movePending := true, drained := (s.comb n).draining } := State.comb_setComb _ _ _

/-- A comb that fails with no spare left takes its hive with it; else it awaits its move (R463). -/
theorem State.failComb_eq (s : State) (n : Nat) : s.failComb n =
    if 32 ≤ s.failedIn (n / 1024) then (s.loseComb n).failHive (n / 1024) true else ((s.loseComb n).awaitMove n).updateService := by
  unfold State.failComb
  dsimp only
  by_cases h : 32 ≤ s.failedIn (n / 1024)
  · rw [if_pos h, if_pos (decide_eq_true h)]
    rfl
  · rw [if_neg h, if_neg (by simpa using h)]
    rfl

/-! ## A comb that moves (R27) -/

/-- An entry of a map whose range was cleared. -/
theorem SMap.get_clearRange {V : Type} (d : V) (m : SMap V) (lo hi k : Nat) :
    SMap.get d (SMap.clearRange m lo hi) k = if lo ≤ k ∧ k < hi then d else SMap.get d m k := by
  induction m with
  | nil => simp [SMap.clearRange, SMap.get]
  | cons e m ih =>
    obtain ⟨j, v⟩ := e
    rw [SMap.clearRange] at ih ⊢
    by_cases hj : lo ≤ j ∧ j < hi
    · rw [List.filter_cons_of_neg (by simpa using hj), ih, SMap.get]
      by_cases hk : k = j
      · rw [if_pos (hk ▸ hj), if_pos (hk ▸ hj)]
      · rw [if_neg hk]
    · rw [List.filter_cons_of_pos (by grind), SMap.get, ih, SMap.get]
      by_cases hk : k = j
      · rw [if_pos hk, if_pos hk, if_neg (hk ▸ hj)]
      · rw [if_neg hk, if_neg hk]

/-- The comb lies on its new physical comb, and awaits no move. -/
def State.remap (s : State) (n p : Nat) : State :=
  let u : State := { s with swarm := { s.swarm with combMap := SMap.put none s.swarm.combMap n (some p) } }
  u.setComb n { u.comb n with movePending := false }

/-- The near store of a comb becomes zero, its marks with it. -/
def State.zeroComb (s : State) (n : Nat) : State :=
  { s with mem := { s.mem with
    bytes := SMap.clearRange s.mem.bytes (combBase n) (combBase n + 0x200000)
    soft := SMap.clearRange s.mem.soft (combBase n) (combBase n + 0x200000)
    poison := SMap.clearRange s.mem.poison (combBase n) (combBase n + 0x200000) } }

/-- Does an uncorrectable word lie in the near store of the comb? -/
def State.combLost (s : State) (n : Nat) : Bool := SMap.anyIn s.mem.poison (combBase n) (combBase n + 0x200000) id

theorem State.moveComb_eq (s : State) (n p : Nat) : ∃ detail, s.moveComb n p =
    (if s.combLost n = true then ((s.remap n p).zeroComb n).contained.postEvent 0x21 2 detail
      else (s.remap n p).postEvent 0x20 0 detail).updateService := ⟨_, rfl⟩

theorem State.moveComb_swarm (s : State) (n p : Nat) : (s.moveComb n p).swarm = (s.remap n p).swarm := by
  obtain ⟨detail, h⟩ := s.moveComb_eq n p
  rw [h, State.updateService_swarm]
  split
  · rw [State.postEvent_swarm, State.contained_swarm]
    rfl
  · rw [State.postEvent_swarm]

theorem State.moveComb_mem {s : State} (hr : s.ringSize = 0) (n p : Nat) :
    (s.moveComb n p).mem = if s.combLost n = true then (s.zeroComb n).mem else s.mem := by
  obtain ⟨detail, h⟩ := s.moveComb_eq n p
  rw [h]
  split
  · have hz : ((s.remap n p).zeroComb n).contained.ringSize = 0 := (State.contained_ringSize _).trans hr
    rw [State.updateService_mem ((State.postEvent_ringSize _ _ _ _).trans hz), State.postEvent_mem hz]
    rfl
  · have hz : (s.remap n p).ringSize = 0 := hr
    rw [State.updateService_mem ((State.postEvent_ringSize _ _ _ _).trans hz), State.postEvent_mem hz]
    rfl

end Sys2Proof.Machine
end

section
/-! PROOF. O35: failed combs and hives, moves, and drains. -/

namespace Sys2Proof.Proofs

open Sys2Proof Sys2Proof.Machine Sys2Proof.Safety

/-- Settles O35: a failure halts the threads of its combs, and nothing it sets in motion starts one (`State.failHive_quiet`); a move
changes memory only where a word was lost (`State.moveComb_mem`). -/
theorem combAndHiveEvents : Obligations.CombAndHiveEvents := by
  unfold Obligations.CombAndHiveEvents
  refine ⟨?failed, ?awaits, ?moved, ?hive, ?drained⟩
  case failed =>
    intro s n hon hn hw hm
    refine ⟨s.failComb n, congrArg Host.Outcome.next (State.combFailure_eq hon hn hw hm), ?_⟩
    rw [State.failComb_eq]
    by_cases hsp : 32 ≤ s.failedIn (n / 1024)
    · rw [if_pos hsp]
      refine ⟨?_, fun j ht hj => State.failHive_stays_empty (s.loseComb_empty n ht hj) _ _, fun _ => ⟨?_, fun g hg => ?_⟩, ?_⟩
      · rw [State.failHive_combFailed, State.loseComb_combFailed]
      · rw [State.failHive_hiveWorks]
        simp
      · rw [State.failHive_hiveWorks, decide_eq_true hg, Bool.and_true, State.hiveWorks, State.loseComb_hives, State.hiveWorks]
      · rw [State.failHive_combMap, State.loseComb_combMap]
    · rw [if_neg hsp]
      refine ⟨?_, fun j ht hj => ?_, fun h => absurd h hsp, ?_⟩
      · rw [State.updateService_combFailed, State.awaitMove_combFailed, State.loseComb_combFailed]
      · rw [State.updateService_occupied, State.awaitMove_occupied, s.loseComb_empty n ht hj]
      · rw [State.updateService_swarm, State.awaitMove_combMap, State.loseComb_combMap]
  case awaits =>
    intro s n hon hn hw hm hsp
    refine ⟨s.failComb n, congrArg Host.Outcome.next (State.combFailure_eq hon hn hw hm), ?_⟩
    rw [State.failComb_eq, if_neg (by omega), State.updateService_comb, State.awaitMove_comb, State.updateService_swarm]
    refine ⟨rfl, s.loseComb_draining n n, s.loseComb_draining n n, ?_, ?_, ?_⟩
    · rw [State.updateService_reg _ (by decide) (by decide) (by decide), State.awaitMove, State.reg_setComb]
      exact s.loseComb_contained n
    · rw [State.awaitMove_combMap, State.loseComb_combMap]
    · rw [State.awaitMove_hives, State.loseComb_hives]
  case moved =>
    intro s n p hon hn hw hm he hp hf hmap
    have hswarm := s.moveComb_swarm n p
    refine ⟨s.moveComb n p, ?_, ?_, fun m hne => ?_, ?_, ?_, fun cell off => ?_, fun hl hr => ?_,
      fun hl hr => ⟨fun a ha hb => ?_, fun a ha => ?_⟩⟩
    · exact congrArg Host.Outcome.next (by simp [State.combMove, hon, hn, hw, hm, he, hp, hf, hmap])
    · rw [State.physicalOf, hswarm]
      simp [State.remap, State.setComb]
    · rw [State.physicalOf, hswarm]
      simp only [State.remap, State.setComb, SMap.get_put_other _ _ _ hne]
      rfl
    · rw [State.comb, hswarm]
      exact State.comb_setComb _ _ _
    · rw [hswarm]
      rfl
    · rw [State.padByte, State.padGeneration, hswarm]
      rfl
    · rw [State.moveComb_mem hr, State.combLost, hl]
      rfl
    · rw [State.rawByte, State.moveComb_mem hr, State.combLost, hl, if_pos rfl]
      exact (SMap.get_clearRange _ _ _ _ _).trans (if_pos ⟨ha, hb⟩)
    · rw [State.rawByte, State.moveComb_mem hr, State.combLost, hl, if_pos rfl]
      exact (SMap.get_clearRange _ _ _ _ _).trans (if_neg (by omega))
  case hive =>
    intro s h hon hw
    refine ⟨s.failHive h false, congrArg Host.Outcome.next (by simp [State.hiveFailure, hon, hw]), ?_, fun g hg => ?_,
      fun j ht hj => s.failHive_empty h false ht hj⟩
    · rw [State.failHive_hiveWorks]
      simp
    · rw [State.failHive_hiveWorks, decide_eq_true hg, Bool.and_true]
  case drained =>
    intro s n hon hn hd hnd he
    exact congrArg Host.Outcome.next (by simp [State.combDrained, hon, hn, hd, hnd, he])

end Sys2Proof.Proofs
end

section
/-! SUPPORT. A multiply that is not speculative, from the checks it passes to its end: the entries it writes, what it counts, and the
shadow tile of a chosen candidate (R100, R126, R131, R152, R155, R189, R190). -/

namespace Sys2Proof.Machine

open Sys2Proof Sys2Proof.Safety

/-- A multiply that is not speculative computes every entry: the sum of R152 or R155 over the products of its row of `a` and its row of
`b`, from its start. -/
theorem mulEntries_all (a c : Desc) (ta tc : TileRows) (start : List W32) :
    mulEntries a c ta tc start (fun _ => true) = (List.range (a.rows * c.rows)).map fun k =>
      entrySum (fmtIsInt a.fmt) (mulBlock a c) a.cols (start.getD k 0) (products ta tc (k / c.rows) (k % c.rows)) := rfl

/-- What a multiply counts: conflicts and dropped indices of its operands, clamps, wide overflows, and the stalls of its gather stage
(R50, R126, R128, R129, R131). -/
def State.countMultiply (s : State) (op : Nat) (ta tc : TileRows) (es : List AccEntry) : State :=
  (((s.operandCounts (ta.conflicts + tc.conflicts) (ta.dropped + tc.dropped)).bumpBy 0x300106
    (es.filter fun e => e.clamped).length).setWide (es.any fun e => e.wide)).gatherStall op

/-- The bins of a multiply's entries, each compared with its shadow value (R190). -/
def shadowBins (c : Desc) (ta tc : TileRows) (start : List W32) (es : List AccEntry) : List Nat :=
  (List.range es.length).map fun k =>
    shadowBin ((es.map AccEntry.value).getD k 0) (shadowValue (start.getD k 0) (products ta tc (k / c.rows) (k % c.rows)))

/-- The shadow tile of a multiply by slot `t` of a cell, where it is a chosen candidate (R189–R191). -/
def State.shadowMultiply (s : State) (t : Slot) (cell : Nat) (a d : Desc) (bins : List Nat) : State :=
  if s.shadowChosen t a d then s.shadowTile d.tensor cell t.latch.epoch bins else s

section
variable {x : Issue} {s q0 q1 q2 s2 : State} {a c d : Desc} {accumulate : Bool} {start : List W32} {ta tc : TileRows}

/-- A multiply reads its start values, if it accumulates, and its operands, writes its entries, and counts and compares them. -/
theorem plainMultiply_done (hh : (s.slot x.id).touchesHeld [a, c, d] = false)
    (hacc : accumulate = true → Cmd.entries x d s = .ok (start, q0))
    (hzero : accumulate = false → start = List.replicate (d.rows * d.cols) 0 ∧ q0 = s)
    (ha : Cmd.tile x a 5 q0 = .ok (ta, q1)) (hc : Cmd.tile x c 5 q1 = .ok (tc, q2)) {es : List AccEntry}
    (hes : mulEntries a c ta tc start (fun _ => true) = es)
    (hw : Cmd.putEntries x d (es.map AccEntry.value) q2 = .ok ((), s2)) :
    plainMultiply x a c d accumulate s = .ok (.next, (s2.countMultiply (cmdOp x.word) ta tc es).shadowMultiply (s2.slot x.id)
      x.id.cell a d (shadowBins c ta tc start es)) := by
  subst hes
  unfold plainMultiply
  rw [Cmd.commitOk_bind hh]
  refine Cmd.bind_ok (v := ()) (Cmd.into_ok ?_)
  cases accumulate
  case' true => refine (Cmd.bind_ok (hacc rfl)).trans ?_
  case' false =>
    obtain ⟨rfl, rfl⟩ := hzero rfl
    refine (Cmd.pure_bind _ _).trans ?_
  all_goals
    dsimp only
    rw [Cmd.bind_ok ha, Cmd.bind_ok hc, Cmd.bind_ok hw]
    rfl

end

/-- The body of MMA, MMA24 and MMASA without the speculative modifier is the plain multiply of the tiles that the slot names, once steps 5
to 9 of R492 pass. -/
theorem multiplyBody_plain {x : Issue} {s : State} {a c d : Desc} (hspec : bitOf (cmdMods x.word) 1 = false)
    (ha : (s.slot x.id).tile (cmdA x.word) = a) (hc : (s.slot x.id).tile (cmdB x.word) = c)
    (hd : (s.slot x.id).tile (cmdD x.word) = d) (hr : mulReason (cmdOp x.word) false a c d = none) :
    multiplyBody x s = plainMultiply x a c d (bitOf (cmdMods x.word) 0) s := by
  unfold multiplyBody
  rw [Cmd.slot_bind]
  simp only [ha, hc, hd, hspec]
  rw [Cmd.check_bind hr, if_neg Bool.false_ne_true]

end Sys2Proof.Machine
end

section
/-! PROOF. O31: the multiplies that are not speculative. -/

namespace Sys2Proof.Proofs

open Sys2Proof Sys2Proof.Machine Sys2Proof.Safety

section
variable (s : State) (i : SlotId)

theorem exec_mma : exec (.mma i) s = .next (runCommand s i (fun w => cmdOp w == 0x30) multiplyBody) := rfl
theorem exec_mma24 : exec (.mma24 i) s = .next (runCommand s i (fun w => cmdOp w == 0x31) multiplyBody) := rfl
theorem exec_mmasa : exec (.mmasa i) s = .next (runCommand s i (fun w => cmdOp w == 0x32) multiplyBody) := rfl

end

/-- Settles O31: the three rows have one body, which without the speculative modifier is the plain multiply; that completes with its
entries written, counted and compared, and `runCommand_done` retires the slot. -/
theorem tensorMultiplies : Obligations.TensorMultiplies := by
  unfold Obligations.TensorMultiplies
  intro s i w b h hspec u x s1 a c d hr hh start ta tb q0 q1 q2 s2 hacc hzero ha hc es hw s3 s4' s4 hgo
  have hplain : plainMultiply x a c d (bitOf (cmdMods w) 0) s1 = .ok (.next, s4) :=
    plainMultiply_done (x := x) (s := s1) ((begun_touchesHeld s i w b _).trans hh) (fun hm => Cmd.of_gives (hacc hm)) hzero
      (Cmd.of_gives ha) (Cmd.of_gives hc) (mulEntries_all a c ta tb start) (Cmd.of_writes hw)
  have hbody : multiplyBody x s1 = .ok (.next, s4) :=
    (multiplyBody_plain (x := x) hspec (begun_tile s i w b _) (begun_tile s i w b _) (begun_tile s i w b _) hr).trans hplain
  have hrun {op : Nat} (ho : cmdOp w = op) : runCommand s i (fun w => cmdOp w == op) multiplyBody = done s4 i u.ptr :=
    runCommand_done (row := fun w => cmdOp w == op) h (beq_iff_eq.mpr ho) hbody hgo
  exact ⟨fun ho => (exec_mma s i).trans (congrArg Host.Outcome.next (hrun ho)),
    fun ho => (exec_mma24 s i).trans (congrArg Host.Outcome.next (hrun ho)),
    fun ho => (exec_mmasa s i).trans (congrArg Host.Outcome.next (hrun ho))⟩

end Sys2Proof.Proofs
end

section
/-! SUPPORT. The memory agents at ports 0x82 and 0x83 (R79, R117, R236, R242, R243): the request an agent takes, and what serving it comes
to in each case. -/

namespace Sys2Proof.Machine

open Sys2Proof

/-! ## The request that is taken -/

section
variable {s u : State} {port tc kind : Nat} {h : Hdr} {f : Frame}

/-- An agent of a powered module serves the request that it takes. -/
theorem State.agentFrame_take (hp : s.pow.powered = true) (hport : port = 0x82 ∨ port = 0x83)
    (ht : s.take port tc kind = some (h, f, u)) (serve : State → Hdr → Frame → State) :
    s.agentFrame port tc kind serve = serve u h f := by
  have hon : (s.pow.powered && (port == 0x82 || port == 0x83)) = true := by simpa [hp] using hport
  rw [State.agentFrame, if_pos hon]
  simp only [ht]

/-- A PUT waits exactly where a piece of it would be held for a comb that swaps (R117). -/
theorem State.putWaits_take (ht : s.take port tc 1 = some (h, f, u)) :
    s.putWaits port tc = s.heldForSwap h.offset (f.payload.length - h.sop) := by
  simp only [State.putWaits, ht]

end

/-! ## What serving it comes to -/

section
variable {s w : State} {h : Hdr} {f : Frame} (port : Nat)

theorem State.serverPut_beyond (ho : 2 ^ 40 ≤ h.offset) : State.serverPut port s h f = s.failRequest port h 0x81 0 :=
  if_pos ho

/-- A PUT that can be written is written, and acknowledged (R79). -/
theorem State.serverPut_written (ho : h.offset < 2 ^ 40)
    (hw : s.memWrite ⟨4, h.srcNode⟩ [(h.offset, f.payload.take (f.payload.length - h.sop))] = (w, none)) :
    State.serverPut port s h f = w.ackPut port h := by
  rw [State.serverPut, if_neg (Nat.not_le.mpr ho)]
  simp only [hw]

theorem State.serverPut_failed {e : MemErr} (ho : h.offset < 2 ^ 40)
    (hw : s.memWrite ⟨4, h.srcNode⟩ [(h.offset, f.payload.take (f.payload.length - h.sop))] = (w, some e)) :
    State.serverPut port s h f = w.failRequest port h e.cause.code (w.globalOf e.addr) := by
  rw [State.serverPut, if_neg (Nat.not_le.mpr ho)]
  simp only [hw]

theorem State.serverGet_miscounted (hn : numAt f.payload 8 4 = 0 ∨ 4096 < numAt f.payload 8 4) :
    State.serverGet port s h f = s.failRequest port h 4 0 := if_pos hn

section
variable (h1 : 1 ≤ numAt f.payload 8 4) (h2 : numAt f.payload 8 4 ≤ 4096)
include h1 h2

theorem State.serverGet_beyond (ho : 2 ^ 40 ≤ h.offset) : State.serverGet port s h f = s.failRequest port h 0x81 0 := by
  rw [State.serverGet, if_neg (by omega), if_pos ho]

theorem State.serverGet_failed {e : MemErr} (ho : h.offset < 2 ^ 40)
    (hr : s.memRead ⟨4, h.srcNode⟩ [(h.offset, numAt f.payload 8 4)] = (w, .error e)) :
    State.serverGet port s h f = w.failRequest port h e.cause.code (w.globalOf e.addr) := by
  rw [State.serverGet, if_neg (by omega), if_neg (Nat.not_le.mpr ho)]
  simp only [hr]

/-- The bytes of a GET return in one frame, padded, at the return address that it names (R242). -/
theorem State.serverGet_read {bs : List Byte} (ho : h.offset < 2 ^ 40)
    (hr : s.memRead ⟨4, h.srcNode⟩ [(h.offset, numAt f.payload 8 4)] = (w, .ok bs)) :
    State.serverGet port s h f = w.send port
      ⟨({ w.responseHdr h 3 ((padTo 64 bs).length / 64) with
          sop := (padTo 64 bs).length - numAt f.payload 8 4, offset := numAt f.payload 0 8 } : Hdr).encode, padTo 64 bs⟩ := by
  rw [State.serverGet, if_neg (by omega), if_neg (Nat.not_le.mpr ho)]
  simp only [hr]

end

/-- An ATOMIC that is misaligned, or lies neither in near store nor in HBM, is not performed (R243). -/
theorem State.serverAtomic_misplaced (hp : atomicAt h.offset (if bitOf (numAt f.payload 0 1) 2 then 8 else 4) = false) :
    State.serverAtomic port s h f = s.failRequest port h 0x84 (s.globalOf (h.offset % 2 ^ 40)) := by
  simp only [State.serverAtomic, hp, Bool.not_false, if_true]

section
variable (hp : atomicAt h.offset (if bitOf (numAt f.payload 0 1) 2 then 8 else 4) = true)
include hp

theorem State.serverAtomic_failed {e : MemErr}
    (ha : s.atomicHere ⟨4, h.srcNode⟩ h.offset (numAt f.payload 0 1) (numAt f.payload 8 8) (numAt f.payload 16 8) = (w, .error e)) :
    State.serverAtomic port s h f = w.failRequest port h e.cause.code (w.globalOf e.addr) := by
  simp only [State.serverAtomic, hp, ha, Bool.not_true, Bool.false_eq_true, if_false]

/-- The old value of an ATOMIC returns (R81). -/
theorem State.serverAtomic_performed {old : Nat}
    (ha : s.atomicHere ⟨4, h.srcNode⟩ h.offset (numAt f.payload 0 1) (numAt f.payload 8 8) (numAt f.payload 16 8) = (w, .ok old)) :
    State.serverAtomic port s h f = w.send port ⟨(w.responseHdr h 5 1).encode, padTo 64 (natLE 8 old)⟩ := by
  simp only [State.serverAtomic, hp, ha, Bool.not_true, Bool.false_eq_true, if_false]

end
end

/-! ## Acknowledgements (R79, R236) -/

/-- Has a set of acknowledgements of a node and TC waited 1 us at the instant `t`? -/
def AckSet.due (node tc t : Nat) (a : AckSet) : Bool := a.node == node && a.tc == tc && decide (a.since + 1000 ≤ t)

/-- The sets that are due are sent, and the others stay. -/
theorem State.ackCoalesce_due {s : State} {node tc at_ : Nat} (hp : s.pow.powered = true)
    (hd : s.net.acks.any (AckSet.due node tc (max s.now at_)) = true) :
    s.ackCoalesce node tc at_ = (s.net.acks.filter (AckSet.due node tc (max s.now at_))).foldl State.sendAck
      { s.at_ at_ with net := { (s.at_ at_).net with acks := s.net.acks.filter fun a => !a.due node tc (max s.now at_) } } := by
  have hon : (s.pow.powered && s.net.acks.any (AckSet.due node tc (max s.now at_))) = true := by rw [hp, hd]; rfl
  rw [State.ackCoalesce]
  refine (if_pos hon).trans ?_
  dsimp only
  rw [State.at_net]
  rfl

end Sys2Proof.Machine
end

section
/-! PROOF. O51: the memory agents. -/

namespace Sys2Proof.Proofs

open Sys2Proof Sys2Proof.Machine Sys2Proof.Safety

section
variable {s u t : State} {port tc : Nat} {h : Hdr} {f : Frame} (hp : s.pow.powered = true) (hport : port = 0x82 ∨ port = 0x83)
include hp hport

/-- A PUT that need not wait is served. -/
theorem exec_putFrame_serves (ht : s.take port tc 1 = some (h, f, u))
    (hh : s.heldForSwap h.offset (f.payload.length - h.sop) = false) (hs : State.serverPut port u h f = t) :
    exec (.putFrame port tc) s = .next t := by
  subst hs
  refine congrArg Host.Outcome.next ((if_neg ?_).trans (State.agentFrame_take hp hport ht _))
  rw [State.putWaits_take ht, hh]
  exact Bool.false_ne_true

theorem exec_getFrame_serves (ht : s.take port tc 2 = some (h, f, u)) (hs : State.serverGet port u h f = t) :
    exec (.getFrame port tc) s = .next t :=
  congrArg Host.Outcome.next ((State.agentFrame_take hp hport ht _).trans hs)

theorem exec_atomicFrame_serves (ht : s.take port tc 4 = some (h, f, u)) (hs : State.serverAtomic port u h f = t) :
    exec (.atomicFrame port tc) s = .next t :=
  congrArg Host.Outcome.next ((State.agentFrame_take hp hport ht _).trans hs)

theorem exec_freeFrame_serves (ht : s.take port tc 8 = some (h, f, u)) :
    exec (.freeFrame port tc) s = .next (State.serverFree port u h f) :=
  congrArg Host.Outcome.next (State.agentFrame_take hp hport ht _)

end

/-- Settles O51: the row takes the request, and serving it comes to what the lemma of its case says. -/
theorem memoryAgents : Obligations.MemoryAgents := by
  unfold Obligations.MemoryAgents
  refine ⟨fun s u port tc h f hp hport => ⟨fun ht hh => ?waits, fun ht ho hh => ⟨fun w hw => ?_, fun w e hw => ?_⟩,
    fun ho => ⟨fun ht hh => ?_, fun ht h1 h2 => ?_⟩, fun ht => ⟨fun hn => ?_, fun w e ho h1 h2 hr => ?_⟩,
    fun ht ho h1 h2 w bs hr => ?_, fun ht => ⟨fun ha => ?_, fun w e ha hr => ?_, fun w old ha hr => ?_⟩,
    fun ht => exec_freeFrame_serves hp hport ht⟩, fun s node tc at_ => ?acks⟩
  case waits =>
    refine congrArg Host.Outcome.next (if_pos ?_)
    rw [State.putWaits_take ht, hh]
  case acks =>
    intro due hp hd v
    exact congrArg Host.Outcome.next (State.ackCoalesce_due hp hd)
  · exact exec_putFrame_serves hp hport ht hh (State.serverPut_written port ho hw)
  · exact exec_putFrame_serves hp hport ht hh (State.serverPut_failed port ho hw)
  · exact exec_putFrame_serves hp hport ht hh (State.serverPut_beyond port ho)
  · exact exec_getFrame_serves hp hport ht (State.serverGet_beyond port h1 h2 ho)
  · exact exec_getFrame_serves hp hport ht (State.serverGet_miscounted port hn)
  · exact exec_getFrame_serves hp hport ht (State.serverGet_failed port h1 h2 ho hr)
  · exact exec_getFrame_serves hp hport ht (State.serverGet_read port h1 h2 ho hr)
  · exact exec_atomicFrame_serves hp hport ht (State.serverAtomic_misplaced port ha)
  · exact exec_atomicFrame_serves hp hport ht (State.serverAtomic_failed port ha hr)
  · exact exec_atomicFrame_serves hp hport ht (State.serverAtomic_performed port ha hr)

end Sys2Proof.Proofs
end

section
/-! SUPPORT. The bytes of pads (R63, R114): what reads back after a write, and what reading and writing leave of the state where no word is
uncorrectable. -/

namespace Sys2Proof.Machine

open Sys2Proof

/-! ## Bytes written read back -/

theorem State.padByte_setPadByte_other (s : State) {cell off c o : Nat} (b : Byte) (h : c * 8192 + o ≠ cell * 8192 + off) :
    (s.setPadByte cell off b).padByte c o = s.padByte c o := by
  simp only [State.padByte, State.setPadByte, SMap.get_put_other _ _ _ h]
  rfl

/-- Storing bytes in a pad changes no byte outside them, of that pad or of another. -/
theorem State.padByte_setPadBytes_other (s : State) {cell off c o : Nat} (bs : List Byte)
    (h : c * 8192 + o < cell * 8192 + off ∨ cell * 8192 + off + bs.length ≤ c * 8192 + o) :
    (s.setPadBytes cell off bs).padByte c o = s.padByte c o := by
  induction bs generalizing s off with
  | nil => rfl
  | cons b bs ih =>
    rw [List.length_cons] at h
    rw [State.setPadBytes, ih _ (by omega), State.padByte_setPadByte_other _ _ (by omega)]

/-- A byte stored in a pad reads back. -/
theorem State.padByte_setPadBytes (s : State) (cell off : Nat) (bs : List Byte) {k : Nat} (hk : k < bs.length) :
    (s.setPadBytes cell off bs).padByte cell (off + k) = bs.getD k 0 := by
  induction bs generalizing s off k with
  | nil => exact absurd hk (Nat.not_lt_zero k)
  | cons b bs ih =>
    cases k with
    | zero =>
      rw [State.setPadBytes, State.padByte_setPadBytes_other _ _ (by omega)]
      exact State.padByte_setPadByte s cell off b
    | succ k =>
      rw [List.length_cons] at hk
      rw [State.setPadBytes, show off + (k + 1) = off + 1 + k by omega, ih _ _ (by omega)]
      rfl

/-! ## What reading leaves -/

theorem State.correctPadWord_mem (s : State) (cell off : Nat) : (s.correctPadWord cell off).mem = s.mem := by
  unfold State.correctPadWord
  dsimp only
  split <;> rfl

theorem State.correctPad_mem (s : State) (cell : Nat) (segs : List Seg) : (s.correctPad cell segs).mem = s.mem := by
  unfold State.correctPad
  split
  · rfl
  · exact foldl_keeps State.mem (fun _ _ => State.correctPadWord_mem _ _ _) _ _

/-- Where no word of a pad has an error, a read corrects none. -/
theorem State.correctPad_clean {s : State} (h : ∀ k, SMap.get false s.swarm.padSoft k = false) (cell : Nat) (segs : List Seg) :
    s.correctPad cell segs = s := by
  have hw (a : Nat) : s.correctPadWord cell a = s := by
    unfold State.correctPadWord
    dsimp only
    rw [h, if_neg Bool.false_ne_true]
  unfold State.correctPad
  split
  · rfl
  · generalize segs.flatMap _ = l
    induction l with
    | nil => rfl
    | cons a l ih => rw [List.foldl_cons, hw, ih]

/-- States that differ in marks and counts alone, and not in memory, differ in the marks of pads and the counts. -/
theorem State.eq_of_sansMarks {s t : State} (h : t.sansMarks = s.sansMarks) (hm : t.mem = s.mem) :
    t = { s with swarm := { s.swarm with padSoft := t.swarm.padSoft }, dict := { s.dict with regs := t.dict.regs } } :=
  calc t = { t.sansMarks with
              mem := t.mem
              swarm := { t.sansMarks.swarm with padSoft := t.swarm.padSoft }
              dict := { t.sansMarks.dict with regs := t.dict.regs } } := rfl
    _ = { s.sansMarks with
              mem := s.mem
              swarm := { s.sansMarks.swarm with padSoft := t.swarm.padSoft }
              dict := { s.sansMarks.dict with regs := t.dict.regs } } := by rw [h, hm]

/-! ## What writing leaves -/

/-- The state without the bytes and marks of its pads, and without the values of the dictionary. -/
def State.sansPads (s : State) : State :=
  { s with swarm := { s.swarm with pads := [], padPoison := [], padSoft := [] }, dict := { s.dict with regs := [] } }

theorem State.eq_of_sansPads {s t : State} (h : t.sansPads = s.sansPads) :
    t = { s with swarm := { s.swarm with pads := t.swarm.pads, padPoison := t.swarm.padPoison, padSoft := t.swarm.padSoft }
                 dict := { s.dict with regs := t.dict.regs } } :=
  calc t = { t.sansPads with
              swarm := { t.sansPads.swarm with pads := t.swarm.pads, padPoison := t.swarm.padPoison, padSoft := t.swarm.padSoft }
              dict := { t.sansPads.dict with regs := t.dict.regs } } := rfl
    _ = { s.sansPads with
              swarm := { s.sansPads.swarm with pads := t.swarm.pads, padPoison := t.swarm.padPoison, padSoft := t.swarm.padSoft }
              dict := { s.sansPads.dict with regs := t.dict.regs } } := by rw [h]

/-- A word of a pad takes fresh check bits (R114). -/
def State.freshPadWord (s : State) (cell w : Nat) : State :=
  { s with swarm := { s.swarm with
      padPoison := SMap.put false s.swarm.padPoison (cell * 8192 + w) false
      padSoft := SMap.put false s.swarm.padSoft (cell * 8192 + w) false } }

/-- The bytes of all pads, with all the state but their marks and the values of the dictionary. -/
def State.padContents (s : State) : SMap (Option Byte) × State := (s.swarm.pads, s.sansPads)

theorem State.correctPadWord_contents (s : State) (cell off : Nat) : (s.correctPadWord cell off).padContents = s.padContents := by
  unfold State.correctPadWord
  dsimp only
  split <;> rfl

theorem State.correctPad_contents (s : State) (cell : Nat) (segs : List Seg) : (s.correctPad cell segs).padContents = s.padContents := by
  unfold State.correctPad
  split
  · rfl
  · exact foldl_keeps State.padContents (fun _ _ => State.correctPadWord_contents _ _ _) _ _

theorem State.padByte_of_contents {s t : State} (h : t.padContents = s.padContents) (cell off : Nat) :
    t.padByte cell off = s.padByte cell off := by
  obtain ⟨hb, hs⟩ := Prod.mk.inj h
  have hg : t.swarm.padGen = s.swarm.padGen := (congrArg (fun u : State => u.swarm.padGen) hs :)
  rw [State.padByte, State.padGeneration, hb, hg, State.padByte, State.padGeneration]

theorem State.setPadBytes_sansPads (s : State) (cell off : Nat) (bs : List Byte) :
    (s.setPadBytes cell off bs).sansPads = s.sansPads := by
  induction bs generalizing s off with
  | nil => rfl
  | cons b bs ih => exact (ih _ _).trans rfl

/-- Where no word is uncorrectable a write of a pad is performed: errors are corrected, words take fresh check bits, and then the bytes are
stored. -/
theorem State.padWrite_sound {s : State} (hp : ∀ k, SMap.get false s.swarm.padPoison k = false) (cell a : Nat) (bs : List Byte) :
    ∃ u : State, s.padWrite cell [(a, bs)] = some (u.setPadBytes cell a bs) ∧ u.padContents = s.padContents := by
  unfold State.padWrite
  extract_lets g8 inside words bad
  have hbad : bad = false := List.any_eq_false.mpr fun w _ => by simp [hp]
  rw [hbad, if_neg Bool.false_ne_true]
  refine ⟨_, rfl, ?_⟩
  refine (foldl_keeps State.padContents (f := fun s w => s.freshPadWord cell w) (fun _ _ => rfl) _ _).trans ?_
  exact State.correctPad_contents _ _ _

end Sys2Proof.Machine
end

section
/-! PROOF. O21: the accesses to a cell's own pad. -/

namespace Sys2Proof.Proofs

open Sys2Proof Sys2Proof.Machine Sys2Proof.Safety

/-- A read of pad ranges where no word is uncorrectable: their bytes, and the errors corrected. -/
theorem readPad_sound {s : State} (hp : ∀ k, SMap.get false s.swarm.padPoison k = false) (x : Issue) (rs : List Range') :
    Cmd.readPad x rs s = .ok (rs.flatMap fun g => s.padBytes x.id.cell g.1.toNat g.2,
      s.correctPad x.id.cell (rs.map fun g => (g.1.toNat, g.2))) := by
  have hgood : s.padBad x.id.cell (rs.map fun g => (g.1.toNat, g.2)) = false := by
    simp [State.padBad, hp]
  simp only [Cmd.readPad, State.padRead, hgood, Bool.false_eq_true, if_false, List.flatMap_map]

/-- Settles O21: a read corrects marks and nothing else (`State.correctPad_sansMarks`, `State.correctPad_mem`); a write stores its bytes
in a state whose pads hold what they held (`State.padWrite_sound`). -/
theorem padAccess : Obligations.PadAccess := by
  unfold Obligations.PadAccess
  refine fun s x hp => ⟨fun rs => ?read, fun a bs ha => ?write⟩
  case read =>
    refine ⟨_, readPad_sound hp x rs, ?_, fun hs => State.correctPad_clean hs _ _⟩
    exact State.eq_of_sansMarks (State.correctPad_sansMarks _ _ _) (State.correctPad_mem _ _ _)
  case write =>
    obtain ⟨u, hw, hu⟩ := State.padWrite_sound hp x.id.cell a bs
    refine ⟨u.setPadBytes x.id.cell a bs, ?_, fun k hk => State.padByte_setPadBytes u x.id.cell a bs hk, fun cell off ho hout => ?_, ?_⟩
    · simp only [Cmd.writePad, List.map_cons, List.map_nil, Int.toNat_natCast, hw]
    · exact (State.padByte_setPadBytes_other u bs (by omega)).trans (State.padByte_of_contents hu cell off)
    · exact State.eq_of_sansPads ((State.setPadBytes_sansPads _ _ _ _).trans (Prod.mk.inj hu).2)

end Sys2Proof.Proofs
end

section
/-! SUPPORT. Plain memory: near store of hives that work and HBM outside the metadata of pools (R22, R208). Reads and writes of it succeed
where no word is uncorrectable; a write leaves its bytes there, and everything but memory and the counts as it was (R67, R200). -/

namespace Sys2Proof.Machine

open Sys2Proof

/-- A fold whose steps leave what `g` reads, for the elements of the list, leaves it. -/
theorem foldl_keeps_of_mem {α β γ : Type} (g : β → γ) {f : β → α → β} {l : List α} (h : ∀ a ∈ l, ∀ b, g (f b a) = g b)
    (b : β) : g (l.foldl f b) = g b :=
  List.foldlRecOn (motive := fun c => g c = g b) l f rfl fun c hc a ha => (h a ha c).trans hc

/-- Does a local address lie in memory that any access may reach? -/
def State.Plain (s : State) (a : Nat) : Prop :=
  place a = .hbm ∧ s.inPoolMeta a = false ∨ ∃ h, place a = .near h ∧ s.hiveWorks h = true

/-- The `n` bytes from `a` lie in plain memory, and no word of them is uncorrectable. -/
def State.Sound (s : State) (a n : Nat) : Prop := ∀ k, k < n → s.Plain (a + k) ∧ s.poisoned (a + k) = false

/-- Reads keep what is plain and sound. -/
theorem State.sound_of_sansMarks {s t : State} (h : t.sansMarks = s.sansMarks) {a n : Nat} (hs : s.Sound a n) : t.Sound a n := by
  show t.sansMarks.Sound a n
  rw [h]
  exact hs

section
variable {s : State} {a : Nat} (hp : s.Plain a)
include hp

theorem State.Plain.readFault (hq : s.poisoned a = false) (whole8 : Bool) : s.readFault whole8 a = none := by
  obtain ⟨hb, hm⟩ | ⟨h, hn, hw⟩ := hp
  · simp [State.readFault, hb, hm, hq]
  · simp [State.readFault, hn, hw, hq]

theorem State.Plain.writeFault (whole8 : Bool) : s.writeFault whole8 a = none := by
  obtain ⟨hb, hm⟩ | ⟨h, hn, hw⟩ := hp
  · simp [State.writeFault, hb, hm]
  · simp [State.writeFault, hn, hw]

theorem State.Plain.readByte (t : State) : t.readByte a = t.rawByte a := by
  obtain ⟨hb, -⟩ | ⟨h, hn, -⟩ := hp
  · simp only [State.readByte, hb]
  · simp only [State.readByte, hn]

theorem State.Plain.progOf : progOf a = none := by
  obtain ⟨hb, -⟩ | ⟨h, hn, -⟩ := hp
  · simp only [Machine.progOf, hb]
  · simp only [Machine.progOf, hn]

/-- A read of plain memory corrects no pad word. -/
theorem State.Plain.correctAt_swarm (t : State) : (t.correctAt a).swarm = t.swarm := by
  have hpad (cell off : Nat) : place a ≠ .pad cell off := by
    obtain ⟨hb, -⟩ | ⟨h, hn, -⟩ := hp
    · rw [hb]; exact nofun
    · rw [hn]; exact nofun
  unfold State.correctAt
  split
  · next cell off hc => exact absurd hc (hpad cell off)
  · split
    · unfold State.countCorrection State.rowCorrected
      dsimp only
      repeat' split
      all_goals rfl
    · rfl

end

/-! ## Reading -/

section
variable {s : State} {a n : Nat} (hs : s.Sound a n)
include hs

theorem State.Sound.firstReadFault : s.firstReadFault [(a, n)] = none := by
  have hall : ((List.range n).findSome? fun i => (s.readFault (seg8 (a, n)) (a + i)).map fun c =>
      MemErr.mk c (if c = .data then wordOf (a + i) else a + i)) = none := by
    refine List.findSome?_eq_none_iff.mpr fun k hk => ?_
    obtain ⟨hp, hq⟩ := hs k (List.mem_range.mp hk)
    rw [hp.readFault hq]
    rfl
  simp only [State.firstReadFault, hall]

/-- A read of sound memory answers the bytes stored, and corrects what errors it meets. -/
theorem State.Sound.memRead (who : Requester) : s.memRead who [(a, n)] = (s.correctRead [(a, n)], .ok (s.rawBytes a n)) := by
  have hbytes : ((List.range n).map fun i => s.readByte (a + i)) = s.rawBytes a n :=
    List.map_congr_left fun k hk => (hs k (List.mem_range.mp hk)).1.readByte s
  simp only [State.memRead, hs.firstReadFault, List.flatMap_cons, List.flatMap_nil, List.append_nil, hbytes]

theorem State.Sound.firstWriteFault (all : List Seg) : s.firstWriteFault all [(a, n)] = none := by
  unfold State.firstWriteFault
  split
  · next e he =>
    obtain ⟨k, hk, he⟩ := List.exists_of_findSome?_eq_some he
    obtain ⟨hp, hq⟩ := hs k (List.mem_range.mp hk)
    simp [hp.writeFault, hq] at he
  · rfl

/-- Corrections in sound memory meet no pad. -/
theorem State.Sound.foldl_correctAt_swarm {l : List Nat} (hl : ∀ c ∈ l, ∃ k, k < n ∧ c = a + k) (t : State) :
    (l.foldl State.correctAt t).swarm = t.swarm := by
  refine foldl_keeps_of_mem State.swarm (fun c hc u => ?_) t
  obtain ⟨k, hk, rfl⟩ := hl c hc
  exact (hs k hk).1.correctAt_swarm u

theorem State.Sound.correctRead_swarm : (s.correctRead [(a, n)]).swarm = s.swarm := by
  unfold State.correctRead
  split
  · rfl
  · exact hs.foldl_correctAt_swarm (by simp) s

theorem State.Sound.correctPartial_swarm : (s.correctPartial [(a, n)]).swarm = s.swarm := by
  unfold State.correctPartial
  split
  · rfl
  · exact hs.foldl_correctAt_swarm (by simpa using fun k hk _ => hk) s

end

theorem State.correctPartial_sansMarks (s : State) (all : List Seg) : (s.correctPartial all).sansMarks = s.sansMarks := by
  unfold State.correctPartial
  split
  · rfl
  · exact foldl_keeps State.sansMarks State.correctAt_sansMarks _ _

/-! ## Writing -/

/-- The state without what an access to plain memory may change: bytes, marks, and the counts of the errors it corrects. -/
def State.sansStored (s : State) : State :=
  { s with mem := { s.mem with bytes := [], poison := [], soft := [], rowCorrections := [], candidates := [] }
           dict := { s.dict with regs := [] } }

theorem State.sansStored_of_sansMarks {s t : State} (h : t.sansMarks = s.sansMarks) (hw : t.swarm = s.swarm) :
    t.sansStored = s.sansStored :=
  calc t.sansStored = { t.sansMarks with mem := { t.sansMarks.mem with bytes := [], poison := [] }, swarm := t.swarm } := rfl
    _ = { s.sansMarks with mem := { s.sansMarks.mem with bytes := [], poison := [] }, swarm := s.swarm } := by rw [h, hw]

theorem State.eq_of_sansStored {s t : State} (h : t.sansStored = s.sansStored) :
    t = { s with mem := { s.mem with bytes := t.mem.bytes, poison := t.mem.poison, soft := t.mem.soft
                                     rowCorrections := t.mem.rowCorrections, candidates := t.mem.candidates }
                 dict := { s.dict with regs := t.dict.regs } } :=
  calc t = { t.sansStored with
              mem := { t.sansStored.mem with bytes := t.mem.bytes, poison := t.mem.poison, soft := t.mem.soft
                                             rowCorrections := t.mem.rowCorrections, candidates := t.mem.candidates }
              dict := { t.sansStored.dict with regs := t.dict.regs } } := rfl
    _ = { s.sansStored with
              mem := { s.sansStored.mem with bytes := t.mem.bytes, poison := t.mem.poison, soft := t.mem.soft
                                             rowCorrections := t.mem.rowCorrections, candidates := t.mem.candidates }
              dict := { s.sansStored.dict with regs := t.dict.regs } } := by rw [h]

theorem State.swarm_of_sansStored {s t : State} (h : t.sansStored = s.sansStored) : t.swarm = s.swarm :=
  (congrArg State.swarm h : t.sansStored.swarm = s.sansStored.swarm)

theorem State.net_of_sansStored {s t : State} (h : t.sansStored = s.sansStored) : t.net = s.net :=
  (congrArg State.net h : t.sansStored.net = s.sansStored.net)

theorem State.slot_of_sansStored {s t : State} (h : t.sansStored = s.sansStored) (i : SlotId) : t.slot i = s.slot i := by
  rw [State.slot, State.swarm_of_sansStored h, State.slot]

theorem State.setBytes_sansStored (s : State) (a : Nat) (bs : List Byte) : (s.setBytes a bs).sansStored = s.sansStored := by
  induction bs generalizing s a with
  | nil => rfl
  | cons b bs ih => exact (ih _ _).trans rfl

/-- From `s` to `t` the bytes `bs` have been stored from `a`; no other byte, and nothing but memory and the counts, differs. -/
def State.Stored (s t : State) (a : Nat) (bs : List Byte) : Prop :=
  (∀ k, k < bs.length → t.rawByte (a + k) = bs.getD k 0)
    ∧ (∀ c, c < a ∨ a + bs.length ≤ c → t.rawByte c = s.rawByte c) ∧ t.sansStored = s.sansStored

theorem State.Stored.rawBytes {s t : State} {a : Nat} {bs : List Byte} (h : s.Stored t a bs) : t.rawBytes a bs.length = bs := by
  refine List.ext_getElem (by simp [State.rawBytes]) fun k _ hk => ?_
  simp only [State.rawBytes, List.getElem_map, List.getElem_range]
  obtain ⟨hin, -, -⟩ := h
  rw [hin k hk, List.getD_eq_getElem _ _ hk]

/-- A write after errors were corrected has stored its bytes in the state before. -/
theorem State.Stored.after_correction {s u t : State} {a : Nat} {bs : List Byte} (h : u.Stored t a bs)
    (hm : u.sansMarks = s.sansMarks) (hw : u.swarm = s.swarm) : s.Stored t a bs := by
  obtain ⟨hin, hout, hrest⟩ := h
  refine ⟨hin, fun c hc => (hout c hc).trans ?_, hrest.trans (State.sansStored_of_sansMarks hm hw)⟩
  exact (congrArg (fun v : State => v.rawByte c) hm :)

/-- A write of plain memory whose words are all good stores its bytes. -/
theorem State.Sound.memWrite {s : State} {a : Nat} {bs : List Byte} (hs : s.Sound a bs.length) (hn : 0 < bs.length) (who : Requester) :
    ∃ t, s.memWrite who [(a, bs)] = (t, none) ∧ s.Stored t a bs := by
  have hf : s.firstWriteFault [(a, bs.length)] [(a, bs.length)] = none := hs.firstWriteFault _
  have hprog : progOf a = none := (hs 0 hn).1.progOf
  simp only [State.memWrite, hf, List.map_cons, List.map_nil, WSeg.seg, State.storeSegs, List.foldl_cons, List.foldl_nil,
    State.storeSeg, hprog]
  refine ⟨_, rfl, State.Stored.after_correction ?_ (State.correctPartial_sansMarks s _) hs.correctPartial_swarm⟩
  generalize s.correctPartial [(a, bs.length)] = u
  have hfresh {γ : Type} (g : State → γ) (h : ∀ (v : State) w, g (v.freshWord w) = g v) :
      g ((List.range bs.length).foldl (fun (s : State) i => s.freshWord (wordOf (a + i))) u) = g u :=
    foldl_keeps g (fun _ _ => h _ _) _ _
  refine ⟨fun k hk => ?_, fun c hc => ?_, (State.setBytes_sansStored _ _ _).trans (hfresh State.sansStored fun _ _ => rfl)⟩
  · rw [State.rawByte_setBytes _ _ _ _ hk, List.getD_eq_getElem _ _ hk]
  · exact (State.rawByte_setBytes_other _ _ _ _ hc).trans (hfresh (fun v => v.rawByte c) fun _ _ => rfl)

end Sys2Proof.Machine
end

section
/-! SUPPORT. ATOM (R81): what the operation leaves in memory, and the command at issue from its operands to its end. -/

namespace Sys2Proof.Machine

open Sys2Proof Sys2Proof.Safety

/-! ## Numbers of bytes -/

theorem leNat_lt (bs : List Byte) : leNat bs < 2 ^ (8 * bs.length) := by
  induction bs with
  | nil => exact Nat.one_pos
  | cons b bs ih =>
    rw [leNat, List.length_cons, show 8 * (bs.length + 1) = 8 + 8 * bs.length by omega, Nat.pow_add]
    have hb : b.toNat < 2 ^ 8 := b.isLt
    omega

theorem leNat_rawBytes_lt (s : State) (a n : Nat) : leNat (s.rawBytes a n) < 2 ^ (8 * n) := by
  simpa [State.rawBytes] using leNat_lt (s.rawBytes a n)

/-! ## The operation -/

/-- The order in which MAX and MIN compare. -/
def atomicLess (w : Nat) (signed : Bool) (p q : Nat) : Bool :=
  if signed then decide (toSigned w p < toSigned w q) else decide (p < q)

/-- On values of the operation's width: the sum modulo its range, the larger, the smaller, or the exchange. -/
theorem atomicNew_eq {op w old x compare : Nat} (signed : Bool) (hop : op < 4) (ho : old < 2 ^ w) (hx : x < 2 ^ w)
    (hc : compare < 2 ^ w) : atomicNew op w signed old x compare =
      if op = 0 then (old + x) % 2 ^ w else if op = 1 then (if atomicLess w signed old x then x else old)
      else if op = 2 then (if atomicLess w signed x old then x else old) else if old = compare then x else old := by
  unfold atomicNew
  simp only [Nat.mod_eq_of_lt ho, Nat.mod_eq_of_lt hx, Nat.mod_eq_of_lt hc]
  match op, hop with
  | 0, _ => rfl
  | 1, _ => rfl
  | 2, _ => rfl
  | 3, _ => rfl

theorem atomicNew_lt {op w old x compare : Nat} (signed : Bool) (hop : op < 4) (ho : old < 2 ^ w) (hx : x < 2 ^ w)
    (hc : compare < 2 ^ w) : atomicNew op w signed old x compare < 2 ^ w := by
  rw [atomicNew_eq signed hop ho hx hc]
  repeat' split
  · exact Nat.mod_lt _ (Nat.two_pow_pos w)
  all_goals assumption

/-- Where its word is sound, an atomic answers the old value and stores the new one. -/
theorem State.Sound.atomicHere {s : State} {a n mods : Nat} (hs : s.Sound a n) (hn : n = if bitOf mods 2 then 8 else 4)
    (ha : a % n = 0) (who : Requester) (x compare : Nat) :
    ∃ t, s.atomicHere who a mods x compare = (t, .ok (leNat (s.rawBytes a n)))
      ∧ s.Stored t a (natLE n (atomicNew (mods % 4) (8 * n) (bitOf mods 3) (leNat (s.rawBytes a n)) x compare)) := by
  have hpos : 0 < n := by rw [hn]; split <;> omega
  have hat : atomicAt a n = true := by
    obtain ⟨hb, -⟩ | ⟨h, hb, -⟩ := (hs 0 hpos).1 <;> rw [Nat.add_zero] at hb <;> simp [atomicAt, ha, hb]
  generalize hbs : natLE n (atomicNew (mods % 4) (8 * n) (bitOf mods 3) (leNat (s.rawBytes a n)) x compare) = bs
  have hlen : bs.length = n := by rw [← hbs, natLE_length]
  have hr : (s.correctRead [(a, n)]).Sound a bs.length := by
    rw [hlen]
    exact State.sound_of_sansMarks (State.correctRead_sansMarks _ _) hs
  obtain ⟨t, hw, ht⟩ := hr.memWrite (by omega) who
  refine ⟨t, ?_, ht.after_correction (State.correctRead_sansMarks _ _) hs.correctRead_swarm⟩
  rw [State.atomicHere]
  simp only [← hn, hat, hs.memRead, hbs, hw, Bool.not_true, Bool.false_eq_true, if_false]

/-! ## Operands -/

/-- What an operand of ATOM holds: a register, or a pair for the 8 B forms. -/
def Slot.atomReg (t : Slot) (wide : Bool) : Opnd → Nat
  | .s k => if wide then t.pair k else (t.sreg k).toNat
  | _ => 0

theorem Slot.pair_lt (t : Slot) (k : Nat) : t.pair k < 2 ^ 64 := by
  have h0 : (t.sreg k).toNat < 2 ^ 32 := (t.sreg k).isLt
  have h1 : (t.sreg (k + 1)).toNat < 2 ^ 32 := (t.sreg (k + 1)).isLt
  rw [Slot.pair]
  omega

theorem Slot.atomReg_lt (t : Slot) {wide : Bool} {n : Nat} (hn : n = if wide then 8 else 4) (o : Opnd) :
    t.atomReg wide o < 2 ^ (8 * n) := by
  subst hn
  cases o with
  | s k =>
    cases wide
    · exact (t.sreg k).isLt
    · exact t.pair_lt k
  | _ => exact Nat.two_pow_pos _

/-- What is in progress plays no part in an ATOM's destination. -/
theorem Slot.putAtom_cur (t : Slot) (c : Option (Nat × Bool)) (l : Latch) (o : Opnd) (wide : Bool) (v p : Nat) (a : After) :
    (({ t with cur := c, latch := l } : Slot).putAtom o wide v).retire p a = (t.putAtom o wide v).retire p a := by
  cases o <;> cases wide <;> rfl

/-- Writing the destination does not change where the thread goes. -/
theorem Slot.putAtom_ptr (t : Slot) (o : Opnd) (wide : Bool) (v p : Nat) (a : After) :
    ((t.putAtom o wide v).retire p a).ptr = (t.retire p a).ptr := by
  cases o with
  | s k =>
    cases wide
    · exact Slot.put_ptr t (.s k) v p a
    · exact (Slot.put_ptr (t.setS k v) (.s (k + 1)) (v / 2 ^ 32) p a).trans (Slot.put_ptr t (.s k) v p a)
  | _ => rfl

/-! ## The command -/

/-- How an ATOM ends whose atomic was made here: with the old value in its destination, or with a halt. -/
def atomEnd (x : Issue) (wide : Bool) : State × Except MemErr Nat → Cmd After
  | (s, .error e) => do
    Cmd.update fun _ => s
    Cmd.fail (memReason e.cause) (s.globalOf e.addr)
  | (s, .ok old) => do
    Cmd.update fun _ => s
    Cmd.mapSlot x.id fun t => t.putAtom (cmdD x.word) wide old
    pure .next

/-- An ATOM on this module's memory performs its atomic and writes the old value to its destination. -/
theorem atomBody_done {x : Issue} {s t : State} {m a old : Nat} (hm : cmdMods x.word % 16 = m)
    (ha : (s.slot x.id).pair (cmdA x.word).num = a) (hnode : nodeOf a = s.node) (hv : s.nodeValid s.node = true)
    (hat : s.atomicHere (Requester.ofThread x.id) (localOf a) m ((s.slot x.id).atomReg (bitOf m 2) (cmdB x.word))
      ((s.slot x.id).atomReg (bitOf m 2) (cmdD x.word)) = (t, .ok old)) :
    atomBody x s = .ok (.next, t.setSlot x.id ((t.slot x.id).putAtom (cmdD x.word) (bitOf m 2) old)) := by
  unfold atomBody
  rw [Cmd.slot_bind]
  simp only [ha, hm]
  rw [Cmd.get_bind]
  simp only [hnode, hv, Bool.not_true, Bool.false_eq_true, if_false, if_true]
  show atomEnd x (bitOf m 2) (s.atomicHere _ _ m ((s.slot x.id).atomReg (bitOf m 2) (cmdB x.word))
    ((s.slot x.id).atomReg (bitOf m 2) (cmdD x.word))) s = _
  rw [hat]
  rfl

end Sys2Proof.Machine
end

section
/-! PROOF. O23: ATOM on this module's memory. -/

namespace Sys2Proof.Proofs

open Sys2Proof Sys2Proof.Machine Sys2Proof.Safety

theorem exec_atom (s : State) (i : SlotId) :
    exec (.atom i) s = .next (runCommand s i (fun w => cmdOp w == 0x26) atomBody) := rfl

section
variable (s : State) (i : SlotId) (w : Nat) (b : Bool)

/-- A command at issue finds the memory, the module and the registers that the state had. -/
theorem begun_sound {a n : Nat} (hs : s.Sound a n) : (begun s i w b).Sound a n := by
  rw [begun_fields]
  exact hs

theorem begun_rawByte (c : Nat) : (begun s i w b).rawByte c = s.rawByte c := by rw [begun_fields]; rfl
theorem begun_rawBytes (a n : Nat) : (begun s i w b).rawBytes a n = s.rawBytes a n := by rw [begun_fields]; rfl
theorem begun_nodeValid (n : Nat) : (begun s i w b).nodeValid n = s.nodeValid n := by rw [begun_fields]; rfl

theorem begun_atomReg (wide : Bool) (o : Opnd) :
    ((begun s i w b).slot i).atomReg wide o = (s.slot i).atomReg wide o := by
  rw [State.begun_slot]
  cases o <;> rfl

end

section
variable {s v : State} {i : SlotId} {w : Nat} {b : Bool}

/-- Once the atomic of an ATOM at issue has left `v`, the slot holds the old value in its destination and retires. -/
theorem atom_done {m a old : Nat} (h : Issues s i w b) (ho : cmdOp w = 0x26) (hp : nextPtr (s.slot i) < 2048)
    (hm : cmdMods w % 16 = m) (ha : (s.slot i).pair (cmdA w).num = a) (hnode : nodeOf a = s.node) (hv : s.nodeValid s.node = true)
    (hat : (begun s i w b).atomicHere (Requester.ofThread i) (localOf a) m ((s.slot i).atomReg (bitOf m 2) (cmdB w))
      ((s.slot i).atomReg (bitOf m 2) (cmdD w)) = (v, .ok old)) (hslot : v.slot i = (begun s i w b).slot i) :
    ∃ t, exec (.atom i) s = .next t ∧ t.slot i = ((s.slot i).putAtom (cmdD w) (bitOf m 2) old).retire (s.slot i).ptr .next
      ∧ t = { v with swarm := { v.swarm with slots := t.swarm.slots } }
      ∧ ∀ j : SlotId, j.thread < 4 → j ≠ i → t.slot j = v.slot j := by
  have hretire : ((v.slot i).putAtom (cmdD w) (bitOf m 2) old).retire (s.slot i).ptr .next
      = ((s.slot i).putAtom (cmdD w) (bitOf m 2) old).retire (s.slot i).ptr .next := by
    rw [hslot, State.begun_slot, Slot.putAtom_cur]
  have hbody : atomBody (issueOf s i w b) (begun s i w b)
      = .ok (.next, v.setSlot i ((v.slot i).putAtom (cmdD w) (bitOf m 2) old)) :=
    atomBody_done (x := issueOf s i w b) hm ((begun_pair s i w b _).trans ha) (hnode.trans (begun_node s i w b).symm)
      (by rw [begun_node, begun_nodeValid, hv]) (by rw [← hat, ← begun_atomReg s i w b, ← begun_atomReg s i w b]; rfl)
  refine ⟨_, (exec_atom s i).trans (congrArg Host.Outcome.next (runCommand_done h (by simp [ho]) hbody ?_)), ?_, rfl,
    fun j hj hne => ?_⟩
  · rw [State.slot_setSlot, hretire, Slot.putAtom_ptr]
    exact hp
  · rw [done, State.slot_setSlot, State.slot_setSlot, hretire]
  · have hk := SlotId.key_ne (issues_thread_lt h) hj hne
    rw [done, State.slot_setSlot_other _ _ hk, State.slot_setSlot_other _ _ hk]

end

/-- An access to plain memory by a command at issue, and its retirement, change memory, the counts and thread slots alone. -/
theorem stored_frame {s v t : State} {i : SlotId} {w : Nat} {b : Bool} (hv : v.sansStored = (begun s i w b).sansStored)
    (ht : t = { v with swarm := { v.swarm with slots := t.swarm.slots } }) :
    t = { s with mem := { s.mem with bytes := t.mem.bytes, poison := t.mem.poison, soft := t.mem.soft
                                     rowCorrections := t.mem.rowCorrections, candidates := t.mem.candidates }
                 dict := { s.dict with regs := t.dict.regs }, swarm := { s.swarm with slots := t.swarm.slots } } := by
  have hmem : t.mem = v.mem := (congrArg State.mem ht :)
  have hdict : t.dict = v.dict := (congrArg State.dict ht :)
  rw [hmem, hdict]
  refine ht.trans ?_
  rw [begun_fields] at hv
  rw [State.eq_of_sansStored hv]

/-- Settles O23: at issue the word is as sound as it was, so the atomic stores its new value there (`State.Sound.atomicHere`), and the
slot takes the old one (`atom_done`). -/
theorem atomicCommand : Obligations.AtomicCommand := by
  unfold Obligations.AtomicCommand
  intro s i w b h ho hp u m wide n a reg hnode hv hal hs old v less new
  have hreg (o : Opnd) : reg o = u.atomReg wide o := by cases o <;> rfl
  have hwide : bitOf (m % 16) 2 = wide := by simp only [wide, bitOf, decide_eq_decide]; omega
  have hsigned : bitOf (m % 16) 3 = bitOf m 3 := by simp only [bitOf, decide_eq_decide]; omega
  have hn : n = if wide then 8 else 4 := rfl
  have ha : u.pair (cmdA w).num = a := rfl
  have hm : cmdMods w % 16 = m % 16 := rfl
  obtain ⟨v', hat, hstored⟩ := (begun_sound s i w b (a := localOf a) (n := n) hs).atomicHere (mods := m % 16)
    (by rw [hwide]) hal (Requester.ofThread i) (u.atomReg wide (cmdB w)) (u.atomReg wide (cmdD w))
  rw [begun_rawBytes] at hat hstored
  clear_value n a
  have ⟨_, hout, hrest⟩ := hstored
  obtain ⟨t, hexec, hslot, hslots, hothers⟩ := atom_done (old := old) h ho hp hm ha hnode hv (by rw [hwide]; exact hat)
    (State.slot_of_sansStored hrest i)
  rw [hwide] at hslot
  have hmem : t.rawBytes (localOf a) n = v'.rawBytes (localOf a) n := by rw [hslots]; rfl
  have hnew := hstored.rawBytes
  rw [natLE_length] at hnew
  refine ⟨t, hexec, ?_, fun c hc => ?_, hslot, fun j hj hne => ?_, ?_⟩
  · have hop : m % 16 % 4 < 4 := Nat.mod_lt _ (by decide)
    have ho := leNat_rawBytes_lt s (localOf a) n
    have hb := u.atomReg_lt hn (cmdB w)
    have hd := u.atomReg_lt hn (cmdD w)
    rw [hmem, hnew, leNat_natLE, show 256 ^ n = 2 ^ (8 * n) from (Nat.pow_mul 2 8 n).symm, Nat.mod_eq_of_lt (atomicNew_lt _ hop ho hb hd),
      atomicNew_eq _ hop ho hb hd, hsigned, show m % 16 % 4 = m % 4 by omega, ← hreg, ← hreg]
    rfl
  · rw [← begun_rawByte s i w b, ← hout c (by rwa [natLE_length]), hslots]
    rfl
  · rw [hothers j hj hne, ← begun_other (issues_thread_lt h) hj hne]
    exact State.slot_of_sansStored hrest j
  · exact stored_frame hrest hslots

end Sys2Proof.Proofs
end

section
/-! SUPPORT. Launches (R68–R77): the runs that threads take, descriptors that are posted, threads that start, and launches that are
reported. -/

namespace Sys2Proof.Machine

open Sys2Proof

/-! ## Runs (R76) -/

/-- What a search finds once a key has been written. -/
theorem SMap.find?_ins {V : Type} (v : V) (m : SMap V) (k n : Nat) :
    ((SMap.ins v m k).find? fun e => e.1 == n) = if n = k then some (k, v) else m.find? fun e => e.1 == n := by
  induction m with
  | nil => grind [SMap.ins]
  | cons e m ih =>
    obtain ⟨j, u⟩ := e
    rw [SMap.ins]
    split
    · grind
    · split <;> grind

/-- What is left of the queues once positions of one have been taken. -/
theorem Launch.queueOf_take (l : Launch) (c : Nat) (q : Nat × Nat) (n : Nat) :
    ({ l with runs := SMap.ins q l.runs c } : Launch).queueOf n = if n = c then q else l.queueOf n := by
  unfold Launch.queueOf
  rw [SMap.find?_ins]
  by_cases h : n = c
  · simp only [if_pos h]
  · simp only [if_neg h]
    rfl

section
variable {l : Launch} {index comb : Nat} {run : Option Nat}

/-- Under static mapping a thread takes its own run, and then every T-th. -/
theorem Launch.takeRun_static (hd : l.dynamic = false) : l.takeRun index comb run =
    (if (run.elim index (· + l.threads)) < l.runCount then some (run.elim index (· + l.threads)) else none, l) := by
  unfold Launch.takeRun
  rw [hd]
  cases run <;> rfl

section
variable (hd : l.dynamic = true) {x y : Nat} (hq : l.queueOf comb = (x, y))
include hd hq

/-- Under dynamic mapping it takes the front run of its comb's queue. -/
theorem Launch.takeRun_own (hxy : x < y) :
    l.takeRun index comb run = (some (l.queueRun comb x), { l with runs := SMap.ins (x + 1, y) l.runs comb }) := by
  simp only [Launch.takeRun, hd, hq, if_pos hxy, Bool.not_true, Bool.false_eq_true, if_false]

theorem Launch.takeRun_done (hyx : y ≤ x) (hr : l.richest (comb / 1024) = none) : l.takeRun index comb run = (none, l) := by
  simp only [Launch.takeRun, hd, hq, if_neg (Nat.not_lt.mpr hyx), hr, Bool.not_true, Bool.false_eq_true, if_false]

/-- When that is empty, it takes the last run of the fullest queue of its hive. -/
theorem Launch.takeRun_steal (hyx : y ≤ x) {n p q : Nat} (hr : l.richest (comb / 1024) = some n) (hn : l.queueOf n = (p, q)) :
    l.takeRun index comb run = (some (l.queueRun n (q - 1)), { l with runs := SMap.ins (p, q - 1) l.runs n }) := by
  simp only [Launch.takeRun, hd, hq, if_neg (Nat.not_lt.mpr hyx), hr, hn, Bool.not_true, Bool.false_eq_true, if_false]

end
end

/-! ## Posting (R71, R75) -/

/-- The descriptor that a store of `v` to offset 0x18 of a thread's launch port posts. -/
def State.portDescriptor (s : State) (i : SlotId) (v : W64) : W256 :=
  BitVec.ofNat 256 (v.toNat * 2 ^ 192 + (SMap.get 0 s.swarm.ports i.key).toNat)

/-- A running thread's store to offset 0x18 posts its descriptor. -/
theorem State.launchPortPost_eq {s : State} {i : SlotId} (v : W64) (hr : s.running = true) (hc : i.cell < 1048576) (ht : i.thread < 4)
    (ho : s.occupied i = true) : s.launchPortPost i v = s.postLaunch (s.portDescriptor i v) (.thread i) := by
  have hon : (s.running && decide (i.cell < 1048576) && decide (i.thread < 4) && s.occupied i) = true := by simp [hr, hc, ht, ho]
  rw [State.launchPortPost, if_pos hon, State.portStore, if_pos rfl, Nat.mod_eq_of_lt v.isLt]
  rfl

/-- An accepted descriptor is a launch behind the others, with a fresh number; a dynamic mapping that is not to be had is counted, and so is
the launch. -/
theorem State.postLaunch_accepted {s : State} {d : W256} {src : LaunchSource}
    (h : s.launchRefusal (Launch.fresh (s.swarm.nextLaunch + 1) d src) = none) :
    ∃ (dynamic : Bool) (u : State), (u = s.bump 0x201005 ∨ u = s) ∧ s.postLaunch d src =
      { u.bump 0x201002 with swarm := { s.swarm with
          nextLaunch := s.swarm.nextLaunch + 1
          launches := s.swarm.launches ++
            [{ Launch.fresh (s.swarm.nextLaunch + 1) d src with dynamic := dynamic, held := decide (s.pow.state ≠ 1) }] } } := by
  unfold State.postLaunch
  simp only [h]
  split
  · exact ⟨_, _, .inl rfl, rfl⟩
  · exact ⟨_, _, .inr rfl, rfl⟩

/-- A refused descriptor that names no address is counted, and nothing else happens. -/
theorem State.postLaunch_refused {s : State} {d : W256} {i : SlotId} {st : Nat}
    (h : s.launchRefusal (Launch.fresh (s.swarm.nextLaunch + 1) d (.thread i)) = some st) (hd : launchCompletion d = 0) :
    s.postLaunch d (.thread i) = s.bump 0x201003 := by
  unfold State.postLaunch
  simp only [h]
  rw [State.reportLaunch]
  simp only [Launch.fresh, hd, if_true]

/-! ## Starting a thread (R68, R70, R119) -/

/-- A launch that starts on a comb is marked so, wakes the comb, and starts each of its threads there. -/
theorem State.threadStart_eq {s : State} {id n : Nat} {l : Launch} (hl : s.launch? id = some l) (hm : s.mayStart l n = true) :
    s.threadStart id n = (List.range (l.threadsOn n).2).foldl (fun (s' : State) k => s'.startThread id n k)
      ((s.setComb n { s.comb n with gated := false }).mapLaunch id fun m => { m with started := m.started ++ [n] }) := by
  rw [State.threadStart, hl]
  simp only [hm, Bool.not_true, Bool.false_eq_true, if_false]

/-- The state in which a thread of a launch has its slot and its first item, its launch counting it. -/
def State.seatThread (s : State) (l : Launch) (n k : Nat) : State :=
  let j := l.slotAt n k
  let s := if (List.range 4).all fun t => !s.occupied ⟨j.cell, t⟩ then s.losePad j.cell else s
  let r := l.deliver (l.startSlot ((l.threadsOn n).1 + k)) n
  (s.setSlot j r.1).mapLaunch l.id fun _ => { r.2 with live := r.2.live + 1 }

theorem State.launch?_id {s : State} {id : Nat} {l : Launch} (hl : s.launch? id = some l) : l.id = id := by
  simpa using List.find?_some hl

section
variable (s : State) (l : Launch) (n k : Nat)

theorem State.seatThread_comb (m : Nat) : (s.seatThread l n k).comb m = s.comb m := by
  unfold State.seatThread
  dsimp only
  split <;> rfl

theorem State.seatThread_mem : (s.seatThread l n k).mem = s.mem := by
  unfold State.seatThread
  dsimp only
  split <;> rfl

theorem State.seatThread_slot :
    (s.seatThread l n k).slot (l.slotAt n k) = (l.deliver (l.startSlot ((l.threadsOn n).1 + k)) n).1 :=
  State.slot_setSlot _ _ _

theorem State.seatThread_slot_other {j : SlotId} (h : j.key ≠ (l.slotAt n k).key) : (s.seatThread l n k).slot j = s.slot j := by
  refine (State.slot_setSlot_other _ _ h).trans ?_
  split <;> rfl

/-- A thread whose launch names another bank than the active one halts before its first command (R119). -/
theorem State.startThread_eq {id : Nat} (hl : s.launch? id = some l) : s.startThread id n k =
    if launchBank l.desc ≠ 0 ∧ (s.comb n).bankB ≠ decide (launchBank l.desc = 2)
    then (s.seatThread l n k).halt (l.slotAt n k) 0x31 (launchBank l.desc) l.entry 0 0 else s.seatThread l n k := by
  obtain rfl := State.launch?_id hl
  rw [← State.seatThread_comb s l n k n, State.startThread, hl]
  rfl

end

/-- A slot's first delivery sets its run, its item and c0. -/
theorem Launch.deliver_startSlot (l : Launch) (g n : Nat) : ∃ run item v,
    (l.deliver (l.startSlot g) n).1 = ({ l.startSlot g with run := run, item := item } : Slot).setC 0 v := by
  have hrun : (l.startSlot g).run = none := rfl
  simp only [Launch.deliver, hrun, Option.isSome_none, Bool.false_and, Bool.false_eq_true, if_false]
  split <;> exact ⟨_, _, _, rfl⟩

section
variable (l : Launch) (g : Nat)

/-- The s registers of a thread that starts: its argument, its number and how many threads there are (R68). -/
theorem Launch.startSlot_sreg (r : Nat) : (l.startSlot g).sreg r =
    if r = 0 then BitVec.ofNat 32 (launchArgument l.desc) else if r = 1 then BitVec.ofNat 32 (launchArgument l.desc / 2 ^ 32)
    else if r = 2 then BitVec.ofNat 32 g else if r = 3 then BitVec.ofNat 32 l.threads else 0 := by
  have hzero : (Vector.replicate 16 (0 : W32)).getD r 0 = 0 := by
    by_cases h : r < 16 <;> simp [Vector.getD, h]
  simp only [Launch.startSlot, Slot.setS, Slot.sreg, vector_getD_set, hzero, show (3 : Nat) < 16 by decide, show (2 : Nat) < 16 by decide,
    show (1 : Nat) < 16 by decide, show (0 : Nat) < 16 by decide, and_true]
  rcases r with _ | _ | _ | _ | r <;> simp

theorem Launch.startSlot_vreg (r : Nat) : (l.startSlot g).vreg r = 0 := by
  show (Vector.replicate 8 (0 : W64)).getD r 0 = 0
  by_cases h : r < 8 <;> simp [Vector.getD, h]

end

/-- A thread that waits for nobody goes on waiting for nobody as another halts. -/
theorem State.unyieldFrom_empty {i j : SlotId} {s : State} (h : s.slot j = {}) (k : Nat) : (State.unyieldFrom i s k).slot j = {} := by
  unfold State.unyieldFrom
  by_cases hk : j.key = (⟨i.cell, k⟩ : SlotId).key
  · have hs : s.slot ⟨i.cell, k⟩ = {} := by rw [State.slot, ← hk]; exact h
    rw [State.slot, hk, hs]
    exact State.slot_setSlot _ _ _
  · rw [State.slot_setSlot_other _ _ hk]
    exact h

/-- The slot of a thread that halts is as at reset (R68, R144). -/
theorem State.slot_halt (s : State) (i : SlotId) (reason bank index fault high : Nat) :
    (s.halt i reason bank index fault high).slot i = {} := by
  rw [State.halt_eq, State.freeSlot, State.noteIdle_slot]
  exact List.foldlRecOn (motive := fun u : State => u.slot i = {}) _ _ (State.slot_setSlot _ _ _)
    fun u hu k _ => State.unyieldFrom_empty hu k

/-! ## Reporting (R73, R365) -/

/-- A record at an address of this module, where memory is sound, is stored. -/
theorem State.writeRecord_sound {s : State} {a : Nat} {bs : List Byte} (kind : Nat) (who : Requester) (o : Origin)
    (hv : s.nodeValid s.node = true) (hnode : nodeOf a = s.node) (ha : a % 8 = 0) (hs : s.Sound (localOf a) bs.length)
    (hn : 0 < bs.length) : s.Stored (s.writeRecord kind who o a bs) (localOf a) bs := by
  obtain ⟨t, hw, ht⟩ := hs.memWrite hn who
  rw [State.writeRecord, if_neg (by simp [hnode, hv, ha]), if_pos hnode, hw]
  exact ht

theorem State.endEntry_mem (s : State) (q e status detail : Nat) : (s.endEntry q e status detail).mem = s.mem := by
  unfold State.endEntry
  dsimp only
  split <;> rfl

theorem State.endEntry_net (s : State) (q e status detail : Nat) : (s.endEntry q e status detail).net = s.net := by
  unfold State.endEntry
  dsimp only
  split <;> rfl

/-- An entry that ends with no error changes no count, and its queue pair alone. -/
theorem State.endEntry_ok (s : State) (q e : Nat) {status : Nat} (hs : status < 0x11) (detail : Nat) :
    s.endEntry q e status detail = s.setPair q { s.pair q with entries := (s.pair q).entries.map fun x =>
      if x.id = e ∧ x.result = none then { x with result := some (status, detail), left := 0 } else x } := by
  have hno : ¬ (0x11 ≤ status) := by omega
  simp [State.endEntry, hno]

/-! ## A launch that is over (R73) -/

/-- Its abnormal halts are counted, and it is removed. -/
def State.retireLaunch (s : State) (l : Launch) : State :=
  let s := if l.abnormal + l.lost = 0 then s else s.bump 0x201004
  { s with swarm := { s.swarm with launches := s.swarm.launches.filter fun m => m.id != l.id } }

/-- The status that a launch ends with. -/
def Launch.status (l : Launch) : Nat := if l.abnormal + l.lost = 0 then 0 else 1

theorem Launch.status_lt (l : Launch) : l.status < 0x11 := by
  unfold Launch.status
  split <;> decide

theorem State.launchComplete_eq {s : State} {id : Nat} {l : Launch} (hl : s.launch? id = some l) (hp : s.pow.powered = true)
    (ho : s.launchOver l = true) :
    s.launchComplete id = (s.retireLaunch l).reportLaunch l (l.abnormal + l.lost) l.status := by
  obtain rfl := State.launch?_id hl
  rw [State.launchComplete, hl]
  simp only [hp, ho, Bool.and_self, Bool.not_true, Bool.false_eq_true, if_false]
  rfl

/-- The completion entry of a launch that the host posted. -/
def State.reportEntry (s : State) (l : Launch) : State :=
  match l.source with
  | .entry q e => s.endEntry q e l.status (launchRecord (l.abnormal + l.lost) l.status)
  | .thread _ => s

/-- The completion record of a launch. -/
def Launch.record (l : Launch) : List Byte := natLE 8 (launchRecord (l.abnormal + l.lost) l.status)

theorem State.reportLaunch_eq (s : State) (l : Launch) : s.reportLaunch l (l.abnormal + l.lost) l.status =
    (if launchCompletion l.desc = 0 then s
      else s.writeRecord 1 ⟨5, 0⟩ (Origin.hive (l.startComb / 1024)) (launchCompletion l.desc) l.record).reportEntry l := rfl

section
variable (s : State) (l : Launch)

theorem State.reportEntry_mem : (s.reportEntry l).mem = s.mem := by
  unfold State.reportEntry
  split
  · exact State.endEntry_mem _ _ _ _ _
  · rfl

theorem State.reportEntry_rawByte (c : Nat) : (s.reportEntry l).rawByte c = s.rawByte c := by
  rw [State.rawByte, State.reportEntry_mem, State.rawByte]

theorem State.reportEntry_swarm : (s.reportEntry l).swarm = s.swarm := by
  unfold State.reportEntry
  split
  · exact State.endEntry_swarm _ _ _ _ _
  · rfl

theorem State.reportEntry_net : (s.reportEntry l).net = s.net := by
  unfold State.reportEntry
  split
  · exact State.endEntry_net _ _ _ _ _
  · rfl

theorem State.reportEntry_reg (k u : Nat) : (s.reportEntry l).reg k u = s.reg k u := by
  unfold State.reportEntry
  split
  · rw [State.endEntry_ok _ _ _ l.status_lt]
    rfl
  · rfl

/-- The started entry of the launch has its result. -/
theorem State.mem_reportEntry {q e : Nat} {x : Entry} (hs : l.source = .entry q e) (hx : x ∈ (s.pair q).entries) (he : x.id = e)
    (hr : x.result = none) :
    { x with left := 0, result := some (l.status, launchRecord (l.abnormal + l.lost) l.status) }
      ∈ ((s.reportEntry l).pair q).entries := by
  simp only [State.reportEntry, hs]
  rw [State.endEntry_ok _ _ _ l.status_lt]
  have hp : ∀ p : QueuePair, (s.setPair q p).pair q = p := fun p => SMap.get_put_same _ _ _ _
  rw [hp]
  exact List.mem_map.mpr ⟨x, hx, if_pos ⟨he, hr⟩⟩

theorem State.retireLaunch_mem : (s.retireLaunch l).mem = s.mem := by
  unfold State.retireLaunch
  dsimp only
  split <;> rfl

theorem State.retireLaunch_net : (s.retireLaunch l).net = s.net := by
  unfold State.retireLaunch
  dsimp only
  split <;> rfl

theorem State.retireLaunch_swarm :
    (s.retireLaunch l).swarm = { s.swarm with launches := s.swarm.launches.filter fun m => m.id != l.id } := by
  unfold State.retireLaunch
  dsimp only
  split <;> rfl

theorem State.retireLaunch_reg : (s.retireLaunch l).reg 0x201004 =
    if l.abnormal + l.lost = 0 then s.reg 0x201004 else satAdd 64 (s.reg 0x201004) 1 := by
  unfold State.retireLaunch
  dsimp only
  split
  · rfl
  · exact State.reg_setReg _ _ _ _

theorem State.retireLaunch_pair (q : Nat) : (s.retireLaunch l).pair q = s.pair q := by
  unfold State.retireLaunch
  dsimp only
  split <;> rfl

theorem State.retireLaunch_nodeValid (n : Nat) : (s.retireLaunch l).nodeValid n = s.nodeValid n := by
  unfold State.retireLaunch
  dsimp only
  split <;> rfl

theorem State.retireLaunch_sound {a n : Nat} (hs : s.Sound a n) : (s.retireLaunch l).Sound a n := by
  unfold State.retireLaunch
  dsimp only
  split <;> exact hs

/-- The completion record of a launch that is over is stored at its address, where memory is sound (R73). -/
theorem State.retireLaunch_writes {a : Nat} (ha : a % 8 = 0) (hnode : nodeOf a = s.node) (hv : s.nodeValid s.node = true)
    (hs : s.Sound (localOf a) 8) : (s.retireLaunch l).Stored
      ((s.retireLaunch l).writeRecord 1 ⟨5, 0⟩ (Origin.hive (l.startComb / 1024)) a l.record) (localOf a) l.record := by
  have hn : (s.retireLaunch l).node = s.node := by rw [State.node, State.retireLaunch_net, State.node]
  have hlen : l.record.length = 8 := natLE_length _ _
  refine State.writeRecord_sound 1 ⟨5, 0⟩ _ ?_ (hnode.trans hn.symm) ha ?_ (by omega)
  · rw [hn, State.retireLaunch_nodeValid, hv]
  · rw [hlen]
    exact State.retireLaunch_sound s l hs

/-- A launch that is removed is found no longer, in any state with the launches that remain. -/
theorem State.launch?_retired {t : State} (h : t.swarm.launches = (s.retireLaunch l).swarm.launches) : t.launch? l.id = none := by
  rw [State.launch?, h, State.retireLaunch_swarm]
  exact List.find?_eq_none.mpr fun m hm => by simpa using (List.mem_filter.mp hm).2

end

end Sys2Proof.Machine
end

section
/-! SUPPORT. Comb gating (R83): the pads that are lost, those that stay, and what else of the state does. -/

namespace Sys2Proof.Machine

open Sys2Proof

/-- The pads of the cells of a comb lose their contents. -/
def State.losePadsIn (s : State) (n : Nat) : State := (List.range 64).foldl (fun s k => s.losePad (n * 64 + k)) s

section
variable (s : State) {n : Nat}

/-- Losing the pad of one cell leaves every byte of another's. -/
theorem State.padByte_losePad_other {c cell off : Nat} (hc : cell ≠ c) (hg : 2 ^ 40 + cell / 65536 ≠ c) (ho : off < 8192) :
    (s.losePad c).padByte cell off = s.padByte cell off := by
  have hb : SMap.get none (s.losePad c).swarm.pads (cell * 8192 + off) = SMap.get none s.swarm.pads (cell * 8192 + off) :=
    (SMap.get_clearRange _ _ _ _ _).trans (if_neg (by omega))
  have hgen : (s.losePad c).padGeneration cell = s.padGeneration cell := by
    simp only [State.padGeneration, State.losePad, SMap.modify, SMap.get_put_other _ _ _ hc, SMap.get_put_other _ _ _ hg]
  rw [State.padByte, hb, hgen, State.padByte]

theorem State.padGeneration_losePad (c cell : Nat) (hg : 2 ^ 40 + cell / 65536 ≠ c) :
    (s.losePad c).padGeneration cell = s.padGeneration cell + if cell = c then 1 else 0 := by
  simp only [State.padGeneration, State.losePad, SMap.modify, SMap.get_put_other _ _ _ hg]
  by_cases h : cell = c
  · rw [h, SMap.get_put_same, if_pos rfl]
    omega
  · rw [SMap.get_put_other _ _ _ h, if_neg h, Nat.add_zero]

/-- The pads of other combs keep their bytes. -/
theorem State.padByte_losePadsIn (hn : n < 16384) {cell off : Nat} (hc : cell / 64 ≠ n) (ho : off < 8192) :
    (s.losePadsIn n).padByte cell off = s.padByte cell off := by
  refine foldl_keeps_of_mem (fun u : State => u.padByte cell off) (fun k hk u => ?_) s
  have hk : k < 64 := List.mem_range.mp hk
  exact State.padByte_losePad_other u (by omega) (by omega) ho

/-- Each cell of the comb loses its pad once. -/
theorem State.padGeneration_losePadsIn (hn : n < 16384) {cell : Nat} (hc : cell / 64 = n) :
    (s.losePadsIn n).padGeneration cell = s.padGeneration cell + 1 := by
  have hcount (m : Nat) (hm : m ≤ 64) : ((List.range m).foldl (fun (s : State) k => s.losePad (n * 64 + k)) s).padGeneration cell
      = s.padGeneration cell + if cell % 64 < m then 1 else 0 := by
    induction m with
    | zero => rw [if_neg (Nat.not_lt_zero _), List.range_zero, List.foldl_nil, Nat.add_zero]
    | succ m ih =>
      rw [List.range_succ, List.foldl_append, List.foldl_cons, List.foldl_nil, State.padGeneration_losePad _ _ _ (by omega),
        ih (by omega)]
      split <;> split <;> split <;> omega
  rw [State.losePadsIn, hcount 64 (Nat.le_refl 64), if_pos (Nat.mod_lt _ (by decide))]

/-- What no loss of a pad changes stays as the pads of a comb are lost. -/
theorem State.losePadsIn_keeps {γ : Type} (g : State → γ) (h : ∀ (u : State) c, g (u.losePad c) = g u) (n : Nat) :
    g (s.losePadsIn n) = g s := foldl_keeps g (fun _ _ => h _ _) _ _

/-- A comb is gated, its pads are lost, and it is counted. -/
def State.gateComb (s : State) (n : Nat) : State := ((s.setComb n { s.comb n with gated := true }).losePadsIn n).bump 0x204003

theorem State.gateComb_combs (n : Nat) :
    (s.gateComb n).swarm.combs = (s.setComb n { s.comb n with gated := true }).swarm.combs := by
  rw [State.gateComb, State.bump_swarm]
  exact State.losePadsIn_keeps _ (fun u => u.swarm.combs) (fun _ _ => rfl) n

theorem State.gateComb_comb (n : Nat) : (s.gateComb n).comb n = { s.comb n with gated := true } := by
  rw [State.comb, State.gateComb_combs]
  exact State.comb_setComb _ _ _

theorem State.gateComb_comb_other {n m : Nat} (h : m ≠ n) : (s.gateComb n).comb m = s.comb m := by
  rw [State.comb, State.gateComb_combs]
  exact State.comb_setComb_other _ _ h

theorem State.gateComb_now (n : Nat) : (s.gateComb n).now = s.now := by
  rw [State.gateComb, State.bump_now, State.losePadsIn_keeps _ State.now fun _ _ => rfl]
  rfl

theorem State.gateComb_mem (n : Nat) : (s.gateComb n).mem = s.mem := by
  rw [State.gateComb, State.bump_mem, State.losePadsIn_keeps _ State.mem fun _ _ => rfl]
  rfl

theorem State.gateComb_slots (n : Nat) : (s.gateComb n).swarm.slots = s.swarm.slots := by
  rw [State.gateComb, State.bump_swarm]
  exact State.losePadsIn_keeps _ (fun u => u.swarm.slots) (fun _ _ => rfl) n

theorem State.gateComb_reg (n : Nat) : (s.gateComb n).reg 0x204003 = satAdd 64 (s.reg 0x204003) 1 := by
  have hr : ((s.setComb n { s.comb n with gated := true }).losePadsIn n).reg 0x204003 = s.reg 0x204003 :=
    State.losePadsIn_keeps (s.setComb n _) (fun u : State => u.reg 0x204003) (fun _ _ => rfl) n
  rw [State.gateComb, State.bump, State.reg_setReg, hr]

theorem State.padByte_bump (k m u cell off : Nat) : (s.bump k m u).padByte cell off = s.padByte cell off := rfl
theorem State.padGeneration_bump (k m u cell : Nat) : (s.bump k m u).padGeneration cell = s.padGeneration cell := rfl
theorem State.padByte_setComb (m : Nat) (c : Comb) (cell off : Nat) : (s.setComb m c).padByte cell off = s.padByte cell off := rfl
theorem State.padGeneration_setComb (m : Nat) (c : Comb) (cell : Nat) : (s.setComb m c).padGeneration cell = s.padGeneration cell := rfl

theorem State.gateComb_padByte (hn : n < 16384) {cell off : Nat} (hc : cell / 64 ≠ n) (ho : off < 8192) :
    (s.gateComb n).padByte cell off = s.padByte cell off := by
  rw [State.gateComb, State.padByte_bump, State.padByte_losePadsIn _ hn hc ho, State.padByte_setComb]

theorem State.gateComb_padGeneration (hn : n < 16384) {cell : Nat} (hc : cell / 64 = n) :
    (s.gateComb n).padGeneration cell = s.padGeneration cell + 1 := by
  rw [State.gateComb, State.padGeneration_bump, State.padGeneration_losePadsIn _ hn hc, State.padGeneration_setComb]

theorem State.at_comb (t m : Nat) : (s.at_ t).comb m = s.comb m := by rw [State.comb, State.at_swarm, State.comb]
theorem State.at_reg (t k u : Nat) : (s.at_ t).reg k u = s.reg k u := by rw [State.reg, State.at_dict, State.reg]

theorem State.at_padGeneration (t cell : Nat) : (s.at_ t).padGeneration cell = s.padGeneration cell := by
  rw [State.padGeneration, State.at_swarm, State.padGeneration]

theorem State.at_padByte (t cell off : Nat) : (s.at_ t).padByte cell off = s.padByte cell off := by
  rw [State.padByte, State.at_padGeneration, State.at_swarm, State.padByte]

/-- An idle comb whose time has passed is gated (R83). -/
theorem State.combGate_eq {at_ : Nat} (hr : s.running = true) (hn : n < 16384) (hw : s.hiveWorks (n / 1024) = true)
    (hg : (s.comb n).gated = false) (he : s.combEmpty n = true) (ha : s.awaitedComb n = false) (hi : s.reg 0x204001 ≠ 0)
    (ht : max (s.comb n).idleSince s.swarm.resetAt + s.reg 0x204001 * 1000 ≤ max s.now at_) :
    s.combGate n at_ = (s.at_ at_).gateComb n := by
  have hon : (s.running && decide (n < 16384) && s.hiveWorks (n / 1024) && !(s.comb n).gated && s.combEmpty n && !s.awaitedComb n
      && decide (s.reg 0x204001 ≠ 0)
      && decide (max (s.comb n).idleSince s.swarm.resetAt + s.reg 0x204001 * 1000 ≤ max s.now at_)) = true := by
    simp [hr, hn, hw, hg, he, ha, hi, ht]
  rw [State.gateComb, State.at_comb, State.combGate]
  exact if_pos hon

end

end Sys2Proof.Machine
end

section
/-! PROOF. O34: launches and comb gating. -/

namespace Sys2Proof.Proofs

open Sys2Proof Sys2Proof.Machine Sys2Proof.Safety

/-- Settles O34: the runs by `Launch.takeRun_static`, `Launch.takeRun_own` and `Launch.takeRun_steal`; a post, a start, a report and a
gating by the equation of each (`State.postLaunch_accepted`, `State.startThread_eq`, `State.launchComplete_eq`, `State.combGate_eq`). -/
theorem launchCommands : Obligations.LaunchCommands := by
  unfold Obligations.LaunchCommands
  refine ⟨?runs, ?posts, fun s id n l hl hm => congrArg Host.Outcome.next (State.threadStart_eq hl hm), ?starts, ?otherBank, ?reports,
    ?silent, ?gates⟩
  case runs =>
    intro l index comb run took
    refine ⟨fun hd => ?_, fun hd x y hq hxy => ?_, fun hd x y hq hyx => ⟨fun hr => ?_, fun n p q hr hn => ?_⟩⟩
    · rw [show took = _ from Launch.takeRun_static hd]
      cases run <;> rfl
    · rw [show took = _ from Launch.takeRun_own hd hq hxy]
      exact ⟨rfl, by rw [Launch.queueOf_take, if_pos rfl], fun n hn => by rw [Launch.queueOf_take, if_neg hn]⟩
    · exact Launch.takeRun_done hd hq hyx hr
    · rw [show took = _ from Launch.takeRun_steal hd hq hyx hr hn]
      exact ⟨rfl, by rw [Launch.queueOf_take, if_pos rfl], fun m hm => by rw [Launch.queueOf_take, if_neg hm]⟩
  case posts =>
    intro s i v hr hc ht ho d l
    have hpost : exec (.launchPortPost i v) s = .next (s.postLaunch d (.thread i)) :=
      congrArg Host.Outcome.next (State.launchPortPost_eq v hr hc ht ho)
    refine ⟨fun h => ?_, fun st h hd => ⟨_, hpost.trans (congrArg Host.Outcome.next (State.postLaunch_refused h hd)), rfl⟩⟩
    obtain ⟨dynamic, u, hu, hpl⟩ := State.postLaunch_accepted h
    refine ⟨_, _, hpost.trans (congrArg Host.Outcome.next hpl), rfl, rfl, rfl, rfl, rfl, rfl, rfl, ?_, ?_⟩
    · refine (State.reg_setReg u _ _ _).trans ?_
      obtain rfl | rfl := hu
      · rw [State.reg_bump_other s (by decide)]
      · rfl
    · obtain rfl | rfl := hu <;> rfl
  case starts =>
    intro s id n k l hl hk hb j t g
    have ht : t = s.seatThread l n k := (State.startThread_eq s l n k hl).trans (if_neg fun hc => hb.elim hc.1 hc.2)
    obtain ⟨run, item, v, hd⟩ := l.deliver_startSlot g n
    have hs : t.slot j = ({ l.startSlot g with run := run, item := item } : Slot).setC 0 v := by
      rw [ht]
      exact (State.seatThread_slot s l n k).trans hd
    rw [hs]
    refine ⟨rfl, rfl, rfl, rfl, l.startSlot_sreg g 0, l.startSlot_sreg g 1, l.startSlot_sreg g 2, l.startSlot_sreg g 3, fun r hr => ?_,
      l.startSlot_vreg g, rfl, by rw [ht, State.seatThread_mem], fun m hm hne => ?_⟩
    · refine (l.startSlot_sreg g r).trans ?_
      rw [if_neg (by omega), if_neg (by omega), if_neg (by omega), if_neg (by omega)]
    · rw [ht]
      exact State.seatThread_slot_other s l n k (SlotId.key_ne hk hm hne)
  case otherBank =>
    intro s id n k l hl hk hb hne
    rw [State.startThread_eq s l n k hl, if_pos ⟨hb, hne⟩]
    exact State.slot_halt _ _ _ _ _ _ _
  case reports =>
    intro s id l hl hp ho a st ha0 ha8 hnode hv hs
    have hr := (State.launchComplete_eq hl hp ho).trans (State.reportLaunch_eq _ l)
    rw [if_neg ha0] at hr
    obtain rfl := State.launch?_id hl
    have hlen : l.record.length = 8 := natLE_length _ _
    obtain ⟨hin, hout, hrest⟩ := State.retireLaunch_writes s l ha8 hnode hv hs
    rw [hlen] at hin hout
    have hswarm := (State.reportEntry_swarm _ l).trans (State.swarm_of_sansStored hrest)
    refine ⟨_, congrArg Host.Outcome.next hr, State.launch?_retired s l (congrArg Swarm.launches hswarm), fun k hk => ?_, fun c hc => ?_,
      ?_, ?_⟩
    · rw [State.reportEntry_rawByte, hin k hk]
      rfl
    · rw [State.reportEntry_rawByte, hout c hc, State.rawByte, State.retireLaunch_mem, State.rawByte]
    · rw [hswarm, State.retireLaunch_swarm]
    · rw [State.reportEntry_net, State.net_of_sansStored hrest, State.retireLaunch_net]
  case silent =>
    intro s id l hl hp ho ha0
    have hr := (State.launchComplete_eq hl hp ho).trans (State.reportLaunch_eq _ l)
    rw [if_pos ha0] at hr
    obtain rfl := State.launch?_id hl
    have hswarm := (State.reportEntry_swarm (s.retireLaunch l) l).trans (State.retireLaunch_swarm s l)
    refine ⟨_, congrArg Host.Outcome.next hr, State.launch?_retired s l (by rw [State.reportEntry_swarm]), fun m hm hne => ?_,
      (State.reportEntry_reg _ l _ _).trans (State.retireLaunch_reg s l), fun q e x hs hx he hn => ?_, ?_, ?_, ?_⟩
    · rw [hswarm]
      exact List.mem_filter.mpr ⟨hm, by simpa using hne⟩
    · refine State.mem_reportEntry _ l hs ?_ he hn
      rwa [State.retireLaunch_pair]
    · rw [State.reportEntry_mem, State.retireLaunch_mem]
    · rw [hswarm]
    · rw [State.reportEntry_net, State.retireLaunch_net]
  case gates =>
    intro s n at_ hr hn hw hg he ha hi ht
    refine ⟨_, congrArg Host.Outcome.next (State.combGate_eq s hr hn hw hg he ha hi ht), ?_, fun m hm => ?_, ?_, ?_,
      fun cell off hc ho => ?_, fun cell hc => ?_, ?_, ?_⟩
    · rw [State.gateComb_comb, State.at_comb]
    · rw [State.gateComb_comb_other _ hm, State.at_comb]
    · rw [State.gateComb_now, State.at_now]
    · rw [State.gateComb_reg, State.at_reg]
    · rw [State.gateComb_padByte _ hn hc ho, State.at_padByte]
    · rw [State.gateComb_padGeneration _ hn hc, State.at_padGeneration]
    · rw [State.gateComb_mem, State.at_mem]
    · rw [State.gateComb_slots, State.at_swarm]

end Sys2Proof.Proofs
end

section
/-! SUPPORT. The scalar commands of a thread (R98, R105): what the fields of an accepted word range over, what a written register and
a loop counter read back as, and the commands whose work is one write of a register. -/

namespace Sys2Proof.Machine

open Sys2Proof Sys2Proof.Safety

/-! ## Accepted words -/

section
variable {s : State} {i : SlotId} {w : Nat} {b : Bool} {f : Form}

/-- The operand checks that a command at issue has passed. -/
theorem issues_checks (h : Issues s i w b) (hf : formOf (cmdOp w) (cmdMods w) = some f) :
    opndReason f.a (cmdA w) false = none ∧ opndReason f.b (cmdB w) false = none ∧ opndReason f.d (cmdD w) true = none
      ∧ selOk (cmdOp w) (cmdSel w) = true ∧ cmdMods w &&& f.mask = cmdMods w ∧ modsOk s w = true := by
  obtain ⟨-, -, -, -, -, hshape⟩ := h
  exact shapeReason_none hshape hf

theorem issues_mods_le (h : Issues s i w b) (hf : formOf (cmdOp w) (cmdMods w) = some f) : cmdMods w ≤ f.mask := by
  obtain ⟨-, -, -, -, hm, -⟩ := issues_checks h hf
  rw [← hm]
  exact Nat.and_le_right

theorem issues_modsOk (h : Issues s i w b) (hf : formOf (cmdOp w) (cmdMods w) = some f) : modsOk s w = true := by
  obtain ⟨-, -, -, -, -, hm⟩ := issues_checks h hf
  exact hm

theorem issues_takesA (h : Issues s i w b) (hf : formOf (cmdOp w) (cmdMods w) = some f) : (f.a.any fun k => k.takes (cmdA w)) = true :=
  opndReason_takes (issues_checks h hf).1

theorem issues_takesB (h : Issues s i w b) (hf : formOf (cmdOp w) (cmdMods w) = some f) : (f.b.any fun k => k.takes (cmdB w)) = true :=
  opndReason_takes (issues_checks h hf).2.1

theorem issues_takesD (h : Issues s i w b) (hf : formOf (cmdOp w) (cmdMods w) = some f) : (f.d.any fun k => k.takes (cmdD w)) = true :=
  opndReason_takes (issues_checks h hf).2.2.1

/-- No accepted destination is p0. -/
theorem issues_dest_ne (h : Issues s i w b) (hf : formOf (cmdOp w) (cmdMods w) = some f) : cmdD w ≠ .p 0 :=
  opndReason_p0 (issues_checks h hf).2.2.1

/-- A predicate that an accepted word names as its destination is one of p1 to p7. -/
theorem issues_dest_pred (h : Issues s i w b) (hf : formOf (cmdOp w) (cmdMods w) = some f) {n : Nat} (hd : cmdD w = .p n) :
    n < 8 ∧ n ≠ 0 := by
  refine ⟨opndOf_p hd, fun hn => issues_dest_ne h hf ?_⟩
  rw [hd, hn]

end

/-! ## Registers and loop counters -/

theorem Slot.loop_setLoop (t : Slot) {n : Nat} (hn : n < 2) (l : LoopCtr) (m : Nat) :
    ({ t with loops := t.loops.setIfInBounds n l } : Slot).loop m = if m = n then l else t.loop m := by
  simp only [Slot.loop, vector_getD_set, hn, and_true, eq_comm]

theorem Slot.loop_setLc (t : Slot) {n : Nat} (hn : n < 2) (v m : Nat) :
    (t.setLc n v).loop m = if m = n then { t.loop n with preset := BitVec.ofNat 32 v } else t.loop m :=
  t.loop_setLoop hn _ m

/-- Retirement changes no preset (R105). -/
theorem Slot.arrive_preset (t : Slot) (brk : Bool) (p : Nat) (ns : List Nat) (m : Nat) :
    ((t.arrive brk p ns).loop m).preset = (t.loop m).preset := by
  have hset (t : Slot) (n : Nat) (l : LoopCtr) (hl : l.preset = (t.loop n).preset) :
      (({ t with loops := t.loops.setIfInBounds n l } : Slot).loop m).preset = (t.loop m).preset := by
    simp only [Slot.loop, vector_getD_set] at hl ⊢
    split
    · next hm => rw [hl, hm.1]
    · rfl
  induction ns generalizing t brk with
  | nil => rfl
  | cons n ns ih =>
    simp only [Slot.arrive]
    split
    · split
      · exact (ih _ _).trans (hset t n _ rfl)
      · exact hset t n _ rfl
    · rfl

@[simp] theorem Slot.retire_preset (t : Slot) (p : Nat) (a : After) (m : Nat) : ((t.retire p a).loop m).preset = (t.loop m).preset := by
  unfold Slot.retire
  dsimp only
  split
  · exact Slot.arrive_preset _ _ _ _ _
  · exact Slot.arrive_preset _ _ _ _ _
  · split
    · exact Slot.arrive_preset _ _ _ _ _
    · rfl

@[simp] theorem Slot.retire_pair (t : Slot) (p : Nat) (a : After) (n : Nat) : (t.retire p a).pair n = t.pair n := by
  simp only [Slot.pair, Slot.retire_sreg]

/-- Slots whose loops are the same go to the same command. -/
theorem Slot.retire_lt_of_loops {t u : Slot} {p m : Nat} {a : After} (h : (u.retire p a).ptr < m) (hl : t.loops = u.loops)
    (hn : t.nest = u.nest) : (t.retire p a).ptr < m := by
  have hloop (n : Nat) : t.loop n = u.loop n := by rw [Slot.loop, hl, Slot.loop]
  rwa [Slot.retire_ptr_congr t u (fun n => by rw [hloop n]; exact ⟨rfl, rfl, rfl, rfl⟩) hn]

/-- What a slot has in progress plays no part in a register that its command writes. -/
theorem Slot.put_retire_cur (t : Slot) (c : Option (Nat × Bool)) (l : Latch) (o : Opnd) (v p : Nat) (a : After) :
    (({ t with cur := c, latch := l } : Slot).put o v).retire p a = (t.put o v).retire p a := by
  rw [Slot.put_cur, Slot.retire_cur]

theorem Slot.nextPtr_put (t : Slot) (o : Opnd) (v : Nat) : ((t.put o v).retire t.ptr .next).ptr = nextPtr t := Slot.put_ptr t o v _ _

/-! ## Commands that write one register -/

section
variable {s : State} {i : SlotId} {w : Nat} {b : Bool}

/-- A command whose work is one write of a register: the register holds the value, the slot retires, and nothing else differs. -/
theorem runSlot_put {op : Nat} {f : Slot → Nat → Slot} {o : Opnd} {v : Nat} (h : Issues s i w b) (ho : cmdOp w = op)
    (hp : nextPtr (s.slot i) < 2048)
    (hf : ∀ c l, f { s.slot i with cur := c, latch := l } w = ({ s.slot i with cur := c, latch := l } : Slot).put o v) :
    ∃ t, runSlot s i op f = t ∧ t.slot i = ((s.slot i).put o v).retire (s.slot i).ptr .next ∧ OnlySlot i s t :=
  runSlot_issues h ho (by rw [hf, Slot.put_retire_cur]) (by rw [Slot.nextPtr_put]; exact hp)

/-- The same where the destination is an s or c register and the value has 32 bits. -/
theorem runSlot_wrote {op : Nat} {f : Slot → Nat → Slot} {v : W32} (h : Issues s i w b) (ho : cmdOp w = op)
    (hp : nextPtr (s.slot i) < 2048) (hd : ([Kind.s, Kind.c].any fun k => k.takes (cmdD w)) = true)
    (hf : ∀ c l, f { s.slot i with cur := c, latch := l } w
      = ({ s.slot i with cur := c, latch := l } : Slot).put (cmdD w) v.toNat) :
    ∃ t, runSlot s i op f = t ∧ Wrote i w v s t := by
  obtain ⟨t, ht, hslot, honly⟩ := runSlot_put h ho hp hf
  refine ⟨t, ht, ?_, hslot, honly⟩
  rw [hslot]
  cases hk : cmdD w with
  | s n => rw [Slot.value, Slot.retire_sreg, Slot.put, Slot.sreg_setS _ (opndOf_s hk), BitVec.ofNat_toNat, BitVec.setWidth_eq]
  | c n => rw [Slot.value, Slot.retire_creg, Slot.put, Slot.creg_setC _ (opndOf_c hk), BitVec.ofNat_toNat, BitVec.setWidth_eq]
  | _ => simp [hk, Kind.takes] at hd

end

end Sys2Proof.Machine
end

section
/-! PROOF. O9: the arithmetic rows. -/

namespace Sys2Proof.Proofs

open Sys2Proof Sys2Proof.Machine Sys2Proof.Safety

section
variable (s : State) (i : SlotId)

theorem exec_add : exec (.add i) s = .next (runSlot s i 0x11 addSlot) := rfl
theorem exec_sub : exec (.sub i) s = .next (runSlot s i 0x12 subSlot) := rfl
theorem exec_mul : exec (.mul i) s = .next (runSlot s i 0x13 mulSlot) := rfl
theorem exec_logic : exec (.logic i) s = .next (runSlot s i 0x14 logicSlot) := rfl
theorem exec_shift : exec (.shift i) s = .next (runSlot s i 0x15 shiftSlot) := rfl

end

/-- The functions of LOGIC by their code. -/
theorem logicFn_eq (w f x y : Nat) (hf : f < 4) : logicFn w f x y =
    (if f = 0 then BitVec.ofNat w x &&& BitVec.ofNat w y else if f = 1 then BitVec.ofNat w x ||| BitVec.ofNat w y
      else if f = 2 then BitVec.ofNat w x ^^^ BitVec.ofNat w y else BitVec.ofNat w x &&& ~~~BitVec.ofNat w y).toNat := by
  match f, hf with
  | 0, _ => rfl
  | 1, _ => rfl
  | 2, _ => rfl
  | 3, _ => rfl

/-- The shifts by their code. -/
theorem shiftFn_eq (f x y : Nat) (hf : f < 3) (hy : y < 2 ^ 32) : shiftFn f x y =
    (if f = 0 then BitVec.ofNat 32 x <<< ((BitVec.ofNat 32 y).toNat % 32) else if f = 1 then
      BitVec.ofNat 32 x >>> ((BitVec.ofNat 32 y).toNat % 32)
      else (BitVec.ofNat 32 x).sshiftRight ((BitVec.ofNat 32 y).toNat % 32)).toNat := by
  rw [BitVec.toNat_ofNat, Nat.mod_eq_of_lt hy]
  match f, hf with
  | 0, _ => rfl
  | 1, _ => rfl
  | 2, _ => rfl

/-- Settles O9: each row writes one register with a value that is the 32-bit operation on its operands (`runSlot_wrote`). -/
theorem scalarArithmetic : Obligations.ScalarArithmetic := by
  unfold Obligations.ScalarArithmetic
  intro s i w b h hp x y
  have hshort {k : Opnd} (hk : (shortIn.any fun q => q.takes k) = true) : (scalarIn.any fun q => q.takes k) = true := by
    cases k <;> simp_all [shortIn, scalarIn, Kind.takes]
  refine ⟨fun ho => ?_, fun ho => ?_, fun ho => ?_, fun ho => ?_, fun ho => ?_⟩
  · have hf : formOf (cmdOp w) (cmdMods w) = some { a := scalarIn, b := scalarIn, d := [.s, .c] } := by rw [ho]; rfl
    obtain ⟨t, ht, hw⟩ := runSlot_wrote (v := x + y) (f := addSlot) h ho hp (issues_takesD h hf) fun c l => by
      simp only [addSlot, Slot.value_cur, x, y, BitVec.toNat_add, BitVec.toNat_ofNat, ← Nat.add_mod]
    exact ⟨t, (exec_add s i).trans (congrArg _ ht), hw⟩
  · have hf : formOf (cmdOp w) (cmdMods w) = some { a := scalarIn, b := scalarIn, d := [.s, .c] } := by rw [ho]; rfl
    have ha : (s.slot i).value (cmdA w) < 2 ^ 32 := Slot.value_lt _ _ (issues_takesA h hf)
    have hb : (s.slot i).value (cmdB w) < 2 ^ 32 := Slot.value_lt _ _ (issues_takesB h hf)
    obtain ⟨t, ht, hw⟩ := runSlot_wrote (v := x - y) (f := subSlot) h ho hp (issues_takesD h hf) fun c l => by
      simp only [subSlot, Slot.value_cur, x, y, BitVec.toNat_sub, BitVec.toNat_ofNat, Nat.mod_eq_of_lt ha, Nat.mod_eq_of_lt hb]
      congr 2
      omega
    exact ⟨t, (exec_sub s i).trans (congrArg _ ht), hw⟩
  · have hf : formOf (cmdOp w) (cmdMods w) = some { a := shortIn, b := shortIn, d := [.s, .c] } := by rw [ho]; rfl
    obtain ⟨t, ht, hw⟩ := runSlot_wrote (v := x * y) (f := mulSlot) h ho hp (issues_takesD h hf) fun c l => by
      simp only [mulSlot, Slot.value_cur, x, y, BitVec.toNat_mul, BitVec.toNat_ofNat, ← Nat.mul_mod]
    exact ⟨t, (exec_mul s i).trans (congrArg _ ht), hw⟩
  · have hf : formOf (cmdOp w) (cmdMods w) = some { a := shortIn, b := shortIn, d := [.s, .c], mask := bitsMask 1 0 } := by
      rw [ho]; rfl
    have hm : cmdMods w < 4 := Nat.lt_succ_of_le (issues_mods_le h hf)
    obtain ⟨t, ht, hw⟩ := runSlot_wrote (v := if cmdMods w = 0 then x &&& y else if cmdMods w = 1 then x ||| y
        else if cmdMods w = 2 then x ^^^ y else x &&& ~~~y) (f := logicSlot) h ho hp (issues_takesD h hf) fun c l => by
      simp only [logicSlot, Slot.value_cur, Nat.mod_eq_of_lt hm, logicFn_eq _ _ _ _ hm, x, y]
    exact ⟨t, (exec_logic s i).trans (congrArg _ ht), hw⟩
  · have hf : formOf (cmdOp w) (cmdMods w) = some { a := shortIn, b := shortIn, d := [.s, .c], mask := bitsMask 1 0 } := by
      rw [ho]; rfl
    have hb : (s.slot i).value (cmdB w) < 2 ^ 32 := Slot.value_lt _ _ (hshort (issues_takesB h hf))
    have hm : cmdMods w < 3 := by
      have hle : cmdMods w ≤ 3 := issues_mods_le h hf
      have hne : cmdMods w ≠ 3 := by simpa [modsOk, ho] using issues_modsOk h hf
      omega
    obtain ⟨t, ht, hw⟩ := runSlot_wrote (v := if cmdMods w = 0 then x <<< (y.toNat % 32) else if cmdMods w = 1 then
        x >>> (y.toNat % 32) else x.sshiftRight (y.toNat % 32)) (f := shiftSlot) h ho hp (issues_takesD h hf) fun c l => by
      simp only [shiftSlot, Slot.value_cur, Nat.mod_eq_of_lt (by omega : cmdMods w < 4), shiftFn_eq _ _ _ hm hb, x, y]
    exact ⟨t, (exec_shift s i).trans (congrArg _ ht), hw⟩

end Sys2Proof.Proofs
end

section
/-! SUPPORT. The comparisons, fields and descriptors that the scalar commands write (R94, R98, R106). -/

namespace Sys2Proof.Machine

open Sys2Proof Sys2Proof.Safety

/-! ## Comparisons (R106) -/

theorem toSigned_eq_toInt (n v : Nat) : toSigned n v = (BitVec.ofNat n v).toInt := by
  unfold toSigned
  rw [BitVec.toInt_eq_toNat_cond, BitVec.toNat_ofNat]
  cases n with
  | zero => simp [Nat.mod_one]
  | succ n =>
    have hp : 2 ^ (n + 1) = 2 * 2 ^ n := Nat.pow_succ'
    have hc : (2 : Int) ^ (n + 1) = ((2 ^ (n + 1) : Nat) : Int) := (Nat.cast_pow 2 (n + 1)).symm
    simp only [Nat.add_sub_cancel, hc]
    split <;> split <;> omega

/-- The flag of a comparison of two 32-bit operands, by their words. -/
theorem cmpFlag_word {x y : Nat} (signed : Bool) (hx : x < 2 ^ 32) (hy : y < 2 ^ 32) : cmpFlag signed 32 x y =
    if signed then (if (BitVec.ofNat 32 x).toInt < (BitVec.ofNat 32 y).toInt then .lt
      else if BitVec.ofNat 32 x = BitVec.ofNat 32 y then .eq else .gt)
    else if (BitVec.ofNat 32 x).toNat < (BitVec.ofNat 32 y).toNat then .lt
      else if BitVec.ofNat 32 x = BitVec.ofNat 32 y then .eq else .gt := by
  have heq : BitVec.ofNat 32 x = BitVec.ofNat 32 y ↔ x = y := by
    rw [← BitVec.toNat_inj, BitVec.toNat_ofNat, BitVec.toNat_ofNat, Nat.mod_eq_of_lt hx, Nat.mod_eq_of_lt hy]
  simp only [cmpFlag, toSigned_eq_toInt, BitVec.toInt_inj, heq, BitVec.toNat_ofNat, Nat.mod_eq_of_lt hx, Nat.mod_eq_of_lt hy]

/-! ## Replaced fields -/

/-- A field that is replaced: the number above it, what it holds now, and the number below it. -/
theorem setField_eq (v lo n x : Nat) :
    setField v lo n x = 2 ^ lo * (2 ^ n * (v / 2 ^ lo / 2 ^ n) + x % 2 ^ n) + v % 2 ^ lo := by
  have h0 := setField_zero v lo n
  unfold setField at h0 ⊢
  rw [Nat.zero_mod, Nat.zero_mul, Nat.add_zero] at h0
  rw [h0, Nat.mul_add, Nat.mul_comm (x % 2 ^ n)]
  omega

theorem testBit_setField (v lo n x k : Nat) :
    (setField v lo n x).testBit k = if lo ≤ k ∧ k < lo + n then x.testBit (k - lo) else v.testBit k := by
  rw [setField_eq, Nat.testBit_two_pow_mul_add _ (Nat.mod_lt _ (Nat.two_pow_pos lo))]
  by_cases hlo : k < lo
  · rw [if_pos hlo, if_neg (by omega), Nat.testBit_mod_two_pow]
    simp [hlo]
  · rw [if_neg hlo, Nat.testBit_two_pow_mul_add _ (Nat.mod_lt _ (Nat.two_pow_pos n))]
    by_cases hn : k < lo + n
    · rw [if_pos (by omega), if_pos (by omega), Nat.testBit_mod_two_pow]
      simp [show k - lo < n by omega]
    · rw [if_neg (by omega), if_neg (by omega), Nat.testBit_div_two_pow, Nat.testBit_div_two_pow,
        show k - lo - n + n + lo = k by omega]

theorem fieldOf_setField (v lo x : Nat) {n : Nat} (hn : 0 < n) : fieldOf (lo + n - 1) lo (setField v lo n x) = x % 2 ^ n := by
  apply Nat.eq_of_testBit_eq
  intro k
  rw [fieldOf, Nat.testBit_mod_two_pow, Nat.testBit_div_two_pow, testBit_setField, Nat.testBit_mod_two_pow]
  by_cases hk : k < n
  · rw [if_pos (by omega), Nat.add_sub_cancel]
    simp [hk, show k < lo + n - 1 + 1 - lo by omega]
  · simp [hk, show ¬ k < lo + n - 1 + 1 - lo by omega]

theorem setField_lt {v lo n x m : Nat} (hv : v < 2 ^ m) (hn : lo + n ≤ m) : setField v lo n x < 2 ^ m := by
  apply Nat.lt_pow_two_of_testBit
  intro k hk
  rw [testBit_setField, if_neg (by omega)]
  exact Nat.testBit_lt_two_pow (lt_of_lt_of_le hv (Nat.pow_le_pow_right (by decide) hk))

/-- A destination's value leaves the comparators' flags as they are. -/
theorem Slot.put_cmp (t : Slot) (o : Opnd) (v : Nat) : (t.put o v).cmp = t.cmp := by
  cases o with
  | p n =>
    rw [Slot.put, Slot.setP]
    split <;> rfl
  | _ => rfl

/-! ## Descriptors as a command's destination -/

/-- A slot written a descriptor holds the descriptor that it then holds. -/
theorem Slot.setD_desc (t : Slot) {n : Nat} (hn : n < 32) (v : Nat) (p : Nat) (a : After) :
    (t.setD n v).retire p a = (t.setD n (((t.setD n v).retire p a).desc n).toNat).retire p a := by
  rw [Slot.retire_desc, Slot.desc_setD _ hn]
  simp only [Slot.setD, BitVec.ofNat_toNat, BitVec.setWidth_eq]

end Sys2Proof.Machine
end

section
/-! PROOF. O10, O11: moves, comparisons and the descriptor commands. -/

namespace Sys2Proof.Proofs

open Sys2Proof Sys2Proof.Machine Sys2Proof.Safety

section
variable (s : State) (i : SlotId)

theorem exec_mov : exec (.mov i) s = .next (runSlot s i 0x10 movSlot) := rfl
theorem exec_cmp : exec (.cmp i) s = .next (runSlot s i 0x16 cmpSlot) := rfl
theorem exec_plogic : exec (.plogic i) s = .next (runSlot s i 0x17 plogicSlot) := rfl
theorem exec_dset : exec (.dset i) s = .next (runSlot s i 0x19 dsetSlot) := rfl
theorem exec_doff : exec (.doff i) s = .next (runSlot s i 0x1A doffSlot) := rfl

end

section
variable {s : State} {i : SlotId} {w : Nat} {b : Bool}

/-- MOV (R98): the register holds the value, cut or extended to its width. -/
theorem mov_done (h : Issues s i w b) (hp : nextPtr (s.slot i) < 2048) (ho : cmdOp w = 0x10) :
    let v := if cmdA w = .none then cmdMods w else (s.slot i).value (cmdA w)
    ∃ t, exec (.mov i) s = .next t ∧ OnlySlot i s t ∧ t.slot i = ((s.slot i).put (cmdD w) v).retire (s.slot i).ptr .next
      ∧ (∀ n, cmdD w = .s n → (t.slot i).sreg n = BitVec.ofNat 32 v)
      ∧ (∀ n, cmdD w = .c n → (t.slot i).creg n = BitVec.ofNat 32 v)
      ∧ (∀ n, cmdD w = .v n → (t.slot i).vreg n = BitVec.ofNat 64 v)
      ∧ (∀ n, cmdD w = .p n → (t.slot i).pred n = decide (v ≠ 0))
      ∧ ∀ n, cmdD w = .lc n → ((t.slot i).loop n).preset = BitVec.ofNat 32 v := by
  intro v
  have hnone : ((cmdA w).isNone = true) = (cmdA w = .none) := by cases cmdA w <;> simp [Opnd.isNone]
  have hf : formOf (cmdOp w) (cmdMods w)
      = some { a := [.s, .c, .lc, .v, .p, .imm, .none], d := [.s, .c, .lc, .v, .p], mask := bitsMask 63 0 } := by rw [ho]; rfl
  obtain ⟨t, ht, hslot, honly⟩ := runSlot_put (f := movSlot) (o := cmdD w) (v := v) h ho hp fun c l => by
    simp only [movSlot, Slot.value_cur, hnone, v]
  refine ⟨t, (exec_mov s i).trans (congrArg _ ht), honly, hslot, ?_, ?_, ?_, ?_, ?_⟩ <;> intro n hd <;> rw [hslot, hd]
  · rw [Slot.retire_sreg, Slot.put, Slot.sreg_setS _ (opndOf_s hd)]
  · rw [Slot.retire_creg, Slot.put, Slot.creg_setC _ (opndOf_c hd)]
  · rw [Slot.retire_vreg, Slot.put, Slot.vreg_setV _ (opndOf_v hd)]
  · obtain ⟨h8, h0⟩ := issues_dest_pred h hf hd
    rw [Slot.retire_pred, Slot.put, Slot.pred_setP _ h8 h0]
  · rw [Slot.retire_preset, Slot.put, Slot.loop_setLc _ (opndOf_lc hd), if_pos rfl]

/-- CMP (R98, R106): one flag of its comparator, and the named predicate by the mask. -/
theorem cmp_done {f : CmpFlag} (h : Issues s i w b) (hp : nextPtr (s.slot i) < 2048) (ho : cmdOp w = 0x16)
    (hflag : cmpFlag (bitOf (cmdMods w) 1) 32 ((s.slot i).value (cmdA w)) ((s.slot i).value (cmdB w)) = f) :
    ∃ t, exec (.cmp i) s = .next t ∧ OnlySlot i s t
      ∧ t.slot i = (({ s.slot i with cmp := (s.slot i).cmp.setIfInBounds (cmdMods w % 2) f } : Slot).put (cmdD w)
          (b2n (f.meets (fieldOf 4 2 (cmdMods w))))).retire (s.slot i).ptr .next
      ∧ (t.slot i).cmp.getD (cmdMods w % 2) .clear = f
      ∧ ∀ n, cmdD w = .p n → (t.slot i).pred n = f.meets (fieldOf 4 2 (cmdMods w)) := by
  have hf : formOf (cmdOp w) (cmdMods w) = some { a := scalarIn, b := scalarIn, d := [.p, .none], mask := bitsMask 4 0 } := by
    rw [ho]; rfl
  obtain ⟨t, ht, hslot, honly⟩ := runSlot_issues (f := cmpSlot) (u := (({ s.slot i with
      cmp := (s.slot i).cmp.setIfInBounds (cmdMods w % 2) f } : Slot).put (cmdD w)
      (b2n (f.meets (fieldOf 4 2 (cmdMods w))))).retire (s.slot i).ptr .next) h ho
    (by
      simp only [cmpSlot, Slot.value_cur, hflag]
      exact Slot.put_retire_cur { s.slot i with cmp := (s.slot i).cmp.setIfInBounds (cmdMods w % 2) f } _ _ _ _ _ _)
    (by
      rw [Slot.put_ptr]
      exact Slot.retire_lt_of_loops hp rfl rfl)
  refine ⟨t, (exec_cmp s i).trans (congrArg _ ht), honly, hslot, ?_, fun n hd => ?_⟩
  · rw [hslot, Slot.retire_cmp]
    rw [Slot.put_cmp, vector_getD_set, if_pos ⟨rfl, Nat.mod_lt _ (by decide)⟩]
  · obtain ⟨h8, h0⟩ := issues_dest_pred h hf hd
    rw [hslot, hd, Slot.retire_pred, Slot.put, Slot.pred_setP _ h8 h0]
    cases f.meets (fieldOf 4 2 (cmdMods w)) <;> rfl

/-- The functions of PLOGIC on predicates. -/
theorem logicFn_pred (f : Nat) (hf : f < 4) (x y : Bool) : decide (logicFn 1 f (b2n x) (b2n y) ≠ 0)
    = if f = 0 then x && y else if f = 1 then x || y else if f = 2 then xor x y else x && !y := by
  match f, hf with
  | 0, _ => cases x <;> cases y <;> rfl
  | 1, _ => cases x <;> cases y <;> rfl
  | 2, _ => cases x <;> cases y <;> rfl
  | 3, _ => cases x <;> cases y <;> rfl

/-- PLOGIC (R98): the predicate holds the function of its operands. -/
theorem plogic_done (h : Issues s i w b) (hp : nextPtr (s.slot i) < 2048) (ho : cmdOp w = 0x17) :
    ∃ t, exec (.plogic i) s = .next t ∧ OnlySlot i s t ∧ ∀ n m k, cmdA w = .p n → cmdB w = .p m → cmdD w = .p k →
      t.slot i = ((s.slot i).setP k ((t.slot i).pred k)).retire (s.slot i).ptr .next
        ∧ (t.slot i).pred k = (if cmdMods w = 0 then (s.slot i).pred n && (s.slot i).pred m
          else if cmdMods w = 1 then (s.slot i).pred n || (s.slot i).pred m
          else if cmdMods w = 2 then xor ((s.slot i).pred n) ((s.slot i).pred m) else (s.slot i).pred n && !(s.slot i).pred m) := by
  have hf : formOf (cmdOp w) (cmdMods w) = some { a := [.p], b := [.p], d := [.p], mask := bitsMask 1 0 } := by rw [ho]; rfl
  have hm : cmdMods w < 4 := Nat.lt_succ_of_le (issues_mods_le h hf)
  obtain ⟨t, ht, hslot, honly⟩ := runSlot_put (f := plogicSlot) (o := cmdD w)
    (v := logicFn 1 (cmdMods w) ((s.slot i).value (cmdA w)) ((s.slot i).value (cmdB w))) h ho hp fun c l => by
      simp only [plogicSlot, Slot.value_cur, Nat.mod_eq_of_lt hm]
  refine ⟨t, (exec_plogic s i).trans (congrArg _ ht), honly, fun n m k hn hk hd => ?_⟩
  obtain ⟨h8, h0⟩ := issues_dest_pred h hf hd
  rw [hn, hk, hd, Slot.put, Slot.value, Slot.value, logicFn_pred _ hm] at hslot
  have hpred := congrArg (fun u : Slot => u.pred k) hslot
  simp only [Slot.retire_pred, Slot.pred_setP _ h8 h0] at hpred
  exact ⟨by rw [hpred, hslot], hpred⟩

end

/-- Settles O10: MOV writes one register, CMP one flag and a predicate, PLOGIC one predicate. -/
theorem movesAndComparisons : Obligations.MovesAndComparisons := by
  unfold Obligations.MovesAndComparisons
  intro s i w b h hp u v x y f
  refine ⟨mov_done h hp, fun ho => ?_, plogic_done h hp⟩
  have hf : formOf (cmdOp w) (cmdMods w) = some { a := scalarIn, b := scalarIn, d := [.p, .none], mask := bitsMask 4 0 } := by
    rw [ho]; rfl
  exact cmp_done h hp ho (cmpFlag_word _ (Slot.value_lt _ _ (issues_takesA h hf)) (Slot.value_lt _ _ (issues_takesB h hf)))

section
variable {s : State} {i : SlotId} {w : Nat} {b : Bool} {n : Nat}

/-- A command that writes a descriptor: the slot holds it, retired, and nothing else differs. -/
theorem runSlot_desc {op v : Nat} {f : Slot → Nat → Slot} (h : Issues s i w b) (ho : cmdOp w = op) (hp : nextPtr (s.slot i) < 2048)
    (hn : n < 32) (hv : v < 2 ^ 256)
    (hf : ∀ c l, f { s.slot i with cur := c, latch := l } w = ({ s.slot i with cur := c, latch := l } : Slot).setD n v) :
    ∃ t, runSlot s i op f = t ∧ OnlySlot i s t
      ∧ t.slot i = ((s.slot i).setD n ((t.slot i).desc n).toNat).retire (s.slot i).ptr .next ∧ ((t.slot i).desc n).toNat = v := by
  obtain ⟨t, ht, hslot, honly⟩ := runSlot_put (o := .d n) (v := v) h ho hp hf
  refine ⟨t, ht, honly, ?_, ?_⟩
  · rw [hslot, Slot.put]
    exact Slot.setD_desc _ hn _ _ _
  · rw [hslot, Slot.retire_desc, Slot.put, Slot.desc_setD _ hn, BitVec.toNat_ofNat, Nat.mod_eq_of_lt hv]

/-- DSET (R98): the field holds the low bits of the value, and every other bit of the descriptor stays. -/
theorem dset_done {lo len v : Nat} (hpos : 0 < len) (h : Issues s i w b) (hp : nextPtr (s.slot i) < 2048) (ho : cmdOp w = 0x19)
    (hd : cmdD w = .d n) (hlen : lo + len ≤ 256)
    (hv : ∀ c l, dsetSlot { s.slot i with cur := c, latch := l } w
      = ({ s.slot i with cur := c, latch := l } : Slot).setD n (setField ((s.slot i).desc n).toNat lo len v)) :
    ∃ t, exec (.dset i) s = .next t ∧ OnlySlot i s t
      ∧ t.slot i = ((s.slot i).setD n ((t.slot i).desc n).toNat).retire (s.slot i).ptr .next
      ∧ fieldOf (lo + len - 1) lo ((t.slot i).desc n).toNat = v % 2 ^ len
      ∧ ∀ k, k < 256 → k < lo ∨ lo + len - 1 < k → ((t.slot i).desc n).getLsbD k = ((s.slot i).desc n).getLsbD k := by
  obtain ⟨t, ht, honly, hslot, hval⟩ := runSlot_desc (f := dsetSlot) h ho hp (opndOf_d hd) (setField_lt (BitVec.isLt _) hlen) hv
  refine ⟨t, (exec_dset s i).trans (congrArg _ ht), honly, hslot, by rw [hval, fieldOf_setField _ _ _ hpos], fun k _ hk => ?_⟩
  rw [BitVec.getLsbD, BitVec.getLsbD, hval, testBit_setField, if_neg (by omega)]

/-- DOFF (R94, R98): the destination is the source with an offset added to its base. -/
theorem doff_done {m off : Nat} (h : Issues s i w b) (hp : nextPtr (s.slot i) < 2048) (ho : cmdOp w = 0x1A)
    (hd : cmdD w = .d n) (ha : cmdA w = .d m)
    (hoff : off = if (cmdB w).isNone then 0 else (s.slot i).value (cmdB w) * (cmdMods w % 2 ^ 32) % 2 ^ 64) :
    ∃ t, exec (.doff i) s = .next t ∧ OnlySlot i s t
      ∧ t.slot i = ((s.slot i).setD n ((t.slot i).desc n).toNat).retire (s.slot i).ptr .next
      ∧ (Desc.of ((t.slot i).desc n)).base = ((Desc.of ((s.slot i).desc m)).base + off) % 2 ^ 64
      ∧ ∀ k, k < 192 → ((t.slot i).desc n).getLsbD k = ((s.slot i).desc m).getLsbD k := by
  obtain ⟨t, ht, honly, hslot, hval⟩ := runSlot_desc (f := doffSlot) (n := n)
    (v := setField ((s.slot i).desc m).toNat 192 64 (fieldOf 255 192 ((s.slot i).desc m).toNat + off)) h ho hp (opndOf_d hd)
    (setField_lt (BitVec.isLt _) (by decide)) fun c l => by
      simp only [doffSlot, hd, ha, Opnd.num, Slot.value_cur, ← hoff]
      rfl
  refine ⟨t, (exec_doff s i).trans (congrArg _ ht), honly, hslot, ?_, fun k hk => ?_⟩
  · show fieldOf 255 192 ((t.slot i).desc n).toNat = _
    rw [hval]
    exact fieldOf_setField _ 192 _ (by decide)
  · rw [BitVec.getLsbD, BitVec.getLsbD, hval, testBit_setField, if_neg (by omega)]

end

/-- Settles O11: a field of a descriptor is replaced (`dset_done`), or a base moved on (`doff_done`), by `testBit_setField`. -/
theorem descriptorCommands : Obligations.DescriptorCommands := by
  unfold Obligations.DescriptorCommands
  intro s i w b h hp u
  refine ⟨fun ho n m hd ha code hi lo v hmem hc => ?_, fun ho n m hd ha => ?_⟩
  · have hset (lo len v : Nat) (hpos : 0 < len) (hlen : lo + len ≤ 256)
        (hv : ∀ c l, dsetSlot { s.slot i with cur := c, latch := l } w
          = ({ s.slot i with cur := c, latch := l } : Slot).setD n (setField ((s.slot i).desc n).toNat lo len v)) :=
      dset_done hpos h hp ho hd hlen hv
    simp only [List.mem_cons, Prod.mk.injEq, List.not_mem_nil, or_false] at hmem
    obtain ⟨rfl, rfl, rfl, rfl⟩ | ⟨rfl, rfl, rfl, rfl⟩ | ⟨rfl, rfl, rfl, rfl⟩
      | ⟨rfl, rfl, rfl, rfl⟩ | ⟨rfl, rfl, rfl, rfl⟩ | ⟨rfl, rfl, rfl, rfl⟩ | ⟨rfl, rfl, rfl, rfl⟩ := hmem
    · exact hset 192 64 _ (by decide) (by decide) fun c l => by rw [dsetSlot, hd, ha, hc]; rfl
    · exact hset 160 32 _ (by decide) (by decide) fun c l => by rw [dsetSlot, hd, ha, hc]; rfl
    · exact hset 128 32 _ (by decide) (by decide) fun c l => by rw [dsetSlot, hd, ha, hc]; rfl
    · exact hset 112 16 _ (by decide) (by decide) fun c l => by rw [dsetSlot, hd, ha, hc]; rfl
    · exact hset 96 16 _ (by decide) (by decide) fun c l => by rw [dsetSlot, hd, ha, hc]; rfl
    · exact hset 64 32 _ (by decide) (by decide) fun c l => by rw [dsetSlot, hd, ha, hc]; rfl
    · exact hset 0 64 _ (by decide) (by decide) fun c l => by rw [dsetSlot, hd, ha, hc]; rfl
  · have hf : formOf (cmdOp w) (cmdMods w)
        = some { a := [.d], b := [.s, .c, .imm, .none], d := [.d], mask := bitsMask 31 0 } := by rw [ho]; rfl
    have hm : cmdMods w < 2 ^ 32 := Nat.lt_succ_of_le (issues_mods_le h hf)
    have hb : (cmdB w).isNone = decide (cmdB w = .none) := by cases cmdB w <;> rfl
    obtain ⟨t, he, honly, hslot, hbase, hlow⟩ := doff_done h hp ho hd ha rfl
    refine ⟨t, he, honly, hslot, hbase.trans ?_, hlow⟩
    rw [hb, Nat.mod_eq_of_lt hm]
    by_cases hnone : cmdB w = .none
    · simp [hnone, u]
    · simp [hnone, u]

end Sys2Proof.Proofs
end

section
/-! SUPPORT. The control commands (R97, R103, R104, R108): where a command goes once it has retired, and the bodies of SKIP, LOOP, BREAK
and YIELD from the checks they pass to their end. -/

namespace Sys2Proof.Machine

open Sys2Proof Sys2Proof.Safety

/-! ## The end of a command -/

section
variable (s : State) (i : SlotId) (w : Nat) (b : Bool)

@[simp] theorem issueOf_id : (issueOf s i w b).id = i := rfl
@[simp] theorem issueOf_word : (issueOf s i w b).word = w := rfl

@[simp] theorem begun_nest : ((begun s i w b).slot i).nest = (s.slot i).nest := by rw [State.begun_slot]
@[simp] theorem begun_loop (n : Nat) : ((begun s i w b).slot i).loop n = (s.slot i).loop n := by rw [State.begun_slot]; rfl
@[simp] theorem begun_loopCount : loopCount ((begun s i w b).slot i) w = loopCount (s.slot i) w := by
  rw [State.begun_slot]
  unfold loopCount
  split
  · rfl
  · rfl
  · exact Slot.value_cur _ _ _ _

theorem begun_retire (p : Nat) (a : After) : ((begun s i w b).slot i).retire p a = (s.slot i).retire p a := by
  rw [State.begun_slot, Slot.retire_cur]

end

section
variable {s u : State} {i : SlotId} {w : Nat} {b : Bool} {row : Nat → Bool} {body : Issue → Cmd After} {a : After}

/-- A command whose work ends in `u` retires there, where its pointer stays below 2,048. -/
theorem runCommand_ends (h : Issues s i w b) (hr : row w = true) (hb : body (issueOf s i w b) (begun s i w b) = .ok (a, u))
    (hp : ((u.slot i).retire (s.slot i).ptr a).ptr < 2048) :
    runCommand s i row body = u.setSlot i ((u.slot i).retire (s.slot i).ptr a) := by
  rw [runCommand_issues h hr, State.runBody, hb]
  exact State.retire_lt hp

/-- A command whose work changes its slot alone. -/
theorem runCommand_onlySlot (h : Issues s i w b) (hr : row w = true) (hb : body (issueOf s i w b) (begun s i w b) = .ok (a, u))
    (ho : OnlySlot i s u) (hp : ((u.slot i).retire (s.slot i).ptr a).ptr < 2048) :
    ∃ t, runCommand s i row body = t ∧ OnlySlot i s t ∧ t.slot i = (u.slot i).retire (s.slot i).ptr a :=
  ⟨_, runCommand_ends h hr hb hp, onlySlot_setSlot (issues_thread_lt h) ho _, State.slot_setSlot _ _ _⟩

/-- A command whose work changes nothing moves its pointer alone. -/
theorem runCommand_moves (h : Issues s i w b) (hr : row w = true)
    (hb : body (issueOf s i w b) (begun s i w b) = .ok (a, begun s i w b)) (hp : ((s.slot i).retire (s.slot i).ptr a).ptr < 2048) :
    ∃ t, runCommand s i row body = t ∧ OnlySlot i s t ∧ t.slot i = (s.slot i).retire (s.slot i).ptr a := by
  rw [← begun_retire s i w b] at hp ⊢
  exact runCommand_onlySlot h hr hb (onlySlot_begun (issues_thread_lt h)) hp

/-- A command whose work ends with a new value of its slot. -/
theorem runCommand_setSlot {v : Slot} (h : Issues s i w b) (hr : row w = true)
    (hb : body (issueOf s i w b) (begun s i w b) = .ok (a, (begun s i w b).setSlot i v)) (hp : (v.retire (s.slot i).ptr a).ptr < 2048) :
    ∃ t, runCommand s i row body = t ∧ OnlySlot i s t ∧ t.slot i = v.retire (s.slot i).ptr a := by
  have hi := issues_thread_lt h
  obtain ⟨t, ht, honly, hslot⟩ := runCommand_onlySlot h hr hb (onlySlot_setSlot hi (onlySlot_begun hi) v)
    (by rw [State.slot_setSlot]; exact hp)
  exact ⟨t, ht, honly, hslot.trans (by rw [State.slot_setSlot])⟩

/-- A command that leaves its thread waiting keeps what it began. -/
theorem runCommand_left {v : Slot} (h : Issues s i w b) (hr : row w = true)
    (hb : body (issueOf s i w b) (begun s i w b) = .error (.leave ((begun s i w b).setSlot i v))) :
    ∃ t, runCommand s i row body = t ∧ OnlySlot i s t ∧ t.slot i = v := by
  have hi := issues_thread_lt h
  refine ⟨(begun s i w b).setSlot i v, ?_, onlySlot_setSlot hi (onlySlot_begun hi) v, State.slot_setSlot _ _ _⟩
  rw [runCommand_issues h hr, State.runBody, hb]

/-- A command that stops with a reason halts its thread. -/
theorem runCommand_halts {reason fault : Nat} (h : Issues s i w b) (hr : row w = true)
    (hb : body (issueOf s i w b) (begun s i w b) = .error (.halt reason fault u)) :
    runCommand s i row body = u.haltAt (issueOf s i w b) reason fault := by
  rw [runCommand_issues h hr, State.runBody, hb]

end

/-! ## Where a command goes -/

/-- Outside loops a command goes where it says. -/
theorem Slot.retire_to_flat (t : Slot) (p q : Nat) (h : t.nest = []) : (t.retire p (.to q)).ptr = q := by
  simp only [Slot.retire, h, Slot.arrive]

/-- A BREAK of the only active loop goes behind its end (R104). -/
theorem Slot.retire_brk_single (t : Slot) (p n : Nat) (h : t.nest = [n]) :
    (t.retire p .brk).ptr = (t.loop n).last + 1 ∧ (t.retire p .brk).nest = [] := by
  simp only [Slot.retire, h, Slot.arrive, Slot.loop, if_true, Bool.true_or, and_self]

/-- A loop that is opened begins with the command after the LOOP, before its end (R104). -/
theorem Slot.retire_opened (t : Slot) {p n : Nat} {ns : List Nat} (hn : t.nest = n :: ns) (hl : (t.loop n).last ≠ p) :
    t.retire p .next = { t with status := .ready, cur := none, latch := {}, fetched := [], ptr := p + 1 } := by
  have hlast : p + 1 ≠ (t.loop n).last + 1 := by omega
  simp only [Slot.retire, hn, Slot.arrive]
  split
  · next he => exact absurd he hlast
  · rfl

/-! ## The bodies -/

section
variable {x : Issue} {s : State}

theorem skipBody_done {n : Nat} (hn : cmdMods x.word % 256 = n) (ht : x.ptr + 1 + n ≤ (match (s.slot x.id).nest with
      | [] => 2047
      | m :: _ => ((s.slot x.id).loop m).last + 1)) : skipBody x s = .ok (.to (x.ptr + 1 + n), s) := by
  unfold skipBody
  rw [Cmd.slot_bind, hn]
  exact Cmd.require_bind (decide_eq_true ht) _ _

/-- The slot of a thread that opens loop `n` with a count of `c + 1` (R104). -/
def Slot.openLoop (t : Slot) (n c first last : Nat) : Slot :=
  { t with
      loops := t.loops.setIfInBounds n { t.loop n with remaining := BitVec.ofNat 32 c, first := first, last := last, active := true }
      nest := n :: t.nest }

section
variable {n len : Nat} (hd : (cmdD x.word).num = n) (hl : cmdMods x.word % 256 = len) (ha : ((s.slot x.id).loop n).active = false)
  (hn : (s.slot x.id).nest.length < 2) (hp : x.ptr + len ≤ 2047)
  (hall : ((s.slot x.id).nest.all fun m => decide (x.ptr + len ≤ ((s.slot x.id).loop m).last)) = true)
include hd hl ha hn hp hall

/-- What a LOOP that passes its checks does with its count. -/
theorem loopBody_checked : loopBody x s = (if loopCount (s.slot x.id) x.word = 0 then (pure (.to (x.ptr + len + 1)) : Cmd After) else do
    Cmd.mapSlot x.id fun t => t.openLoop n (loopCount (s.slot x.id) x.word - 1) (x.ptr + 1) (x.ptr + len)
    pure .next) s := by
  unfold loopBody
  rw [Cmd.slot_bind]
  simp only [hd, hl]
  rw [Cmd.require_bind (by rw [ha, Bool.not_false, Bool.true_and, decide_eq_true hn]), Cmd.require_bind (decide_eq_true hp),
    Cmd.require_bind hall]
  rfl

theorem loopBody_zero (hc : loopCount (s.slot x.id) x.word = 0) : loopBody x s = .ok (.to (x.ptr + len + 1), s) := by
  rw [loopBody_checked hd hl ha hn hp hall, if_pos hc]
  rfl

theorem loopBody_opens {c : Nat} (hc : loopCount (s.slot x.id) x.word = c + 1) :
    loopBody x s = .ok (.next, s.setSlot x.id ((s.slot x.id).openLoop n c (x.ptr + 1) (x.ptr + len))) := by
  rw [loopBody_checked hd hl ha hn hp hall, hc, if_neg (Nat.succ_ne_zero c), Nat.add_sub_cancel]
  rfl

end

theorem breakBody_done {n : Nat} {ns : List Nat} (hn : (s.slot x.id).nest = n :: ns) : breakBody x s = .ok (.brk, s) := by
  unfold breakBody
  rw [Cmd.slot_bind, hn]
  rfl

theorem yieldBody_done :
    yieldBody x s = .ok (.next, s.setSlot x.id { s.slot x.id with yieldTo := s.readyOthers x.id }) := rfl

end

end Sys2Proof.Machine
end

section
/-! PROOF. O12, O13: the control commands and the loop rule. -/

namespace Sys2Proof.Proofs

open Sys2Proof Sys2Proof.Machine Sys2Proof.Safety

section
variable (s : State) (i : SlotId)

theorem exec_nop : exec (.nop i) s = .next (runSlot s i 0x00 fun t _ => t) := rfl
theorem exec_skip : exec (.skip i) s = .next (runCommand s i (fun w => cmdOp w == 0x01) skipBody) := rfl
theorem exec_loop : exec (.loop i) s = .next (runCommand s i (fun w => cmdOp w == 0x02) loopBody) := rfl
theorem exec_break : exec (.break_ i) s = .next (runCommand s i (fun w => cmdOp w == 0x03) breakBody) := rfl
theorem exec_yield : exec (.yield i) s = .next (runCommand s i (fun w => cmdOp w == 0x05) yieldBody) := rfl

end

section
variable {s : State} {i : SlotId} {w : Nat} {b : Bool}

theorem skip_done (h : Issues s i w b) (ho : cmdOp w = 0x01)
    (ht : (s.slot i).ptr + 1 + cmdMods w ≤ (match (s.slot i).nest with
      | [] => 2047
      | n :: _ => ((s.slot i).loop n).last + 1))
    (hp : ((s.slot i).retire (s.slot i).ptr (.to ((s.slot i).ptr + 1 + cmdMods w))).ptr < 2048) :
    ∃ t, exec (.skip i) s = .next t ∧ OnlySlot i s t
      ∧ t.slot i = (s.slot i).retire (s.slot i).ptr (.to ((s.slot i).ptr + 1 + cmdMods w)) := by
  have hf : formOf (cmdOp w) (cmdMods w) = some { mask := bitsMask 7 0 } := by rw [ho]; rfl
  have hm : cmdMods w < 256 := Nat.lt_succ_of_le (issues_mods_le h hf)
  obtain ⟨t, ht, hrest⟩ := runCommand_moves (row := fun w => cmdOp w == 0x01) h (by simp [ho])
    (skipBody_done (x := issueOf s i w b) (n := cmdMods w) (Nat.mod_eq_of_lt hm) (by
      simp only [issueOf_id, begun_nest, begun_loop]
      exact ht)) hp
  exact ⟨t, (exec_skip s i).trans (congrArg _ ht), hrest⟩

section
variable {n : Nat} (h : Issues s i w b) (ho : cmdOp w = 0x02) (hd : cmdD w = .lc n) (ha : ((s.slot i).loop n).active = false)
  (hn : (s.slot i).nest.length < 2) (hl : (s.slot i).ptr + cmdMods w % 256 ≤ 2047)
  (hall : ((s.slot i).nest.all fun m => decide ((s.slot i).ptr + cmdMods w % 256 ≤ ((s.slot i).loop m).last)) = true)
include h ho hd ha hn hl hall

/-- A LOOP that opens its loop goes on with the first command of the body. -/
theorem loop_opens {c : Nat} (hc : loopCount (s.slot i) w = c + 1) :
    ∃ t, exec (.loop i) s = .next t ∧ OnlySlot i s t ∧ t.slot i = { (s.slot i).openLoop n c ((s.slot i).ptr + 1)
      ((s.slot i).ptr + cmdMods w % 256) with status := .ready, cur := none, latch := {}, fetched := [], ptr := (s.slot i).ptr + 1 } := by
  have hf : formOf (cmdOp w) (cmdMods w)
      = some { a := [.s, .c, .lc, .imm, .none], d := [.lc], mask := bitsMask 7 0 + bitsMask 47 16 } := by rw [ho]; rfl
  have hlen : cmdMods w % 256 ≠ 0 := by
    have hok := issues_modsOk h hf
    simp only [modsOk, ho, Bool.and_eq_true, bne_iff_ne] at hok
    exact hok.1
  have hlast : (((s.slot i).openLoop n c ((s.slot i).ptr + 1) ((s.slot i).ptr + cmdMods w % 256)).loop n).last ≠ (s.slot i).ptr := by
    rw [Slot.openLoop, Slot.loop, vector_getD_set, if_pos ⟨rfl, opndOf_lc hd⟩]
    dsimp only
    omega
  have hretire := Slot.retire_opened ((s.slot i).openLoop n c ((s.slot i).ptr + 1) ((s.slot i).ptr + cmdMods w % 256)) rfl hlast
  have hbody := loopBody_opens (x := issueOf s i w b) (s := begun s i w b) (n := n) (len := cmdMods w % 256) (c := c)
    (by rw [issueOf_word, hd]; rfl) rfl (by rw [issueOf_id, begun_loop, ha]) (by rw [issueOf_id, begun_nest]; exact hn) hl
    (by simp only [issueOf_id, begun_nest, begun_loop]; exact hall)
    ((begun_loopCount s i w b).trans hc)
  rw [issueOf_id, State.begun_slot] at hbody
  obtain ⟨t, ht, honly, hslot⟩ := runCommand_setSlot (row := fun w => cmdOp w == 0x02) h (by simp [ho]) hbody (by
    refine lt_of_eq_of_lt (congrArg Slot.ptr hretire) ?_
    dsimp only
    omega)
  exact ⟨t, (exec_loop s i).trans (congrArg _ ht), honly, hslot.trans hretire⟩

/-- A LOOP with count 0 goes behind its body. -/
theorem loop_skips (hc : loopCount (s.slot i) w = 0)
    (hp : ((s.slot i).retire (s.slot i).ptr (.to ((s.slot i).ptr + cmdMods w % 256 + 1))).ptr < 2048) :
    ∃ t, exec (.loop i) s = .next t ∧ OnlySlot i s t
      ∧ t.slot i = (s.slot i).retire (s.slot i).ptr (.to ((s.slot i).ptr + cmdMods w % 256 + 1)) := by
  have hbody := loopBody_zero (x := issueOf s i w b) (s := begun s i w b) (n := n) (len := cmdMods w % 256)
    (by rw [issueOf_word, hd]; rfl) rfl (by rw [issueOf_id, begun_loop, ha]) (by rw [issueOf_id, begun_nest]; exact hn) hl
    (by simp only [issueOf_id, begun_nest, begun_loop]; exact hall)
    ((begun_loopCount s i w b).trans hc)
  obtain ⟨t, ht, hrest⟩ := runCommand_moves (row := fun w => cmdOp w == 0x02) h (by simp [ho]) hbody hp
  exact ⟨t, (exec_loop s i).trans (congrArg _ ht), hrest⟩

end

end

/-- Settles O12: each body passes its checks by the clause's premises and says where the thread goes; the loop rule takes it there. -/
theorem controlCommands : Obligations.ControlCommands := by
  unfold Obligations.ControlCommands
  intro s i w b h u
  refine ⟨fun ho hp => ?nop, fun ho ht hp => ?skip, fun ho n hd ha hn hl hall => ⟨fun c hc _ => ?opens, fun hc hp => ?skips⟩,
    fun ho n ns hn hp => ?brk, fun ho hp => ?yield⟩
  case nop =>
    obtain ⟨t, ht, hslot, honly⟩ := runSlot_issues (f := fun t _ => t) h ho (Slot.retire_cur _ _ _ _ _) hp
    exact ⟨t, (exec_nop s i).trans (congrArg _ ht), honly, hslot⟩
  case skip =>
    obtain ⟨t, he, honly, hslot⟩ := skip_done h ho ht hp
    exact ⟨t, he, honly, hslot, fun hn => by rw [hslot, Slot.retire_to_flat _ _ _ hn]⟩
  case opens =>
    obtain ⟨t, he, honly, hslot⟩ := loop_opens h ho hd ha hn hl hall hc
    refine ⟨t, he, honly, by rw [hslot], by rw [hslot]; rfl, ?_, by rw [hslot]; rfl⟩
    rw [hslot, Slot.openLoop]
    exact (Slot.loop_setLoop _ (opndOf_lc hd) _ n).trans (if_pos rfl)
  case skips => exact loop_skips h ho hd ha hn hl hall hc hp
  case brk =>
    obtain ⟨t, ht, honly, hslot⟩ := runCommand_moves (row := fun w => cmdOp w == 0x03) h (by simp [ho])
      (breakBody_done (x := issueOf s i w b) (n := n) (ns := ns) ((begun_nest s i w b).trans hn)) hp
    refine ⟨t, (exec_break s i).trans (congrArg _ ht), honly, hslot, fun hns => ?_⟩
    rw [hslot]
    exact Slot.retire_brk_single _ _ _ (hn.trans (by rw [hns]))
  case yield =>
    have hbody := yieldBody_done (x := issueOf s i w b) (s := begun s i w b)
    rw [issueOf_id, State.begun_slot] at hbody
    obtain ⟨t, ht, honly, hslot⟩ := runCommand_setSlot (row := fun w => cmdOp w == 0x05) h (by simp [ho]) hbody
      (Slot.retire_lt_of_loops hp rfl rfl)
    exact ⟨t, (exec_yield s i).trans (congrArg _ ht), honly, hslot⟩

end Sys2Proof.Proofs
end

section
/-! SUPPORT. What writing a register leaves of the loops, and the loop rule for a single active loop (R104, R105). -/

namespace Sys2Proof.Machine

open Sys2Proof

/-! ## Registers and the loops' state -/

/-- Writing a register, a loop counter included, latches nothing: it changes no remaining count, no active loop and no nesting. -/
theorem Slot.put_loopState (t : Slot) (o : Opnd) (v m : Nat) : ((t.put o v).loop m).remaining = (t.loop m).remaining
    ∧ ((t.put o v).loop m).active = (t.loop m).active ∧ (t.put o v).nest = t.nest := by
  cases o with
  | lc n =>
    simp only [Slot.put, Slot.setLc, Slot.loop, vector_getD_set, and_true]
    split
    · next h => rw [h.1]; exact ⟨rfl, rfl⟩
    · exact ⟨rfl, rfl⟩
  | p n =>
    simp only [Slot.put, Slot.setP]
    split <;> exact ⟨rfl, rfl, rfl⟩
  | _ => exact ⟨rfl, rfl, rfl⟩

/-! ## The loop rule -/

section
variable {t : Slot} {n : Nat} (hn : n < 2) (ht : t.nest = [n])
include hn ht

/-- At the end of the body of the one active loop, with iterations left, the thread goes on with the next one. -/
theorem Slot.retire_repeats (h : (t.loop n).remaining ≠ 0) :
    (t.retire (t.loop n).last .next).ptr = (t.loop n).first
      ∧ (t.retire (t.loop n).last .next).loop n = { t.loop n with remaining := (t.loop n).remaining - 1 } := by
  have hl : t.retire (t.loop n).last .next = { t with
      status := .ready, cur := none, latch := {}, fetched := [], ptr := (t.loop n).first, nest := [n]
      loops := t.loops.setIfInBounds n { t.loop n with remaining := (t.loop n).remaining - 1 } } := by
    simp only [Slot.retire, ht, Slot.arrive]
    split
    · split
      · next hz => exact absurd (of_decide_eq_true hz) h
      · rfl
    · next hne => exact absurd rfl hne
  rw [hl]
  exact ⟨rfl, (t.loop_setLoop hn _ n).trans (if_pos rfl)⟩

/-- With none left the loop ends, and the thread goes behind its body. -/
theorem Slot.retire_finishes (h : (t.loop n).remaining = 0) :
    (t.retire (t.loop n).last .next).ptr = (t.loop n).last + 1
      ∧ (t.retire (t.loop n).last .next).loop n = { t.loop n with active := false } := by
  have hl : t.retire (t.loop n).last .next = { t with
      status := .ready, cur := none, latch := {}, fetched := [], ptr := (t.loop n).last + 1, nest := []
      loops := t.loops.setIfInBounds n { t.loop n with active := false } } := by
    simp only [Slot.retire, ht, Slot.arrive]
    split
    · split
      · rfl
      · next hz => exact absurd (decide_eq_true h) hz
    · next hne => exact absurd rfl hne
  rw [hl]
  exact ⟨rfl, (t.loop_setLoop hn _ n).trans (if_pos rfl)⟩

omit hn in
/-- Away from the end of the body the thread goes on to the next command. -/
theorem Slot.retire_within {p : Nat} (h : p ≠ (t.loop n).last) :
    (t.retire p .next).ptr = p + 1 ∧ (t.retire p .next).loops = t.loops := by
  rw [Slot.retire_opened t ht (Ne.symm h)]
  exact ⟨rfl, rfl⟩

end

end Sys2Proof.Machine
end

section
/-! PROOF. O13: loop counters and the loop rule. -/

namespace Sys2Proof.Proofs

open Sys2Proof Sys2Proof.Machine Sys2Proof.Safety

/-- Settles O13: a read and a write of a counter by its definition, a LOOP by `loop_opens`, and the end of a body by
`Slot.retire_repeats` and `Slot.retire_finishes`. -/
theorem loopRule : Obligations.LoopRule := by
  unfold Obligations.LoopRule
  refine ⟨fun u n => ⟨fun ha => ?active, fun ha => ?idle⟩, fun u n v hn => ⟨rfl, ?preset, fun m hm => ?others⟩,
    fun u w n ha => ?count, fun u o v m _ => Slot.put_loopState u o v m,
    fun s i w b h ho n hd ha hn hl hall c hc _ => ?latched, fun u n hn ht hact p => ⟨fun hp r hr hrem => ?again, fun hp hz => ?ends,
      fun hp => ?within⟩⟩
  case active => rw [Slot.value, Slot.lcRead, if_pos ha]
  case idle => rw [Slot.value, Slot.lcRead, if_neg (by rw [ha]; exact Bool.false_ne_true)]
  case preset => exact (u.loop_setLc hn v n).trans (if_pos rfl)
  case others => exact (u.loop_setLc hn v m).trans (if_neg hm)
  case count => rw [loopCount, ha]
  case latched =>
    obtain ⟨t, he, -, hslot⟩ := loop_opens h ho hd ha hn hl hall hc
    refine ⟨t, he, fun o v => ?_⟩
    obtain ⟨hrem, -, -⟩ := Slot.put_loopState (t.slot i) o v n
    rw [hrem, hslot]
    exact congrArg LoopCtr.remaining (((s.slot i).loop_setLoop (opndOf_lc hd) _ n).trans (if_pos rfl))
  case again =>
    have hne : (u.loop n).remaining ≠ 0 := by
      rw [hrem]
      intro h0
      have h1 := congrArg BitVec.toNat h0
      rw [BitVec.toNat_ofNat, Nat.mod_eq_of_lt hr] at h1
      exact Nat.succ_ne_zero r h1
    have hsub : BitVec.ofNat 32 (r + 1) - 1 = BitVec.ofNat 32 r := by
      rw [BitVec.ofNat_add]
      exact BitVec.add_sub_cancel _ _
    obtain ⟨hptr, hloop⟩ := Slot.retire_repeats hn ht hne
    rw [hp]
    refine ⟨hptr, ?_, by rw [hloop]; exact hact⟩
    rw [Slot.lcRead, hloop]
    simp only [hact, if_true, hrem, hsub]
  case ends =>
    obtain ⟨hptr, hloop⟩ := Slot.retire_finishes hn ht hz
    rw [hp]
    refine ⟨hptr, by rw [hloop], ?_⟩
    rw [Slot.lcRead, hloop]
    rfl
  case within =>
    obtain ⟨hptr, hloops⟩ := Slot.retire_within ht hp
    refine ⟨hptr, hloops, ?_⟩
    have hloop : (u.retire p .next).loop n = u.loop n := by rw [Slot.loop, hloops, Slot.loop]
    rw [Slot.lcRead, hloop, if_pos hact]

end Sys2Proof.Proofs
end

section
/-! SUPPORT. Waits (R108): the bodies of WAIT from the checks they pass to their end or to the wait they begin, and how a wait ends. -/

namespace Sys2Proof.Machine

open Sys2Proof Sys2Proof.Safety

/-! ## WAIT at issue -/

section
variable (s : State) (i : SlotId) (w : Nat) (b : Bool)

@[simp] theorem begun_now : (begun s i w b).now = s.now := by rw [begun_fields]
@[simp] theorem begun_held : ((begun s i w b).slot i).held = (s.slot i).held := by rw [State.begun_slot]
@[simp] theorem begun_signals : ((begun s i w b).slot i).signals = (s.slot i).signals := by rw [State.begun_slot]

end

/-- A slot that waits, for what its WAIT says. -/
def Slot.await (t : Slot) (x : Issue) (now : Nat) (f : WaitFor) : Slot :=
  { t with status := .waiting ⟨f, now, fieldOf 31 16 (cmdMods x.word), (cmdD x.word).num⟩ }

/-- A slot with one signal fewer. -/
def Slot.takeSignal (t : Slot) : Slot := { t with signals := t.signals - 1 }

section
variable {x : Issue} {s : State}

/-- A condition that holds at issue writes 1 to the named predicate. -/
theorem waitMet_eq (x : Issue) (s : State) :
    Cmd.waitMet x s = .ok (.next, s.setSlot x.id ((s.slot x.id).setP (cmdD x.word).num true)) := rfl

theorem beginWait_eq (x : Issue) (f : WaitFor) (s : State) :
    Cmd.beginWait x f s = .error (.leave (s.setSlot x.id ((s.slot x.id).await x s.now f))) := rfl

section
variable (hh : (s.slot x.id).held = none)
include hh

/-- What a signal wait does with its count, where no speculative tile is held. -/
theorem waitSignalBody_checked : waitSignalBody x s = (if (s.slot x.id).signals ≥ 1 then (do
      Cmd.mapSlot x.id fun t => t.takeSignal
      Cmd.waitMet x : Cmd After)
    else Cmd.beginWait x .signal) s := by
  unfold waitSignalBody
  rw [Cmd.slot_bind, Cmd.require_bind (by rw [hh]; rfl)]
  rfl

theorem waitSignalBody_one_le (hk : 1 ≤ (s.slot x.id).signals) :
    waitSignalBody x s = Cmd.waitMet x (s.setSlot x.id (s.slot x.id).takeSignal) := by
  rw [waitSignalBody_checked hh, if_pos hk, Cmd.mapSlot_bind]

theorem waitSignalBody_takes (hk : 1 ≤ (s.slot x.id).signals) : waitSignalBody x s = .ok (.next,
    (s.setSlot x.id (s.slot x.id).takeSignal).setSlot x.id ((s.slot x.id).takeSignal.setP (cmdD x.word).num true)) := by
  rw [waitSignalBody_one_le hh hk, waitMet_eq, State.slot_setSlot]

theorem waitSignalBody_zero (hk : (s.slot x.id).signals = 0) : waitSignalBody x s = Cmd.beginWait x .signal s := by
  rw [waitSignalBody_checked hh, if_neg (by rw [hk]; exact Nat.not_succ_le_zero 0)]

theorem waitSignalBody_waits (hk : (s.slot x.id).signals = 0) :
    waitSignalBody x s = .error (.leave (s.setSlot x.id ((s.slot x.id).await x s.now .signal))) :=
  (waitSignalBody_zero hh hk).trans (beginWait_eq _ _ _)

/-- What a time wait does with its value, where no speculative tile is held. -/
theorem waitTimeBody_checked : waitTimeBody x s = (if (s.slot x.id).pair (cmdA x.word).num ≤ s.now then Cmd.waitMet x
    else Cmd.beginWait x (.time ((s.slot x.id).pair (cmdA x.word).num))) s := by
  unfold waitTimeBody
  rw [Cmd.slot_bind, Cmd.require_bind (by rw [hh]; rfl), Cmd.get_bind]

theorem waitTimeBody_met (ht : (s.slot x.id).pair (cmdA x.word).num ≤ s.now) : waitTimeBody x s = Cmd.waitMet x s := by
  rw [waitTimeBody_checked hh, if_pos ht]

theorem waitTimeBody_waits (ht : s.now < (s.slot x.id).pair (cmdA x.word).num) : waitTimeBody x s
    = Cmd.beginWait x (.time ((s.slot x.id).pair (cmdA x.word).num)) s := by
  rw [waitTimeBody_checked hh, if_neg (Nat.not_le_of_lt ht)]

/-- A memory wait whose word was read compares it. -/
theorem waitMemoryBody_read {a : Nat} {bs : List Byte} (ha : (s.slot x.id).pair (cmdA x.word).num = a) (h4 : a % 4 = 0)
    (hn : nodeOf a = s.node) (hw : waitableAt (localOf a) = true) (hr : Cmd.readGlobal x [((a : Int), 4)] 5 s = .ok (bs, s)) :
    waitMemoryBody x s =
      (if (cmpFlag (bitOf (cmdMods x.word) 5) 32 (leNat bs) ((s.slot x.id).value (cmdB x.word))).meets (fieldOf 4 2 (cmdMods x.word)) then
        Cmd.waitMet x
      else Cmd.beginWait x (.memory a (BitVec.ofNat 32 ((s.slot x.id).value (cmdB x.word))) (fieldOf 4 2 (cmdMods x.word))
        (bitOf (cmdMods x.word) 5))) s := by
  unfold waitMemoryBody
  rw [Cmd.slot_bind, Cmd.require_bind (by rw [hh]; rfl)]
  simp only [ha]
  rw [if_neg (by simp [h4]), Cmd.get_bind, if_neg (by simp [hn, hw]), Cmd.bind_ok hr]

end

end

/-- What a slot has in progress plays no part in a predicate that its command writes. -/
theorem Slot.setP_retire_cur (t : Slot) (c : Option (Nat × Bool)) (l : Latch) (n : Nat) (v : Bool) (p : Nat) (a : After) :
    (({ t with cur := c, latch := l } : Slot).setP n v).retire p a = (t.setP n v).retire p a := by
  unfold Slot.setP
  split <;> rfl

theorem Slot.setP_loops (t : Slot) (n : Nat) (v : Bool) : (t.setP n v).loops = t.loops := by
  unfold Slot.setP
  split <;> rfl

theorem Slot.setP_nest (t : Slot) (n : Nat) (v : Bool) : (t.setP n v).nest = t.nest := by
  unfold Slot.setP
  split <;> rfl

/-! ## The ends of waits -/

theorem State.waitOf_thread_lt {s : State} {i : SlotId} {v : Wait} (h : s.waitOf i = some v) : i.thread < 4 := by
  unfold State.waitOf at h
  split at h
  · next hc =>
    simp only [Bool.and_eq_true, decide_eq_true_eq] at hc
    exact hc.2
  · cases h

theorem State.inProgress_id (s : State) (i : SlotId) : (s.inProgress i).id = i := by
  unfold State.inProgress
  split <;> rfl

theorem State.inProgress_ptr (s : State) (i : SlotId) : (s.inProgress i).ptr = (s.slot i).ptr := by
  unfold State.inProgress
  split <;> rfl

/-- A wait that ends writes its predicate, and the thread goes on behind its command. -/
theorem State.endWait_eq {s : State} {i : SlotId} (v : Wait) (met : Bool) (hp : nextPtr (s.slot i) < 2048) :
    s.endWait i v met = (s.setSlot i ((s.slot i).setP v.pred met)).setSlot i
      (((s.slot i).setP v.pred met).retire (s.slot i).ptr .next) := by
  have hlt : (((s.slot i).setP v.pred met).retire (s.slot i).ptr .next).ptr < 2048 :=
    Slot.retire_lt_of_loops hp (Slot.setP_loops _ _ _) (Slot.setP_nest _ _ _)
  have hr := State.retire_lt (s := s.setSlot i ((s.slot i).setP v.pred met)) (x := s.inProgress i) (a := .next)
    (by rw [s.inProgress_id, s.inProgress_ptr, State.slot_setSlot]; exact hlt)
  rw [s.inProgress_id, s.inProgress_ptr, State.slot_setSlot] at hr
  exact hr

section
variable {s : State} {i : SlotId} {v : Wait} (h : s.waitOf i = some v)
include h

theorem State.signalWaitEnd_eq {k : Nat} (hw : v.what = .signal) (hk : (s.slot i).signals = k + 1) :
    s.signalWaitEnd i = (s.setSlot i { s.slot i with signals := k }).endWait i v true := by
  have h1 : v.what = .signal ∧ (s.slot i).signals ≥ 1 := ⟨hw, by rw [hk]; exact Nat.le_add_left 1 k⟩
  simp only [State.signalWaitEnd, h]
  rw [if_pos h1, hk, Nat.add_sub_cancel]

theorem State.timeWaitEnd_eq {a n : Nat} (hw : v.what = .time a) (ha : a ≤ max s.now n) :
    s.timeWaitEnd i n = (s.at_ n).endWait i v true := by
  simp only [State.timeWaitEnd, h, hw, if_pos ha]

theorem State.waitTimeout_eq {n : Nat} (h0 : v.timeout ≠ 0) (ht : v.issued + v.timeout * 1000 ≤ max s.now n) :
    s.waitTimeout i n = (s.at_ n).endWait i v false := by
  simp only [State.waitTimeout, h, if_pos (And.intro h0 ht)]

theorem State.memoryWaitReread_read {a m : Nat} {c : W32} {sg : Bool} {s1 : State} {bs : List Byte} (hw : v.what = .memory a c m sg)
    (hr : s.memRead (Requester.ofThread i) [(localOf a, 4)] = (s1, .ok bs)) :
    s.memoryWaitReread i = if (cmpFlag sg 32 (leNat bs) c.toNat).meets m then s1.endWait i v true else s1 := by
  simp only [State.memoryWaitReread, h, hw, hr]

theorem State.memoryWaitReread_failed {a m : Nat} {c : W32} {sg : Bool} {s1 : State} {e : MemErr} (hw : v.what = .memory a c m sg)
    (hr : s.memRead (Requester.ofThread i) [(localOf a, 4)] = (s1, .error e)) :
    s.memoryWaitReread i = s1.haltAt (s1.inProgress i) (memReason e.cause) (s1.globalOf e.addr) := by
  simp only [State.memoryWaitReread, h, hw, hr]

end

/-- The slot of a command that halts is empty. -/
theorem State.slot_haltAt (s : State) {x : Issue} {i : SlotId} (hx : x.id = i) (reason fault : Nat) :
    (s.haltAt x reason fault).slot i = {} := by
  subst hx
  exact State.slot_halt _ _ _ _ _ _ _

end Sys2Proof.Machine
end

section
/-! PROOF. O16, O17: WAIT at issue, and the ends of waits. -/

namespace Sys2Proof.Proofs

open Sys2Proof Sys2Proof.Machine Sys2Proof.Safety

section
variable (s : State) (i : SlotId)

theorem exec_signalWaitEnd : exec (.signalWaitEnd i) s = .next (s.signalWaitEnd i) := rfl
theorem exec_memoryWaitReread : exec (.memoryWaitReread i) s = .next (s.memoryWaitReread i) := rfl
theorem exec_timeWaitEnd (n : Nat) : exec (.timeWaitEnd i n) s = .next (s.timeWaitEnd i n) := rfl
theorem exec_waitTimeout (n : Nat) : exec (.waitTimeout i n) s = .next (s.waitTimeout i n) := rfl

end

section
variable {s : State} {i : SlotId} {w : Nat} {b : Bool} {row : Nat → Bool} {body : Issue → Cmd After}

/-- A WAIT whose condition holds at issue retires with its predicate 1. -/
theorem wait_met {u : State} {v : Slot} (h : Issues s i w b) (hr : row w = true)
    (hb : body (issueOf s i w b) (begun s i w b) = .ok (.next, u)) (ho : OnlySlot i s u)
    (hu : (u.slot i).retire (s.slot i).ptr .next = (v.setP (cmdD w).num true).retire (s.slot i).ptr .next)
    (hl : v.loops = (s.slot i).loops) (hn : v.nest = (s.slot i).nest) (hp : nextPtr (s.slot i) < 2048) :
    ∃ t, Host.Outcome.next (runCommand s i row body) = (.next t : Host.Outcome State Fault Refusal)
      ∧ t.slot i = (v.setP (cmdD w).num true).retire (s.slot i).ptr .next ∧ OnlySlot i s t := by
  obtain ⟨t, ht, honly, hslot⟩ := runCommand_onlySlot h hr hb ho (by
    rw [hu]
    exact Slot.retire_lt_of_loops hp ((Slot.setP_loops _ _ _).trans hl) ((Slot.setP_nest _ _ _).trans hn))
  exact ⟨t, congrArg _ ht, hslot.trans hu, honly⟩

/-- A WAIT whose condition does not hold leaves its thread waiting for it, from now. -/
theorem wait_begins {f : WaitFor} (h : Issues s i w b) (hr : row w = true)
    (hb : body (issueOf s i w b) (begun s i w b)
      = .error (.leave ((begun s i w b).setSlot i (((begun s i w b).slot i).await (issueOf s i w b) (begun s i w b).now f)))) :
    ∃ t, Host.Outcome.next (runCommand s i row body) = (.next t : Host.Outcome State Fault Refusal)
      ∧ (t.slot i).status = .waiting ⟨f, s.now, fieldOf 31 16 (cmdMods w), (cmdD w).num⟩ ∧ (t.slot i).ptr = (s.slot i).ptr
      ∧ (t.slot i).cur = some (w, b) ∧ (t.slot i).sregs = (s.slot i).sregs ∧ (t.slot i).preds = (s.slot i).preds
      ∧ (t.slot i).signals = (s.slot i).signals ∧ OnlySlot i s t := by
  obtain ⟨t, ht, honly, hslot⟩ := runCommand_left h hr hb
  rw [State.begun_slot, begun_now] at hslot
  refine ⟨t, congrArg _ ht, ?_, ?_, ?_, ?_, ?_, ?_, honly⟩ <;> rw [hslot] <;> rfl

theorem isWait_of {k : Nat} (ho : cmdOp w = 0x06) (hm : cmdMods w % 4 = k) : isWait k w = true := by
  simp [isWait, ho, hm]

end

/-- Settles O16: each kind of WAIT takes its condition (`wait_met`) or begins to wait for it (`wait_begins`). -/
theorem waitCommands : Obligations.WaitCommands := by
  unfold Obligations.WaitCommands
  intro s i w b h ho hh hp u d waits a
  have hheld : ((begun s i w b).slot (issueOf s i w b).id).held = none := (begun_held s i w b).trans hh
  have hpair : ((begun s i w b).slot (issueOf s i w b).id).pair (cmdA (issueOf s i w b).word).num = a := begun_pair s i w b _
  have hi := issues_thread_lt h
  have hmet : (((begun s i w b).setSlot i (((begun s i w b).slot i).setP (cmdD w).num true)).slot i).retire u.ptr .next
      = (u.setP (cmdD w).num true).retire u.ptr .next := by
    rw [State.slot_setSlot, State.begun_slot, Slot.setP_retire_cur]
  have honly := onlySlot_setSlot hi (onlySlot_begun (s := s) (w := w) (b := b) hi)
  refine ⟨fun hm => ⟨fun k hk => ?takes, fun hk => ?awaits⟩, fun hm => ⟨fun ht => ?past, fun ht => ?future⟩,
    fun hm h4 hn hw bs hr => ?memory⟩
  case takes =>
    have hk1 : 1 ≤ u.signals := by rw [hk]; exact Nat.le_add_left 1 k
    have hv : u.takeSignal = { u with signals := k } := by rw [Slot.takeSignal, hk, Nat.add_sub_cancel]
    have hb := waitSignalBody_takes hheld (le_of_le_of_eq hk1 (begun_signals s i w b).symm)
    rw [← hv]
    refine wait_met (v := u.takeSignal) h (isWait_of ho hm) hb (onlySlot_setSlot hi (onlySlot_setSlot hi (onlySlot_begun hi) _) _) ?_
      rfl rfl hp
    rw [issueOf_id, State.slot_setSlot, State.begun_slot]
    exact Slot.setP_retire_cur u.takeSignal _ _ _ _ _ _
  case awaits => exact wait_begins h (isWait_of ho hm) (waitSignalBody_waits hheld ((begun_signals s i w b).trans hk))
  case past =>
    refine wait_met h (isWait_of ho hm) ((waitTimeBody_met hheld ?_).trans (waitMet_eq _ _)) (honly _) hmet rfl rfl hp
    rw [hpair, begun_now]
    exact ht
  case future =>
    have hb := waitTimeBody_waits hheld (by rw [hpair, begun_now]; exact ht)
    rw [hpair] at hb
    exact wait_begins h (isWait_of ho hm) (hb.trans (beginWait_eq _ _ _))
  case memory =>
    have hb := waitMemoryBody_read hheld hpair h4 (hn.trans (begun_node s i w b).symm) hw (Cmd.of_reads hr)
    simp only [issueOf_id, issueOf_word, begun_value] at hb
    intro mask sg
    refine ⟨fun hc => ?_, fun hc => ?_⟩
    · rw [if_pos hc] at hb
      exact wait_met h (isWait_of ho hm) (hb.trans (waitMet_eq _ _)) (honly _) hmet rfl rfl hp
    · rw [if_neg (by rw [hc]; exact Bool.false_ne_true)] at hb
      exact wait_begins h (isWait_of ho hm) (hb.trans (beginWait_eq _ _ _))

section
variable {s s' : State} {i : SlotId} {v : Wait} {u : Slot}

/-- A wait that ends in `s'` leaves the thread ready behind its command, and nothing else changed. -/
theorem endWait_done (hi : i.thread < 4) (met : Bool) (hs : s'.slot i = u) (hp : nextPtr u < 2048)
    (hj : ∀ j : SlotId, j.thread < 4 → j ≠ i → s'.slot j = s.slot j) :
    (s'.endWait i v met).slot i = (u.setP v.pred met).retire u.ptr .next
      ∧ s'.endWait i v met = { s' with swarm := { s'.swarm with slots := (s'.endWait i v met).swarm.slots } }
      ∧ ∀ j : SlotId, j.thread < 4 → j ≠ i → (s'.endWait i v met).slot j = s.slot j := by
  subst hs
  rw [State.endWait_eq v met hp]
  refine ⟨State.slot_setSlot _ _ _, rfl, fun j hj4 hne => ?_⟩
  have hk := SlotId.key_ne hi hj4 hne
  rw [State.slot_setSlot_other _ _ hk, State.slot_setSlot_other _ _ hk, hj j hj4 hne]

end

/-- Settles O17: each row ends its wait when it is due (`endWait_done`), and a memory wait whose word cannot be read halts its thread. -/
theorem waitEnds : Obligations.WaitEnds := by
  unfold Obligations.WaitEnds
  intro s i v h hp u ended
  have hi := State.waitOf_thread_lt h
  have hat (n : Nat) (j : SlotId) : (s.at_ n).slot j = s.slot j := by rw [State.slot, State.at_swarm, State.slot]
  refine ⟨fun hw k hk => ?signal, fun a c m sg hw s1 => ⟨fun bs hr => ⟨fun hc => ?met, fun hc => ?unmet⟩, fun e hr => ?failed⟩,
    fun a n hw ha => ?time, fun n h0 ht => ?timeout⟩
  case signal =>
    have hs : (s.setSlot i { u with signals := k }).slot i = { u with signals := k } := State.slot_setSlot _ _ _
    obtain ⟨hslot, hrest, hothers⟩ := endWait_done (s := s) (v := v) hi true hs (Slot.retire_lt_of_loops hp rfl rfl) fun j hj hne =>
      State.slot_setSlot_other _ _ (SlotId.key_ne hi hj hne)
    exact ⟨_, (exec_signalWaitEnd s i).trans (congrArg _ (State.signalWaitEnd_eq h hw hk)), hslot, hrest, hothers⟩
  case met =>
    have hs (j : SlotId) : s1.slot j = s.slot j := by
      rw [State.memRead_ok hr]
      exact State.slot_of_core (State.correctRead_core _ _) j
    have hq := State.memoryWaitReread_read h hw hr
    rw [if_pos hc] at hq
    exact ⟨_, (exec_memoryWaitReread s i).trans (congrArg _ hq), endWait_done hi true (hs i) hp fun j _ _ => hs j⟩
  case unmet =>
    have hq := State.memoryWaitReread_read h hw hr
    rw [if_neg (by rw [hc]; exact Bool.false_ne_true)] at hq
    exact (exec_memoryWaitReread s i).trans (congrArg _ hq)
  case failed =>
    exact ⟨_, (exec_memoryWaitReread s i).trans (congrArg _ (State.memoryWaitReread_failed h hw hr)),
      State.slot_haltAt _ (State.inProgress_id _ _) _ _⟩
  case time =>
    exact ⟨_, (exec_timeWaitEnd s i n).trans (congrArg _ (State.timeWaitEnd_eq h hw ha)),
      endWait_done hi true (hat n i) hp fun j _ _ => hat n j⟩
  case timeout =>
    exact ⟨_, (exec_waitTimeout s i n).trans (congrArg _ (State.waitTimeout_eq h h0 ht)),
      endWait_done hi false (hat n i) hp fun j _ _ => hat n j⟩

end Sys2Proof.Proofs
end

section
/-! SUPPORT. SIGNAL, FENCE and the commands that read or set a machine register (R80, R102, R108, R171): the bodies from the checks they
pass to their end. -/

namespace Sys2Proof.Machine

open Sys2Proof Sys2Proof.Safety

/-! ## Slots seen past an issue -/

section
variable (i j : SlotId) (u : Slot)

@[simp] theorem seenIssue_status : (seenIssue i j u).status = u.status := by unfold seenIssue; split <;> rfl
@[simp] theorem seenIssue_signals : (seenIssue i j u).signals = u.signals := by unfold seenIssue; split <;> rfl

end

section
variable {s : State} {i j : SlotId} {w : Nat} {b : Bool} (hi : i.thread < 4) (hj : j.thread < 4)
include hi hj

/-- A command in progress changes neither whether a slot is occupied nor its signals. -/
theorem begun_status_signals :
    ((begun s i w b).slot j).status = (s.slot j).status ∧ ((begun s i w b).slot j).signals = (s.slot j).signals := by
  rcases eq_or_ne j i with rfl | hne
  · rw [State.begun_slot]
    exact ⟨rfl, rfl⟩
  · rw [begun_other hi hj hne]
    exact ⟨seenIssue_status _ _ _, seenIssue_signals _ _ _⟩

theorem begun_occupied : (begun s i w b).occupied j = s.occupied j := by
  rw [State.occupied, (begun_status_signals hi hj).1, State.occupied]

end

section
variable (s : State) (i : SlotId) (w : Nat) (b : Bool)

@[simp] theorem begun_hiveWorks (h : Nat) : (begun s i w b).hiveWorks h = s.hiveWorks h := by rw [begun_fields]; rfl
@[simp] theorem begun_writesHeld : (begun s i w b).writesHeld = s.writesHeld := by rw [begun_fields]; rfl
@[simp] theorem begun_comb (n : Nat) : (begun s i w b).comb n = s.comb n := by rw [begun_fields]; rfl
@[simp] theorem begun_reg (k u : Nat) : (begun s i w b).reg k u = s.reg k u := by rw [begun_fields]; rfl
@[simp] theorem begun_stepCount : (begun s i w b).stepCount = s.stepCount := begun_reg _ _ _ _ _ _
@[simp] theorem begun_epoch : (begun s i w b).epoch = s.epoch := begun_reg _ _ _ _ _ _
@[simp] theorem begun_seedOf (n : Nat) : (begun s i w b).seedOf n = s.seedOf n := by rw [begun_fields]; rfl
@[simp] theorem begun_mem : (begun s i w b).mem = s.mem := by rw [begun_fields]
@[simp] theorem begun_pads : (begun s i w b).swarm.pads = s.swarm.pads := by rw [begun_fields]
@[simp] theorem begun_index : ((begun s i w b).slot i).index = (s.slot i).index := by rw [State.begun_slot]
@[simp] theorem begun_launch : ((begun s i w b).slot i).launch = (s.slot i).launch := by rw [State.begun_slot]

/-- A command in progress leaves the requests of its thread. -/
@[simp] theorem begun_outstanding : (begun s i w b).outstanding i = s.outstanding i := by
  have hnet : (begun s i w b).net = s.net := by rw [begun_fields]
  have hof (t : Tag) : (begun s i w b).ofThread i t = s.ofThread i t := by
    unfold State.ofThread
    rw [begun_launch]
  simp only [State.outstanding, hnet, hof]

end

/-- States that differ from one another in their slots alone. -/
theorem slotsOnly_trans {s u t : State} (h : u = { s with swarm := { s.swarm with slots := u.swarm.slots } })
    (h' : t = { u with swarm := { u.swarm with slots := t.swarm.slots } }) :
    t = { s with swarm := { s.swarm with slots := t.swarm.slots } } := h'.trans (by rw [h])

@[simp] theorem Slot.retire_signals (t : Slot) (p : Nat) (a : After) : (t.retire p a).signals = t.signals := by rw [Slot.retire_keeps]

/-! ## A signal -/

/-- The signals of slot `j` once it has been signalled (R108). -/
def State.signalled (s : State) (j : SlotId) : Nat :=
  if s.occupied j then min ((s.slot j).signals + 1) 65535 else (s.slot j).signals

theorem State.signalTo_slot (s : State) (j : SlotId) : (s.signalTo j).slot j = { s.slot j with signals := s.signalled j } := by
  unfold State.signalTo State.signalled
  split
  · exact State.slot_setSlot _ _ _
  · rfl

theorem State.signalTo_slot_other (s : State) {j k : SlotId} (h : k.key ≠ j.key) : (s.signalTo j).slot k = s.slot k := by
  unfold State.signalTo
  split
  · exact State.slot_setSlot_other _ _ h
  · rfl

theorem State.signalTo_fields (s : State) (j : SlotId) :
    s.signalTo j = { s with swarm := { s.swarm with slots := (s.signalTo j).swarm.slots } } := by
  unfold State.signalTo
  split <;> rfl

theorem begun_signalled {s : State} {i j : SlotId} (hi : i.thread < 4) (hj : j.thread < 4) (w : Nat) (b : Bool) :
    (begun s i w b).signalled j = s.signalled j := by
  unfold State.signalled
  rw [begun_occupied hi hj, (begun_status_signals hi hj).2]

/-! ## The bodies -/

section
variable {x : Issue} {s : State}

theorem signalBody_done {j : SlotId} (hc : (s.slot x.id).value (cmdA x.word) = j.cell) (ht : cmdMods x.word % 4 = j.thread)
    (hlt : j.cell < 1048576) (hw : s.hiveWorks (j.cell / 65536) = true) : signalBody x s = .ok (.next, s.signalTo j) := by
  unfold signalBody
  rw [Cmd.slot_bind, Cmd.get_bind]
  simp only [hc, ht]
  rw [Cmd.require_bind (by rw [hw, Bool.and_true, decide_eq_true hlt]), Cmd.update_bind]
  rfl

theorem signalBody_halts (hc : ¬ ((s.slot x.id).value (cmdA x.word) < 1048576
      ∧ s.hiveWorks ((s.slot x.id).value (cmdA x.word) / 65536) = true)) :
    signalBody x s = .error (.halt 0x10 0 s) := by
  have hb : (decide ((s.slot x.id).value (cmdA x.word) < 1048576) && s.hiveWorks ((s.slot x.id).value (cmdA x.word) / 65536)) = false := by
    rw [Bool.eq_false_iff]
    simpa only [ne_eq, Bool.and_eq_true, decide_eq_true_eq] using hc
  unfold signalBody
  rw [Cmd.slot_bind, Cmd.get_bind]
  simp only [hb]
  rfl

theorem fenceBody_waits (h : (s.writesHeld || (bitOf (cmdMods x.word) 0 && s.outstanding x.id)) = true) :
    fenceBody x s = .error (.leave (s.setSlot x.id { s.slot x.id with status := .remote })) := by
  unfold fenceBody
  rw [Cmd.get_bind, if_pos h]
  rfl

theorem fenceBody_done (h : (s.writesHeld || (bitOf (cmdMods x.word) 0 && s.outstanding x.id)) = false) :
    fenceBody x s = .ok (.next, s) := by
  unfold fenceBody
  rw [Cmd.get_bind, if_neg (by rw [h]; exact Bool.false_ne_true)]
  rfl

theorem timeBody_done :
    timeBody x s = .ok (.next, s.setSlot x.id ((s.slot x.id).setPair (cmdD x.word).num s.now)) := rfl

theorem identBody_done :
    identBody x s = .ok (.next, s.setSlot x.id ((s.slot x.id).put (cmdD x.word) (s.identity x.id (cmdMods x.word % 16)))) := rfl

theorem seedBody_done : seedBody x s = .ok (.next, s.setSeed ((s.slot x.id).value (cmdA x.word) % 65536)
    (BitVec.ofNat 64 ((s.slot x.id).pair (cmdB x.word).num))) := rfl

theorem stepBody_steps (h : s.stepCount = (s.slot x.id).pair (cmdA x.word).num) :
    stepBody x s = .ok (.next, s.advanceStep.setSlot x.id ((s.advanceStep.slot x.id).put (cmdD x.word) 1)) := by
  unfold stepBody
  rw [Cmd.slot_bind, Cmd.get_bind]
  simp only [decide_eq_true h]
  rfl

theorem stepBody_stays (h : s.stepCount ≠ (s.slot x.id).pair (cmdA x.word).num) :
    stepBody x s = .ok (.next, s.setSlot x.id ((s.slot x.id).put (cmdD x.word) 0)) := by
  unfold stepBody
  rw [Cmd.slot_bind, Cmd.get_bind]
  simp only [decide_eq_false h]
  rfl

end

/-! ## Pairs, identities, seeds and steps -/

/-- A pair that is written holds its value modulo 2^64. -/
theorem Slot.pair_setPair (t : Slot) {n : Nat} (h : n + 1 < 16) (v : Nat) : (t.setPair n v).pair n = v % 2 ^ 64 := by
  have hlow : ((t.setS n v).setS (n + 1) (v / 2 ^ 32)).sreg n = (t.setS n v).sreg n := by
    simp only [Slot.sreg, Slot.setS, vector_getD_set, Nat.succ_ne_self n, false_and, if_false]
  rw [Slot.pair, Slot.setPair, hlow, Slot.sreg_setS _ (by omega), Slot.sreg_setS _ h, BitVec.toNat_ofNat, BitVec.toNat_ofNat]
  omega

/-- The identity values by their selector (R102). -/
theorem State.identity_eq (s : State) (i : SlotId) {m : Nat} (hm : m ≤ 8) : s.identity i m =
    if m = 0 then (s.slot i).index else if m = 1 then i.cell else if m = 2 then i.cell / 64
      else if m = 3 then i.cell / 65536 else if m = 4 then i.thread else if m = 5 then s.node
      else if m = 6 then s.stepCount % 2 ^ 32 else if m = 7 then s.stepCount / 2 ^ 32 else b2n (s.comb (i.cell / 64)).shownB := by
  interval_cases m <;> rfl

/-- The value of IDENT is that of the state at issue. -/
theorem begun_identity (s : State) (i : SlotId) (w : Nat) (b : Bool) (m : Nat) : (begun s i w b).identity i m = s.identity i m := by
  unfold State.identity
  simp only [begun_index, begun_node, begun_stepCount, begun_comb]

theorem State.slot_setSeed (s : State) (n : Nat) (v : W64) (i : SlotId) : (s.setSeed n v).slot i = s.slot i := rfl

theorem State.seedOf_setSlot (s : State) (i : SlotId) (t : Slot) (n : Nat) : (s.setSlot i t).seedOf n = s.seedOf n := rfl

theorem State.setSeed_slots (s : State) (n : Nat) (v : W64) {t : State}
    (h : t = { s with swarm := { s.swarm with slots := t.swarm.slots } }) (i : SlotId) (u : Slot) :
    (t.setSeed n v).setSlot i u = { s with
      num := { s.num with seeds := ((t.setSeed n v).setSlot i u).num.seeds }
      swarm := { s.swarm with slots := ((t.setSeed n v).setSlot i u).swarm.slots } } := by
  rw [h]
  rfl

theorem State.seedOf_setSeed (s : State) (n : Nat) (v : W64) (m : Nat) :
    (s.setSeed n v).seedOf m = if m = n then v.toNat else s.seedOf m := by
  split
  · next h =>
    subst h
    exact congrArg BitVec.toNat (SMap.get_put_same _ _ _ _)
  · next h => exact congrArg BitVec.toNat (SMap.get_put_other _ _ _ h)

section
variable (s : State)

theorem State.mem_advanceStep : s.advanceStep.mem = s.mem := rfl
theorem State.pads_advanceStep : s.advanceStep.swarm.pads = s.swarm.pads := rfl
theorem State.slot_advanceStep (i : SlotId) : s.advanceStep.slot i = s.slot i := rfl
theorem State.stepCount_advanceStep : s.advanceStep.stepCount = (s.stepCount + 1) % 2 ^ 64 :=
  (State.reg_setReg_other _ (by decide)).trans (State.reg_setReg _ _ _ _)
theorem State.epoch_advanceStep : s.advanceStep.epoch = (s.epoch + 1) % 2 ^ 64 := State.reg_setReg _ _ _ _
theorem State.mem_setSlot (i : SlotId) (t : Slot) : (s.setSlot i t).mem = s.mem := rfl
theorem State.pads_setSlot (i : SlotId) (t : Slot) : (s.setSlot i t).swarm.pads = s.swarm.pads := rfl

end

end Sys2Proof.Machine
end

section
/-! PROOF. O18, O19: SIGNAL, FENCE, TIME, IDENT, SEED and STEP. -/

namespace Sys2Proof.Proofs

open Sys2Proof Sys2Proof.Machine Sys2Proof.Safety

section
variable (s : State) (i : SlotId)

theorem exec_signal : exec (.signal i) s = .next (runCommand s i (fun w => cmdOp w == 0x07) signalBody) := rfl
theorem exec_fence : exec (.fence i) s = .next (runCommand s i (fun w => cmdOp w == 0x08) fenceBody) := rfl
theorem exec_time : exec (.time i) s = .next (runCommand s i (fun w => cmdOp w == 0x70) timeBody) := rfl
theorem exec_ident : exec (.ident i) s = .next (runCommand s i (fun w => cmdOp w == 0x71) identBody) := rfl
theorem exec_seed : exec (.seed i) s = .next (runCommand s i (fun w => cmdOp w == 0x60) seedBody) := rfl
theorem exec_step : exec (.step i) s = .next (runCommand s i (fun w => cmdOp w == 0x61) stepBody) := rfl

end

section
variable {s : State} {i : SlotId} {w : Nat} {b : Bool}

/-- A SIGNAL counts at its target, and the slot that issued it retires. -/
theorem signal_done {j : SlotId} (h : Issues s i w b) (ho : cmdOp w = 0x07) (hp : nextPtr (s.slot i) < 2048)
    (hc : (s.slot i).value (cmdA w) = j.cell) (ht : cmdMods w = j.thread) (hlt : j.cell < 1048576)
    (hw : s.hiveWorks (j.cell / 65536) = true) : j.thread < 4 ∧ ∃ k t, exec (.signal i) s = .next t
      ∧ t = ((begun s i w b).signalTo j).setSlot i (({ s.slot i with signals := k } : Slot).retire (s.slot i).ptr .next)
      ∧ (j = i → k = s.signalled j) ∧ (j ≠ i → k = (s.slot i).signals) := by
  have hf : formOf (cmdOp w) (cmdMods w) = some { a := [.s], mask := bitsMask 1 0 } := by rw [ho]; rfl
  have hm : cmdMods w < 4 := Nat.lt_succ_of_le (issues_mods_le h hf)
  have hi := issues_thread_lt h
  have hj : j.thread < 4 := ht ▸ hm
  have hb := signalBody_done (x := issueOf s i w b) (s := begun s i w b) (j := j) ((begun_value s i w b _).trans hc)
    ((Nat.mod_eq_of_lt hm).trans ht) hlt ((begun_hiveWorks s i w b _).trans hw)
  have hslot : ∃ k, (((begun s i w b).signalTo j).slot i).retire (s.slot i).ptr .next
      = ({ s.slot i with signals := k } : Slot).retire (s.slot i).ptr .next
      ∧ (j = i → k = s.signalled j) ∧ (j ≠ i → k = (s.slot i).signals) := by
    rcases eq_or_ne j i with rfl | hne
    · refine ⟨s.signalled j, ?_, fun _ => rfl, fun hne => absurd rfl hne⟩
      rw [State.signalTo_slot, State.begun_slot, begun_signalled hi hi]
      rfl
    · refine ⟨(s.slot i).signals, ?_, fun he => absurd he hne, fun _ => rfl⟩
      rw [State.signalTo_slot_other _ (SlotId.key_ne hj hi hne.symm), begun_retire]
  obtain ⟨k, hret, hself, hother⟩ := hslot
  refine ⟨hj, k, _, (exec_signal s i).trans (congrArg _ (runCommand_ends h (by simp [ho]) hb ?_)), by rw [hret], hself, hother⟩
  rw [hret]
  exact Slot.retire_lt_of_loops hp rfl rfl

/-- SEED sets its seed, and the slot retires. -/
theorem seed_done (h : Issues s i w b) (ho : cmdOp w = 0x60) (hp : nextPtr (s.slot i) < 2048) :
    exec (.seed i) s = .next (((begun s i w b).setSeed ((s.slot i).value (cmdA w) % 65536)
      (BitVec.ofNat 64 ((s.slot i).pair (cmdB w).num))).setSlot i ((s.slot i).retire (s.slot i).ptr .next)) := by
  have hb := seedBody_done (x := issueOf s i w b) (s := begun s i w b)
  rw [issueOf_id, issueOf_word, begun_value, begun_pair] at hb
  have hr (n : Nat) (v : W64) : (((begun s i w b).setSeed n v).slot i).retire (s.slot i).ptr .next
      = (s.slot i).retire (s.slot i).ptr .next := by rw [State.slot_setSeed, begun_retire]
  have hd := runCommand_ends (row := fun w => cmdOp w == 0x60) h (by simp [ho]) hb (by rw [hr]; exact hp)
  rw [hr] at hd
  exact (exec_seed s i).trans (congrArg _ hd)

end

/-- Settles O18: each body completes with its effect by the clause's premises; a SIGNAL beyond the module's cells halts its thread. -/
theorem signalFenceAndQueries : Obligations.SignalFenceAndQueries := by
  unfold Obligations.SignalFenceAndQueries
  intro s i w b h hp u
  have hi := issues_thread_lt h
  have hfence (ho : cmdOp w = 0x08) : (bitOf (cmdMods w) 0 = true ↔ cmdMods w = 1) := by
    have hf : formOf (cmdOp w) (cmdMods w) = some { mask := 1 } := by rw [ho]; rfl
    have hm : cmdMods w ≤ 1 := issues_mods_le h hf
    interval_cases cmdMods w <;> decide
  refine ⟨fun ho j hc ht hlt hw => ?signal, fun ho hc => ?halts, fun ho hc => ?waits, fun ho hw hout => ?fence, fun ho n hd => ?time,
    fun ho => ?ident, fun ho => ?seed⟩
  case signal =>
    obtain ⟨hj, k, t, he, rfl, hself, hother⟩ := signal_done h ho hp hc.symm ht.symm hlt hw
    have hsig : ((begun s i w b).signalTo j).slot j = { (begun s i w b).slot j with signals := s.signalled j } := by
      rw [State.signalTo_slot, begun_signalled hi hj]
    have hfar (hne : j ≠ i) : (((begun s i w b).signalTo j).setSlot i
        (({ s.slot i with signals := k } : Slot).retire (s.slot i).ptr .next)).slot j
          = { seenIssue i j (s.slot j) with signals := s.signalled j } := by
      rw [State.slot_setSlot_other _ _ (SlotId.key_ne hi hj hne), hsig, begun_other hi hj hne]
    refine ⟨_, he, ?_, ?_, fun hne => ⟨?_, ?_⟩, ?_, fun m hm4 hmi hmj => ?_⟩
    · rcases eq_or_ne j i with rfl | hne
      · rw [State.slot_setSlot, Slot.retire_signals, hself rfl]
        rfl
      · rw [hfar hne]
        rfl
    · rw [State.slot_setSlot, Slot.retire_signals]
    · rw [State.slot_setSlot, Slot.retire_signals]
      exact hother hne
    · rw [hfar hne]
    · exact slotsOnly_trans (begun_fields s i w b) (slotsOnly_trans (State.signalTo_fields _ _) rfl)
    · rw [State.slot_setSlot_other _ _ (SlotId.key_ne hi hm4 hmi), State.signalTo_slot_other _ (SlotId.key_ne hj hm4 hmj),
        begun_other hi hm4 hmi]
  case halts =>
    have hb := signalBody_halts (x := issueOf s i w b) (s := begun s i w b) (by
      rw [issueOf_id, issueOf_word, begun_value, begun_hiveWorks]
      exact hc)
    exact ⟨_, (exec_signal s i).trans (congrArg _ (runCommand_halts h (by simp [ho]) hb)), State.slot_haltAt _ rfl _ _⟩
  case waits =>
    have hb := fenceBody_waits (x := issueOf s i w b) (s := begun s i w b) (by
      rw [begun_writesHeld, issueOf_id, begun_outstanding, issueOf_word, Bool.or_eq_true, Bool.and_eq_true, hfence ho]
      exact hc)
    obtain ⟨t, ht, honly, hslot⟩ := runCommand_left (row := fun w => cmdOp w == 0x08) h (by simp [ho]) hb
    rw [issueOf_id, State.begun_slot] at hslot
    exact ⟨t, (exec_fence s i).trans (congrArg _ ht), honly, by rw [hslot], by rw [hslot], by rw [hslot]⟩
  case fence =>
    have hb := fenceBody_done (x := issueOf s i w b) (s := begun s i w b) (by
      rw [begun_writesHeld, issueOf_id, begun_outstanding, issueOf_word, hw, Bool.false_or, Bool.and_eq_false_iff, Bool.eq_false_iff,
        ne_eq, hfence ho, or_iff_not_imp_left, not_not]
      exact hout)
    obtain ⟨t, ht, hrest⟩ := runCommand_moves (row := fun w => cmdOp w == 0x08) h (by simp [ho]) hb hp
    exact ⟨t, (exec_fence s i).trans (congrArg _ ht), hrest⟩
  case time =>
    have hf : formOf (cmdOp w) (cmdMods w) = some { d := [.pair] } := by rw [ho]; rfl
    have hn : n + 1 < 16 := by
      have heven := issues_takesD h hf
      have hlt := opndOf_s hd
      simp only [hd, Kind.takes, List.any_cons, List.any_nil, Bool.or_false, beq_iff_eq] at heven
      omega
    have hb := timeBody_done (x := issueOf s i w b) (s := begun s i w b)
    rw [issueOf_id, issueOf_word, hd, State.begun_slot, begun_now] at hb
    obtain ⟨t, ht, honly, hslot⟩ := runCommand_setSlot (row := fun w => cmdOp w == 0x70) h (by simp [ho]) hb
      (Slot.retire_lt_of_loops hp rfl rfl)
    refine ⟨t, (exec_time s i).trans (congrArg _ ht), honly, ?_, hslot⟩
    rw [hslot, Slot.retire_pair]
    exact Slot.pair_setPair _ hn _
  case ident =>
    have hf : formOf (cmdOp w) (cmdMods w) = some { d := [.s], mask := bitsMask 3 0 } := by rw [ho]; rfl
    have hm : cmdMods w ≤ 8 := by simpa [modsOk, ho] using issues_modsOk h hf
    have hb := identBody_done (x := issueOf s i w b) (s := begun s i w b)
    rw [issueOf_id, issueOf_word, Nat.mod_eq_of_lt (by omega), begun_identity, State.identity_eq _ _ hm, State.begun_slot] at hb
    obtain ⟨t, ht, honly, hslot⟩ := runCommand_setSlot (row := fun w => cmdOp w == 0x71) h (by simp [ho]) hb
      (by rw [Slot.put_retire_cur, Slot.nextPtr_put]; exact hp)
    refine ⟨t, (exec_ident s i).trans (congrArg _ ht), honly, ?_⟩
    rw [hslot]
    exact Slot.put_retire_cur _ _ _ _ _ _ _
  case seed =>
    refine ⟨_, seed_done h ho hp, State.slot_setSlot _ _ _, ?_, fun n hn => ?_, ?_, fun j hj hne => ?_⟩
    · rw [State.seedOf_setSlot, State.seedOf_setSeed, if_pos rfl, BitVec.toNat_ofNat, Nat.mod_eq_of_lt (Slot.pair_lt _ _)]
    · rw [State.seedOf_setSlot, State.seedOf_setSeed, if_neg hn, begun_seedOf]
    · exact State.setSeed_slots _ _ _ (begun_fields s i w b) _ _
    · rw [State.slot_setSlot_other _ _ (SlotId.key_ne hi hj hne), State.slot_setSeed, begun_other hi hj hne]

section
variable {s : State} {i : SlotId} {w : Nat} {b : Bool} (h : Issues s i w b) (ho : cmdOp w = 0x61) (hp : nextPtr (s.slot i) < 2048)
include h ho hp

/-- A STEP whose pair is the step counter advances what was begun. -/
theorem step_advances (hc : s.stepCount = (s.slot i).pair (cmdA w).num) : exec (.step i) s = .next
    (((begun s i w b).advanceStep.setSlot i (((begun s i w b).slot i).put (cmdD w) 1)).setSlot i
      (((s.slot i).put (cmdD w) 1).retire (s.slot i).ptr .next)) := by
  have hb := stepBody_steps (x := issueOf s i w b) (s := begun s i w b) (by
    rw [issueOf_id, issueOf_word, begun_stepCount, begun_pair, hc])
  rw [issueOf_id, issueOf_word, State.slot_advanceStep] at hb
  have hret (u : State) : (((u.setSlot i (((begun s i w b).slot i).put (cmdD w) 1)).slot i).retire (s.slot i).ptr .next)
      = ((s.slot i).put (cmdD w) 1).retire (s.slot i).ptr .next := by rw [State.slot_setSlot, State.begun_slot, Slot.put_retire_cur]
  have hd := runCommand_ends (row := fun w => cmdOp w == 0x61) h (by simp [ho]) hb (by rw [hret, Slot.nextPtr_put]; exact hp)
  rw [hret] at hd
  exact (exec_step s i).trans (congrArg _ hd)

/-- A STEP with another pair writes its predicate alone. -/
theorem step_stays (hc : s.stepCount ≠ (s.slot i).pair (cmdA w).num) : ∃ t, exec (.step i) s = .next t ∧ OnlySlot i s t
    ∧ t.slot i = ((s.slot i).put (cmdD w) 0).retire (s.slot i).ptr .next := by
  have hb := stepBody_stays (x := issueOf s i w b) (s := begun s i w b) (by
    rw [issueOf_id, issueOf_word, begun_stepCount, begun_pair]
    exact hc)
  rw [issueOf_id, issueOf_word, State.begun_slot] at hb
  obtain ⟨t, ht, honly, hslot⟩ := runCommand_setSlot (row := fun w => cmdOp w == 0x61) h (by simp [ho]) hb
    (by rw [Slot.put_retire_cur, Slot.nextPtr_put]; exact hp)
  rw [Slot.put_retire_cur] at hslot
  exact ⟨t, (exec_step s i).trans (congrArg _ ht), honly, hslot⟩

end

/-- Settles O19: STEP compares its pair with the step counter, and advances both counters or nothing. -/
theorem stepCommand : Obligations.StepCommand := by
  unfold Obligations.StepCommand
  intro s i w b h ho hp u
  have hi := issues_thread_lt h
  by_cases hc : s.stepCount = u.pair (cmdA w).num
  · refine ⟨_, step_advances h ho hp hc, ?_, ?_, fun j hj hne => ?_, fun _ => ⟨?_, ?_, State.slot_setSlot _ _ _⟩,
      fun hne => absurd hc hne⟩
    · rw [State.mem_setSlot, State.mem_setSlot, State.mem_advanceStep, begun_mem]
    · rw [State.pads_setSlot, State.pads_setSlot, State.pads_advanceStep, begun_pads]
    · have hk := SlotId.key_ne hi hj hne
      rw [State.slot_setSlot_other _ _ hk, State.slot_setSlot_other _ _ hk, State.slot_advanceStep, begun_other hi hj hne]
    · rw [State.stepCount, State.reg_setSlot, State.reg_setSlot, ← State.stepCount, State.stepCount_advanceStep, begun_stepCount]
    · rw [State.epoch, State.reg_setSlot, State.reg_setSlot, ← State.epoch, State.epoch_advanceStep, begun_epoch]
  · obtain ⟨t, he, honly, hslot⟩ := step_stays h ho hp hc
    refine ⟨t, he, ?_, ?_, honly.2, fun hs => absurd hs hc, fun _ => ⟨honly, hslot⟩⟩
    · rw [honly.1]
    · rw [honly.1]

end Sys2Proof.Proofs
end

section
/-! SUPPORT. HALT and NEXT (R107, R111): what a halt writes and what it leaves, and the item that a thread is given next. -/

namespace Sys2Proof.Machine

open Sys2Proof Sys2Proof.Safety

/-! ## What a halt leaves -/

/-- The state without the slots, the queues for room and the combs, which the freeing of a slot may change. -/
def State.sansSeats (s : State) : State := { s with swarm := { s.swarm with slots := [], roomQueue := [], combs := [] } }

theorem State.unyield_sansSeats (s : State) (i : SlotId) : (s.unyield i).sansSeats = s.sansSeats :=
  foldl_keeps State.sansSeats (f := State.unyieldFrom i) (fun _ _ => rfl) _ s

theorem State.noteIdle_sansSeats (s : State) (n : Nat) : (s.noteIdle n).sansSeats = s.sansSeats := by
  unfold State.noteIdle
  split <;> rfl

theorem State.freeSlot_sansSeats (s : State) (i : SlotId) : (s.freeSlot i).sansSeats = s.sansSeats := by
  rw [State.freeSlot, State.noteIdle_sansSeats]
  exact State.unyield_sansSeats (s.setSlot i {}) i

/-- The state without what the records of a halt may change. -/
def State.sansRecords (s : State) : State := { s with mem := {}, dict := { s.dict with regs := [] }, swarm := {} }

theorem State.fields_of_sansRecords {s t : State} (h : t.sansRecords = s.sansRecords) :
    t.num = s.num ∧ t.net = s.net ∧ t.host = s.host ∧ t.isl = s.isl ∧ t.pow = s.pow :=
  ⟨(congrArg State.num h :), (congrArg State.net h :), (congrArg State.host h :), (congrArg State.isl h :), (congrArg State.pow h :)⟩

theorem State.sansRecords_of_sansSeats {s t : State} (h : t.sansSeats = s.sansSeats) : t.sansRecords = s.sansRecords :=
  (congrArg State.sansRecords h :)

theorem State.setBytes_sansRecords (s : State) (a : Nat) (bs : List Byte) : (s.setBytes a bs).sansRecords = s.sansRecords := by
  induction bs generalizing s a with
  | nil => rfl
  | cons b bs ih => exact (ih _ _).trans rfl

theorem State.logHalt_sansRecords (s : State) (reason rec_ : Nat) : (s.logHalt reason rec_).sansRecords = s.sansRecords := by
  unfold State.logHalt
  dsimp only
  repeat' split
  all_goals rfl

theorem State.countHalt_sansRecords (s : State) (t : Slot) (reason : Nat) : (s.countHalt t reason).sansRecords = s.sansRecords := by
  unfold State.countHalt
  dsimp only
  split <;> rfl

section
variable (s : State) (i : SlotId)

theorem State.freeSlot_sansRecords : (s.freeSlot i).sansRecords = s.sansRecords :=
  State.sansRecords_of_sansSeats (s.freeSlot_sansSeats i)
theorem State.freeSlot_mem : (s.freeSlot i).mem = s.mem := (congrArg State.mem (s.freeSlot_sansSeats i) :)
theorem State.freeSlot_pads : (s.freeSlot i).swarm.pads = s.swarm.pads :=
  (congrArg (fun u : State => u.swarm.pads) (s.freeSlot_sansSeats i) :)
theorem State.freeSlot_padGen : (s.freeSlot i).swarm.padGen = s.swarm.padGen :=
  (congrArg (fun u : State => u.swarm.padGen) (s.freeSlot_sansSeats i) :)
theorem State.freeSlot_haltLog : (s.freeSlot i).swarm.haltLog = s.swarm.haltLog :=
  (congrArg (fun u : State => u.swarm.haltLog) (s.freeSlot_sansSeats i) :)
theorem State.freeSlot_launches : (s.freeSlot i).swarm.launches = s.swarm.launches :=
  (congrArg (fun u : State => u.swarm.launches) (s.freeSlot_sansSeats i) :)

end

/-! ## What a halt writes -/

section
variable (s : State) (reason rec_ : Nat)

theorem State.logHalt_mem : (s.logHalt reason rec_).mem = s.mem := by
  unfold State.logHalt
  dsimp only
  repeat' split
  all_goals rfl

theorem State.logHalt_launches : (s.logHalt reason rec_).swarm.launches = s.swarm.launches := by
  obtain ⟨log, h⟩ := s.logHalt_swarm reason rec_
  rw [h]

theorem State.logHalt_haltLog : (s.logHalt reason rec_).swarm.haltLog
    = if reason = 0 then s.swarm.haltLog else logAppend 64 s.swarm.haltLog (BitVec.ofNat 256 rec_) := by
  unfold State.logHalt
  split
  · rfl
  · dsimp only
    split <;> rfl

theorem State.logHalt_reg_halts :
    (s.logHalt reason rec_).reg 0x205002 = if reason = 0 then s.reg 0x205002 else satAdd 64 (s.reg 0x205002) 1 := by
  unfold State.logHalt
  split
  · rfl
  · dsimp only
    split
    · exact (State.reg_bump_other _ (by decide)).trans (State.reg_setReg _ _ _ _)
    · exact State.reg_setReg _ _ _ _

/-- The log of a halt counts it, and the contained error that it is. -/
theorem State.logHalt_reg_other {k u : Nat} (h2 : k * 65536 + u ≠ 0x205002 * 65536 + 0) (hb : k * 65536 + u ≠ 0xB02003 * 65536 + 0) :
    (s.logHalt reason rec_).reg k u = s.reg k u := by
  unfold State.logHalt
  split
  · rfl
  · dsimp only
    split
    · exact (State.reg_bump_other _ hb).trans (State.reg_bump_other _ h2)
    · exact State.reg_bump_other _ h2

end

section
variable (s : State) (t : Slot) (reason : Nat)

theorem State.countHalt_mem : (s.countHalt t reason).mem = s.mem := by
  unfold State.countHalt
  dsimp only
  split <;> rfl

theorem State.countHalt_haltLog : (s.countHalt t reason).swarm.haltLog = s.swarm.haltLog := by
  obtain ⟨launches, h⟩ := s.countHalt_swarm t reason
  rw [h]

theorem State.countHalt_reg_lost :
    (s.countHalt t reason).reg 0x208109 = if t.held.isSome then satAdd 64 (s.reg 0x208109) 1 else s.reg 0x208109 := by
  unfold State.countHalt
  dsimp only
  split
  · exact State.reg_setReg _ _ _ _
  · rfl

theorem State.countHalt_reg_other {k u : Nat} (h : k * 65536 + u ≠ 0x208109 * 65536 + 0) :
    (s.countHalt t reason).reg k u = s.reg k u := by
  unfold State.countHalt
  dsimp only
  split
  · exact State.reg_bump_other _ h
  · rfl

/-- The launch that a halt counts in. -/
theorem State.countHalt_launches : (s.countHalt t reason).swarm.launches = (s.mapLaunch t.launch fun l =>
    { l with live := l.live - 1, abnormal := l.abnormal + b2n (decide (reason ≠ 0)) }).swarm.launches := by
  unfold State.countHalt
  dsimp only
  split <;> rfl

end

section
variable (s : State) (i : SlotId) (reason bank index fault high : Nat)

theorem State.halt_sansRecords : (s.halt i reason bank index fault high).sansRecords = s.sansRecords := by
  rw [State.halt_eq, State.freeSlot_sansRecords, State.noteHalt, State.countHalt_sansRecords, State.logHalt_sansRecords,
    State.setBytes_sansRecords]

/-- The bytes that a halt writes are those of its slot record (R112). -/
theorem State.halt_rawByte (a : Nat) : (s.halt i reason bank index fault high).rawByte a
    = (s.setBytes (slotRecordAt i) (natLE 32 (haltRecord reason bank index i s.now fault high))).rawByte a := by
  rw [State.rawByte, State.halt_eq, State.freeSlot_mem, State.noteHalt, State.countHalt_mem, State.logHalt_mem, ← State.rawByte]

theorem State.halt_padByte (cell off : Nat) : (s.halt i reason bank index fault high).padByte cell off = s.padByte cell off := by
  obtain ⟨log, launches, hs⟩ := s.noteHalt_swarm i reason bank index fault high
  rw [State.padByte, State.padGeneration, State.halt_eq, State.freeSlot_pads, State.freeSlot_padGen, hs, State.padByte,
    State.padGeneration]

/-- A reason other than 0 is logged (R112). -/
theorem State.halt_haltLog : (s.halt i reason bank index fault high).swarm.haltLog = if reason = 0 then s.swarm.haltLog
    else logAppend 64 s.swarm.haltLog (BitVec.ofNat 256 (haltRecord reason bank index i s.now fault high)) := by
  rw [State.halt_eq, State.freeSlot_haltLog, State.noteHalt, State.countHalt_haltLog, State.logHalt_haltLog, State.setBytes_swarm]

/-! ## The counts of a halt -/

theorem State.halt_reg_halts : (s.halt i reason bank index fault high).reg 0x205002
    = if reason = 0 then s.reg 0x205002 else satAdd 64 (s.reg 0x205002) 1 := by
  rw [State.halt_eq, State.freeSlot_reg, State.noteHalt, State.countHalt_reg_other _ _ _ (by decide), State.logHalt_reg_halts,
    State.reg_setBytes]

theorem State.halt_reg_lost : (s.halt i reason bank index fault high).reg 0x208109
    = if (s.slot i).held.isSome then satAdd 64 (s.reg 0x208109) 1 else s.reg 0x208109 := by
  rw [State.halt_eq, State.freeSlot_reg, State.noteHalt, State.countHalt_reg_lost,
    State.logHalt_reg_other _ _ _ (by decide) (by decide), State.reg_setBytes]

theorem State.halt_reg_other {k u : Nat} (h2 : k * 65536 + u ≠ 0x205002 * 65536 + 0) (h8 : k * 65536 + u ≠ 0x208109 * 65536 + 0)
    (hb : k * 65536 + u ≠ 0xB02003 * 65536 + 0) : (s.halt i reason bank index fault high).reg k u = s.reg k u := by
  rw [State.halt_eq, State.freeSlot_reg, State.noteHalt, State.countHalt_reg_other _ _ _ h8, State.logHalt_reg_other _ _ _ h2 hb,
    State.reg_setBytes]

end

section
variable (s : State) (i : SlotId) (reason bank index fault high : Nat)

/-! ## The launch of a thread that halts -/

theorem State.launch?_mapLaunch {id : Nat} {l m : Launch} {f : Launch → Launch} (hl : s.launch? id = some l)
    (hf : ∀ k : Launch, k.id = id → (f k).id = id) (hm : f l = m) : (s.mapLaunch id f).launch? id = some m := by
  subst hm
  have hid : l.id = id := State.launch?_id hl
  unfold State.launch? State.mapLaunch at *
  dsimp only
  rw [List.find?_map]
  have hp : ((fun l : Launch => l.id == id) ∘ fun l => if l.id = id then f l else l) = fun l => l.id == id := by
    funext k
    simp only [Function.comp]
    split
    · next h => rw [hf k h, h]
    · rfl
  rw [hp, hl, Option.map_some, if_pos hid]

/-- The launch of a thread has one live thread fewer once it has halted, and counts an abnormal halt for a reason other than 0 (R73). -/
theorem State.halt_launch {l : Launch} (hl : s.launch? (s.slot i).launch = some l) :
    (s.halt i reason bank index fault high).launch? (s.slot i).launch
      = some { l with live := l.live - 1, abnormal := l.abnormal + (if reason = 0 then 0 else 1) } := by
  rw [State.halt_eq, State.launch?, State.freeSlot_launches, State.noteHalt, State.countHalt_launches, ← State.launch?]
  refine State.launch?_mapLaunch _ (l := l) ?_ (fun k hk => hk) ?_
  · rw [State.launch?, State.logHalt_launches, State.setBytes_swarm, ← State.launch?, hl]
  · by_cases h0 : reason = 0 <;> simp [h0, b2n]

/-! ## The other slots -/

/-- A slot that differs from another in whom its thread waits for alone. -/
def Slot.SameButYield (t u : Slot) : Prop := t = { u with yieldTo := t.yieldTo }

theorem Slot.SameButYield.trans {t u v : Slot} (h : t.SameButYield u) (h' : u.SameButYield v) : t.SameButYield v := by
  unfold Slot.SameButYield at *
  rw [h, h']

theorem seenIssue_sameButYield (j : SlotId) (u : Slot) : (seenIssue i j u).SameButYield u := by
  unfold seenIssue
  split <;> rfl

theorem State.unyieldFrom_sameButYield (k : Nat) (j : SlotId) : ((State.unyieldFrom i s k).slot j).SameButYield (s.slot j) := by
  unfold State.unyieldFrom
  by_cases hk : j.key = (⟨i.cell, k⟩ : SlotId).key
  · have hj : s.slot j = s.slot ⟨i.cell, k⟩ := by rw [State.slot, hk, State.slot]
    have hu (u : Slot) : (s.setSlot ⟨i.cell, k⟩ u).slot j = u := by
      rw [State.slot, hk]
      exact State.slot_setSlot _ _ _
    dsimp only
    rw [hu, hj]
    rfl
  · rw [State.slot_setSlot_other _ _ hk]
    rfl

/-- A halt leaves every other slot but for whom its thread waits for. -/
theorem State.halt_slot_other {j : SlotId} (hj : j.key ≠ i.key) :
    ((s.halt i reason bank index fault high).slot j).SameButYield (s.slot j) := by
  rw [State.halt_eq, State.freeSlot, State.noteIdle_slot, ← State.noteHalt_slot s i reason bank index fault high j]
  refine List.foldlRecOn (motive := fun u : State => (u.slot j).SameButYield ((s.noteHalt i reason bank index fault high).slot j))
    _ _ ?_ fun u hu k _ => (State.unyieldFrom_sameButYield _ _ _ _).trans hu
  rw [State.slot_setSlot_other _ _ hj]
  rfl

end

/-! ## HALT at issue -/

section
variable (s : State) (i : SlotId) (w : Nat) (b : Bool)

theorem begun_sansRecords : (begun s i w b).sansRecords = s.sansRecords := by rw [begun_fields]; rfl
@[simp] theorem begun_haltLog : (begun s i w b).swarm.haltLog = s.swarm.haltLog := by rw [begun_fields]
@[simp] theorem begun_padByte (cell off : Nat) : (begun s i w b).padByte cell off = s.padByte cell off := by rw [begun_fields]; rfl
@[simp] theorem begun_launch? (id : Nat) : (begun s i w b).launch? id = s.launch? id := by rw [begun_fields]; rfl

end

theorem haltBody_eq (x : Issue) (s : State) : haltBody x s
    = .error (.halt (if (s.slot x.id).held.isSome then 0x20 else cmdMods x.word % 256) 0 s) := by
  unfold haltBody
  rw [Cmd.slot_bind]
  cases hh : (s.slot x.id).held <;> rfl

end Sys2Proof.Machine
end

section
/-! PROOF. O14: HALT. -/

namespace Sys2Proof.Proofs

open Sys2Proof Sys2Proof.Machine Sys2Proof.Safety

theorem exec_halt (s : State) (i : SlotId) : exec (.halt i) s = .next (runCommand s i (fun w => cmdOp w == 0x04) haltBody) := rfl

section
variable {s : State} {i : SlotId} {w : Nat} {b : Bool}

/-- The reasons a HALT command can give: its own (R97), or that of a held tile. -/
theorem halt_reason (h : Issues s i w b) (ho : cmdOp w = 0x04) {r : Nat}
    (hr : r = if (s.slot i).held.isSome then 0x20 else cmdMods w) :
    r = (if (s.slot i).held.isSome then 0x20 else cmdMods w % 256) ∧ r ≠ 0x09 ∧ ¬ (0x30 ≤ r ∧ r ≤ 0x3F) := by
  have hf : formOf (cmdOp w) (cmdMods w) = some { mask := bitsMask 7 0 } := by rw [ho]; rfl
  have hm : cmdMods w < 256 := Nat.lt_succ_of_le (issues_mods_le h hf)
  have hok : cmdMods w = 0 ∨ 0xF0 ≤ cmdMods w := by simpa [modsOk, ho] using issues_modsOk h hf
  rw [Nat.mod_eq_of_lt hm]
  cases hh : (s.slot i).held.isSome
  · rw [hh] at hr
    simp only [Bool.false_eq_true, if_false] at hr ⊢
    omega
  · rw [hh] at hr
    simp only [if_true] at hr ⊢
    omega

/-- A HALT command halts its thread, with the record of the state at issue. -/
theorem halt_halts (h : Issues s i w b) (ho : cmdOp w = 0x04) :
    exec (.halt i) s = .next ((begun s i w b).halt i (if (s.slot i).held.isSome then 0x20 else cmdMods w) (bankCode b) (s.slot i).ptr 0
      (w / 2 ^ 64)) := by
  obtain ⟨hr, h9, h3⟩ := halt_reason h ho rfl
  have hb := haltBody_eq (issueOf s i w b) (begun s i w b)
  rw [issueOf_id, issueOf_word, begun_held, ← hr] at hb
  refine (exec_halt s i).trans (congrArg _ ((runCommand_halts h (by simp [ho]) hb).trans ?_))
  rw [State.haltAt, if_neg h9, if_neg h3]
  rfl

end

/-- Settles O14: the command's halt in the state at issue, read off by what a halt writes and leaves (`halt_halts`). -/
theorem haltEndsThread : Obligations.HaltEndsThread := by
  unfold Obligations.HaltEndsThread
  intro s i w b h ho hc holds reason rec_
  have hi := issues_thread_lt h
  have hnow : haltRecord reason (bankCode b) (s.slot i).ptr i (begun s i w b).now 0 (w / 2 ^ 64) = rec_ := by rw [begun_now]
  have hsans := (State.halt_sansRecords (begun s i w b) i reason (bankCode b) (s.slot i).ptr 0 (w / 2 ^ 64)).trans
    (begun_sansRecords s i w b)
  refine ⟨_, halt_halts h ho, State.slot_halt _ _ _ _ _ _ _, fun k hk => ?_, fun a ha => ?_, fun cell off => ?_, ?_, ?_, ?_,
    fun k u hk => ?_, fun l hl => ?_, fun j hj hne => ?_, State.fields_of_sansRecords hsans⟩
  · rw [State.halt_rawByte, hnow, State.rawByte_setBytes _ _ _ _ (by rw [natLE_length]; exact hk), List.getD_eq_getElem]
  · rw [State.halt_rawByte, State.rawByte_setBytes_other _ _ _ _ (by rw [natLE_length]; exact ha), begun_rawByte]
  · rw [State.halt_padByte, begun_padByte]
  · rw [State.halt_haltLog, hnow, begun_haltLog]
  · rw [State.halt_reg_halts, begun_reg]
  · rw [State.halt_reg_lost, begun_held, begun_reg]
  · simp only [List.mem_cons, List.not_mem_nil, or_false, not_or] at hk
    obtain ⟨h2, h8, hb⟩ := hk
    rw [State.halt_reg_other _ _ _ _ _ _ _ h2 h8 hb, begun_reg]
  · have hb : (begun s i w b).launch? ((begun s i w b).slot i).launch = some l := by rw [begun_launch, begun_launch?, hl]
    rw [← begun_launch s i w b]
    exact State.halt_launch _ _ _ _ _ _ _ hb
  · refine ((State.halt_slot_other _ _ _ _ _ _ _ (SlotId.key_ne hi hj hne)).trans ?_)
    rw [begun_other hi hj hne]
    exact seenIssue_sameButYield i j _

end Sys2Proof.Proofs
end

section
/-! SUPPORT. NEXT (R76, R107): the item that a thread is given, and what a slot and its launch hold once it has been given. -/

namespace Sys2Proof.Machine

open Sys2Proof Sys2Proof.Safety

/-! ## The next item -/

/-- The item that follows within the thread's run, if there is one. -/
def Launch.within (l : Launch) (t : Slot) : Option Nat :=
  match t.run, t.item with
  | some r, some k => if k + 1 < min l.items ((r + 1) * l.grain) then some (k + 1) else none
  | _, _ => none

/-- A thread that has had its last item. -/
def Slot.spent (t : Slot) : Bool := t.run.isSome && t.item.isNone

/-- The item that NEXT delivers (R107). -/
def Launch.given (l : Launch) (t : Slot) (comb : Nat) : Option Nat :=
  if (l.within t).isSome then l.within t
  else if t.spent then none else (l.takeRun t.index comb t.run).1.map (· * l.grain)

/-- The launch once it has given the item. -/
def Launch.giving (l : Launch) (t : Slot) (comb : Nat) : Launch :=
  if (l.within t).isSome || t.spent then l else (l.takeRun t.index comb t.run).2

/-- The slot that has been given an item keeps it as its position, and its run. -/
def Slot.receive (t : Slot) (run item : Option Nat) : Slot := { t with run := run, item := item }.setC 0 (item.getD 0xFFFFFFFF)

theorem Launch.takeRun_fixed (l : Launch) (index comb : Nat) (run : Option Nat) :
    (l.takeRun index comb run).2 = { l with runs := (l.takeRun index comb run).2.runs } := by
  unfold Launch.takeRun
  dsimp only
  repeat' split
  all_goals rfl

theorem Launch.takeRun_grain {l m : Launch} {index comb : Nat} {run r : Option Nat} (h : l.takeRun index comb run = (r, m)) :
    m.grain = l.grain := by
  have hm : m = (l.takeRun index comb run).2 := (congrArg Prod.snd h).symm
  rw [hm, Launch.takeRun_fixed]
  rfl

theorem Launch.giving_id (l : Launch) (t : Slot) (comb : Nat) : (l.giving t comb).id = l.id := by
  unfold Launch.giving
  split
  · rfl
  · rw [Launch.takeRun_fixed]

/-- A delivery is the item given, into c0 and the thread's position. -/
theorem Launch.deliver_eq (l : Launch) (t : Slot) (comb : Nat) :
    ∃ run, l.deliver t comb = (t.receive run (l.given t comb), l.giving t comb) := by
  change ∃ run, (match l.within t with
    | some k => ({ t with item := some k }.setC 0 k, l)
    | none => if t.spent then (t.setC 0 0xFFFFFFFF, l) else
        match l.takeRun t.index comb t.run with
        | (some r, l) => ({ t with run := some r, item := some (r * l.grain) }.setC 0 (r * l.grain), l)
        | (none, l) => ({ t with run := some (t.run.getD 0), item := none }.setC 0 0xFFFFFFFF, l)) = _
  unfold Launch.given Launch.giving
  cases hm : l.within t with
  | some k => exact ⟨t.run, rfl⟩
  | none =>
    simp only [Option.isSome_none, Bool.false_or, Bool.false_eq_true, if_false]
    by_cases hs : t.spent = true
    · have hself : ({ t with item := none } : Slot) = t := by
        simp only [Slot.spent, Bool.and_eq_true, Option.isNone_iff_eq_none] at hs
        rw [← hs.2]
      rw [if_pos hs, if_pos hs, if_pos hs]
      refine ⟨t.run, ?_⟩
      rw [Slot.receive, hself]
      rfl
    · rw [if_neg hs, if_neg hs, if_neg hs]
      cases ht : l.takeRun t.index comb t.run with
      | mk m l' =>
        cases m with
        | some r =>
          refine ⟨some r, ?_⟩
          simp only [Launch.takeRun_grain ht]
          rfl
        | none => exact ⟨some (t.run.getD 0), rfl⟩

/-! ## The slot that has been given an item -/

section
variable (t : Slot) (run item : Option Nat)

theorem Slot.receive_cur (c : Option (Nat × Bool)) (l : Latch) :
    ({ t with cur := c, latch := l } : Slot).receive run item = { t.receive run item with cur := c, latch := l } := rfl

theorem Slot.receive_creg (n : Nat) :
    (t.receive run item).creg n = if n = 0 then BitVec.ofNat 32 (item.getD 0xFFFFFFFF) else t.creg n := by
  rw [Slot.receive, Slot.creg, Slot.setC, vector_getD_set]
  simp only [Slot.creg, eq_comm, show (0 : Nat) < 4 by decide, and_true]

theorem Slot.nextPtr_receive : nextPtr (t.receive run item) = nextPtr t :=
  Slot.retire_ptr_congr (t.receive run item) t (fun _ => ⟨rfl, rfl, rfl, rfl⟩) rfl _ _

/-- A write to a predicate, or to nothing, changes the predicates alone. -/
theorem Slot.put_pred_keeps {d : Opnd} (hd : ([Kind.p, Kind.none].any fun k => k.takes d) = true) (v : Nat) :
    t.put d v = { t with preds := (t.put d v).preds } := by
  cases d with
  | p n =>
    rw [Slot.put]
    unfold Slot.setP
    split <;> rfl
  | none => rfl
  | _ => simp [Kind.takes] at hd

end

/-! ## NEXT at issue -/

section
variable (s : State) (i : SlotId)

theorem State.launch?_setSlot (t : Slot) (id : Nat) : (s.setSlot i t).launch? id = s.launch? id := rfl
theorem State.slot_mapLaunch (id : Nat) (f : Launch → Launch) (j : SlotId) : (s.mapLaunch id f).slot j = s.slot j := rfl

theorem State.mapLaunch_fields {s t : State} (h : t = { s with swarm := { s.swarm with slots := t.swarm.slots } }) (i : SlotId)
    (x y z : Slot) (id : Nat) (f : Launch → Launch) : ((((t.setSlot i x).mapLaunch id f).setSlot i y).setSlot i z)
      = { s with swarm := { s.swarm with slots := ((((t.setSlot i x).mapLaunch id f).setSlot i y).setSlot i z).swarm.slots
                                         launches := ((((t.setSlot i x).mapLaunch id f).setSlot i y).setSlot i z).swarm.launches } } := by
  rw [h]
  rfl

end

section
variable {x : Issue} {s : State}

theorem nextBody_done {l m : Launch} {t : Slot} (hl : s.launch? (s.slot x.id).launch = some l)
    (hd : l.deliver (s.slot x.id) x.id.comb = (t, m)) : nextBody x s = .ok (.next,
      ((s.setSlot x.id t).mapLaunch (s.slot x.id).launch fun _ => m).setSlot x.id
        (t.put (cmdD x.word) (b2n (decide (t.creg 0 ≠ 0xFFFFFFFF))))) := by
  have hn : s.nextItem x.id = (s.setSlot x.id t).mapLaunch (s.slot x.id).launch fun _ => m := by
    simp only [State.nextItem, hl, hd]
  have hs : ((s.setSlot x.id t).mapLaunch (s.slot x.id).launch fun _ => m).slot x.id = t := State.slot_setSlot _ _ _
  unfold nextBody
  rw [Cmd.update_bind, Cmd.mapSlot_bind, hn, hs]
  rfl

end

end Sys2Proof.Machine
end

section
/-! PROOF. O15: NEXT. -/

namespace Sys2Proof.Proofs

open Sys2Proof Sys2Proof.Machine Sys2Proof.Safety

theorem exec_next (s : State) (i : SlotId) : exec (.next i) s = .next (runCommand s i (fun w => cmdOp w == 0x18) nextBody) := rfl

/-- The slot of a thread that has been given its next item by the command `w`. -/
def received (u : Slot) (w : Nat) (run item : Option Nat) : Slot :=
  ((u.receive run item).put (cmdD w) (b2n (decide ((u.receive run item).creg 0 ≠ 0xFFFFFFFF)))).retire u.ptr .next

section
variable {w : Nat} (u : Slot) (run item : Option Nat)

theorem received_ptr : (received u w run item).ptr = nextPtr u :=
  (Slot.nextPtr_put (u.receive run item) _ _).trans (Slot.nextPtr_receive _ _ _)

theorem received_pred {n : Nat} (hd : cmdD w = .p n) (h8 : n < 8) (h0 : n ≠ 0) :
    (received u w run item).pred n = decide ((u.receive run item).creg 0 ≠ 0xFFFFFFFF) := by
  rw [received, Slot.retire_pred, hd, Slot.put, Slot.pred_setP _ h8 h0]
  cases decide ((u.receive run item).creg 0 ≠ 0xFFFFFFFF) <;> rfl

section
variable (hd : ([Kind.p, Kind.none].any fun k => k.takes (cmdD w)) = true)
include hd

theorem received_fields : (received u w run item).item = item ∧ (received u w run item).sregs = u.sregs
    ∧ (received u w run item).vregs = u.vregs ∧ (received u w run item).descs = u.descs ∧ (received u w run item).cmp = u.cmp := by
  rw [received, Slot.retire_keeps, Slot.put_pred_keeps _ hd]
  exact ⟨rfl, rfl, rfl, rfl, rfl⟩

theorem received_creg (n : Nat) :
    (received u w run item).creg n = if n = 0 then BitVec.ofNat 32 (item.getD 0xFFFFFFFF) else u.creg n := by
  rw [received, Slot.retire_creg, Slot.put_pred_keeps _ hd]
  exact Slot.receive_creg u run item n

end

end

section
variable {s : State} {i : SlotId} {w : Nat} {b : Bool}

/-- NEXT gives the thread its next item, and nothing but the slot and the launch changes. -/
theorem next_done {l : Launch} (h : Issues s i w b) (ho : cmdOp w = 0x18) (hp : nextPtr (s.slot i) < 2048)
    (hl : s.launch? (s.slot i).launch = some l) : ∃ run v v', exec (.next i) s = .next
      (((((begun s i w b).setSlot i v).mapLaunch (s.slot i).launch fun _ => l.giving (s.slot i) i.comb).setSlot i v').setSlot i
        (received (s.slot i) w run (l.given (s.slot i) i.comb))) := by
  obtain ⟨run, hd⟩ := l.deliver_eq ((begun s i w b).slot i) i.comb
  have hb := nextBody_done (x := issueOf s i w b) (by rw [begun_launch?, issueOf_id, begun_launch, hl]) hd
  have hgiven : l.given ((begun s i w b).slot i) i.comb = l.given (s.slot i) i.comb := by rw [State.begun_slot]; rfl
  have hgiving : l.giving ((begun s i w b).slot i) i.comb = l.giving (s.slot i) i.comb := by rw [State.begun_slot]; rfl
  rw [issueOf_id, issueOf_word, hgiven, hgiving, begun_launch] at hb
  have hret (u : State) (given : Option Nat) : ((u.setSlot i ((((begun s i w b).slot i).receive run given).put (cmdD w)
      (b2n (decide ((((begun s i w b).slot i).receive run given).creg 0 ≠ 0xFFFFFFFF))))).slot i).retire (s.slot i).ptr .next
        = received (s.slot i) w run given := by
    rw [State.slot_setSlot, State.begun_slot, Slot.receive_cur, Slot.put_retire_cur]
    rfl
  have hlt (given : Option Nat) : (received (s.slot i) w run given).ptr < 2048 := lt_of_eq_of_lt (received_ptr _ _ _) hp
  have hd := runCommand_ends (row := fun w => cmdOp w == 0x18) h (by simp [ho]) hb (by rw [hret]; exact hlt _)
  rw [hret] at hd
  exact ⟨run, _, _, (exec_next s i).trans (congrArg _ hd)⟩

end

/-- Settles O15: NEXT gives the item that `Launch.given` names (`next_done`), which no register plays a part in. -/
theorem nextDeliversItems : Obligations.NextDeliversItems := by
  unfold Obligations.NextDeliversItems
  intro s i w b l h ho hp hl u more spent took given
  have hi := issues_thread_lt h
  have hf : formOf (cmdOp w) (cmdMods w) = some { d := [.p, .none] } := by rw [ho]; rfl
  have hd := issues_takesD h hf
  obtain ⟨run, v, v', he⟩ := next_done h ho hp hl
  refine ⟨⟨_, he, ?_⟩, fun x => ⟨?_, ?_, ?_⟩⟩
  · rw [State.slot_setSlot]
    obtain ⟨hitem, hs, hv, hds, hcmp⟩ := received_fields u run (l.given u i.comb) hd
    refine ⟨?_, hitem, fun n hn => ?_, received_ptr _ _ _, hs, hv, hds, hcmp, fun n hn => ?_, ?_, fun j hj hne => ?_, ?_⟩
    · exact (received_creg u run _ hd 0).trans (if_pos rfl)
    · obtain ⟨hn8, hn0⟩ := issues_dest_pred h hf hn
      rw [received_pred u run _ hn hn8 hn0, received_creg u run _ hd, Slot.receive_creg]
      rfl
    · exact (received_creg u run _ hd n).trans (if_neg hn)
    · rw [State.launch?_setSlot, State.launch?_setSlot]
      refine State.launch?_mapLaunch _ (l := l) ?_ (fun _ _ => ?_) rfl
      · rw [State.launch?_setSlot, begun_launch?, hl]
      · rw [Launch.giving_id, State.launch?_id hl]
    · have hk := SlotId.key_ne hi hj hne
      rw [State.slot_setSlot_other _ _ hk, State.slot_setSlot_other _ _ hk, State.slot_mapLaunch, State.slot_setSlot_other _ _ hk,
        begun_other hi hj hne]
    · exact State.mapLaunch_fields (begun_fields s i w b) _ _ _ _ _ _
  · exact Slot.creg_setC _ (by decide) _
  · obtain ⟨run1, h1⟩ := l.deliver_eq (u.put (.c 0) x) i.comb
    obtain ⟨run2, h2⟩ := l.deliver_eq u i.comb
    rw [h1, h2]
    rfl
  · obtain ⟨run1, h1⟩ := l.deliver_eq (u.put (.c 0) x) i.comb
    obtain ⟨run2, h2⟩ := l.deliver_eq u i.comb
    rw [h1, h2]
    rfl

end Sys2Proof.Proofs
end

section
/-! SUPPORT. LDR, STR and DLOAD (R99, R75): the address and its alignment, the 8 B stores that a unit of the control space takes, and runs
of descriptor registers. -/

namespace Sys2Proof.Machine

open Sys2Proof Sys2Proof.Safety

/-! ## Writing a slot twice -/

theorem SMap.ins_ins {V : Type} (u v : V) (m : SMap V) (k : Nat) : SMap.ins v (SMap.ins u m k) k = SMap.ins v m k := by
  induction m with
  | nil => simp only [SMap.ins, if_true]
  | cons e m ih =>
    obtain ⟨j, x⟩ := e
    simp only [SMap.ins]
    split
    · simp only [SMap.ins, if_true]
    · next hne =>
      split
      · simp only [SMap.ins, if_true]
      · next hlt => simp only [SMap.ins, if_neg hne, if_neg hlt, ih]

theorem State.setSlot_setSlot (s : State) (i : SlotId) {x y : Slot} (hx : x ≠ {}) (hy : y ≠ {}) :
    (s.setSlot i x).setSlot i y = s.setSlot i y := by
  simp only [State.setSlot, SMap.put, if_neg hx, if_neg hy, SMap.ins_ins]

/-- A retired slot is not an empty one. -/
theorem Slot.retire_ne_empty (t : Slot) (p : Nat) (a : After) : t.retire p a ≠ {} := by
  intro h
  have hs := congrArg Slot.status h
  rw [Slot.retire_keeps] at hs
  cases hs

/-- Nor is one with a command in progress. -/
theorem Slot.ne_empty_of_cur {t : Slot} {c : Nat × Bool} (h : t.cur = some c) : t ≠ {} := by
  rintro rfl
  cases h

theorem begun_put_ne_empty (s : State) (i : SlotId) (w : Nat) (b : Bool) (o : Opnd) (v : Nat) :
    ((begun s i w b).slot i).put o v ≠ {} := by
  rw [State.begun_slot, Slot.put_cur]
  exact Slot.ne_empty_of_cur (c := (w, b)) rfl

/-! ## The bodies -/

section
variable {x : Issue} {s : State}

theorem Cmd.address_ok {n a : Nat} (ha : ofInt 64 (((s.slot x.id).pair (cmdA x.word).num : Nat) + toSigned 32 (cmdMods x.word)) = a)
    (hn : a % n = 0) : Cmd.address x n s = .ok (a, s) := by
  have hsigned : toSigned 32 (cmdMods x.word % 2 ^ 32) = toSigned 32 (cmdMods x.word) := by
    simp only [toSigned, Nat.mod_mod]
  unfold Cmd.address
  rw [Cmd.slot_bind, hsigned]
  simp only [ha, hn, ne_eq, not_true_eq_false, if_false]
  rfl

theorem ldrBody_done {a : Nat} {bs : List Byte} {t : State} (ha : Cmd.address x (wordBytes (cmdD x.word)) s = .ok (a, s))
    (hr : Cmd.readGlobal x [((a : Int), wordBytes (cmdD x.word))] 5 s = .ok (bs, t)) :
    ldrBody x s = .ok (.next, t.setSlot x.id ((t.slot x.id).put (cmdD x.word) (leNat bs))) := by
  unfold ldrBody
  rw [Cmd.bind_ok ha, Cmd.bind_ok hr, Cmd.mapSlot_bind]
  rfl

section
variable {a : Nat} (ha : Cmd.address x (wordBytes (cmdB x.word)) s = .ok (a, s))
include ha

theorem strBody_stores {t : State} (hu : wordBytes (cmdB x.word) = 8 → s.unit8 x.id a = .none)
    (hl : Cmd.holdLines x ⟨true, [((a : Int), wordBytes (cmdB x.word))]⟩ s = .ok ((), s))
    (hw : Cmd.writeGlobal x [((a : Int), natLE (wordBytes (cmdB x.word)) ((s.slot x.id).value (cmdB x.word)))] 5 0 s = .ok ((), t)) :
    strBody x s = .ok (.next, t) := by
  have hnone : (if wordBytes (cmdB x.word) = 8 then s.unit8 x.id a else .none) = .none := by
    split
    · next h8 => exact hu h8
    · rfl
  unfold strBody
  rw [Cmd.slot_bind, Cmd.bind_ok ha, Cmd.get_bind, hnone]
  dsimp only
  rw [Cmd.bind_ok hl, Cmd.bind_ok hw]
  rfl

theorem strBody_port {off : Nat} (h8 : wordBytes (cmdB x.word) = 8) (hu : s.unit8 x.id a = .port off) :
    strBody x s = .ok (.next, s.portStore x.id off ((s.slot x.id).value (cmdB x.word))) := by
  unfold strBody
  rw [Cmd.slot_bind, Cmd.bind_ok ha, Cmd.get_bind, if_pos h8, hu]
  rfl

theorem strBody_doorbell {e : Nat} (h8 : wordBytes (cmdB x.word) = 8) (hu : s.unit8 x.id a = .doorbell e) :
    strBody x s = .ok (.next, s.ringDoorbell e ((s.slot x.id).value (cmdB x.word))) := by
  unfold strBody
  rw [Cmd.slot_bind, Cmd.bind_ok ha, Cmd.get_bind, if_pos h8, hu]
  rfl

end

/-- Loading consecutive descriptor registers from a run of bytes. -/
def Slot.loadDescs (t : Slot) (first n : Nat) (bs : List Byte) : Slot :=
  (List.range n).foldl (fun t k => t.setD (first + k) (numAt bs (32 * k) 32)) t

theorem dloadBody_done {a n : Nat} {bs : List Byte} {t : State} (ha : (s.slot x.id).pair (cmdA x.word).num = a) (h32 : a % 32 = 0)
    (hn : cmdMods x.word % 64 = n) (hr : Cmd.readGlobal x [((a : Int), 32 * n)] 5 s = .ok (bs, t)) :
    dloadBody x s = .ok (.next, t.setSlot x.id ((t.slot x.id).loadDescs (cmdD x.word).num n bs)) := by
  unfold dloadBody
  rw [Cmd.slot_bind]
  simp only [ha, hn]
  rw [if_neg (by simp [h32]), Cmd.bind_ok hr, Cmd.mapSlot_bind]
  rfl

end

/-! ## Runs of descriptor registers -/

section
variable (t : Slot) (first n : Nat) (bs : List Byte)

theorem Slot.desc_setD_eq {k : Nat} (hk : k < 32) (v m : Nat) :
    (t.setD k v).desc m = if m = k then BitVec.ofNat 256 v else t.desc m := by
  rw [Slot.setD, Slot.desc, vector_getD_set]
  simp only [Slot.desc, hk, and_true, eq_comm]

theorem Slot.loadDescs_succ : t.loadDescs first (n + 1) bs = (t.loadDescs first n bs).setD (first + n) (numAt bs (32 * n) 32) := by
  rw [Slot.loadDescs, List.range_succ, List.foldl_append]
  rfl

theorem Slot.loadDescs_keeps : t.loadDescs first n bs = { t with descs := (t.loadDescs first n bs).descs } := by
  induction n with
  | zero => rfl
  | succ n ih =>
    rw [Slot.loadDescs_succ, Slot.setD, ih]

theorem Slot.loadDescs_desc (hn : first + n ≤ 32) (m : Nat) : (t.loadDescs first n bs).desc m
    = if first ≤ m ∧ m < first + n then BitVec.ofNat 256 (numAt bs (32 * (m - first)) 32) else t.desc m := by
  induction n with
  | zero => rw [if_neg (by omega)]; rfl
  | succ n ih =>
    rw [Slot.loadDescs_succ, Slot.desc_setD_eq _ (by omega), ih (by omega)]
    by_cases hm : m = first + n
    · subst hm
      rw [if_pos rfl, if_pos (by omega), Nat.add_sub_cancel_left]
    · rw [if_neg hm]
      by_cases hin : first ≤ m ∧ m < first + n
      · rw [if_pos hin, if_pos (by omega)]
      · rw [if_neg hin, if_neg (by omega)]

end

/-! ## Units of the control space that take 8 B stores (R75, R300) -/

section
variable {s : State} {i : SlotId} {a : Nat} (hn : nodeOf a = s.node)
include hn

/-- The four doublewords of a thread's own launch port. -/
theorem State.unit8_port {k : Nat} (hc : i.cell < 1048576) (ht : i.thread < 4) (hk : k < 4)
    (hp : place (localOf a) = .hub false (launchPortBase + 32 * i.key + 8 * k)) : s.unit8 i a = .port (8 * k) := by
  have hkey : i.key < 4194304 := by
    rw [SlotId.key]
    omega
  have hin : launchPortBase ≤ launchPortBase + 32 * i.key + 8 * k ∧ launchPortBase + 32 * i.key + 8 * k < launchPortEnd := by
    simp only [launchPortBase, launchPortEnd]
    omega
  have hmod : (launchPortBase + 32 * i.key + 8 * k) % 32 = 8 * k := by
    simp only [launchPortBase]
    omega
  rw [State.unit8, if_neg (not_not_intro hn), hp]
  simp only [Bool.not_false, Bool.true_and, decide_eq_true hin, if_true]
  rw [if_pos (by omega), hmod]

/-- A return doorbell on the hub of its expert's home engine. -/
theorem State.unit8_doorbell {e : Nat} (he : e < 4096)
    (hp : place (localOf a) = .hub (decide (16 ≤ expEngine (s.expert e))) (doorbellBase + 8 * e)) : s.unit8 i a = .doorbell e := by
  have hin : doorbellBase ≤ doorbellBase + 8 * e ∧ doorbellBase + 8 * e < doorbellEnd := by
    simp only [doorbellBase, doorbellEnd]
    omega
  have hport : ¬ (launchPortBase ≤ doorbellBase + 8 * e ∧ doorbellBase + 8 * e < launchPortEnd) := by
    simp only [launchPortBase, doorbellBase]
    omega
  have hdiv : (doorbellBase + 8 * e - doorbellBase) / 8 = e := by omega
  rw [State.unit8, if_neg (not_not_intro hn), hp]
  simp only [decide_eq_false hport, Bool.and_false, Bool.false_eq_true, if_false, if_pos hin, hdiv, if_true]

end

/-- The state with other launch ports. -/
def State.setPorts (s : State) (m : SMap (BitVec 192)) : State := { s with swarm := { s.swarm with ports := m } }

theorem State.slot_setPorts (s : State) (m : SMap (BitVec 192)) (i : SlotId) : (s.setPorts m).slot i = s.slot i := rfl

theorem State.setPorts_setSlot {s t : State} (h : t = { s with swarm := { s.swarm with slots := t.swarm.slots } })
    (m : SMap (BitVec 192)) (i : SlotId) (u : Slot) : (t.setPorts m).setSlot i u
      = { s with swarm := { s.swarm with ports := m, slots := ((t.setPorts m).setSlot i u).swarm.slots } } := by
  rw [h]
  rfl

/-- A store to one of the first three doublewords of a launch port keeps its bytes there (R75). -/
theorem State.portStore_keeps (s : State) (i : SlotId) {k : Nat} (hk : k < 3) (v : Nat) : s.portStore i (8 * k) v = s.setPorts
    (SMap.put 0 s.swarm.ports i.key (BitVec.ofNat 192 (setField (SMap.get 0 s.swarm.ports i.key).toNat (64 * k) 64 v))) := by
  rw [State.portStore, if_neg (by omega), show 8 * (8 * k) = 64 * k by omega]
  rfl

/-- A doubleword of a launch port that is stored holds the value, and every other bit of the port stays. -/
theorem portWord_stored (d : BitVec 192) {k : Nat} (hk : k < 3) (v : Nat) :
    fieldOf (64 * k + 63) (64 * k) (BitVec.ofNat 192 (setField d.toNat (64 * k) 64 v)).toNat = v % 2 ^ 64
      ∧ ∀ m, m < 192 → m < 64 * k ∨ 64 * k + 63 < m →
        (BitVec.ofNat 192 (setField d.toNat (64 * k) 64 v)).getLsbD m = d.getLsbD m := by
  have hnat : (BitVec.ofNat 192 (setField d.toNat (64 * k) 64 v)).toNat = setField d.toNat (64 * k) 64 v := by
    rw [BitVec.toNat_ofNat, Nat.mod_eq_of_lt (setField_lt d.isLt (by omega))]
  refine ⟨?_, fun m hm hout => ?_⟩
  · rw [hnat]
    exact fieldOf_setField _ _ _ (by decide)
  · rw [BitVec.getLsbD, hnat, testBit_setField, if_neg (by omega), BitVec.getLsbD]

@[simp] theorem begun_ports (s : State) (i : SlotId) (w : Nat) (b : Bool) : (begun s i w b).swarm.ports = s.swarm.ports := by
  rw [begun_fields]
@[simp] theorem begun_running (s : State) (i : SlotId) (w : Nat) (b : Bool) : (begun s i w b).running = s.running := by
  rw [begun_fields]
  rfl
@[simp] theorem begun_expert (s : State) (i : SlotId) (w : Nat) (b : Bool) (e : Nat) : (begun s i w b).expert e = s.expert e := by
  rw [begun_fields]
  rfl

@[simp] theorem begun_desc (s : State) (i : SlotId) (w : Nat) (b : Bool) (n : Nat) :
    ((begun s i w b).slot i).desc n = (s.slot i).desc n := by
  rw [State.begun_slot]
  rfl

/-- A slot that issues is occupied, on a module that runs. -/
theorem issues_running {s : State} {i : SlotId} {w : Nat} {b : Bool} (h : Issues s i w b) : s.running = true ∧ s.occupied i = true := by
  obtain ⟨hcan, -⟩ := h
  simp only [State.canIssue, Bool.and_eq_true] at hcan
  refine ⟨hcan.1.1.1.1, ?_⟩
  rw [State.occupied, decide_eq_true_eq]
  intro he
  rw [he] at hcan
  exact absurd hcan.2 Bool.false_ne_true

end Sys2Proof.Machine
end

section
/-! PROOF. O22: LDR, STR and DLOAD. -/

namespace Sys2Proof.Proofs

open Sys2Proof Sys2Proof.Machine Sys2Proof.Safety

section
variable (s : State) (i : SlotId)

theorem exec_ldr : exec (.ldr i) s = .next (runCommand s i (fun w => cmdOp w == 0x24) ldrBody) := rfl
theorem exec_str : exec (.str i) s = .next (runCommand s i (fun w => cmdOp w == 0x25) strBody) := rfl
theorem exec_dload : exec (.dload i) s = .next (runCommand s i (fun w => cmdOp w == 0x29) dloadBody) := rfl

end

section
variable {s : State} {i : SlotId} {w : Nat} {b : Bool} {a : Nat}

/-- A store at the last doubleword of its own launch port posts what `launchPortPost` posts. -/
theorem begun_post (h : Issues s i w b) (hc : i.cell < 1048576) (ht : i.thread < 4) {v : Nat} :
    (begun s i w b).launchPortPost i (BitVec.ofNat 64 v) = (begun s i w b).portStore i (8 * 3) v := by
  obtain ⟨hr, ho⟩ := issues_running h
  have hall : ((begun s i w b).running && decide (i.cell < 1048576) && decide (i.thread < 4) && (begun s i w b).occupied i) = true := by
    rw [begun_running, begun_occupied ht ht, hr, ho, decide_eq_true hc, decide_eq_true ht]
    rfl
  rw [State.launchPortPost, if_pos hall, State.portStore, State.portStore, if_pos rfl, if_pos rfl, BitVec.toNat_ofNat, Nat.mod_mod]

/-- A store at a return doorbell rings it. -/
theorem begun_ring (h : Issues s i w b) {e : Nat} (he : e < 4096) {v : Nat} :
    (begun s i w b).returnDoorbellStore e (BitVec.ofNat 64 v) = (begun s i w b).ringDoorbell e v := by
  have hall : ((begun s i w b).running && decide (e < 4096)) = true := by
    rw [begun_running, (issues_running h).1, decide_eq_true he]
    rfl
  rw [State.returnDoorbellStore, if_pos hall, State.ringDoorbell, State.ringDoorbell, BitVec.toNat_ofNat,
    Nat.mod_mod_of_dvd _ (by decide)]

theorem begun_address {n : Nat} (ha : ofInt 64 (((s.slot i).pair (cmdA w).num : Nat) + toSigned 32 (cmdMods w)) = a) (hn : a % n = 0) :
    Cmd.address (issueOf s i w b) n (begun s i w b) = .ok (a, begun s i w b) :=
  Cmd.address_ok (x := issueOf s i w b) (by rw [issueOf_id, issueOf_word, begun_pair, ha]) hn

/-- LDR whose bytes are read puts them into its register. -/
theorem ldr_done {bs : List Byte} {s2 : State} (h : Issues s i w b) (ho : cmdOp w = 0x24)
    (ha : ofInt 64 (((s.slot i).pair (cmdA w).num : Nat) + toSigned 32 (cmdMods w)) = a) (hn : a % wordBytes (cmdD w) = 0)
    (hr : Cmd.readGlobal (issueOf s i w b) [((a : Int), wordBytes (cmdD w))] 5 (begun s i w b) = .ok (bs, s2))
    (hp : (((s2.slot i).put (cmdD w) (leNat bs)).retire (s.slot i).ptr .next).ptr < 2048) :
    exec (.ldr i) s = .next (s2.setSlot i (((s2.slot i).put (cmdD w) (leNat bs)).retire (s.slot i).ptr .next)) := by
  have hb := ldrBody_done (x := issueOf s i w b) (begun_address ha hn) hr
  rw [issueOf_id, issueOf_word] at hb
  have hd := runCommand_ends (row := fun w => cmdOp w == 0x24) h (by simp [ho]) hb (by rw [State.slot_setSlot]; exact hp)
  have hslot : s2.slot i = (begun s i w b).slot i := slot_of_sansMarks (Cmd.readGlobal_keeps _ _ _ _ _ _ hr) i
  rw [State.slot_setSlot, State.setSlot_setSlot _ _ (by rw [hslot]; exact begun_put_ne_empty _ _ _ _ _ _)
    (Slot.retire_ne_empty _ _ _)] at hd
  exact (exec_ldr s i).trans (congrArg _ hd)

/-- An STR whose unit or memory leaves `s2` retires there. -/
theorem str_done {s2 : State} (h : Issues s i w b) (ho : cmdOp w = 0x25)
    (hb : strBody (issueOf s i w b) (begun s i w b) = .ok (.next, s2)) (hp : ((s2.slot i).retire (s.slot i).ptr .next).ptr < 2048) :
    exec (.str i) s = .next (done s2 i (s.slot i).ptr) :=
  (exec_str s i).trans (congrArg _ (runCommand_done (row := fun w => cmdOp w == 0x25) h (by simp [ho]) hb hp))

/-- DLOAD whose bytes are read loads its descriptor registers. -/
theorem dload_done {n : Nat} {bs : List Byte} (h : Issues s i w b) (ho : cmdOp w = 0x29) (hp : nextPtr (s.slot i) < 2048)
    (h32 : (s.slot i).pair (cmdA w).num % 32 = 0) (hd : cmdD w = .d n)
    (hr : Cmd.readGlobal (issueOf s i w b) [(((s.slot i).pair (cmdA w).num : Int), 32 * cmdMods w)] 5 (begun s i w b)
      = .ok (bs, begun s i w b)) :
    ∃ t, exec (.dload i) s = .next t ∧ OnlySlot i s t
      ∧ t.slot i = (((begun s i w b).slot i).loadDescs n (cmdMods w) bs).retire (s.slot i).ptr .next := by
  have hf : formOf (cmdOp w) (cmdMods w) = some { a := [.pair], d := [.d], mask := bitsMask 5 0 } := by rw [ho]; rfl
  have hm : cmdMods w < 64 := Nat.lt_succ_of_le (issues_mods_le h hf)
  have hb := dloadBody_done (x := issueOf s i w b) (s := begun s i w b) (n := cmdMods w) rfl
    (by rw [issueOf_id, issueOf_word, begun_pair, h32]) (Nat.mod_eq_of_lt hm)
    (by rw [issueOf_id, issueOf_word, begun_pair]; exact hr)
  rw [issueOf_id, issueOf_word, hd] at hb
  obtain ⟨t, ht, honly, hslot⟩ := runCommand_setSlot (row := fun w => cmdOp w == 0x29) h (by simp [ho]) hb
    (Slot.retire_lt_of_loops hp (by rw [Slot.loadDescs_keeps, State.begun_slot]) (by rw [Slot.loadDescs_keeps, State.begun_slot]))
  exact ⟨t, (exec_dload s i).trans (congrArg _ ht), honly, hslot⟩

/-- The retired slot of a DLOAD differs in its descriptors alone. -/
theorem loaded_retire (n m : Nat) (bs : List Byte) (p : Nat) :
    (((begun s i w b).slot i).loadDescs n m bs).retire p .next
      = ({ s.slot i with descs := ((((begun s i w b).slot i).loadDescs n m bs).retire p .next).descs } : Slot).retire p .next := by
  have hdescs : ((((begun s i w b).slot i).loadDescs n m bs).retire p .next).descs
      = (((begun s i w b).slot i).loadDescs n m bs).descs := by rw [Slot.retire_keeps]
  rw [hdescs]
  conv => lhs; rw [Slot.loadDescs_keeps]
  rw [State.begun_slot]
  rfl

/-- What STR leaves where its doubleword is kept in its launch port. -/
theorem str_ported {k : Nat} (h : Issues s i w b) (ho : cmdOp w = 0x25) (hk : k < 3) (hp : nextPtr (s.slot i) < 2048)
    (hb : strBody (issueOf s i w b) (begun s i w b) = .ok (.next, (begun s i w b).portStore i (8 * k) ((s.slot i).value (cmdB w)))) :
    ∃ t, exec (.str i) s = .next t ∧ t.slot i = (s.slot i).retire (s.slot i).ptr .next
      ∧ t = { s with swarm := { s.swarm with ports := t.swarm.ports, slots := t.swarm.slots } }
      ∧ t.swarm.ports = SMap.put 0 s.swarm.ports i.key
        (BitVec.ofNat 192 (setField (SMap.get 0 s.swarm.ports i.key).toNat (64 * k) 64 ((s.slot i).value (cmdB w))))
      ∧ ∀ j : SlotId, j.thread < 4 → j ≠ i → t.slot j = seenIssue i j (s.slot j) := by
  have hi := issues_thread_lt h
  rw [State.portStore_keeps _ _ hk, begun_ports] at hb
  have hret (m : SMap (BitVec 192)) : (((begun s i w b).setPorts m).slot i).retire (s.slot i).ptr .next
      = (s.slot i).retire (s.slot i).ptr .next := by rw [State.slot_setPorts, begun_retire]
  have hd := str_done h ho hb (by rw [hret]; exact hp)
  rw [done, hret, State.setPorts_setSlot (begun_fields s i w b)] at hd
  refine ⟨_, hd, ?_, rfl, rfl, fun j hj hne => ?_⟩
  · rw [← State.setPorts_setSlot (begun_fields s i w b)]
    exact State.slot_setSlot _ _ _
  · rw [← State.setPorts_setSlot (begun_fields s i w b), State.slot_setSlot_other _ _ (SlotId.key_ne hi hj hne), State.slot_setPorts,
      begun_other hi hj hne]

end

/-- Settles O22: each access passes its alignment and is done by its unit or by memory. -/
theorem wordAccesses : Obligations.WordAccesses := by
  unfold Obligations.WordAccesses
  intro s i w b h u x s1 a
  have hi := issues_thread_lt h
  have haddr {n : Nat} (hn : a % n = 0) : Cmd.address x n s1 = .ok (a, s1) := begun_address rfl hn
  refine ⟨fun ho hn hp bs => ⟨fun hr => ?load, fun s2 hr hp2 => ?loadAt⟩, fun ho hn hu hl s2 hw hp => ?store,
    fun ho h8 hn hnode hc ht hp => ⟨fun k hk hplace => ?port, fun hplace s2 he hp2 => ?post, fun e he4 hplace s2 he hp2 => ?doorbell⟩,
    fun ho h32 hp n bs hd hr _ => ?dload⟩
  case load =>
    have hb := ldrBody_done (x := x) (haddr hn) (Cmd.of_reads hr)
    rw [issueOf_id, issueOf_word, State.begun_slot] at hb
    obtain ⟨t, ht, honly, hslot⟩ := runCommand_setSlot (row := fun w => cmdOp w == 0x24) h (by simp [ho]) hb
      (by rw [Slot.put_retire_cur, Slot.nextPtr_put]; exact hp)
    exact ⟨t, (exec_ldr s i).trans (congrArg _ ht), honly, hslot.trans (Slot.put_retire_cur _ _ _ _ _ _ _)⟩
  case loadAt => exact ldr_done h ho rfl hn (Cmd.of_gives hr) hp2
  case store =>
    exact str_done h ho (strBody_stores (x := x) (haddr hn) hu (Cmd.of_reads hl)
      (by rw [issueOf_id, issueOf_word, begun_value]; exact Cmd.of_writes hw)) hp
  case port =>
    have hb := strBody_port (x := x) (haddr (by rw [← h8] at hn; exact hn)) h8
      (State.unit8_port (i := i) (hnode.trans (begun_node s i w b).symm) hc ht (by omega) hplace)
    rw [issueOf_id, issueOf_word, begun_value] at hb
    obtain ⟨t, he, hslot, hfields, hports, hothers⟩ := str_ported h ho hk hp hb
    obtain ⟨hword, hbits⟩ := portWord_stored (SMap.get 0 s.swarm.ports i.key) hk (u.value (cmdB w))
    refine ⟨t, he, hslot, hfields, ?_, fun m hm hout => ?_, fun m hm => ?_, hothers⟩
    · rw [hports, SMap.get_put_same]
      exact hword
    · rw [hports, SMap.get_put_same]
      exact hbits m hm hout
    · rw [hports, SMap.get_put_other _ _ _ hm]
  case post =>
    have hb := strBody_port (x := x) (off := 8 * 3) (haddr (by rw [← h8] at hn; exact hn)) h8
      (State.unit8_port (i := i) (hnode.trans (begun_node s i w b).symm) hc ht (by decide) hplace)
    rw [issueOf_id, issueOf_word, begun_value] at hb
    have hpost : s1.portStore i (8 * 3) (u.value (cmdB w)) = s2 := by
      rw [← begun_post h hc ht]
      exact Host.Outcome.next.inj he
    rw [hpost] at hb
    exact str_done h ho hb hp2
  case doorbell =>
    have hb := strBody_doorbell (x := x) (haddr (by rw [← h8] at hn; exact hn)) h8
      (State.unit8_doorbell (i := i) (hnode.trans (begun_node s i w b).symm) he4 (by rw [begun_expert]; exact hplace))
    rw [issueOf_id, issueOf_word, begun_value] at hb
    have hring : s1.ringDoorbell e (u.value (cmdB w)) = s2 := by
      rw [← begun_ring h he4]
      exact Host.Outcome.next.inj he
    rw [hring] at hb
    exact str_done h ho hb hp2
  case dload =>
    have hf : formOf (cmdOp w) (cmdMods w) = some { a := [.pair], d := [.d], mask := bitsMask 5 0 } := by rw [ho]; rfl
    have hok : 1 ≤ cmdMods w ∧ (cmdD w).num + cmdMods w ≤ 32 := by simpa [modsOk, ho] using issues_modsOk h hf
    have hn : n + cmdMods w ≤ 32 := by
      rw [hd] at hok
      exact hok.2
    obtain ⟨t, he, honly, hslot⟩ := dload_done h ho hp h32 hd (Cmd.of_reads hr)
    refine ⟨t, he, honly, fun k hk => ?_, fun m hm => ?_, ?_⟩
    · rw [hslot, Slot.retire_desc, Slot.loadDescs_desc _ _ _ _ hn, if_pos (by omega), Nat.add_sub_cancel_left]
    · rw [hslot, Slot.retire_desc, Slot.loadDescs_desc _ _ _ _ hn, if_neg (by omega), begun_desc]
    · rw [hslot]
      exact loaded_retire _ _ _ _

end Sys2Proof.Proofs
end

section
/-! SUPPORT. LOAD, STORE, COPY, GATHER and SCATTER (R99, R109): the bodies from the checks they pass to their end, and which bytes of a
read run belong to which row. -/

namespace Sys2Proof.Machine

open Sys2Proof Sys2Proof.Safety

/-! ## Runs of rows -/

theorem slice_drop (bs : List Byte) (n off len : Nat) : slice (bs.drop n) off len = slice bs (n + off) len := by
  simp only [slice, List.drop_drop]

/-- Row `j` of the spread rows: its own bytes where its index is in range, and zeros elsewhere (R109). -/
theorem getD_spreadRows (len rows : Nat) (is : List Nat) (bs : List Byte) {j : Nat} (hj : j < is.length) :
    (spreadRows len rows is bs).getD j [] = if is.getD j 0 < rows
      then slice bs (((is.take j).filter fun e => decide (e < rows)).length * len) len else List.replicate len 0 := by
  induction is generalizing bs j with
  | nil => cases hj
  | cons k is ih =>
    rw [spreadRows]
    cases j with
    | zero =>
      rw [List.getD_cons_zero, List.take_zero, List.filter_nil, List.length_nil, Nat.zero_mul]
      split <;> rfl
    | succ j =>
      have hj' : j < is.length := Nat.lt_of_succ_lt_succ hj
      by_cases hk : k < rows
      · rw [if_pos hk, List.getD_cons_succ, ih _ hj', List.getD_cons_succ, List.take_succ_cons,
          List.filter_cons_of_pos (by simpa using hk),
          List.length_cons, slice_drop, Nat.succ_mul, Nat.add_comm len]
      · rw [if_neg hk, List.getD_cons_succ, ih _ hj', List.getD_cons_succ, List.take_succ_cons,
          List.filter_cons_of_neg (by simpa using hk)]

/-- The writes of a SCATTER: row `j` of the source to row `idx[j]` of the table, for the indices in range (R109). -/
theorem scatterWrites_eq (d : Desc) (len : Nat) (is : List Nat) (bs : List Byte) : scatterWrites d len is bs =
    (List.range is.length).filterMap fun j =>
      if is.getD j 0 < d.rows then some (d.rowAt 0 (is.getD j 0), slice bs (j * len) len) else none := by
  induction is generalizing bs with
  | nil => rfl
  | cons k is ih =>
    rw [scatterWrites, ih, List.length_cons, List.range_succ_eq_map, List.filterMap_cons, List.filterMap_map]
    have htail : (fun j => if is.getD j 0 < d.rows then some (d.rowAt 0 (is.getD j 0), slice (bs.drop len) (j * len) len) else none)
        = (fun j => if (k :: is).getD j 0 < d.rows then some (d.rowAt 0 ((k :: is).getD j 0), slice bs (j * len) len) else none)
          ∘ Nat.succ := by
      funext j
      simp only [Function.comp, List.getD_cons_succ, slice_drop, Nat.succ_mul, Nat.add_comm len]
    rw [htail]
    by_cases hk : k < d.rows
    · simp only [List.getD_cons_zero, if_pos hk, Nat.zero_mul, List.singleton_append]
    · simp only [List.getD_cons_zero, if_neg hk, List.nil_append]

/-! ## The bodies -/

section
variable {x : Issue} {s : State} {a d : Desc} (ha : (s.slot x.id).tile (cmdA x.word) = a) (hd : (s.slot x.id).tile (cmdD x.word) = d)
include ha hd

/-- LOAD, STORE and COPY read the source's ranges and write them over the destination's. -/
theorem copyBody_done {bs : List Byte} {r1 s2 : State} {sg dg : Bool} (hra : a.reason [0, 1, 2, 3] true = none)
    (hrd : d.reason [0, 1, 2, 3] true = none) (hag : a.agrees d = true) (hsg : a.global = sg) (hdg : d.global = dg)
    (hh : (s.slot x.id).touchesHeld [a, d] = false) (hl : Cmd.holdLines x d.dest s = .ok ((), s))
    (hr : Cmd.read x a.global a.ranges 5 s = .ok (bs, r1))
    (hw : Cmd.write x d.global (cutBytes d.ranges bs) 5 d.tensor r1 = .ok ((), s2)) : copyBody sg dg x s = .ok (.next, s2) := by
  unfold copyBody
  rw [Cmd.slot_bind]
  simp only [ha, hd]
  rw [Cmd.check_bind (by rw [hra, hrd]; rfl), Cmd.require_bind (by rw [hsg, hdg, hag, beq_self_eq_true, beq_self_eq_true]; rfl),
    Cmd.commitOk_bind hh, Cmd.bind_ok hl, Cmd.bind_ok (Cmd.into_ok ((Cmd.bind_ok (Cmd.onData_ok hr)).trans hw))]
  rfl

section
variable {ix : Desc} {is : List Nat} {bs : List Byte} {r1 r2 s2 : State} (hx : (s.slot x.id).tile (cmdB x.word) = ix)
  (hh : (s.slot x.id).touchesHeld [a, ix, d] = false) (hi : Cmd.indices x ix s = .ok (is, r1))
include hx hh hi

/-- GATHER reads the rows whose indices are in range, and writes them with zero rows for the others. -/
theorem gatherBody_done (hr : indexedReason a ix d a d = none) (hl : Cmd.holdLines x d.dest s = .ok ((), s))
    (hb : Cmd.read x a.global ((is.filter fun k => decide (k < a.rows)).map fun k => (a.rowAt 0 k, a.rowBytes)) 5 r1 = .ok (bs, r2))
    (hw : Cmd.write x d.global ((List.range is.length).map fun j => (d.rowAt 0 j, (spreadRows a.rowBytes a.rows is bs).getD j [])) 5
      d.tensor r2 = .ok ((), s2)) :
    gatherBody x s = .ok (.next, s2.bumpBy 0x206001 (is.filter fun k => decide (a.rows ≤ k)).length) := by
  unfold gatherBody
  rw [Cmd.slot_bind]
  simp only [ha, hd, hx]
  rw [Cmd.check_bind hr, Cmd.commitOk_bind hh, Cmd.bind_ok hl, Cmd.bind_ok (Cmd.into_ok ((Cmd.bind_ok hi).trans
    ((Cmd.bind_ok (Cmd.onData_ok hb)).trans ((Cmd.bind_ok hw).trans rfl))))]
  rfl

/-- SCATTER reads its rows, and writes those whose indices are in range. -/
theorem scatterBody_done (hr : indexedReason a ix d d a = none)
    (hl : Cmd.holdLines x ⟨d.global, (is.filter fun k => decide (k < d.rows)).map fun k => (d.rowAt 0 k, d.rowBytes)⟩ r1 = .ok ((), r1))
    (hb : Cmd.read x a.global ((List.range a.rows).map fun j => (a.rowAt 0 j, a.rowBytes)) 5 r1 = .ok (bs, r2))
    (hw : Cmd.write x d.global (scatterWrites d a.rowBytes is bs) 5 d.tensor r2 = .ok ((), s2)) :
    scatterBody x s = .ok (.next, s2.bumpBy 0x206001 (is.filter fun k => decide (d.rows ≤ k)).length) := by
  unfold scatterBody
  rw [Cmd.slot_bind]
  simp only [ha, hd, hx]
  rw [Cmd.check_bind hr, Cmd.commitOk_bind hh, Cmd.bind_ok hi, Cmd.bind_ok hl, Cmd.bind_ok (Cmd.into_ok
    ((Cmd.bind_ok (Cmd.onData_ok hb)).trans ((Cmd.bind_ok hw).trans rfl)))]
  rfl

end

end

end Sys2Proof.Machine
end

section
/-! PROOF. O24, O25: copies of tiles and of indexed rows. -/

namespace Sys2Proof.Proofs

open Sys2Proof Sys2Proof.Machine Sys2Proof.Safety

section
variable (s : State) (i : SlotId)

theorem exec_load : exec (.load i) s = .next (runCommand s i (fun w => cmdOp w == 0x20) (copyBody true false)) := rfl
theorem exec_store : exec (.store i) s = .next (runCommand s i (fun w => cmdOp w == 0x21) (copyBody false true)) := rfl
theorem exec_copy : exec (.copy i) s = .next (runCommand s i (fun w => cmdOp w == 0x2A) (copyBody true true)) := rfl
theorem exec_gather : exec (.gather i) s = .next (runCommand s i (fun w => cmdOp w == 0x22) gatherBody) := rfl
theorem exec_scatter : exec (.scatter i) s = .next (runCommand s i (fun w => cmdOp w == 0x23) scatterBody) := rfl

end

/-- Settles O24: one body serves the three rows (`copyBody_done`). -/
theorem tileCopies : Obligations.TileCopies := by
  unfold Obligations.TileCopies
  intro s i w b h u x s1 a d hra hrd hag hh hl bs r1 s2 hr hw hp
  have hb {sg dg : Bool} (hsg : a.global = sg) (hdg : d.global = dg) : copyBody sg dg x s1 = .ok (.next, s2) :=
    copyBody_done (x := x) (begun_tile s i w b _) (begun_tile s i w b _) hra hrd hag hsg hdg ((begun_touchesHeld s i w b _).trans hh)
      (Cmd.of_reads hl) (Cmd.of_gives hr) (Cmd.of_writes hw)
  refine ⟨fun ho hsg hdg => ?_, fun ho hsg hdg => ?_, fun ho hsg hdg => ?_⟩
  · exact (exec_load s i).trans (congrArg _ (runCommand_done h (by simp [ho]) (hb hsg hdg) hp))
  · exact (exec_store s i).trans (congrArg _ (runCommand_done h (by simp [ho]) (hb hsg hdg) hp))
  · exact (exec_copy s i).trans (congrArg _ (runCommand_done h (by simp [ho]) (hb hsg hdg) hp))

/-- Settles O25: the rows that GATHER writes are those of `getD_spreadRows`, and SCATTER's writes those of `scatterWrites_eq`. -/
theorem indexedCopies : Obligations.IndexedCopies := by
  unfold Obligations.IndexedCopies
  intro s i w b h u x s1 a ix d hh is r1 hi
  have hheld : (s1.slot x.id).touchesHeld [a, ix, d] = false := (begun_touchesHeld s i w b _).trans hh
  refine ⟨fun ho hr hl bs r2 s2 hb hw => ?gather, fun ho hr hl _ bs r2 s2 hb hw => ?scatter⟩
  case gather =>
    intro s3 hp
    have hrows : ((List.range is.length).map fun j => (d.rowAt 0 j, (spreadRows a.rowBytes a.rows is bs).getD j []))
        = (List.range is.length).map fun j => (d.rowAt 0 j,
          let k := is.getD j 0
          if k < a.rows then slice bs (((is.take j).filter fun e => decide (e < a.rows)).length * a.rowBytes) a.rowBytes
          else List.replicate a.rowBytes 0) :=
      List.map_congr_left fun j hj => by rw [getD_spreadRows _ _ _ _ (List.mem_range.mp hj)]
    have hbody := gatherBody_done (x := x) (a := a) (d := d) (begun_tile s i w b _) (begun_tile s i w b _) (begun_tile s i w b _)
      hheld (Cmd.of_gives hi) hr
      (Cmd.of_reads hl) (Cmd.of_gives hb) (by rw [hrows]; exact Cmd.of_writes hw)
    exact (exec_gather s i).trans (congrArg _ (runCommand_done h (by simp [ho]) hbody hp))
  case scatter =>
    intro s3 hp
    have hbody := scatterBody_done (x := x) (a := a) (d := d) (begun_tile s i w b _) (begun_tile s i w b _) (begun_tile s i w b _)
      hheld (Cmd.of_gives hi) hr
      (Cmd.of_reads hl) (Cmd.of_gives hb) (by rw [scatterWrites_eq]; exact Cmd.of_writes hw)
    exact (exec_scatter s i).trans (congrArg _ (runCommand_done h (by simp [ho]) hbody hp))

end Sys2Proof.Proofs
end

section
/-! SUPPORT. Lanes (R101): the lanes of a joined value, the lane functions of VOP, and the commands whose work is one write of a vector
register. -/

namespace Sys2Proof.Machine

open Sys2Proof Sys2Proof.Safety

/-! ## Lanes of a value -/

/-- Lane `k` of a value, `w` bits wide. -/
def vecLane (w k v : Nat) : Nat := v / 2 ^ (w * k) % 2 ^ w

theorem vecLane_lt (w k v : Nat) : vecLane w k v < 2 ^ w := Nat.mod_lt _ (Nat.two_pow_pos w)

theorem lanesOf_eq (w v : Nat) : lanesOf w v = (List.range (64 / w)).map fun k => vecLane w k v := rfl

theorem zipWith_lanesOf {α : Type} (f : Nat → Nat → α) (w x y : Nat) :
    List.zipWith f (lanesOf w x) (lanesOf w y) = (List.range (64 / w)).map fun k => f (vecLane w k x) (vecLane w k y) := by
  rw [lanesOf_eq, lanesOf_eq, List.zipWith_map, List.zipWith_self]

theorem getD_lanesOf {w k : Nat} (v : Nat) (hk : k < 64 / w) : (lanesOf w v).getD k 0 = vecLane w k v := by
  rw [lanesOf_eq, List.getD_eq_getElem _ _ (by simpa using hk), List.getElem_map, List.getElem_range]

theorem joinLanes_cons (w l : Nat) (ls : List Nat) : joinLanes w (l :: ls) = 2 ^ w * joinLanes w ls + l % 2 ^ w := by
  rw [joinLanes, List.foldr_cons, Nat.mul_comm]
  rfl

theorem joinLanes_lt (w : Nat) (ls : List Nat) : joinLanes w ls < 2 ^ (w * ls.length) := by
  induction ls with
  | nil => exact Nat.one_pos
  | cons l ls ih =>
    rw [joinLanes_cons, List.length_cons, Nat.mul_succ, Nat.pow_add]
    exact Nat.mul_add_lt_mul_of_lt_of_lt ih (Nat.mod_lt _ (Nat.two_pow_pos w))

/-- A lane of joined lanes is the lane that was joined, cut to its width. -/
theorem vecLane_joinLanes (w : Nat) (ls : List Nat) {k : Nat} (hk : k < ls.length) :
    vecLane w k (joinLanes w ls) = ls.getD k 0 % 2 ^ w := by
  induction ls generalizing k with
  | nil => cases hk
  | cons l ls ih =>
    rw [joinLanes_cons]
    cases k with
    | zero => rw [vecLane, Nat.mul_zero, Nat.pow_zero, Nat.div_one, Nat.mul_add_mod, Nat.mod_mod, List.getD_cons_zero]
    | succ k =>
      rw [vecLane, Nat.mul_succ, Nat.add_comm (w * k), Nat.pow_add, ← Nat.div_div_eq_div_mul, Nat.mul_add_div (Nat.two_pow_pos w),
        Nat.div_eq_of_lt (Nat.mod_lt _ (Nat.two_pow_pos w)), Nat.add_zero, List.getD_cons_succ]
      exact ih (Nat.lt_of_succ_lt_succ hk)

/-- The lanes of values that a function gives for each lane. -/
theorem vecLane_joinLanes_range (w : Nat) {n k : Nat} (f : Nat → Nat) (hk : k < n) :
    vecLane w k (joinLanes w ((List.range n).map f)) = f k % 2 ^ w := by
  rw [vecLane_joinLanes _ _ (by simpa using hk), List.getD_eq_getElem _ _ (by simpa using hk), List.getElem_map, List.getElem_range]

theorem joinLanes_range_lt (w n : Nat) (f : Nat → Nat) : joinLanes w ((List.range n).map f) < 2 ^ (w * n) := by
  have h := joinLanes_lt w ((List.range n).map f)
  rwa [List.length_map, List.length_range] at h

/-- The joined lanes of a vector register fit it. -/
theorem joinLanes_mod {w n : Nat} (f : Nat → Nat) (h : w * n ≤ 64) :
    (BitVec.ofNat 64 (joinLanes w ((List.range n).map f))).toNat = joinLanes w ((List.range n).map f) := by
  rw [BitVec.toNat_ofNat, Nat.mod_eq_of_lt (lt_of_lt_of_le (joinLanes_range_lt w n f) (Nat.pow_le_pow_right (by decide) h))]

/-! ## The lane functions of VOP -/

section
variable {e x y : Nat} (hx : x < 2 ^ e) (hy : y < 2 ^ e)
include hx hy

theorem laneLe_eq (signed : Bool) : (if signed then decide (toSigned e x ≤ toSigned e y) else decide (x ≤ y))
    = if signed then (BitVec.ofNat e x).sle (BitVec.ofNat e y) else (BitVec.ofNat e x).ule (BitVec.ofNat e y) := by
  simp only [toSigned_eq_toInt, BitVec.sle, BitVec.ule, BitVec.toNat_ofNat, Nat.mod_eq_of_lt hx, Nat.mod_eq_of_lt hy]

theorem vopLane_eq (signed : Bool) {op : Nat} (hop : op < 8) : vopLane op e signed x y % 2 ^ e =
    (let p : BitVec e := BitVec.ofNat e x
     let q : BitVec e := BitVec.ofNat e y
     let le : Bool := if signed then p.sle q else p.ule q
     (if op = 0 then p + q else if op = 1 then p - q else if op = 2 then (if le then p else q) else if op = 3 then (if le then q else p)
      else if op = 4 then p &&& q else if op = 5 then p ||| q else if op = 6 then p ^^^ q else p &&& ~~~q).toNat) := by
  have hp : (BitVec.ofNat e x).toNat = x := by rw [BitVec.toNat_ofNat, Nat.mod_eq_of_lt hx]
  have hq : (BitVec.ofNat e y).toNat = y := by rw [BitVec.toNat_ofNat, Nat.mod_eq_of_lt hy]
  have hfit (v : BitVec e) {n : Nat} (h : n = v.toNat) : n % 2 ^ e = v.toNat := by rw [h, Nat.mod_eq_of_lt v.isLt]
  have hle := laneLe_eq hx hy signed
  match op, hop with
  | 0, _ =>
    refine (Nat.mod_mod _ _).trans ?_
    show _ = (BitVec.ofNat e x + BitVec.ofNat e y).toNat
    rw [BitVec.toNat_add, hp, hq]
  | 1, _ =>
    refine (Nat.mod_mod _ _).trans ?_
    show _ = (BitVec.ofNat e x - BitVec.ofNat e y).toNat
    rw [BitVec.toNat_sub, hp, hq]
    congr 1
    omega
  | 2, _ =>
    refine hfit (if (if signed then (BitVec.ofNat e x).sle (BitVec.ofNat e y) else (BitVec.ofNat e x).ule (BitVec.ofNat e y))
      then BitVec.ofNat e x else BitVec.ofNat e y) ?_
    rw [apply_ite BitVec.toNat, hp, hq, ← hle]
    rfl
  | 3, _ =>
    refine hfit (if (if signed then (BitVec.ofNat e x).sle (BitVec.ofNat e y) else (BitVec.ofNat e x).ule (BitVec.ofNat e y))
      then BitVec.ofNat e y else BitVec.ofNat e x) ?_
    rw [apply_ite BitVec.toNat, hp, hq, ← hle]
    rfl
  | 4, _ => exact hfit (BitVec.ofNat e x &&& BitVec.ofNat e y) (by rw [BitVec.toNat_and, hp, hq]; rfl)
  | 5, _ => exact hfit (BitVec.ofNat e x ||| BitVec.ofNat e y) (by rw [BitVec.toNat_or, hp, hq]; rfl)
  | 6, _ => exact hfit (BitVec.ofNat e x ^^^ BitVec.ofNat e y) (by rw [BitVec.toNat_xor, hp, hq]; rfl)
  | 7, _ => exact hfit (BitVec.ofNat e x &&& ~~~BitVec.ofNat e y) (by rw [BitVec.toNat_and, BitVec.toNat_not, hp, hq]; rfl)

end

/-! ## Commands that write one vector register -/

@[simp] theorem Slot.vreg_setP (t : Slot) (n : Nat) (v : Bool) (m : Nat) : (t.setP n v).vreg m = t.vreg m := by
  unfold Slot.setP
  split <;> rfl

/-- A vector register that is written is written with what it then holds. -/
theorem Slot.setV_toNat (t : Slot) (n v : Nat) : t.setV n (BitVec.ofNat 64 v).toNat = t.setV n v := by
  simp only [Slot.setV, BitVec.ofNat_toNat, BitVec.setWidth_eq]

/-- A command whose work is one write of a vector register. -/
theorem runSlot_vector {s : State} {i : SlotId} {w : Nat} {b : Bool} {op n : Nat} {f : Slot → Nat → Slot} {v : Nat}
    (h : Issues s i w b) (ho : cmdOp w = op) (hp : nextPtr (s.slot i) < 2048) (hd : cmdD w = .v n)
    (hf : ∀ c l, f { s.slot i with cur := c, latch := l } w = ({ s.slot i with cur := c, latch := l } : Slot).put (cmdD w) v) :
    ∃ t, runSlot s i op f = t ∧ (t.slot i).vreg n = BitVec.ofNat 64 v ∧ OnlySlot i s t
      ∧ t.slot i = ((s.slot i).setV n ((t.slot i).vreg n).toNat).retire (s.slot i).ptr .next := by
  obtain ⟨t, ht, hslot, honly⟩ := runSlot_put h ho hp hf
  rw [hd, Slot.put] at hslot
  have hv : (t.slot i).vreg n = BitVec.ofNat 64 v := by rw [hslot, Slot.retire_vreg, Slot.vreg_setV _ (opndOf_v hd)]
  exact ⟨t, ht, hv, honly, by rw [hv, Slot.setV_toNat, hslot]⟩

end Sys2Proof.Machine
end

section
/-! PROOF. O27: the lane commands. -/

namespace Sys2Proof.Proofs

open Sys2Proof Sys2Proof.Machine Sys2Proof.Safety

/-! ## The values written -/

/-- The lanes that VOP joins. -/
def vopValue (c x y : Nat) : Nat :=
  joinLanes (laneBits (fieldOf 4 3 (cmdMods c)))
    (List.zipWith (vopLane (cmdMods c % 8) (laneBits (fieldOf 4 3 (cmdMods c))) (bitOf (cmdMods c) 5))
      (lanesOf (laneBits (fieldOf 4 3 (cmdMods c))) x) (lanesOf (laneBits (fieldOf 4 3 (cmdMods c))) y))

/-- The lane width of VCMP. -/
def vcmpBits (c : Nat) : Nat := if cmdSel c = 0 then laneBits (fieldOf 7 6 (cmdMods c)) else selBits (cmdSel c)

/-- The lanes of VCMP that meet its mask. -/
def vcmpHits (c x y : Nat) : List Bool :=
  List.zipWith (fun x y => (vcmpFlag (cmdSel c) (bitOf (cmdMods c) 5) (vcmpBits c) x y).meets (fieldOf 4 2 (cmdMods c)))
    (lanesOf (vcmpBits c) x) (lanesOf (vcmpBits c) y)

/-- The mask that VCMP writes. -/
def vcmpValue (c x y : Nat) : Nat := joinLanes (vcmpBits c) ((vcmpHits c x y).map fun h => if h then 2 ^ vcmpBits c - 1 else 0)

/-- The bits that VSEL selects. -/
def vselValue (mask : W64) (x y : Nat) : Nat := (x &&& mask.toNat) ||| (y &&& (2 ^ 64 - 1 - mask.toNat))

/-- The bytes that VSHUF chooses. -/
def vshufValue (m x : Nat) : Nat := joinLanes 8 ((List.range 8).map fun j => (lanesOf 8 x).getD (fieldOf (3 * j + 2) (3 * j) m) 0)

/-- The lanes that VSFU joins. -/
def vsfuValue (f x : Nat) : Nat := joinLanes 16 ((lanesOf 16 x).map (sfuLane f))

/-! ## What each row does with its slot -/

def vopSlot (t : Slot) (c : Nat) : Slot := t.put (cmdD c) (vopValue c (t.value (cmdA c)) (t.value (cmdB c)))
def vcmpSlot (t : Slot) (c : Nat) : Slot :=
  (t.put (cmdD c) (vcmpValue c (t.value (cmdA c)) (t.value (cmdB c)))).setP (fieldOf 10 8 (cmdMods c))
    ((vcmpHits c (t.value (cmdA c)) (t.value (cmdB c))).any id)
def vselSlot (t : Slot) (c : Nat) : Slot :=
  t.put (cmdD c) (vselValue (t.vreg (cmdMods c % 8)) (t.value (cmdA c)) (t.value (cmdB c)))
def vshufSlot (t : Slot) (c : Nat) : Slot := t.put (cmdD c) (vshufValue (cmdMods c) (t.value (cmdA c)))
def vsfuSlot (t : Slot) (c : Nat) : Slot := t.put (cmdD c) (vsfuValue (cmdMods c % 4) (t.value (cmdA c)))

section
variable (s : State) (i : SlotId)

theorem exec_vop : exec (.vop i) s = .next (runSlot s i 0x40 vopSlot) := rfl
theorem exec_vcmp : exec (.vcmp i) s = .next (runSlot s i 0x41 vcmpSlot) := rfl
theorem exec_vsel : exec (.vsel i) s = .next (runSlot s i 0x42 vselSlot) := rfl
theorem exec_vshuf : exec (.vshuf i) s = .next (runSlot s i 0x43 vshufSlot) := rfl
theorem exec_vsfu : exec (.vsfu i) s = .next (runSlot s i 0x45 vsfuSlot) := rfl

end

theorem fieldOf_lt (hi lo v : Nat) : fieldOf hi lo v < 2 ^ (hi + 1 - lo) := Nat.mod_lt _ (Nat.two_pow_pos _)

theorem lanes_fit (e : Nat) : e * (64 / e) ≤ 64 := Nat.mul_div_le 64 e

theorem vecLane_vopValue (c x y : Nat) {e k : Nat} (he : laneBits (fieldOf 4 3 (cmdMods c)) = e) (hk : k < 64 / e) :
    vecLane e k (BitVec.ofNat 64 (vopValue c x y)).toNat
      = vopLane (cmdMods c % 8) e (bitOf (cmdMods c) 5) (vecLane e k x) (vecLane e k y) % 2 ^ e := by
  subst he
  rw [vopValue, zipWith_lanesOf, joinLanes_mod _ (lanes_fit _), vecLane_joinLanes_range _ _ hk]

theorem vcmpHits_eq (c x y : Nat) : vcmpHits c x y = (List.range (64 / vcmpBits c)).map fun k =>
    (vcmpFlag (cmdSel c) (bitOf (cmdMods c) 5) (vcmpBits c) (vecLane (vcmpBits c) k x) (vecLane (vcmpBits c) k y)).meets
      (fieldOf 4 2 (cmdMods c)) := zipWith_lanesOf _ _ _ _

/-- A lane of VCMP's mask is all ones or all zeros. -/
theorem vecLane_vcmpValue (c x y : Nat) {k : Nat} (hk : k < 64 / vcmpBits c) :
    vecLane (vcmpBits c) k (BitVec.ofNat 64 (vcmpValue c x y)).toNat
      = if (vcmpFlag (cmdSel c) (bitOf (cmdMods c) 5) (vcmpBits c) (vecLane (vcmpBits c) k x) (vecLane (vcmpBits c) k y)).meets
          (fieldOf 4 2 (cmdMods c)) then 2 ^ vcmpBits c - 1 else 0 := by
  have hpos : 0 < 2 ^ vcmpBits c := Nat.two_pow_pos _
  rw [vcmpValue, vcmpHits_eq, List.map_map, joinLanes_mod _ (lanes_fit _), vecLane_joinLanes_range _ _ hk, Function.comp]
  split
  · exact Nat.mod_eq_of_lt (Nat.sub_lt hpos Nat.one_pos)
  · rfl

theorem vcmpHits_any (c x y : Nat) : (vcmpHits c x y).any id = (List.range (64 / vcmpBits c)).any fun k =>
    (vcmpFlag (cmdSel c) (bitOf (cmdMods c) 5) (vcmpBits c) (vecLane (vcmpBits c) k x) (vecLane (vcmpBits c) k y)).meets
      (fieldOf 4 2 (cmdMods c)) := by
  rw [vcmpHits_eq, List.any_map]
  rfl

/-- VSEL takes each bit from `x` where the mask is 1, and from `y` elsewhere. -/
theorem getLsbD_vselValue (mask : W64) (x y : Nat) {k : Nat} (hk : k < 64) :
    (BitVec.ofNat 64 (vselValue mask x y)).getLsbD k = if mask.getLsbD k then bitOf x k else bitOf y k := by
  rw [BitVec.getLsbD_ofNat, decide_eq_true hk, Bool.true_and, vselValue, ← BitVec.toNat_not, Nat.testBit_or, Nat.testBit_and,
    Nat.testBit_and, ← BitVec.getLsbD, ← BitVec.getLsbD, BitVec.getLsbD_not, decide_eq_true hk, bitOf_eq_testBit, bitOf_eq_testBit]
  cases mask.getLsbD k <;> simp

theorem vecLane_vshufValue (m x : Nat) {k : Nat} (hk : k < 8) :
    vecLane 8 k (BitVec.ofNat 64 (vshufValue m x)).toNat = vecLane 8 (fieldOf (3 * k + 2) (3 * k) m) x := by
  have hsel : fieldOf (3 * k + 2) (3 * k) m < 64 / 8 := by
    have h := fieldOf_lt (3 * k + 2) (3 * k) m
    rw [show 3 * k + 2 + 1 - 3 * k = 3 by omega] at h
    exact h
  rw [vshufValue, joinLanes_mod _ (by decide), vecLane_joinLanes_range _ _ hk, getD_lanesOf _ hsel, Nat.mod_eq_of_lt (vecLane_lt _ _ _)]

theorem vecLane_vsfuValue (f x : Nat) {k : Nat} (hk : k < 4) :
    vecLane 16 k (BitVec.ofNat 64 (vsfuValue f x)).toNat = sfuLane f (vecLane 16 k x) % 2 ^ 16 := by
  rw [vsfuValue, lanesOf_eq, List.map_map, joinLanes_mod _ (by decide), vecLane_joinLanes_range _ _ (by exact hk)]
  rfl

section
variable {s : State} {i : SlotId} {w : Nat} {b : Bool} {n : Nat}

/-- VCMP writes its mask register and its predicate. -/
theorem vcmp_done (h : Issues s i w b) (ho : cmdOp w = 0x41) (hp : nextPtr (s.slot i) < 2048) (hd : cmdD w = .v n) :
    ∃ t, exec (.vcmp i) s = .next t ∧ OnlySlot i s t ∧ t.slot i =
      (((s.slot i).setV n (vcmpValue w ((s.slot i).value (cmdA w)) ((s.slot i).value (cmdB w)))).setP (fieldOf 10 8 (cmdMods w))
        ((vcmpHits w ((s.slot i).value (cmdA w)) ((s.slot i).value (cmdB w))).any id)).retire (s.slot i).ptr .next := by
  have hf (c : Option (Nat × Bool)) (l : Latch) : (vcmpSlot { s.slot i with cur := c, latch := l } w).retire (s.slot i).ptr .next
      = (((s.slot i).setV n (vcmpValue w ((s.slot i).value (cmdA w)) ((s.slot i).value (cmdB w)))).setP (fieldOf 10 8 (cmdMods w))
        ((vcmpHits w ((s.slot i).value (cmdA w)) ((s.slot i).value (cmdB w))).any id)).retire (s.slot i).ptr .next := by
    simp only [vcmpSlot, Slot.value_cur]
    rw [Slot.put_cur, Slot.setP_retire_cur, hd, Slot.put]
  obtain ⟨t, ht, hslot, honly⟩ := runSlot_issues (f := vcmpSlot) h ho (hf _ _)
    (Slot.retire_lt_of_loops hp (Slot.setP_loops _ _ _) (Slot.setP_nest _ _ _))
  exact ⟨t, (exec_vcmp s i).trans (congrArg _ ht), honly, hslot⟩

end

/-- Settles O27: each row joins the lanes that its function gives, and a lane of the register is the lane joined. -/
theorem vectorLanes : Obligations.VectorLanes := by
  unfold Obligations.VectorLanes
  intro s i w b h hp u m x y lane n hd only
  refine ⟨fun ho => ?vop, fun ho => ?vcmp, fun ho => ?vsel, fun ho => ?vshuf, fun ho => ?vsfu⟩
  case vop =>
    obtain ⟨t, ht, hv, hrest⟩ := runSlot_vector (f := vopSlot) (v := vopValue w x y) h ho hp hd fun c l => by
      simp only [vopSlot, Slot.value_cur, x, y, u]
    refine ⟨t, (exec_vop s i).trans (congrArg _ ht), hrest, ?_⟩
    intro e k hk p q le
    rw [hv]
    exact (vecLane_vopValue w x y rfl hk).trans (vopLane_eq (vecLane_lt _ _ _) (vecLane_lt _ _ _) _ (Nat.mod_lt _ (by decide)))
  case vcmp =>
    obtain ⟨t, he, honly, hslot⟩ := vcmp_done h ho hp hd
    have hv : (t.slot i).vreg n = BitVec.ofNat 64 (vcmpValue w x y) := by
      rw [hslot, Slot.retire_vreg, Slot.vreg_setP, Slot.vreg_setV _ (opndOf_v hd)]
    refine ⟨t, he, honly, ?_⟩
    intro e hit
    have hany : (vcmpHits w x y).any id = (List.range (64 / e)).any hit := vcmpHits_any w x y
    refine ⟨fun k hk => ?_, fun hne => ?_, ?_⟩
    · rw [hv]
      exact vecLane_vcmpValue w x y hk
    · rw [hslot, Slot.retire_pred, Slot.pred_setP _ (fieldOf_lt 10 8 _) hne]
      exact hany
    · rw [hv, Slot.setV_toNat, ← hany]
      exact hslot
  case vsel =>
    have hf : formOf (cmdOp w) (cmdMods w) = some { a := [.v], b := [.v], d := [.v], mask := bitsMask 2 0 } := by rw [ho]; rfl
    have hm : cmdMods w % 8 = m := Nat.mod_eq_of_lt (Nat.lt_succ_of_le (issues_mods_le h hf))
    obtain ⟨t, ht, hv, hrest⟩ := runSlot_vector (f := vselSlot) (v := vselValue (u.vreg m) x y) h ho hp hd fun c l => by
      simp only [vselSlot, Slot.value_cur, x, y, u, hm]
      rfl
    refine ⟨t, (exec_vsel s i).trans (congrArg _ ht), hrest, fun k hk => ?_⟩
    rw [hv]
    exact getLsbD_vselValue _ _ _ hk
  case vshuf =>
    obtain ⟨t, ht, hv, hrest⟩ := runSlot_vector (f := vshufSlot) (v := vshufValue m x) h ho hp hd fun c l => by
      simp only [vshufSlot, Slot.value_cur, x, m, u]
    refine ⟨t, (exec_vshuf s i).trans (congrArg _ ht), hrest, fun k hk => ?_⟩
    rw [hv]
    exact vecLane_vshufValue _ _ hk
  case vsfu =>
    have hf : formOf (cmdOp w) (cmdMods w) = some { a := [.v], d := [.v], mask := bitsMask 1 0 } := by rw [ho]; rfl
    have hm : cmdMods w % 4 = m := Nat.mod_eq_of_lt (Nat.lt_succ_of_le (issues_mods_le h hf))
    obtain ⟨t, ht, hv, hrest⟩ := runSlot_vector (f := vsfuSlot) (v := vsfuValue m x) h ho hp hd fun c l => by
      simp only [vsfuSlot, Slot.value_cur, x, hm, u]
    refine ⟨t, (exec_vsfu s i).trans (congrArg _ ht), hrest, fun k hk => ?_⟩
    rw [hv]
    exact vecLane_vsfuValue _ _ hk

end Sys2Proof.Proofs
end

section
/-! SUPPORT. Counted conversions (R46, R50): counting touches the dictionary alone, and the bodies of VFMA and VCVT from the checks they
pass to their end. -/

namespace Sys2Proof.Machine

open Sys2Proof Sys2Proof.Safety

/-! ## Counting conversions -/

/-- The state with another Swarm. -/
def State.withSwarm (s : State) (v : Swarm) : State := { s with swarm := v }

section
variable (s : State) (v : Swarm)

theorem State.bumpBy_withSwarm (k n : Nat) : (s.withSwarm v).bumpBy k n = (s.bumpBy k n).withSwarm v := by
  unfold State.bumpBy
  split <;> rfl

theorem State.setWide_withSwarm (b : Bool) : (s.withSwarm v).setWide b = (s.setWide b).withSwarm v := by
  unfold State.setWide
  split <;> rfl

/-- The counts of conversions do not read the Swarm. -/
theorem State.countConvs_withSwarm (cs : List Conv) : (s.withSwarm v).countConvs cs = (s.countConvs cs).withSwarm v := by
  unfold State.countConvs
  rw [State.bumpBy_withSwarm, State.bumpBy_withSwarm, State.bumpBy_withSwarm, State.bumpBy_withSwarm, State.setWide_withSwarm]

end

theorem State.bumpBy_fields (s : State) (k n : Nat) : s.bumpBy k n = { s with dict := (s.bumpBy k n).dict } := by
  unfold State.bumpBy
  split <;> rfl

theorem State.setWide_fields (s : State) (b : Bool) : s.setWide b = { s with dict := (s.setWide b).dict } := by
  unfold State.setWide
  split <;> rfl

/-- States that differ from one another in the dictionary alone. -/
theorem dictOnly_trans {s u t : State} (h : u = { s with dict := u.dict }) (h' : t = { u with dict := t.dict }) :
    t = { s with dict := t.dict } := h'.trans (by rw [h])

/-- Counting conversions changes the dictionary alone. -/
theorem State.countConvs_fields (s : State) (cs : List Conv) : s.countConvs cs = { s with dict := (s.countConvs cs).dict } :=
  dictOnly_trans (dictOnly_trans (dictOnly_trans (dictOnly_trans (State.bumpBy_fields _ _ _) (State.bumpBy_fields _ _ _))
    (State.bumpBy_fields _ _ _)) (State.bumpBy_fields _ _ _)) (State.setWide_fields _ _)

theorem begun_withSwarm (s : State) (i : SlotId) (w : Nat) (b : Bool) : begun s i w b = s.withSwarm (begun s i w b).swarm := by
  conv => lhs; rw [begun_fields]
  rw [State.withSwarm]
  conv => rhs; rw [begun_fields]

theorem State.setSlot_withSwarm (s : State) (i : SlotId) (t : Slot) : s.setSlot i t = s.withSwarm (s.setSlot i t).swarm := rfl

theorem State.withSwarm_withSwarm (s : State) (v v' : Swarm) : (s.withSwarm v).withSwarm v' = s.withSwarm v' := rfl

section
variable (s u : State)

theorem State.slot_withSwarm (i : SlotId) : (s.withSwarm u.swarm).slot i = u.slot i := rfl
theorem State.pads_withSwarm : (s.withSwarm u.swarm).swarm.pads = u.swarm.pads := rfl
theorem State.dict_withSwarm (v : Swarm) : (s.withSwarm v).dict = s.dict := rfl
theorem State.withSwarm_setSlot (i : SlotId) (t : Slot) : (s.withSwarm u.swarm).setSlot i t = s.withSwarm (u.setSlot i t).swarm := rfl

end

section
variable (s : State) (cs : List Conv) (v : Swarm)

theorem State.counted_mem : ((s.countConvs cs).withSwarm v).mem = s.mem := by rw [State.countConvs_fields]; rfl
theorem State.counted_num : ((s.countConvs cs).withSwarm v).num = s.num := by rw [State.countConvs_fields]; rfl
theorem State.counted_net : ((s.countConvs cs).withSwarm v).net = s.net := by rw [State.countConvs_fields]; rfl

end

/-! ## The bodies -/

section
variable {x : Issue} {s : State}

/-- The rounded lanes of VFMA. -/
def fmaConvs (t : Slot) (c : Nat) : List Conv :=
  (List.range (64 / selBits (cmdSel c))).map fun k => roundElem t.latch (cmdSel c) (FVal.add false
    (FVal.mul (decodeElem (cmdSel c) false (vecLane (selBits (cmdSel c)) k (t.value (cmdA c))))
      (decodeElem (cmdSel c) false (vecLane (selBits (cmdSel c)) k (t.value (cmdB c)))))
    (decodeElem (cmdSel c) false (vecLane (selBits (cmdSel c)) k (t.value (cmdD c)))))

theorem vfmaBody_done : vfmaBody x s = .ok (.next, (s.setSlot x.id ((s.slot x.id).put (cmdD x.word)
    (joinLanes (selBits (cmdSel x.word)) ((fmaConvs (s.slot x.id) x.word).map Conv.bits)))).countConvs
      (fmaConvs (s.slot x.id) x.word)) := by
  have hcs (t : Slot) (c : Nat) : (((lanesOf (selBits (cmdSel c)) (t.value (cmdA c))).map (decodeElem (cmdSel c) false)).zip
      (((lanesOf (selBits (cmdSel c)) (t.value (cmdB c))).map (decodeElem (cmdSel c) false)).zip
        ((lanesOf (selBits (cmdSel c)) (t.value (cmdD c))).map (decodeElem (cmdSel c) false)))).map (fun p =>
      roundElem t.latch (cmdSel c) (FVal.add false (FVal.mul p.1 p.2.1) p.2.2)) = fmaConvs t c := by
    simp only [lanesOf_eq, List.map_map, List.zip_map', fmaConvs]
    rfl
  unfold vfmaBody
  rw [Cmd.slot_bind]
  simp only [hcs]
  rfl

/-- The converted elements of VCVT. -/
def cvtConvs (t : Slot) (c : Nat) : List Conv :=
  (List.range (64 / max (fmtBits (cmdMods c % 16)) (fmtBits (cmdSel c)))).map fun k =>
    convertElem (cmdSel c) (bitOf (cmdMods c) 5) t.latch.e5m2Inf t.latch.fp16Inf .rne
      (decodeElem (cmdMods c % 16) (bitOf (cmdMods c) 4) (vecLane (fmtBits (cmdMods c % 16)) k (t.value (cmdA c))))

theorem vcvtBody_done (hf : fmtLegal (cmdMods x.word % 16) = true) (h48 : cmdMods x.word % 16 ≠ 0xB) :
    vcvtBody x s = .ok (.next, (s.setSlot x.id ((s.slot x.id).put (cmdD x.word)
      (joinLanes (fmtBits (cmdSel x.word)) ((cvtConvs (s.slot x.id) x.word).map Conv.bits)))).countConvs
        (cvtConvs (s.slot x.id) x.word)) := by
  unfold vcvtBody
  rw [Cmd.slot_bind]
  dsimp only
  rw [Cmd.require_bind (by rw [hf, bne_iff_ne.mpr h48]; rfl)]
  rfl

end

end Sys2Proof.Machine
end

section
/-! PROOF. O28: VFMA and VCVT. -/

namespace Sys2Proof.Proofs

open Sys2Proof Sys2Proof.Machine Sys2Proof.Safety

section
variable (s : State) (i : SlotId)

theorem exec_vfma : exec (.vfma i) s = .next (runCommand s i (fun w => cmdOp w == 0x44) vfmaBody) := rfl
theorem exec_vcvt : exec (.vcvt i) s = .next (runCommand s i (fun w => cmdOp w == 0x46) vcvtBody) := rfl

end

section
variable {s : State} {i : SlotId} {w : Nat} {b : Bool} {row : Nat → Bool} {body : Issue → Cmd After} {n : Nat}

/-- A command whose work is to write a vector register and to count conversions. -/
theorem converted_done {v : Nat} {cs : List Conv} (h : Issues s i w b) (hr : row w = true) (hp : nextPtr (s.slot i) < 2048)
    (hd : cmdD w = .v n) (hb : body (issueOf s i w b) (begun s i w b)
      = .ok (.next, ((begun s i w b).setSlot i (((begun s i w b).slot i).put (cmdD w) v)).countConvs cs)) :
    ∃ t, runCommand s i row body = t ∧ (t.mem = s.mem ∧ t.swarm.pads = s.swarm.pads ∧ t.num = s.num ∧ t.net = s.net
        ∧ ∀ j : SlotId, j.thread < 4 → j ≠ i → t.slot j = seenIssue i j (s.slot j))
      ∧ (t.slot i).vreg n = BitVec.ofNat 64 v ∧ t.slot i = ((s.slot i).setV n ((t.slot i).vreg n).toNat).retire (s.slot i).ptr .next
      ∧ t.dict = (s.countConvs cs).dict := by
  have hi := issues_thread_lt h
  have hcount : ((begun s i w b).setSlot i (((begun s i w b).slot i).put (cmdD w) v)).countConvs cs
      = (s.countConvs cs).withSwarm ((begun s i w b).setSlot i (((begun s i w b).slot i).put (cmdD w) v)).swarm := by
    rw [State.setSlot_withSwarm, begun_withSwarm, State.withSwarm_withSwarm, State.countConvs_withSwarm]
    rfl
  have hret : (((s.countConvs cs).withSwarm ((begun s i w b).setSlot i (((begun s i w b).slot i).put (cmdD w) v)).swarm).slot i).retire
      (s.slot i).ptr .next = ((s.slot i).setV n v).retire (s.slot i).ptr .next := by
    rw [State.slot_withSwarm, State.slot_setSlot, begun_put_retire, hd, Slot.put]
  rw [hcount] at hb
  have hend := runCommand_ends h hr hb (by rw [hret]; exact Slot.retire_lt_of_loops hp rfl rfl)
  rw [hret, State.withSwarm_setSlot] at hend
  refine ⟨_, hend, ⟨State.counted_mem _ _ _, ?_, State.counted_num _ _ _, State.counted_net _ _ _, fun j hj hne => ?_⟩, ?_, ?_,
    State.dict_withSwarm _ _⟩
  · rw [State.pads_withSwarm, State.pads_setSlot, State.pads_setSlot, begun_pads]
  · have hk := SlotId.key_ne hi hj hne
    rw [State.slot_withSwarm, State.slot_setSlot_other _ _ hk, State.slot_setSlot_other _ _ hk, begun_other hi hj hne]
  · rw [State.slot_withSwarm, State.slot_setSlot, Slot.retire_vreg, Slot.vreg_setV _ (opndOf_v hd)]
  · rw [State.slot_withSwarm, State.slot_setSlot, Slot.retire_vreg, Slot.vreg_setV _ (opndOf_v hd), Slot.setV_toNat]

end

section
variable {s : State} {i : SlotId} {w : Nat} {b : Bool}

theorem begun_fmaConvs : fmaConvs ((begun s i w b).slot i) w = (List.range (64 / selBits (cmdSel w))).map fun k =>
    roundElem ((begun s i w b).slot i).latch (cmdSel w) (FVal.add false
      (FVal.mul (decodeElem (cmdSel w) false (vecLane (selBits (cmdSel w)) k ((s.slot i).value (cmdA w))))
        (decodeElem (cmdSel w) false (vecLane (selBits (cmdSel w)) k ((s.slot i).value (cmdB w)))))
      (decodeElem (cmdSel w) false (vecLane (selBits (cmdSel w)) k ((s.slot i).value (cmdD w))))) := by
  simp only [fmaConvs, begun_value]

theorem begun_cvtConvs : cvtConvs ((begun s i w b).slot i) w =
    (List.range (64 / max (fmtBits (cmdMods w % 16)) (fmtBits (cmdSel w)))).map fun k =>
      convertElem (cmdSel w) (bitOf (cmdMods w) 5) ((begun s i w b).slot i).latch.e5m2Inf ((begun s i w b).slot i).latch.fp16Inf .rne
        (decodeElem (cmdMods w % 16) (bitOf (cmdMods w) 4) (vecLane (fmtBits (cmdMods w % 16)) k ((s.slot i).value (cmdA w)))) := by
  simp only [cvtConvs, begun_value]

end

/-- Settles O28: each row joins its rounded lanes and counts them (`converted_done`). -/
theorem vectorArithmetic : Obligations.VectorArithmetic := by
  unfold Obligations.VectorArithmetic
  intro s i w b h hp u l lane kept n hd
  refine ⟨fun ho => ?vfma, fun ho hf h48 => ?vcvt⟩
  case vfma =>
    have hb := vfmaBody_done (x := issueOf s i w b) (s := begun s i w b)
    rw [issueOf_id, issueOf_word, begun_fmaConvs] at hb
    obtain ⟨t, ht, hkept, hv, hslot, hdict⟩ := converted_done (row := fun w => cmdOp w == 0x44) h (by simp [ho]) hp hd hb
    rw [List.map_map] at hv
    refine ⟨t, (exec_vfma s i).trans (congrArg _ ht), hkept, ?_⟩
    intro e val out
    refine ⟨fun k hk => ?_, hslot, ?_⟩
    · rw [hv]
      refine (congrArg (lane e k) (joinLanes_mod _ (lanes_fit _))).trans ((vecLane_joinLanes_range _ _ hk).trans ?_)
      simp only [Function.comp, hd]
      rfl
    · rw [hdict, hd]
      rfl
  case vcvt =>
    have hb := vcvtBody_done (x := issueOf s i w b) (s := begun s i w b) hf h48
    rw [issueOf_id, issueOf_word, begun_cvtConvs] at hb
    obtain ⟨t, ht, hkept, hv, hslot, hdict⟩ := converted_done (row := fun w => cmdOp w == 0x46) h (by simp [ho]) hp hd hb
    rw [List.map_map] at hv
    refine ⟨t, (exec_vcvt s i).trans (congrArg _ ht), hkept, ?_⟩
    intro src e c out
    have hfit : e * c ≤ 64 :=
      (Nat.mul_le_mul_right _ (Nat.le_max_right (fmtBits src) e)).trans (Nat.mul_div_le 64 _)
    refine ⟨fun k hk => ?_, ?_, hslot, hdict⟩
    · rw [hv]
      exact (congrArg (lane e k) (joinLanes_mod _ hfit)).trans (vecLane_joinLanes_range _ _ hk)
    · rw [hv]
      exact lt_of_eq_of_lt (joinLanes_mod _ hfit) (joinLanes_range_lt _ _ _)

end Sys2Proof.Proofs
end

section
/-! SUPPORT. TCVT and TEW (R101, R176, R179, R185): the scale of a conversion, the results of a row, and the bodies from the checks
they pass to their end. -/

namespace Sys2Proof.Machine

open Sys2Proof Sys2Proof.Safety

/-! ## TCVT -/

/-- The scale exponent of a conversion that is not split, and the state once its record has been read (R185). -/
def State.tcvtScale (s : State) (t : Slot) (d : Desc) (split : Bool) (amax : W32) : Int × State :=
  if split then (0, s)
  else match t.latch.code with
    | some c => (127 - (c : Int), s)
    | none =>
      if s.tensorScaled d then
        (127 - ((s.codeOrPrepass d.tensor amax t.latch.headroom).1 : Int), (s.codeOrPrepass d.tensor amax t.latch.headroom).2)
      else (0, s)

/-- The writes and the conversions of a TCVT. -/
def State.tcvtOut (s : State) (t : Slot) (d : Desc) (mods : Nat) (k : Int) (rows : List (List FVal)) : List WRange × List Conv :=
  if bitOf mods 2 then splitConversion d rows else plainConversion s t d mods k rows

/-- What a TCVT counts, and contributes to the record of its destination. -/
def State.tcvtCount (s : State) (t : Slot) (d : Desc) (amax : W32) (cs : List Conv) : State :=
  (s.countConvs cs).contribute d.tensor t.latch.epoch
    { amax := some amax, saturations := (cs.map Conv.sat).sum, crushes := (cs.map Conv.crush).sum }

/-- What a TCVT does once it has read its rows and its scale. -/
def tcvtWrite (x : Issue) (t : Slot) (d : Desc) (amax : W32) (rows : List (List FVal)) (ks : Int × State) : Cmd Unit := do
  set ks.2
  Cmd.write x d.global (ks.2.tcvtOut t d (cmdMods x.word) ks.1 rows).1 5 d.tensor
  Cmd.update fun s => s.tcvtCount t d amax (ks.2.tcvtOut t d (cmdMods x.word) ks.1 rows).2

theorem tcvtBody_eq (x : Issue) : tcvtBody x = (do
    let t ← Cmd.slot x.id
    Cmd.check (tcvtReason (bitOf (cmdMods x.word) 2) (t.tile (cmdA x.word)) (t.tile (cmdD x.word)))
    Cmd.commitOk x [t.tile (cmdA x.word), t.tile (cmdD x.word)]
    Cmd.holdLines x (t.tile (cmdD x.word)).dest
    Cmd.into x (t.tile (cmdD x.word)).dest do
      let rows ← Cmd.values x (t.tile (cmdA x.word))
      let s ← get
      tcvtWrite x t (t.tile (cmdD x.word)) (amaxOf rows.flatten) rows
        (s.tcvtScale t (t.tile (cmdD x.word)) (bitOf (cmdMods x.word) 2) (amaxOf rows.flatten))
    pure .next) := rfl

section
variable {x : Issue} {s r1 s2 : State} {a d : Desc} {t : Slot} {rows : List (List FVal)} {ks : Int × State}

theorem tcvtWrite_done {amax : W32} {u : State} (hw : Cmd.write x d.global (ks.2.tcvtOut t d (cmdMods x.word) ks.1 rows).1 5 d.tensor ks.2
    = .ok ((), s2)) :
    tcvtWrite x t d amax rows ks u = .ok ((), s2.tcvtCount t d amax (ks.2.tcvtOut t d (cmdMods x.word) ks.1 rows).2) := by
  unfold tcvtWrite
  rw [Cmd.set_bind, Cmd.bind_ok hw]
  rfl

theorem tcvtBody_done (ht : s.slot x.id = t) (ha : t.tile (cmdA x.word) = a) (hd : t.tile (cmdD x.word) = d)
    (hr : tcvtReason (bitOf (cmdMods x.word) 2) a d = none) (hh : t.touchesHeld [a, d] = false)
    (hl : Cmd.holdLines x d.dest s = .ok ((), s)) (hv : Cmd.values x a s = .ok (rows, r1))
    (hk : r1.tcvtScale t d (bitOf (cmdMods x.word) 2) (amaxOf rows.flatten) = ks)
    (hw : Cmd.write x d.global (ks.2.tcvtOut t d (cmdMods x.word) ks.1 rows).1 5 d.tensor ks.2 = .ok ((), s2)) :
    tcvtBody x s = .ok (.next, s2.tcvtCount t d (amaxOf rows.flatten) (ks.2.tcvtOut t d (cmdMods x.word) ks.1 rows).2) := by
  rw [tcvtBody_eq, Cmd.slot_bind]
  simp only [ht, ha, hd]
  rw [Cmd.check_bind hr, Cmd.commitOk_bind (by rw [ht]; exact hh), Cmd.bind_ok hl]
  refine (Cmd.bind_ok (v := ()) (Cmd.into_ok ((Cmd.bind_ok hv).trans ?_))).trans rfl
  rw [Cmd.get_bind, hk]
  exact tcvtWrite_done hw

end

/-! ## TEW -/

/-- The element that stands where nothing is read. -/
def Elem.blank : Elem := ⟨0, 0, 127, FVal.zero⟩

/-- The old element of a master weight or of a multiply-add's destination, or nothing. -/
def tewOld (needs : Bool) (o : TileRows) (r c : Nat) : Elem := if needs then (o.row 0 r).getD c Elem.blank else Elem.blank

/-- The exact results of row `r` of a TEW, each with its old element and the update it makes. -/
def tewRow (op : Nat) (one : Bool) (cols : Nat) (ra rb : List (List FVal)) (old : Nat → Nat → Elem) (r : Nat) :
    List (Elem × FVal × Option FVal) :=
  (((ra.getD r []).zip (rb.getD (if one then 0 else r) [])).zip (List.range cols)).map fun p =>
    (old r p.2, tewElem op p.1.1 p.1.2 (old r p.2).val)

/-- The conversion of one result. -/
def tewCode (l : Latch) (fmt : Nat) (e : Elem × FVal × Option FVal) : Conv := roundElem l fmt e.2.1

/-- Did an update leave its element as it was (R179)? -/
def tewStalls (l : Latch) (fmt : Nat) (e : Elem × FVal × Option FVal) : Bool :=
  countsUpdate e.2.2 && decide (decodeElem fmt false (tewCode l fmt e).bits ≠ .nan) && decide ((tewCode l fmt e).bits = e.1.code)

/-- A result as the command keeps it: its conversion, whether it counts as an update, and whether that stalled. -/
def tewKept (l : Latch) (fmt : Nat) (watch : Bool) (e : Elem × FVal × Option FVal) : Conv × Bool × Bool :=
  (tewCode l fmt e, watch && countsUpdate e.2.2,
    (watch && countsUpdate e.2.2) && decide (decodeElem fmt false (tewCode l fmt e).bits ≠ .nan)
      && decide ((tewCode l fmt e).bits = e.1.code))

/-- What a TEW counts, and contributes to the record of the weights it updates. -/
def State.tewCount (s : State) (l : Latch) (d : Desc) (watch : Bool) (all : List (Elem × FVal × Option FVal)) : State :=
  if watch then (s.countConvs (all.map (tewCode l d.fmt))).contribute d.tensor l.epoch
    { updates := (all.filter fun e => countsUpdate e.2.2).length, stalled := (all.filter (tewStalls l d.fmt)).length }
  else s.countConvs (all.map (tewCode l d.fmt))

/-- Does a TEW watch its updates (R179)? -/
def tewWatch (op fmt : Nat) : Bool := (decide (op = 0) || decide (op = 3)) && (fmt == 0xA || fmt == 0xB)

/-- Row `r` of a TEW as the command keeps it. -/
def tewKeptRow (l : Latch) (fmt : Nat) (watch : Bool) (op : Nat) (one : Bool) (cols : Nat) (ra rb : List (List FVal))
    (old : Nat → Nat → Elem) (r : Nat) : List (Conv × Bool × Bool) :=
  (((ra.getD r []).zip (rb.getD (if one then 0 else r) [])).zip (List.range cols)).map fun p =>
    tewKept l fmt watch (old r p.2, tewElem op p.1.1 p.1.2 (old r p.2).val)

theorem tewKeptRow_eq (l : Latch) (fmt : Nat) (watch : Bool) (op : Nat) (one : Bool) (cols : Nat) (ra rb : List (List FVal))
    (old : Nat → Nat → Elem) (r : Nat) :
    tewKeptRow l fmt watch op one cols ra rb old r = (tewRow op one cols ra rb old r).map (tewKept l fmt watch) := by
  rw [tewRow, List.map_map]
  rfl

theorem tewRow_congr (op : Nat) (one : Bool) (cols : Nat) (ra rb : List (List FVal)) {old old' : Nat → Nat → Elem} {r : Nat}
    (h : ∀ c, old r c = old' r c) : tewRow op one cols ra rb old r = tewRow op one cols ra rb old' r := by
  simp only [tewRow, h]

theorem getD_map_range {α : Type} (f : Nat → α) {n r : Nat} {e : α} (h : r < n) : ((List.range n).map f).getD r e = f r := by
  rw [List.getD_eq_getElem _ _ (by simpa using h), List.getElem_map, List.getElem_range]

theorem zip_map_self {α β : Type} (f : α → β) (l : List α) : l.zip (l.map f) = l.map fun x => (x, f x) :=
  (congrArg (List.zip · (l.map f)) (List.map_id l).symm).trans (List.zip_map' (f := id) (g := f) (l := l))

/-- What a TEW writes. -/
def tewWrites (l : Latch) (d : Desc) (res : Nat → List (Elem × FVal × Option FVal)) : List WRange :=
  (List.range d.rows).map fun r => d.rowWrite r ((res r).map fun e => (tewCode l d.fmt e).bits)

/-- What a TEW writes and counts once it has its rows. -/
def tewFinish (x : Issue) (l : Latch) (d : Desc) (watch : Bool) (out : List (List (Conv × Bool × Bool))) : Cmd Unit := do
  Cmd.write x d.global (((List.range d.rows).zip out).map fun q => d.rowWrite q.1 (q.2.map fun e => e.1.bits)) 5 d.tensor
  Cmd.update fun s =>
    if watch then
      (s.countConvs (out.flatten.map fun e => e.1)).contribute d.tensor l.epoch
        { updates := (out.flatten.filter fun e => e.2.1).length, stalled := (out.flatten.filter fun e => e.2.2).length }
    else s.countConvs (out.flatten.map fun e => e.1)

section
variable {x : Issue} {s q3 s2 : State} {d : Desc} {l : Latch} {watch : Bool} {res : Nat → List (Elem × FVal × Option FVal)}

/-- The counts read off the kept rows are those of the results. -/
theorem tewCount_kept (all : List (Elem × FVal × Option FVal)) :
    (if watch then (s.countConvs ((all.map (tewKept l d.fmt watch)).map fun e => e.1)).contribute d.tensor l.epoch
      { updates := ((all.map (tewKept l d.fmt watch)).filter fun e => e.2.1).length
        stalled := ((all.map (tewKept l d.fmt watch)).filter fun e => e.2.2).length }
    else s.countConvs ((all.map (tewKept l d.fmt watch)).map fun e => e.1)) = s.tewCount l d watch all := by
  cases watch with
  | false =>
    rw [List.map_map]
    rfl
  | true =>
    rw [List.map_map, List.filter_map, List.filter_map, List.length_map, List.length_map]
    rfl

theorem tewFinish_done (hw : Cmd.write x d.global (tewWrites l d res) 5 d.tensor q3 = .ok ((), s2)) :
    tewFinish x l d watch ((List.range d.rows).map fun r => (res r).map (tewKept l d.fmt watch)) q3
      = .ok ((), s2.tewCount l d watch ((List.range d.rows).flatMap res)) := by
  have hwrites : (((List.range d.rows).zip ((List.range d.rows).map fun r => (res r).map (tewKept l d.fmt watch))).map fun q =>
      d.rowWrite q.1 (q.2.map fun e => e.1.bits)) = tewWrites l d res := by
    rw [zip_map_self, List.map_map]
    refine List.map_congr_left fun r _ => ?_
    simp only [Function.comp, List.map_map]
    rfl
  have hflat : ((List.range d.rows).map fun r => (res r).map (tewKept l d.fmt watch)).flatten
      = ((List.range d.rows).flatMap res).map (tewKept l d.fmt watch) := by
    rw [List.map_flatMap]
    rfl
  unfold tewFinish
  rw [hwrites, Cmd.bind_ok hw, hflat, ← tewCount_kept]
  rfl

end

section
variable {x : Issue} {s q1 q2 q3 s2 : State} {a bt d : Desc} {t : Slot} {ra rb : List (List FVal)} {op : Nat} {one : Bool} {o : TileRows}
  {needs : Bool}

theorem tewBody_done (ht : s.slot x.id = t) (ha : t.tile (cmdA x.word) = a) (hb : t.tile (cmdB x.word) = bt)
    (hd : t.tile (cmdD x.word) = d) (hop : cmdMods x.word % 8 = op) (hone : bitOf (cmdMods x.word) 3 = one)
    (hr : tewReason op one a bt d = none) (hh : t.touchesHeld [a, bt, d] = false)
    (hl : Cmd.holdLines x d.dest s = .ok ((), s)) (hra : Cmd.values x a s = .ok (ra, q1)) (hrb : Cmd.values x bt q1 = .ok (rb, q2))
    (hn : needs = (op == 3 || (tewWatch op d.fmt && (q2.recordOf d.tensor).isSome)))
    (htile : needs = true → Cmd.tile x d 5 q2 = .ok (o, q3)) (hnone : needs = false → q3 = q2)
    (hw : Cmd.write x d.global (tewWrites t.latch d (tewRow op one d.cols ra rb (tewOld needs o))) 5 d.tensor q3 = .ok ((), s2)) :
    tewBody x s = .ok (.next, s2.tewCount t.latch d (tewWatch op d.fmt)
      ((List.range d.rows).flatMap (tewRow op one d.cols ra rb (tewOld needs o)))) := by
  have hcond : (op = 3 ∨ (tewWatch op d.fmt = true ∧ (q2.recordOf d.tensor).isSome = true)) ↔ needs = true := by
    rw [hn, Bool.or_eq_true, beq_iff_eq, Bool.and_eq_true]
  have hrows (old : Nat → Nat → Elem) (h : ∀ r, r < d.rows → ∀ c, old r c = tewOld needs o r c) :
      (List.range d.rows).map (tewKeptRow t.latch d.fmt (tewWatch op d.fmt) op one d.cols ra rb old)
        = (List.range d.rows).map fun r => (tewRow op one d.cols ra rb (tewOld needs o) r).map
          (tewKept t.latch d.fmt (tewWatch op d.fmt)) :=
    List.map_congr_left fun r hr => by rw [tewKeptRow_eq, tewRow_congr _ _ _ _ _ (h r (List.mem_range.mp hr))]
  unfold tewBody
  rw [Cmd.slot_bind]
  simp only [ht, ha, hb, hd, hop, hone]
  rw [Cmd.check_bind hr, Cmd.commitOk_bind (by rw [ht]; exact hh), Cmd.bind_ok hl]
  refine (Cmd.bind_ok (v := ()) (Cmd.into_ok ((Cmd.bind_ok hra).trans ((Cmd.bind_ok hrb).trans ?_)))).trans rfl
  rw [Cmd.get_bind]
  cases needs with
  | true =>
    refine (congrFun (if_pos (hcond.mpr rfl)) q2).trans ?_
    rw [Cmd.bind_ok (htile rfl), Cmd.pure_bind]
    change tewFinish x t.latch d (tewWatch op d.fmt) ((List.range d.rows).map
      (tewKeptRow t.latch d.fmt (tewWatch op d.fmt) op one d.cols ra rb
      fun r c => ((((List.range d.rows).map fun r => o.row 0 r).getD r []).getD c Elem.blank))) q3 = _
    rw [hrows (fun r c => (((List.range d.rows).map fun r => o.row 0 r).getD r []).getD c Elem.blank)
      fun r hr c => congrArg (List.getD · c Elem.blank) (getD_map_range _ hr)]
    exact tewFinish_done hw
  | false =>
    refine (congrFun (if_neg (fun h => Bool.false_ne_true (hcond.mp h))) q2).trans ?_
    rw [Cmd.pure_bind]
    change tewFinish x t.latch d (tewWatch op d.fmt) ((List.range d.rows).map
      (tewKeptRow t.latch d.fmt (tewWatch op d.fmt) op one d.cols ra rb
      fun r c => (([] : List (List Elem)).getD r []).getD c Elem.blank)) q2 = _
    obtain rfl := hnone rfl
    rw [hrows (fun r c => (([] : List (List Elem)).getD r []).getD c Elem.blank) fun r _ c => rfl]
    exact tewFinish_done hw

end

end Sys2Proof.Machine
end

section
/-! PROOF. O29: TCVT and TEW. -/

namespace Sys2Proof.Proofs

open Sys2Proof Sys2Proof.Machine Sys2Proof.Safety

section
variable (s : State) (i : SlotId)

theorem exec_tcvt : exec (.tcvt i) s = .next (runCommand s i (fun w => cmdOp w == 0x47) tcvtBody) := rfl
theorem exec_tew : exec (.tew i) s = .next (runCommand s i (fun w => cmdOp w == 0x48) tewBody) := rfl

end

/-- Settles O29: both bodies end with what they write, count and contribute (`tcvtBody_done`, `tewBody_done`). -/
theorem tileConversions : Obligations.TileConversions := by
  unfold Obligations.TileConversions
  intro s i w b h u t1 x s1 a d m
  have ht {o : Opnd} : t1.tile o = u.tile o := begun_tile s i w b o
  have hheld {ds : List Desc} (hh : u.touchesHeld ds = false) : t1.touchesHeld ds = false := (begun_touchesHeld s i w b ds).trans hh
  refine ⟨fun ho hr hh hl rows r1 s2 hv => ?tcvt, fun ho => ?tew⟩
  case tcvt =>
    intro amax ks out hw s3 hp
    have hb := tcvtBody_done (x := x) (t := t1) (a := a) (d := d) rfl ht ht hr (hheld hh) (Cmd.of_reads hl) (Cmd.of_gives hv) (ks := ks)
      rfl (Cmd.of_writes hw)
    exact (exec_tcvt s i).trans (congrArg _ (runCommand_done h (by simp [ho]) hb hp))
  case tew =>
    intro bt op one hr hh hl watch ra rb o q1 q2 q3 s2 hra hrb needs htile hnone old res code hw all s3 s4 hp
    have hb := tewBody_done (x := x) (t := t1) (a := a) (bt := bt) (d := d) (op := op) (one := one) (needs := needs) (o := o) (q3 := q3)
      rfl ht ht ht rfl rfl hr (hheld hh) (Cmd.of_reads hl) (Cmd.of_gives hra) (Cmd.of_gives hrb) rfl
      (fun hn => Cmd.of_gives (htile hn)) hnone (Cmd.of_writes hw)
    exact (exec_tew s i).trans (congrArg _ (runCommand_done h (by simp [ho]) hb hp))

end Sys2Proof.Proofs
end

section
/-! SUPPORT. A bank swap (R117, R120): the writes held for a comb once they are performed, and the reads that waited for them. -/

namespace Sys2Proof.Machine

open Sys2Proof Sys2Proof.Safety

/-! ## Pieces stored -/

theorem State.setBytes_onMem (s : State) (a : Nat) (bs : List Byte) : s.setBytes a bs = { s with mem := (s.setBytes a bs).mem } := by
  induction bs generalizing s a with
  | nil => rfl
  | cons b bs ih => exact (ih (s.setByte a b) (a + 1)).trans rfl

theorem State.storePiece_onMem (s : State) (a : Nat) (bs : List Byte) : s.storePiece a bs = { s with mem := (s.storePiece a bs).mem } :=
  (State.setBytes_onMem (s.freshWord (wordOf a)) a bs).trans rfl

/-- A piece that is stored reads of the state nothing but its memory. -/
theorem State.setBytes_mem_congr {s t : State} (h : s.mem = t.mem) (a : Nat) (bs : List Byte) :
    (s.setBytes a bs).mem = (t.setBytes a bs).mem := by
  induction bs generalizing s t a with
  | nil => exact h
  | cons b bs ih => exact ih (by rw [State.setByte, h, State.setByte]) _

theorem State.storePiece_mem_congr {s t : State} (h : s.mem = t.mem) (a : Nat) (bs : List Byte) :
    (s.storePiece a bs).mem = (t.storePiece a bs).mem :=
  State.setBytes_mem_congr (by rw [State.freshWord, h, State.freshWord]) _ _

/-- The pieces of held writes, stored one after another. -/
def State.storePieces (s : State) (held : List (Nat × List Byte)) : State := held.foldl (fun (u : State) v => u.storePiece v.1 v.2) s

theorem State.storePieces_mem_congr {s t : State} (h : s.mem = t.mem) (held : List (Nat × List Byte)) :
    (s.storePieces held).mem = (t.storePieces held).mem := by
  induction held generalizing s t with
  | nil => exact h
  | cons v held ih => exact ih (State.storePiece_mem_congr h _ _)

/-! ## Marks of measured banks (R447) -/

/-- The record of a bank that has been written. -/
def BankRecord.mark (r : BankRecord) (n : Nat) (b altered : Bool) : BankRecord :=
  if r.watched.contains (n, b) then { r with changed := true, altered := r.altered || altered } else r

/-- The measurement in progress of a bank that has been written. -/
def Measuring.mark (m : Measuring) (n : Nat) (b altered : Bool) : Measuring :=
  if m.comb = n ∧ m.bankB = b then { m with changed := true, altered := m.altered || altered } else m

theorem BankRecord.mark_mark (r : BankRecord) (n : Nat) (b altered : Bool) :
    (r.mark n b altered).mark n b altered = r.mark n b altered := by
  by_cases h : r.watched.contains (n, b) = true
  · have hm : r.mark n b altered = { r with changed := true, altered := r.altered || altered } := if_pos h
    rw [hm]
    refine (if_pos h).trans ?_
    rw [Bool.or_assoc, Bool.or_self]
  · have hm : r.mark n b altered = r := if_neg h
    rw [hm, hm]

theorem Measuring.mark_mark (m : Measuring) (n : Nat) (b altered : Bool) : (m.mark n b altered).mark n b altered = m.mark n b altered := by
  by_cases h : m.comb = n ∧ m.bankB = b
  · have hm : m.mark n b altered = { m with changed := true, altered := m.altered || altered } := if_pos h
    rw [hm]
    refine (if_pos h).trans ?_
    rw [Bool.or_assoc, Bool.or_self]
  · have hm : m.mark n b altered = m := if_neg h
    rw [hm, hm]

theorem Trust.markBank_eq (t : Trust) (n : Nat) (b altered : Bool) : t.markBank n b altered =
    { t with banks := t.banks.map fun r => r.mark n b altered, measuring := t.measuring.map fun m => m.mark n b altered } := rfl

/-- A bank that is marked once is marked. -/
theorem Trust.markBank_markBank (t : Trust) (n : Nat) (b altered : Bool) :
    (t.markBank n b altered).markBank n b altered = t.markBank n b altered := by
  simp only [Trust.markBank_eq, Vector.map_map, Option.map_map, Function.comp_def, BankRecord.mark_mark, Measuring.mark_mark]

/-! ## The writes held for a swap -/

/-- The writes held for the comb are performed on the bank that has become inactive. -/
def State.performHeld (s : State) (n : Nat) (bank : Bool) (held : List (Nat × List Byte)) : State :=
  held.foldl (fun (u : State) v => (u.storePiece v.1 v.2).markBank n bank false) s

/-- Held writes store their pieces, and mark the bank if there are any; nothing else changes. -/
theorem State.performHeld_eq (s : State) (n : Nat) (bank : Bool) (held : List (Nat × List Byte)) : s.performHeld n bank held =
    { s with mem := (s.storePieces held).mem, trust := if held = [] then s.trust else s.trust.markBank n bank false } := by
  induction held generalizing s with
  | nil => rfl
  | cons v held ih =>
    have hmem : (((s.storePiece v.1 v.2).markBank n bank false).storePieces held).mem = ((s.storePiece v.1 v.2).storePieces held).mem :=
      State.storePieces_mem_congr (State.markBank_mem _ _ _ _) held
    have htrust : ((s.storePiece v.1 v.2).markBank n bank false).trust = s.trust.markBank n bank false := by
      rw [State.markBank, State.storePiece_onMem]
    have hrest : ∀ m x, ({ (s.storePiece v.1 v.2).markBank n bank false with mem := m, trust := x } : State) =
        { s with mem := m, trust := x } := by
      intro m x
      rw [State.markBank, State.storePiece_onMem]
    refine (ih _).trans ?_
    rw [hmem, htrust, Trust.markBank_markBank, ite_self, if_neg (List.cons_ne_nil _ _)]
    exact hrest _ _

section
variable (c : Comb) (b m : Bool)

theorem Comb.markAltered_swaps : (c.markAltered b m).swaps = c.swaps := by unfold Comb.markAltered; split <;> rfl
theorem Comb.markAltered_heldWrites : (c.markAltered b m).heldWrites = c.heldWrites := by unfold Comb.markAltered; split <;> rfl

end

/-- Where no read waits, none is released. -/
theorem State.releaseReads_none {s : State} (h : s.host.readsHeld = []) : s.releaseReads = s := by
  have hhost : ({ s with host := { s.host with readsHeld := [] } } : State) = s := by rw [← h]
  unfold State.releaseReads
  split
  · rfl
  · rw [h, hhost]
    rfl

end Sys2Proof.Machine
end

section
/-! PROOF. O36: the bank swap. -/

namespace Sys2Proof.Proofs

open Sys2Proof Sys2Proof.Machine Sys2Proof.Safety

theorem exec_bankSwap (s : State) (n : Nat) : exec (.bankSwap n) s = .next (s.bankSwap n) := rfl

/-- The comb once it has been swapped, with `k` requests left. -/
def swapped (c : Comb) (k : Nat) : Comb :=
  { c with bankB := !c.bankB, swaps := k, heldWrites := if k = 0 then [] else c.heldWrites
           alteredA := c.bankB && c.alteredA, alteredB := !c.bankB && c.alteredB }

/-- The state of a swap before the reads that waited go on. -/
def swapState (s : State) (n k : Nat) : State :=
  ((s.setComb n (swapped (s.comb n) k)).performHeld n (s.comb n).bankB (if k = 0 then (s.comb n).heldWrites else [])).bump 0x202004

section
variable {s : State} {n k : Nat}

theorem bankSwap_eq (hk : (s.comb n).swaps = k + 1) (hp : s.pow.powered = true) (hw : s.hiveWorks (n / 1024) = true) :
    s.bankSwap n = (swapState s n k).releaseReads := by
  have hgo : ¬ ((s.comb n).swaps = 0 ∨ (!s.pow.powered) = true ∨ (!s.hiveWorks (n / 1024)) = true) := by
    simp [hk, hp, hw]
  have hcomb : ({ ({ s.comb n with bankB := !(s.comb n).bankB, swaps := k } : Comb).markAltered (s.comb n).bankB false with
      heldWrites := if k = 0 then [] else (s.comb n).heldWrites } : Comb) = swapped (s.comb n) k := by
    unfold Comb.markAltered swapped
    cases hb : (s.comb n).bankB <;> rfl
  refine (if_neg hgo).trans ?_
  rw [swapState, State.performHeld, ← hcomb]
  simp only [hk, Nat.add_sub_cancel, Comb.markAltered_swaps, Comb.markAltered_heldWrites, decide_eq_true_eq]

end

section
variable (s : State) (n k : Nat)

theorem swapState_eq : swapState s n k = ({ s.setComb n (swapped (s.comb n) k) with
    mem := ((s.setComb n (swapped (s.comb n) k)).storePieces (if k = 0 then (s.comb n).heldWrites else [])).mem
    trust := if (if k = 0 then (s.comb n).heldWrites else []) = [] then s.trust
      else s.trust.markBank n (s.comb n).bankB false } : State).bump 0x202004 := by
  rw [swapState, State.performHeld_eq]
  rfl

theorem swapState_mem : (swapState s n k).mem = (s.storePieces (if k = 0 then (s.comb n).heldWrites else [])).mem := by
  rw [swapState_eq]
  exact State.storePieces_mem_congr (s := s.setComb n (swapped (s.comb n) k)) (t := s) rfl _

theorem swapState_trust : (swapState s n k).trust = if (if k = 0 then (s.comb n).heldWrites else []) = [] then s.trust
    else s.trust.markBank n (s.comb n).bankB false := by
  rw [swapState_eq]
  rfl

theorem swapState_swarm : (swapState s n k).swarm = (s.setComb n (swapped (s.comb n) k)).swarm := by
  rw [swapState_eq]
  rfl

theorem swapState_host : (swapState s n k).host = s.host := by
  rw [swapState_eq]
  rfl

theorem swapState_reg : (swapState s n k).reg 0x202004 = satAdd 64 (s.reg 0x202004) 1 := by
  rw [swapState_eq]
  exact State.reg_setReg _ _ _ _

theorem swapState_comb (m : Nat) : (swapState s n k).comb m = (s.setComb n (swapped (s.comb n) k)).comb m := by
  exact congrArg (fun w => SMap.get {} w.combs m) (swapState_swarm s n k)

end

/-- Settles O36: the swap's state is `swapState`, whose held writes are those of `performHeld_eq`. -/
theorem bankSwap : Obligations.BankSwap := by
  unfold Obligations.BankSwap
  intro s n k hk hp hw c
  refine ⟨swapState s n k, (exec_bankSwap s n).trans (congrArg _ (bankSwap_eq hk hp hw)), ?_, fun m hm => ?_, ?_, swapState_reg s n k,
    ?_, ?_, ?_, swapState_host s n k, fun hr => State.releaseReads_none (by rw [swapState_host]; exact hr)⟩
  · rw [swapState_comb, State.comb_setComb]
    rfl
  · rw [swapState_comb, State.comb_setComb_other _ _ hm]
  · rw [swapState_mem]
    split <;> rfl
  · rw [swapState_swarm]
    rfl
  · rw [swapState_swarm]
    rfl
  · rw [swapState_trust]
    by_cases h0 : k = 0
    · by_cases hc : (s.comb n).heldWrites = []
      · rw [if_pos h0, if_pos hc, if_neg (fun h => h.2 hc)]
      · rw [if_pos h0, if_neg hc, if_pos ⟨h0, hc⟩]
    · rw [if_neg h0, if_pos rfl, if_neg (fun h => h0 h.1)]

end Sys2Proof.Proofs
end

section
/-! SUPPORT. Swap requests and debug writes (R117, R120): the combs they reach, the address of a command, and the bytes stored. -/

namespace Sys2Proof.Machine

open Sys2Proof Sys2Proof.Safety

@[simp] theorem State.touch_mem (s : State) (c : Ctx) : (s.touch c).mem = s.mem := by rw [State.touch_fields]
@[simp] theorem State.touch_swarm (s : State) (c : Ctx) : (s.touch c).swarm = s.swarm := by rw [State.touch_fields]
@[simp] theorem State.touch_trust (s : State) (c : Ctx) : (s.touch c).trust = s.trust := by rw [State.touch_fields]
theorem State.comb_touch (s : State) (c : Ctx) (n : Nat) : (s.touch c).comb n = s.comb n := by rw [State.touch_fields]; rfl
theorem State.hiveWorks_touch (s : State) (c : Ctx) (h : Nat) : (s.touch c).hiveWorks h = s.hiveWorks h := by rw [State.touch_fields]; rfl

/-! ## Swap requests -/

/-- One more swap is requested of comb `n`. -/
def State.addSwap (s : State) (n : Nat) : State := s.setComb n { s.comb n with swaps := (s.comb n).swaps + 1 }

/-- One more swap is requested of each of `count` combs from `first`. -/
def State.addSwaps (s : State) (first count : Nat) : State := (List.range count).foldl (fun (u : State) k => u.addSwap (first + k)) s

theorem State.addSwaps_succ (s : State) (first count : Nat) :
    s.addSwaps first (count + 1) = (s.addSwaps first count).addSwap (first + count) := by
  simp only [State.addSwaps, List.range_succ, List.foldl_append, List.foldl_cons, List.foldl_nil]

theorem State.comb_addSwaps (s : State) (first count m : Nat) : (s.addSwaps first count).comb m =
    if first ≤ m ∧ m < first + count then { s.comb m with swaps := (s.comb m).swaps + 1 } else s.comb m := by
  induction count with
  | zero => exact (if_neg (by omega)).symm
  | succ count ih =>
    rw [State.addSwaps_succ, State.addSwap]
    by_cases hm : m = first + count
    · subst hm
      rw [State.comb_setComb, ih, if_neg (by omega), if_pos (by omega)]
    · rw [State.comb_setComb_other _ _ hm, ih]
      exact if_congr (by omega) rfl rfl

/-- Requests for swaps change the combs alone. -/
theorem State.addSwaps_onCombs (s : State) (first count : Nat) :
    s.addSwaps first count = { s with swarm := { s.swarm with combs := (s.addSwaps first count).swarm.combs } } := by
  induction count with
  | zero => rfl
  | succ count ih =>
    rw [State.addSwaps_succ, ih]
    rfl

/-- A request for a range of working combs adds a swap to each. -/
theorem State.swapRequest_accepted {s : State} {v first count : Nat} (hfirst : fieldOf 13 0 v = first) (hcount : fieldOf 28 14 v = count)
    (h0 : count ≠ 0) (hrange : first + count ≤ 16384)
    (hw : ∀ h, first / 1024 ≤ h → h ≤ (first + count - 1) / 1024 → s.hiveWorks h = true) :
    s.swapRequest v = some (s.addSwaps first count) := by
  have hany : (((List.range 16).filter fun h => decide (first / 1024 ≤ h) && decide (h ≤ (first + count - 1) / 1024)).any
      fun h => !s.hiveWorks h) = false := by
    rw [List.any_eq_false]
    intro h hh
    simp only [List.mem_filter, Bool.and_eq_true, decide_eq_true_eq] at hh
    rw [hw h hh.2.1 hh.2.2]
    decide
  subst hfirst hcount
  refine if_neg ?_
  rw [hany]
  simp only [Bool.false_eq_true, or_false, not_or]
  exact ⟨h0, by omega⟩

/-! ## The program store -/

theorem place_hive {a h off : Nat} (ha : a = 0x1800000000 + h * 0x80000000 + off) (hh : h < 16) (hoff : off < 0x80000000) :
    place a = .hive h off := by
  have hdiv : (a - 0x1800000000) / 0x80000000 = h := by omega
  have hmod : (a - 0x1800000000) % 0x80000000 = off := by omega
  unfold place
  rw [if_neg (by omega), if_neg (by omega), if_neg (by omega), if_pos (by omega), hdiv, hmod]

/-- The words of the program store that lie in the bank `b` of comb `k` of hive `h` (R115). -/
theorem progOf_hive {a h k off : Nat} (b : Bool) (ha : a = 0x1800000000 + h * 0x80000000 + (k * 0x10000 + (if b then 0x8000 else 0) + off))
    (hh : h < 16) (hk : k < 1024) (hoff : off < 0x8000) : progOf a = some (h * 1024 + k, b) := by
  have hb : (if b then 0x8000 else 0) ≤ 0x8000 := by split <;> decide
  unfold progOf
  rw [place_hive ha hh (by omega)]
  refine (if_pos (by unfold slotRecordsBase; omega)).trans ?_
  rw [show (k * 0x10000 + (if b then 0x8000 else 0) + off) / 0x10000 = k by omega]
  congr 2
  cases b
  · exact decide_eq_false (by simp only [Bool.false_eq_true, if_false]; omega)
  · exact decide_eq_true (by simp only [if_true]; omega)

/-- A command's word lies in the bank of its comb (R115). -/
theorem progOf_progAddr {n off : Nat} (b : Bool) (hn : n < 16384) (hoff : off < 0x8000) : progOf (progAddr n b off) = some (n, b) := by
  have ha : progAddr n b off
      = 0x1800000000 + n / 1024 * 0x80000000 + (n % 1024 * 0x10000 + (if b then 0x8000 else 0) + off) := by
    rw [progAddr, Nat.add_assoc, Nat.add_assoc, Nat.add_assoc (n % 1024 * 0x10000)]
  rw [progOf_hive b ha (by omega) (Nat.mod_lt _ (by decide)) hoff, Nat.div_add_mod']

theorem State.storePieces_onMem (s : State) (ps : List (Nat × List Byte)) :
    s.storePieces ps = { s with mem := (s.storePieces ps).mem } := by
  induction ps generalizing s with
  | nil => rfl
  | cons p ps ih =>
    have hrest : ∀ m, ({ s.storePiece p.1 p.2 with mem := m } : State) = { s with mem := m } := by
      intro m
      rw [State.storePiece_onMem]
    exact (ih (s.storePiece p.1 p.2)).trans (hrest _)

theorem State.rawByte_storePiece (s : State) (a : Nat) (bs : List Byte) {k : Nat} (hk : k < bs.length) :
    (s.storePiece a bs).rawByte (a + k) = bs.getD k 0 := by
  rw [State.storePiece, State.rawByte_setBytes _ _ _ _ hk, List.getD_eq_getElem _ _ hk]

theorem State.rawByte_storePiece_other (s : State) {a c : Nat} (bs : List Byte) (h : c < a ∨ a + bs.length ≤ c) :
    (s.storePiece a bs).rawByte c = s.rawByte c := by
  rw [State.storePiece, State.rawByte_setBytes_other _ _ _ _ h]
  rfl

theorem getD_slice (bs : List Byte) (off : Nat) {len k : Nat} (hk : k < len) : (slice bs off len).getD k 0 = bs.getD (off + k) 0 := by
  unfold slice
  dsimp only
  rcases lt_or_ge (off + k) bs.length with h | h
  · rw [List.getD_append _ _ _ _ (by rw [List.length_take, List.length_drop]; omega), List.getD_eq_getElem _ _ h,
      List.getD_eq_getElem _ _ (by rw [List.length_take, List.length_drop]; omega), List.getElem_take, List.getElem_drop]
  · rw [List.getD_append_right _ _ _ _ (by rw [List.length_take, List.length_drop]; omega), List.getD_eq_default bs _ h,
      List.getD_replicate _ (by rw [List.length_take, List.length_drop]; omega)]

/-- The two 8 B pieces of a debug write of the command at `a` (R120). -/
def debugPieces (a : Nat) (bs : List Byte) : List (Nat × List Byte) := [(a, slice bs 16 8), (a + 8, slice bs 24 8)]

theorem State.rawByte_debugPieces (s : State) (a : Nat) (bs : List Byte) {k : Nat} (hk : k < 16) :
    (s.storePieces (debugPieces a bs)).rawByte (a + k) = bs.getD (16 + k) 0 := by
  show ((s.storePiece a (slice bs 16 8)).storePiece (a + 8) (slice bs 24 8)).rawByte (a + k) = _
  rcases Nat.lt_or_ge k 8 with h | h
  · rw [State.rawByte_storePiece_other _ _ (.inl (by omega)), State.rawByte_storePiece _ _ _ (by rw [length_slice]; exact h),
      getD_slice _ _ h]
  · obtain ⟨j, rfl⟩ := Nat.exists_eq_add_of_le h
    rw [← Nat.add_assoc a, State.rawByte_storePiece _ _ _ (by rw [length_slice]; omega), getD_slice _ _ (by omega)]
    congr 1
    omega

theorem State.rawByte_debugPieces_other (s : State) {a x : Nat} (bs : List Byte) (h : x < a ∨ a + 16 ≤ x) :
    (s.storePieces (debugPieces a bs)).rawByte x = s.rawByte x := by
  show ((s.storePiece a (slice bs 16 8)).storePiece (a + 8) (slice bs 24 8)).rawByte x = _
  rw [State.rawByte_storePiece_other _ _ (by rw [length_slice]; omega), State.rawByte_storePiece_other _ _ (by rw [length_slice]; omega)]

/-! ## Debug writes (R120) -/

/-- A comb with a thread in it is marked altered in a bank. -/
def State.markComb (s : State) (n : Nat) (b : Bool) : State := if s.combEmpty n then s else s.setComb n ((s.comb n).markAltered b true)

theorem State.markComb_comb (u : State) (n : Nat) (b : Bool) : (u.markComb n b).comb n =
    if u.combEmpty n = false then (u.comb n).markAltered b true else u.comb n := by
  unfold State.markComb
  cases u.combEmpty n
  · exact State.comb_setComb _ _ _
  · rfl

theorem State.markComb_other (u : State) {n m : Nat} (b : Bool) (h : m ≠ n) : (u.markComb n b).comb m = u.comb m := by
  unfold State.markComb
  split
  · rfl
  · exact State.comb_setComb_other _ _ h

theorem State.markComb_rest (u : State) (n : Nat) (b : Bool) :
    u.markComb n b = { u with swarm := { u.swarm with combs := (u.markComb n b).swarm.combs } } := by
  unfold State.markComb
  split <;> rfl

/-- The writes `ps` are held for the comb's swap. -/
def State.hold (s : State) (n : Nat) (ps : List (Nat × List Byte)) : State :=
  s.setComb n { s.comb n with heldWrites := (s.comb n).heldWrites ++ ps }

theorem State.comb_hold (s : State) (n : Nat) (ps : List (Nat × List Byte)) :
    (s.hold n ps).comb n = { s.comb n with heldWrites := (s.comb n).heldWrites ++ ps } := State.comb_setComb _ _ _

theorem State.comb_hold_other (s : State) {n m : Nat} (ps : List (Nat × List Byte)) (h : m ≠ n) : (s.hold n ps).comb m = s.comb m :=
  State.comb_setComb_other _ _ h

section
variable {s : State} {bs : List Byte} {n a : Nat} {bank : Bool}

/-- A piece for the inactive bank of a comb without swaps is stored. -/
theorem State.progWrite_stored (ha : progOf a = some (n, bank)) (hb : (s.comb n).shownB ≠ bank) (hs : (s.comb n).swaps = 0) :
    (s.progWrite a bs).2 = (s.storePiece a bs).markBank n bank false := by
  unfold State.progWrite
  simp only [ha]
  rw [if_neg hb, if_neg (by omega)]

/-- A piece for the inactive bank of a comb with swaps is held. -/
theorem State.progWrite_held (ha : progOf a = some (n, bank)) (hb : (s.comb n).shownB ≠ bank) (hs : 0 < (s.comb n).swaps) :
    (s.progWrite a bs).2 = s.hold n [(a, bs)] := by
  unfold State.progWrite
  simp only [ha]
  rw [if_neg hb, if_pos hs]
  rfl

end

section
variable {s : State} {bs : List Byte}

/-- A debug write names a command of a working hive. -/
def State.debugNames (s : State) (bs : List Byte) : Prop :=
  numAt bs 0 2 < 16384 ∧ numAt bs 2 1 ≤ 1 ∧ numAt bs 4 2 < 2048 ∧ s.hiveWorks (numAt bs 0 2 / 1024) = true

/-- The bank and the address of the command that a debug write names. -/
def debugBank (bs : List Byte) : Bool := decide (numAt bs 2 1 = 1)
def debugAddr (bs : List Byte) : Nat := progAddr (numAt bs 0 2) (debugBank bs) (numAt bs 4 2 * 16)

theorem State.debugWrite_eq (h : s.debugNames bs) : s.debugWrite bs =
    if (s.comb (numAt bs 0 2)).shownB = debugBank bs then
      some (true, ((((s.storePieces (debugPieces (debugAddr bs) bs)).markBank (numAt bs 0 2) (debugBank bs) true).markComb (numAt bs 0 2)
        (debugBank bs)).bump 0x202006))
    else some (false, (((s.progWrite (debugAddr bs) (slice bs 16 8)).2).progWrite (debugAddr bs + 8) (slice bs 24 8)).2) := by
  obtain ⟨hn, hb, hi, hw⟩ := h
  refine if_neg ?_
  rw [hw]
  simp only [Bool.not_true, Bool.false_eq_true, or_false, not_or]
  omega

theorem progOf_debugAddr (h : s.debugNames bs) : progOf (debugAddr bs) = some (numAt bs 0 2, debugBank bs)
    ∧ progOf (debugAddr bs + 8) = some (numAt bs 0 2, debugBank bs) := by
  obtain ⟨hn, -, hi, -⟩ := h
  exact ⟨progOf_progAddr _ hn (by omega), progOf_progAddr (off := numAt bs 4 2 * 16 + 8) _ hn (by omega)⟩

theorem State.debugWrite_active (h : s.debugNames bs) (hb : (s.comb (numAt bs 0 2)).shownB = debugBank bs) : s.debugWrite bs =
    some (true, ((({ s with mem := (s.storePieces (debugPieces (debugAddr bs) bs)).mem
                            trust := s.trust.markBank (numAt bs 0 2) (debugBank bs) true } : State).markComb (numAt bs 0 2)
        (debugBank bs)).bump 0x202006)) := by
  rw [State.debugWrite_eq h, if_pos hb, State.markBank, State.storePieces_onMem]

theorem State.debugWrite_inactive (h : s.debugNames bs) (hb : (s.comb (numAt bs 0 2)).shownB ≠ debugBank bs)
    (hs : (s.comb (numAt bs 0 2)).swaps = 0) : s.debugWrite bs =
    some (false, { s with mem := (s.storePieces (debugPieces (debugAddr bs) bs)).mem
                          trust := s.trust.markBank (numAt bs 0 2) (debugBank bs) false }) := by
  obtain ⟨h0, h8⟩ := progOf_debugAddr h
  have hcomb : ((s.storePiece (debugAddr bs) (slice bs 16 8)).markBank (numAt bs 0 2) (debugBank bs) false).comb (numAt bs 0 2)
      = s.comb (numAt bs 0 2) := by
    rw [State.storePiece_onMem]
    rfl
  rw [State.debugWrite_eq h, if_neg hb, State.progWrite_stored h0 hb hs, State.progWrite_stored h8 (by rwa [hcomb]) (by rwa [hcomb])]
  exact congrArg (fun u => some (false, u)) (State.performHeld_eq s _ _ (debugPieces (debugAddr bs) bs))

theorem State.debugWrite_held (h : s.debugNames bs) (hb : (s.comb (numAt bs 0 2)).shownB ≠ debugBank bs)
    (hs : 0 < (s.comb (numAt bs 0 2)).swaps) : s.debugWrite bs =
    some (false, (s.hold (numAt bs 0 2) [(debugAddr bs, slice bs 16 8)]).hold (numAt bs 0 2) [(debugAddr bs + 8, slice bs 24 8)]) := by
  obtain ⟨h0, h8⟩ := progOf_debugAddr h
  rw [State.debugWrite_eq h, if_neg hb, State.progWrite_held h0 hb hs,
    State.progWrite_held h8 (by rw [State.comb_hold]; exact hb) (by rw [State.comb_hold]; exact hs)]

end

end Sys2Proof.Machine
end

section
/-! PROOF. O41, first part: swap requests and debug writes. -/

namespace Sys2Proof.Proofs

open Sys2Proof Sys2Proof.Machine Sys2Proof.Safety

theorem resolve_swapRequest : resolve 0x2020 1 = some ⟨⟨0x202001, .u64, .wo, 8, 0, 3, 0, false, false, 0⟩, false, 0⟩ := by
  decide +kernel
theorem resolve_debugWrite : resolve 0x2020 5 = some ⟨⟨0x202005, .blob, .wo, 32, 0, 3, 1, false, false, 0⟩, false, 0⟩ := by
  decide +kernel

/-- Where one field of a value is reserved, the rest of it counts (R9). -/
theorem cleanValue_field {key hi lo : Nat} (hkey : key ≠ 0x601004) (h : reservedBits key = [(hi, lo)]) (v : Nat) :
    cleanValue key v = setField v lo (hi + 1 - lo) 0 := by
  rw [cleanValue, if_neg hkey, h, clearAll, List.foldl_cons, List.foldl_nil, clearBits]

theorem fieldOf_setField_above {hi lo l w : Nat} (h : hi < l) (hlo : lo ≤ hi) (v : Nat) :
    fieldOf hi lo (setField v l w 0) = fieldOf hi lo v := by
  apply Nat.eq_of_testBit_eq
  intro i
  unfold fieldOf
  simp only [Nat.testBit_mod_two_pow, Nat.testBit_div_two_pow, testBit_setField_zero]
  by_cases hi' : i < hi + 1 - lo
  · simp [show ¬ l ≤ i + lo by omega]
  · simp [hi']

/-- The reserved bits of a swap request, [63:29], are none of its fields (R117). -/
theorem cleanValue_swapRequest (v : W64) :
    fieldOf 13 0 (cleanValue 0x202001 v.toNat) = fieldOf 13 0 v.toNat
      ∧ fieldOf 28 14 (cleanValue 0x202001 v.toNat) = fieldOf 28 14 v.toNat := by
  rw [cleanValue_field (by decide) rfl]
  exact ⟨fieldOf_setField_above (by decide) (by decide) _, fieldOf_setField_above (by decide) (by decide) _⟩

theorem act_swapRequest (s : State) (c : Ctx) (role u v : Nat) (bs : List Byte) :
    s.act c role 0x202001 u v bs = orRefused s (s.swapRequest v) := rfl

theorem bankSwapRequest_performed {s : State} {c : Ctx} {v : W64} {first count : Nat} (h : writeReaches s c 0x2020 1 8 = true)
    (hfirst : fieldOf 13 0 v.toNat = first) (hcount : fieldOf 28 14 v.toNat = count) (h0 : count ≠ 0) (hrange : first + count ≤ 16384)
    (hw : ∀ k, first / 1024 ≤ k → k ≤ (first + count - 1) / 1024 → s.hiveWorks k = true) :
    ∃ t, exec (.bankSwapRequest c v) s = .next t ∧ Performed c ((s.touch c).addSwaps first count) t := by
  obtain ⟨hf, hc⟩ := cleanValue_swapRequest v
  have hreq := State.swapRequest_accepted (s := s.touch c) (hf.trans hfirst) (hc.trans hcount) h0 hrange
    fun k hlo hhi => (State.hiveWorks_touch s c k).trans (hw k hlo hhi)
  refine ⟨_, rfl, State.writeRow_performed resolve_swapRequest (by decide) v.isLt h ?_⟩
  rw [act_swapRequest, hreq]
  rfl

/-! ## Debug writes -/

/-- What is left of a state by an event in the trust record and a response. -/
theorem State.eq_of_event {w t : State} {c : Ctx} {kind role key : Nat} {bs : List Byte}
    (h : t = { w.serviceEvent kind c role key bs with
      dict := { (w.serviceEvent kind c role key bs).dict with response := t.dict.response } }) :
    t = { w with trust := t.trust, dict := { w.dict with response := t.dict.response } } := by
  have htrust : t.trust = (w.serviceEvent kind c role key bs).trust := (congrArg State.trust h :)
  refine h.trans ?_
  rw [htrust]
  rfl

/-- A debug write that is accepted leaves what `debugWrite` leaves, and an event in the trust record. -/
theorem debugProgramWrite_performed {s : State} {c : Ctx} {data : List Byte} {b : Bool} {w : State}
    (h : writeReaches s c 0x2020 5 data.length = true) (hw : (s.touch c).debugWrite data = some (b, w)) :
    ∃ t, exec (.debugProgramWrite c data) s = .next t ∧ t.trust.banks = w.trust.banks
      ∧ t = { w with trust := t.trust, dict := { w.dict with response := t.dict.response } } := by
  have hact : (s.touch c).act c ((s.touch c).roleOf c) 0x202005 0 (cleanValue 0x202005 (leNat data)) data
      = (0, w.serviceEvent 2 c ((s.touch c).roleOf c) 0x202005 data) := by
    show (match (s.touch c).debugWrite data with
      | some r => State.recorded (0, r.2) c ((s.touch c).roleOf c) 0x202005 data
      | none => (6, s.touch c)) = _
    rw [hw]
    rfl
  obtain ⟨ht, -⟩ := State.itemRow_performed resolve_debugWrite (by decide) h rfl hact
  exact ⟨_, rfl, (congrArg (fun u => u.trust.banks) ht :), State.eq_of_event ht⟩

section
variable {s : State} {c : Ctx} {data : List Byte}

theorem debugNames_touch (h : s.debugNames data) : (s.touch c).debugNames data := by
  obtain ⟨hn, hb, hi, hw⟩ := h
  exact ⟨hn, hb, hi, (State.hiveWorks_touch _ _ _).trans hw⟩

/-- What a debug write that stores its bytes leaves. -/
structure DebugStored (s : State) (data : List Byte) (t : State) : Prop where
  mem : t.mem = (s.storePieces (debugPieces (debugAddr data) data)).mem
  comb : t.comb (numAt data 0 2) =
    if decide ((s.comb (numAt data 0 2)).shownB = debugBank data) ∧ s.combEmpty (numAt data 0 2) = false then
      (s.comb (numAt data 0 2)).markAltered (debugBank data) true
    else s.comb (numAt data 0 2)
  other : ∀ m, m ≠ numAt data 0 2 → t.comb m = s.comb m
  count : t.reg 0x202006 =
    if decide ((s.comb (numAt data 0 2)).shownB = debugBank data) then satAdd 64 (s.reg 0x202006) 1 else s.reg 0x202006
  rest : t.swarm.slots = s.swarm.slots ∧ t.swarm.pads = s.swarm.pads ∧ t.net = s.net ∧ t.host = s.host ∧ t.pow = s.pow

/-- An event in the trust record and a response change nothing of what a debug write leaves. -/
theorem DebugStored.of_event {w t : State} (hw : DebugStored s data w)
    (ht : t = { w with trust := t.trust, dict := { w.dict with response := t.dict.response } }) : DebugStored s data t := by
  obtain ⟨hmem, hcomb, hother, hcount, hrest⟩ := hw
  rw [ht]
  exact ⟨hmem, hcomb, hother, hcount, hrest⟩

/-- What a debug write of the active bank leaves: it is counted, and an occupied comb is marked. -/
theorem debugStored_active (x : Trust) (hb : (s.comb (numAt data 0 2)).shownB = debugBank data) :
    DebugStored s data ((({ s.touch c with mem := ((s.touch c).storePieces (debugPieces (debugAddr data) data)).mem
                                           trust := x } : State).markComb (numAt data 0 2) (debugBank data)).bump 0x202006) := by
  generalize hu : ({ s.touch c with mem := ((s.touch c).storePieces (debugPieces (debugAddr data) data)).mem, trust := x } : State) = u
  have hcomb : ∀ m, u.comb m = s.comb m := fun m => by rw [← hu]; exact State.comb_touch s c m
  have hswarm : u.swarm = s.swarm := by rw [← hu]; exact State.touch_swarm s c
  have hempty : u.combEmpty (numAt data 0 2) = s.combEmpty (numAt data 0 2) := by rw [State.combEmpty, hswarm, State.combEmpty]
  have hmark := State.markComb_rest u (numAt data 0 2) (debugBank data)
  have hreg : (u.markComb (numAt data 0 2) (debugBank data)).reg 0x202006 = s.reg 0x202006 := by
    rw [hmark, ← hu]
    exact State.reg_touch s c _ _
  refine ⟨?_, ?_, fun m hm => ?_, ?_, ?_⟩
  · rw [State.bump_mem, hmark, ← hu]
    exact State.storePieces_mem_congr (State.touch_mem s c) _
  · refine (State.markComb_comb u _ _).trans ?_
    rw [hempty, hcomb]
    exact if_congr (by simp [hb]) rfl rfl
  · exact (State.markComb_other u _ hm).trans (hcomb m)
  · rw [decide_eq_true hb, if_pos rfl, ← hreg]
    exact State.reg_setReg _ _ _ _
  · rw [State.bump_swarm, State.bump_net, State.bump_host, State.bump_pow, hmark, ← hu, State.touch_fields s c]
    exact ⟨rfl, rfl, rfl, rfl, rfl⟩

/-- What a debug write of the inactive bank of a comb without swaps leaves. -/
theorem debugStored_inactive (x : Trust) (hb : (s.comb (numAt data 0 2)).shownB ≠ debugBank data) :
    DebugStored s data { s.touch c with mem := ((s.touch c).storePieces (debugPieces (debugAddr data) data)).mem, trust := x } := by
  refine ⟨State.storePieces_mem_congr (State.touch_mem s c) _, ?_, fun m _ => State.comb_touch s c m, ?_, ?_⟩
  · rw [if_neg (by simp [hb])]
    exact State.comb_touch s c _
  · rw [decide_eq_false hb]
    exact State.reg_touch s c _ _
  · rw [State.touch_fields s c]
    exact ⟨rfl, rfl, rfl, rfl, rfl⟩

/-- A debug write that is not held stores its bytes. -/
theorem debugProgramWrite_stored (hr : writeReaches s c 0x2020 5 data.length = true) (h : s.debugNames data)
    (hbank : (s.comb (numAt data 0 2)).shownB = debugBank data ∨ (s.comb (numAt data 0 2)).swaps = 0) :
    ∃ t, exec (.debugProgramWrite c data) s = .next t ∧ DebugStored s data t := by
  have hn := debugNames_touch (c := c) h
  by_cases hb : (s.comb (numAt data 0 2)).shownB = debugBank data
  · obtain ⟨t, ht, -, hframe⟩ := debugProgramWrite_performed hr (State.debugWrite_active hn (by rwa [State.comb_touch]))
    exact ⟨t, ht, (debugStored_active _ hb).of_event hframe⟩
  · obtain ⟨t, ht, -, hframe⟩ := debugProgramWrite_performed hr
      (State.debugWrite_inactive hn (by rwa [State.comb_touch]) (by rw [State.comb_touch]; exact hbank.resolve_left hb))
    exact ⟨t, ht, (debugStored_inactive _ hb).of_event hframe⟩

/-- A debug write of the inactive bank of a comb with swaps is held for them. -/
theorem debugProgramWrite_held (hr : writeReaches s c 0x2020 5 data.length = true) (h : s.debugNames data)
    (hb : (s.comb (numAt data 0 2)).shownB ≠ debugBank data) (hs : 0 < (s.comb (numAt data 0 2)).swaps) :
    ∃ t, exec (.debugProgramWrite c data) s = .next t ∧ t.mem = s.mem
      ∧ t.comb (numAt data 0 2) = { s.comb (numAt data 0 2) with
          heldWrites := (s.comb (numAt data 0 2)).heldWrites ++ debugPieces (debugAddr data) data }
      ∧ (∀ m, m ≠ numAt data 0 2 → t.comb m = s.comb m)
      ∧ t.swarm = { s.swarm with combs := t.swarm.combs } ∧ t.trust.banks = s.trust.banks ∧ t.net = s.net ∧ t.host = s.host
      ∧ t.pow = s.pow := by
  have hw := State.debugWrite_held (debugNames_touch (c := c) h) (by rwa [State.comb_touch]) (by rwa [State.comb_touch])
  obtain ⟨t, ht, hbanks, hframe⟩ := debugProgramWrite_performed hr hw
  refine ⟨t, ht, ?_, ?_, fun m hm => ?_, ?_, hbanks.trans (congrArg Trust.banks (State.touch_trust s c)), ?_, ?_, ?_⟩
  · rw [hframe]
    exact State.touch_mem s c
  · rw [hframe]
    refine (State.comb_hold _ _ _).trans ?_
    rw [State.comb_hold, State.comb_touch, List.append_assoc]
    rfl
  · rw [hframe]
    exact ((State.comb_hold_other _ _ hm).trans (State.comb_hold_other _ _ hm)).trans (State.comb_touch s c m)
  all_goals rw [hframe, State.touch_fields s c]; rfl

end

end Sys2Proof.Proofs
end

section
/-! SUPPORT. Measurements, quotes and firmware commands (R446, R447, R451, R453): what each makes of the state it finds. -/

namespace Sys2Proof.Machine

open Sys2Proof Sys2Proof.Safety

/-! ## Measurements (R446, R447) -/

theorem State.measure_begins {s : State} {v n j : Nat} {b : Bool} (hn : fieldOf 13 0 v = n) (hb : bitOf v 14 = b)
    (hj : fieldOf 17 16 v = j) (hw : s.hiveWorks (n / 1024) = true) (hm : s.trust.measuring = none) :
    s.measure v = (0,
      let digest := sha3 (natLE 2 n ++ [BitVec.ofNat 8 (b2n b), 0, 0, 0, 0, 0] ++ s.bankBytes n b)
      { s with trust := { s.trust with measuring := some { slot := j, comb := n, bankB := b, digest := digest } } }) := by
  subst hn hb hj
  unfold State.measure
  simp only [hw, hm, Bool.not_true, Bool.false_eq_true, if_false, Option.isSome_none]

theorem State.measure_busy {s : State} {v n : Nat} (hn : fieldOf 13 0 v = n) (hw : s.hiveWorks (n / 1024) = true)
    (hm : s.trust.measuring.isSome = true) : s.measure v = (7, s) := by
  subst hn
  unfold State.measure
  simp only [hw, hm, Bool.not_true, Bool.false_eq_true, if_false, if_true]

theorem Trust.finishMeasure_some {t : Trust} {m : Measuring} (h : t.measuring = some m) : t.finishMeasure = t.measured m := by
  rw [Trust.finishMeasure, h]

section
variable {α β : Type} {n : Nat}

theorem vector_getD_map (v : Vector α n) (f : α → β) (d : α) (e : β) {i : Nat} (h : i < n) :
    (v.map f).getD i e = f (v.getD i d) := by
  simp [Vector.getD, h]

end

/-! ## Quotes (R451) -/

/-- The contexts once a new quote has been asked for from `c`. -/
def forgetQuote (c : Ctx) (ks : List CtxState) : List CtxState :=
  ks.map fun (k : CtxState) => if k.ctx = c then { k with quote := none } else k

/-- A context whose quote is forgotten has none. -/
theorem quote_forgetQuote (c : Ctx) (ks : List CtxState) (now : Nat) :
    (((forgetQuote c ks).find? fun k => k.ctx == c).getD (CtxState.fresh c now)).quote = none := by
  rcases hf : (forgetQuote c ks).find? (fun k => k.ctx == c) with _ | k
  · rw [hf]
    rfl
  · obtain ⟨k₀, -, rfl⟩ := List.mem_map.mp (List.mem_of_find?_eq_some hf)
    have hk := List.find?_some hf
    by_cases h : k₀.ctx = c
    · rw [hf, Option.getD_some, if_pos h]
    · rw [if_neg h] at hk
      exact absurd (eq_of_beq hk) h

/-- The host side's part of a quote depends on neither the contexts nor the number of the next quote. -/
theorem State.hostPart_congr (s : State) (ks : List CtxState) (qs : List QuoteJob) (k : Nat) (nonce : List Byte) :
    ({ s with trust := { s.trust with nextQuote := k }, dict := { s.dict with contexts := ks, quotes := qs } } : State).hostPart nonce
      = s.hostPart nonce := rfl

/-- A message to an island that has power is on its way (R407). -/
theorem State.toIsland_powered {s : State} (h : s.isl.powered = true) (kind : Nat) (bs : List Byte) (job : Nat) :
    s.toIsland kind bs job = { s with isl := { s.isl with
      toIsland := s.isl.toIsland ++ [⟨crossingBytes kind s.isl.hostSeq bs, job⟩], hostSeq := (s.isl.hostSeq + 1) % 256 } } := by
  refine if_neg ?_
  rw [h]
  decide

/-- The state once a quote has been asked for from a context of the host side. -/
def State.quoteAsked (s : State) (c : Ctx) (nonce : List Byte) : State :=
  { s with
    trust := { s.trust with nextQuote := s.trust.nextQuote + 1 }
    dict := { s.dict with
      contexts := forgetQuote c s.dict.contexts
      quotes := (s.dict.quotes.filter fun (q : QuoteJob) => q.ctx != c) ++ [⟨s.trust.nextQuote % 65536, c, nonce, s.now, []⟩] }
    isl := { s.isl with
      toIsland := s.isl.toIsland
        ++ [⟨crossingBytes 9 s.isl.hostSeq (natLE 2 (s.trust.nextQuote % 65536) ++ [0, 0] ++ s.hostPart nonce), 0⟩]
      hostSeq := (s.isl.hostSeq + 1) % 256 } }

theorem State.askQuote_opens {s : State} {c : Ctx} {nonce : List Byte} (hup : s.islandUp = true) (hid : s.identityGood = true)
    (hpath : c.path ≠ 3) (hd : (s.dict.quotes.any fun q => q.open_ c s.now) = false)
    (hi : (s.isl.quotes.any fun q => q.open_ c s.now) = false) : s.askQuote c nonce = (0, s.quoteAsked c nonce) := by
  have hpow : s.isl.powered = true := by
    rw [State.islandUp, Bool.and_eq_true] at hup
    exact hup.1
  unfold State.askQuote
  simp only [hup, hid, hd, hi, Bool.not_true, Bool.or_self, Bool.false_eq_true, if_false]
  rw [if_neg hpath, State.toIsland_powered (by exact hpow), State.hostPart_congr]
  rfl

theorem State.askQuote_mismatch {s : State} {c : Ctx} {nonce : List Byte} (hid : s.identityGood = false) : s.askQuote c nonce = (9, s) := by
  unfold State.askQuote
  rw [hid]
  exact if_pos (by simp)

/-! ## Firmware (R453) -/

section
variable {s : State} {role comp v : Nat} (hv : v / 16 = comp) (hcomp : comp = 1 ∨ comp = 2) (hs : s.trust.staging = none)
  (hp : s.isl.powered = true)
include hv hcomp hs hp

theorem State.fwCommand_stage (hop : v % 16 = 1) (hrole : role ≠ 0)
    (hrun : (s.component comp).running ≠ some (1 - (s.component comp).active)) : s.fwCommand role v = (0, s.stageImage comp) := by
  have hstage : (s.component comp).stageable = true := by
    rw [Component.stageable, bne_iff_ne]
    exact hrun
  have h12 : ¬ (comp ≠ 1 ∧ comp ≠ 2) := by omega
  simp [State.fwCommand, hv, hop, h12, hrole, hs, hp, hstage]

theorem State.fwCommand_activate (hop : v % 16 = 2) (hstaged : (s.component comp).staged = true) : s.fwCommand role v =
    (0, if comp = 2 then
        (s.setComponent comp { s.component comp with active := 1 - (s.component comp).active, staged := false }).resetIsland
      else s.setComponent comp { s.component comp with active := 1 - (s.component comp).active, staged := false }) := by
  have h12 : ¬ (comp ≠ 1 ∧ comp ≠ 2) := by omega
  simp [State.fwCommand, hv, hop, h12, hs, hp, hstaged, Component.target]

theorem State.fwCommand_confirm (hop : v % 16 = 3) (hrole : role ≠ 0) (hrun : (s.component comp).running.isSome = true) :
    s.fwCommand role v = (0, s.confirm comp) := by
  have h12 : ¬ (comp ≠ 1 ∧ comp ≠ 2) := by omega
  have hnone : (s.component comp).running ≠ none := Option.isSome_iff_ne_none.mp hrun
  simp [State.fwCommand, hv, hop, h12, hrole, hs, hp, hnone]

end

theorem State.confirm_eq (s : State) {comp : Nat} (hcomp : comp = 1 ∨ comp = 2) : s.confirm comp =
    { s with trust := { s.trust with floors :=
      (if comp = 1 then max s.trust.floors.1 (imageSecurity s.trust.host.image) else s.trust.floors.1,
        if comp = 2 then max s.trust.floors.2 (imageSecurity s.trust.island.image) else s.trust.floors.2) } } := by
  rcases hcomp with rfl | rfl <;> rfl

/-- Staging that can end fills the inactive slot and reports its status. -/
theorem State.stageDone_eq {s : State} {comp : Nat} {sent bs : List Byte} (hs : s.trust.staging = some (comp, sent))
    (hp : s.pow.powered = true) (hcross : comp = 2 → (s.isl.toIsland.any fun m => m.kind == 0x0B) = false)
    (hbs : (if comp = 2 then assembleBlocks sent.length s.isl.blocks else sent) = bs) :
    s.stageDone =
      let w := s.setComponent comp { (s.component comp).setSlot (s.component comp).target ⟨bs, decide (s.imageStatus comp bs = 0)⟩ with
        staged := decide (s.imageStatus comp bs = 0) }
      ({ w with trust := { w.trust with staging := none }, isl := { w.isl with blocks := [] } } : State).setReg 0xA02003
        (s.imageStatus comp bs) := by
  have hgo : (!s.pow.powered || (decide (comp = 2) && s.isl.toIsland.any fun m => m.kind == 0x0B)) = false := by
    rw [hp, Bool.not_true, Bool.false_or, Bool.and_eq_false_iff, decide_eq_false_iff_not]
    exact Classical.or_iff_not_imp_left.mpr fun h => hcross (not_not.mp h)
  subst hbs
  unfold State.stageDone
  rw [hs]
  dsimp only
  rw [hgo]
  rfl

end Sys2Proof.Machine
end

section
/-! PROOF. O41: measurements, quotes and firmware, and the statement. -/

namespace Sys2Proof.Proofs

open Sys2Proof Sys2Proof.Machine Sys2Proof.Safety

theorem resolve_measure : resolve 0xA010 1 = some ⟨⟨0xA01001, .u32, .wo, 4, 0, 3, 0, false, false, 0⟩, false, 0⟩ := by
  decide +kernel
theorem resolve_firmware : resolve 0xA020 2 = some ⟨⟨0xA02002, .u8, .wo, 1, 0, 3, 0, false, false, 0⟩, false, 0⟩ := by
  decide +kernel
theorem resolve_nonce : resolve 0xA040 1 = some ⟨⟨0xA04001, .blob, .wo, 32, 0, 7, 0, false, false, 0⟩, false, 0⟩ := by
  decide +kernel

theorem act_measure (s : State) (c : Ctx) (role u v : Nat) (bs : List Byte) : s.act c role 0xA01001 u v bs = s.measure v := rfl
theorem act_firmware (s : State) (c : Ctx) (role u v : Nat) (bs : List Byte) : s.act c role 0xA02002 u v bs = s.fwCommand role v := rfl
theorem act_nonce (s : State) (c : Ctx) (role u v : Nat) (bs : List Byte) : s.act c role 0xA04001 u v bs = s.askQuote c bs := rfl

/-! ## Measurements -/

/-- The reserved bits of a measurement, [31:18], are none of its fields (R446). -/
theorem cleanValue_measure (v : Nat) : fieldOf 13 0 (cleanValue 0xA01001 v) = fieldOf 13 0 v
    ∧ bitOf (cleanValue 0xA01001 v) 14 = bitOf v 14 ∧ fieldOf 17 16 (cleanValue 0xA01001 v) = fieldOf 17 16 v := by
  rw [cleanValue_field (by decide) rfl]
  refine ⟨fieldOf_setField_above (by decide) (by decide) _, ?_, fieldOf_setField_above (by decide) (by decide) _⟩
  rw [bitOf_eq_testBit, bitOf_eq_testBit, testBit_setField_zero]
  simp

theorem measureBank_performs {c : Ctx} {v : W32} {n j : Nat} {b : Bool} (hn : fieldOf 13 0 v.toNat = n) (hb : bitOf v.toNat 14 = b)
    (hj : fieldOf 17 16 v.toNat = j) :
    Performs (exec (.measureBank c v)) c 0xA010 1 4 (fun u => u.hiveWorks (n / 1024) = true ∧ u.trust.measuring = none) (fun u =>
      let digest := sha3 (natLE 2 n ++ [BitVec.ofNat 8 (b2n b), 0, 0, 0, 0, 0] ++ u.bankBytes n b)
      { u with trust := { u.trust with measuring := some { slot := j, comb := n, bankB := b, digest := digest } } }) := by
  obtain ⟨hn', hb', hj'⟩ := cleanValue_measure v.toNat
  refine performs_of_act (fun _ => rfl) resolve_measure (by decide) v.isLt fun u ⟨hw, hm⟩ => ?_
  rw [act_measure]
  exact State.measure_begins (hn'.trans hn) (hb'.trans hb) (hj'.trans hj) hw hm

theorem measureBank_refused {s : State} {c : Ctx} {v : W32} (h : writeReaches s c 0xA010 1 4 = true)
    (hw : s.hiveWorks (fieldOf 13 0 v.toNat / 1024) = true) (hm : s.trust.measuring.isSome = true) :
    ∃ t, exec (.measureBank c v) s = .next t ∧ Refused c 7 (s.touch c) t := by
  obtain ⟨hn, -, -⟩ := cleanValue_measure v.toNat
  refine ⟨_, rfl, State.writeRow_refused resolve_measure (by decide) v.isLt h (by decide) (by decide) ?_⟩
  rw [act_measure]
  exact State.measure_busy hn (by rwa [State.hiveWorks_touch]) (by rwa [State.touch_trust])

/-- A measurement that finishes extends its slot and is entered in its record. -/
theorem finishMeasure_entered {t : Trust} {m : Measuring} (h : t.measuring = some m) (hm : m.slot < 4) :
    let r := t.banks.getD m.slot {}
    t.finishMeasure.hostSlots = t.hostSlots.setIfInBounds (12 + m.slot) (extendSlot (t.hostSlots.getD (12 + m.slot) 0) m.digest)
      ∧ t.finishMeasure.banks.getD m.slot {} = ⟨m.comb, m.bankB, true, r.changed || m.changed, r.altered || m.altered,
          satAdd 32 r.measurements 1, (m.comb, m.bankB) :: r.watched⟩
      ∧ (∀ k, k < 4 → k ≠ m.slot → t.finishMeasure.banks.getD k {} = t.banks.getD k {})
      ∧ t.finishMeasure = { t with measuring := none, hostSlots := t.finishMeasure.hostSlots, banks := t.finishMeasure.banks } := by
  intro r
  rw [Trust.finishMeasure_some h]
  refine ⟨rfl, ?_, fun k _ hk => ?_, rfl⟩
  · exact (vector_getD_set _ _ _ _ _).trans (if_pos ⟨rfl, hm⟩)
  · exact (vector_getD_set _ _ _ _ _).trans (if_neg fun hc => hk hc.1.symm)

theorem markBank_record (t : Trust) (n : Nat) (b altered : Bool) {k : Nat} (hk : k < 4) :
    let r := t.banks.getD k {}
    (t.markBank n b altered).banks.getD k {}
      = if (n, b) ∈ r.watched then { r with changed := true, altered := r.altered || altered } else r := by
  intro r
  rw [Trust.markBank_eq]
  refine (vector_getD_map t.banks (fun r => r.mark n b altered) {} {} hk).trans ?_
  exact if_congr List.contains_iff_mem rfl rfl

/-! ## Quotes -/

/-- A nonce that is taken opens a quote. -/
theorem quoteNonceWrite_opens {s : State} {c : Ctx} {nonce : List Byte} (h : writeReaches s c 0xA040 1 nonce.length = true)
    (hup : s.islandUp = true) (hpath : c.path ≠ 3) (hd : (s.dict.quotes.any fun q => q.open_ c s.now) = false)
    (hi : (s.isl.quotes.any fun q => q.open_ c s.now) = false) (hid : s.identityGood = true) :
    ∃ t, exec (.quoteNonceWrite c nonce) s = .next t ∧ Performed c ((s.touch c).quoteAsked c nonce) t := by
  refine ⟨_, rfl, State.itemRow_performed resolve_nonce (by decide) h rfl ?_⟩
  rw [act_nonce]
  refine State.askQuote_opens ?_ ?_ hpath ?_ ?_
  all_goals rw [State.touch_fields s c]; assumption

theorem quoteNonceWrite_refused {s : State} {c : Ctx} {nonce : List Byte} (h : writeReaches s c 0xA040 1 nonce.length = true)
    (hid : s.identityGood = false) : ∃ t, exec (.quoteNonceWrite c nonce) s = .next t ∧ Refused c 9 (s.touch c) t := by
  refine ⟨_, rfl, State.itemRow_refused resolve_nonce (by decide) h rfl (by decide) (by decide) ?_⟩
  rw [act_nonce]
  exact State.askQuote_mismatch (by rw [State.touch_fields s c]; exact hid)

/-- What the opened quote leaves, seen from the state before the request. -/
theorem quoteAsked_fields {s t : State} {c : Ctx} {nonce : List Byte} (h : Performed c ((s.touch c).quoteAsked c nonce) t) :
    t.dict.quotes = (s.dict.quotes.filter fun (q : QuoteJob) => q.ctx != c) ++ [⟨s.trust.nextQuote % 65536, c, nonce, s.now, []⟩]
      ∧ t.isl.toIsland = s.isl.toIsland
        ++ [⟨crossingBytes 9 s.isl.hostSeq (natLE 2 (s.trust.nextQuote % 65536) ++ [0, 0] ++ s.hostPart nonce), 0⟩]
      ∧ (t.context c).quote = none ∧ t.trust.nextQuote = s.trust.nextQuote + 1
      ∧ t.mem = s.mem ∧ t.swarm = s.swarm ∧ t.net = s.net := by
  have hpart : (s.touch c).hostPart nonce = s.hostPart nonce := by
    rw [State.touch_fields s c]
    rfl
  obtain ⟨ht, -⟩ := h
  have hcontexts : t.dict.contexts = forgetQuote c (s.touch c).dict.contexts := by rw [ht]; rfl
  have hnow : t.now = s.now := by rw [ht, State.touch_fields s c]; rfl
  refine ⟨?_, ?_, ?_, ?_, ?_, ?_, ?_⟩
  · rw [ht, State.touch_fields s c]
    rfl
  · rw [← hpart, ht, State.touch_fields s c]
    rfl
  · rw [State.context, hcontexts]
    exact quote_forgetQuote _ _ _
  all_goals rw [ht, State.touch_fields s c]; rfl

/-! ## Firmware -/

/-- A firmware command's byte names the component in bits [7:4] and the command in bits [3:0]. -/
theorem setField_command (v : Byte) {op : Nat} (hop : op < 16) : setField v.toNat 0 4 op < 256 ^ 1
    ∧ setField v.toNat 0 4 op / 16 = v.toNat / 16 ∧ setField v.toNat 0 4 op % 16 = op := by
  have hv : v.toNat < 256 := v.isLt
  have h : setField v.toNat 0 4 op = v.toNat - v.toNat % 16 + op := by simp [setField, Nat.mod_eq_of_lt hop]
  omega

/-- A firmware command has the effect that `fwCommand` gives it. -/
theorem firmware_performs {row : State → Host.Outcome State Fault Refusal} {c : Ctx} {v : Byte} {op : Nat} {ok : State → Prop}
    {f : State → State} (hrow : ∀ s, row s = .next (s.writeRow c 0xA020 2 1 (setField v.toNat 0 4 op))) (hop : op < 16)
    (hact : ∀ u w, w / 16 = v.toNat / 16 → w % 16 = op → ok u → u.fwCommand (u.roleOf c) w = (0, f u)) :
    Performs row c 0xA020 2 1 ok f := by
  obtain ⟨hlt, hcomp, hop'⟩ := setField_command v hop
  exact performs_of_act hrow resolve_firmware (by decide) hlt fun u hok => (act_firmware _ _ _ _ _ _).trans (hact u _ hcomp hop' hok)

/-- The end of staging leaves the image in the inactive slot, with its status. -/
theorem fwStageDone_filled {s : State} {comp : Nat} {sent bs : List Byte} {st : Nat} (hs : s.trust.staging = some (comp, sent))
    (hcomp : comp = 1 ∨ comp = 2) (hp : s.pow.powered = true)
    (hcross : comp = 2 → (s.isl.toIsland.any fun m => m.kind == 0x0B) = false)
    (hbs : (if comp = 2 then assembleBlocks sent.length s.isl.blocks else sent) = bs) (hst : s.imageStatus comp bs = st) :
    let x := s.component comp
    ∃ t, exec .fwStageDone s = .next t ∧ t.trust.staging = none ∧ t.isl.blocks = [] ∧ t.reg 0xA02003 = st
      ∧ (t.component comp).slots = x.slots.setIfInBounds (1 - x.active) ⟨bs, decide (st = 0)⟩
      ∧ (t.component comp).staged = decide (st = 0) ∧ (t.component comp).active = x.active ∧ (t.component comp).running = x.running
      ∧ t.component (3 - comp) = s.component (3 - comp)
      ∧ t = { s with trust := t.trust, isl := { s.isl with blocks := [] }, dict := { s.dict with regs := t.dict.regs } } := by
  intro x
  subst hst
  refine ⟨_, congrArg Host.Outcome.next (State.stageDone_eq hs hp hcross hbs), rfl, rfl, State.reg_setReg _ _ _ _, ?_⟩
  rcases hcomp with rfl | rfl <;> exact ⟨rfl, rfl, rfl, rfl, rfl, rfl⟩

/-- Settles O41: each request's own lemma above, brought to its row. -/
theorem programAndTrustRequests : Obligations.ProgramAndTrustRequests := by
  unfold Obligations.ProgramAndTrustRequests
  refine ⟨?swaps, ?stored, ?held, ?measure, fun t m h hm => finishMeasure_entered h hm,
    fun t n b altered k hk => markBank_record t n b altered hk, ?quote, ?firmware,
    fun s comp sent hs hcomp hp hcross => fwStageDone_filled hs hcomp hp hcross rfl rfl⟩
  case swaps =>
    intro s c v h first count h0 hrange hw
    obtain ⟨t, ht, hp⟩ := bankSwapRequest_performed h rfl rfl h0 hrange hw
    have hcombs : t.swarm.combs = ((s.touch c).addSwaps first count).swarm.combs := (congrArg (fun u => u.swarm.combs) hp.1 :)
    refine ⟨t, ht, fun m => ?_, ?_⟩
    · have hcomb : t.comb m = ((s.touch c).addSwaps first count).comb m := (congrArg (fun w : SMap Comb => SMap.get {} w m) hcombs :)
      rw [hcomb, State.comb_addSwaps, State.comb_touch]
    · rw [hcombs, ← State.touch_swarm s c, ← State.addSwaps_onCombs]
      exact hp
  case stored =>
    intro s c data h n bank a hn hb hi hw hbank active
    obtain ⟨t, ht, hmem, hcomb, hother, hcount, hrest⟩ := debugProgramWrite_stored h ⟨hn, hb, hi, hw⟩ hbank
    have hbyte : ∀ x, t.rawByte x = (s.storePieces (debugPieces (debugAddr data) data)).rawByte x :=
      fun x => (congrArg (fun m : MemSys => SMap.get 0 m.bytes x) hmem :)
    exact ⟨t, ht, fun k hk => (hbyte _).trans (State.rawByte_debugPieces _ _ _ hk),
      fun x hx => (hbyte x).trans (State.rawByte_debugPieces_other _ _ hx), hcomb, hother, hcount, hrest⟩
  case held =>
    intro s c data h n bank a hn hb hi hw hbank hswaps
    exact debugProgramWrite_held h ⟨hn, hb, hi, hw⟩ hbank hswaps
  case measure =>
    intro c v n b j
    exact ⟨measureBank_performs rfl rfl rfl, fun s h hw hm => measureBank_refused h hw hm⟩
  case quote =>
    intro s c nonce h hup hpath hd hi tag job m
    by_cases hid : s.identityGood = true
    · obtain ⟨t, ht, hp⟩ := quoteNonceWrite_opens h hup hpath hd hi hid
      refine ⟨t, ht, ?_⟩
      rw [if_pos hid]
      exact quoteAsked_fields hp
    · obtain ⟨t, ht, hr⟩ := quoteNonceWrite_refused h (Bool.eq_false_iff.mpr hid)
      refine ⟨t, ht, ?_⟩
      rw [if_neg hid]
      exact hr
  case firmware =>
    intro c v comp hcomp
    refine ⟨firmware_performs (fun _ => rfl) (by decide) ?_, firmware_performs (fun _ => rfl) (by decide) ?_,
      firmware_performs (fun _ => rfl) (by decide) ?_⟩
    · rintro u w hw hop ⟨hrole, hs, hp, hrun⟩
      exact State.fwCommand_stage hw hcomp hs hp hop hrole hrun
    · rintro u w hw hop ⟨hs, hp, hstaged⟩
      exact State.fwCommand_activate hw hcomp hs hp hop hstaged
    · rintro u w hw hop ⟨hrole, hs, hp, hrun⟩
      rw [State.fwCommand_confirm hw hcomp hs hp hop hrole hrun, State.confirm_eq u hcomp]

end Sys2Proof.Proofs
end

section
/-! SUPPORT. Speculative multiplies (R140, R141): room in the commit buffer, and the tile that a multiply opens or extends, from the checks
it passes to its end. -/

namespace Sys2Proof.Machine

open Sys2Proof Sys2Proof.Safety

/-! ## Room in the commit buffer (R140) -/

section
variable (s : State) (i : SlotId)

/-- A thread that waits for room no longer is in no place of its cell's queue. -/
theorem State.notMem_leaveRoomQueue : i.thread ∉ (s.leaveRoomQueue i).roomQueue i.cell := by
  rw [State.roomQueue, State.leaveRoomQueue, SMap.modify, SMap.get_put_same]
  simp

theorem State.slot_grantRoom (n : Nat) : (s.grantRoom i n).slot i = { s.slot i with room := n } := State.slot_setSlot _ _ _

/-- The state of a thread that waits for room: in its cell's queue, counted as it enters it. -/
def State.waitsForRoom : State :=
  let q := s.roomQueue i.cell
  let u := if q.contains i.thread then s
    else ({ s with swarm := { s.swarm with roomQueue := SMap.put [] s.swarm.roomQueue i.cell (q ++ [i.thread]) } } : State).bump 0x20810B
  u.setSlot i { u.slot i with status := .room }

theorem State.slot_waitsForRoom : (s.waitsForRoom i).slot i = { s.slot i with status := .room } := by
  unfold State.waitsForRoom
  dsimp only
  rw [State.slot_setSlot]
  split <;> rfl

theorem State.mem_waitsForRoom : i.thread ∈ (s.waitsForRoom i).roomQueue i.cell := by
  unfold State.waitsForRoom
  dsimp only
  split
  · next h => exact List.contains_iff_mem.mp h
  · show i.thread ∈ SMap.get [] (SMap.put [] s.swarm.roomQueue i.cell (s.roomQueue i.cell ++ [i.thread])) i.cell
    rw [SMap.get_put_same]
    exact List.mem_append_right _ (List.mem_singleton.mpr rfl)

theorem State.waitsForRoom_stored : (s.waitsForRoom i).swarm.pads = s.swarm.pads ∧ (s.waitsForRoom i).mem = s.mem := by
  unfold State.waitsForRoom
  dsimp only
  split <;> exact ⟨rfl, rfl⟩

/-- The stalls of a gather stage are counted, and no more. -/
theorem State.gatherStall_kept (op : Nat) : (s.gatherStall op).slot i = s.slot i ∧ (s.gatherStall op).swarm.pads = s.swarm.pads
    ∧ (s.gatherStall op).mem = s.mem := by
  unfold State.gatherStall
  split
  · exact ⟨rfl, rfl, rfl⟩
  · rw [State.bumpBy_fields]
    exact ⟨rfl, rfl, rfl⟩

end

theorem State.pads_issued (s : State) (i : SlotId) : (s.issued i).swarm.pads = s.swarm.pads := by rw [State.issued_fields]

/-- What follows an action that stops is not performed. -/
theorem Cmd.bind_stop {α β : Type} {s : State} {e : Stop} {c : Cmd α} {f : α → Cmd β} (h : c s = .error e) : (c >>= f) s = .error e := by
  show (c s >>= fun r => f r.1 r.2) = _
  rw [h]
  rfl

section
variable {x : Issue} {s : State} {n : Nat}

theorem Cmd.awaitRoom_granted (h : s.hasRoom x.id n = true) : Cmd.awaitRoom x n s = .ok ((), s.grantRoom x.id n) := if_pos (.inr h)

theorem Cmd.awaitRoom_waits (hn : (s.slot x.id).room ≠ n) (h : s.hasRoom x.id n = false) :
    Cmd.awaitRoom x n s = .error (.leave (s.waitsForRoom x.id)) := if_neg (by simp [hn, h])

end

/-! ## The tile of a speculative multiply (R140) -/

theorem State.pads_of_sansMarks {s t : State} (h : t.sansMarks = s.sansMarks) : t.swarm.pads = s.swarm.pads :=
  (congrArg (fun u : State => u.swarm.pads) h : t.sansMarks.swarm.pads = s.sansMarks.swarm.pads)

theorem Cmd.entries_keeps (x : Issue) (d : Desc) : Cmd.Keeps State.sansMarks (Cmd.entries x d) :=
  (Cmd.readPad_keeps _ _).bind fun _ => Cmd.keeps_pure _

/-- The tile that a speculative multiply computes: the held one, or one whose entries stand at their start. -/
def Slot.heldOr (t : Slot) (dest : W256) (start : List W32) : HeldTile :=
  t.held.getD
    { dest := dest, verdicts := t.prediction.getD ⟨0, 0, [], 0⟩, initial := start, acc := start, clamps := List.replicate start.length 0
      wide := List.replicate start.length false, conflicts := 0, dropped := 0, chain := [] }

/-- A tile once a multiply has given it the entries `es`. -/
def HeldTile.extended (h : HeldTile) (ta tc : TileRows) (es : List AccEntry) (link : ChainLink) : HeldTile :=
  { h with
    acc := es.map AccEntry.value
    clamps := (h.clamps.zip es).map fun p => p.1 + b2n p.2.clamped
    wide := (h.wide.zip es).map fun p => p.1 || p.2.wide
    conflicts := h.conflicts + ta.conflicts + tc.conflicts
    dropped := h.dropped + ta.dropped + tc.dropped
    chain := h.chain ++ [link] }

/-- A speculative multiply ends: its slot holds `h`, and waits for no room. -/
def State.holds (s : State) (i : SlotId) (op : Nat) (h : HeldTile) : State :=
  ((s.setSlot i { s.slot i with room := 0, held := some h }).gatherStall op).leaveRoomQueue i

theorem State.slot_holds (s : State) (i : SlotId) (op : Nat) (h : HeldTile) :
    (s.holds i op h).slot i = { s.slot i with room := 0, held := some h } := by
  obtain ⟨hslot, -, -⟩ := State.gatherStall_kept (s.setSlot i { s.slot i with room := 0, held := some h }) i op
  exact hslot.trans (State.slot_setSlot _ _ _)

theorem State.holds_stored (s : State) (i : SlotId) (op : Nat) (h : HeldTile) :
    (s.holds i op h).swarm.pads = s.swarm.pads ∧ (s.holds i op h).mem = s.mem := by
  obtain ⟨-, hpads, hmem⟩ := State.gatherStall_kept (s.setSlot i { s.slot i with room := 0, held := some h }) i op
  exact ⟨hpads, hmem⟩

/-- The entries of a multiply: computed where the verdict wants it, and the others as they started. -/
theorem mulEntries_values (a c : Desc) (ta tc : TileRows) (start : List W32) (want : Nat → Bool) :
    (mulEntries a c ta tc start want).map AccEntry.value = (List.range (a.rows * c.rows)).map fun k =>
      if want k then (entrySum (fmtIsInt a.fmt) (mulBlock a c) a.cols (start.getD k 0) (products ta tc (k / c.rows) (k % c.rows))).value
      else start.getD k 0 := by
  rw [mulEntries, List.map_map]
  refine List.map_congr_left fun k _ => ?_
  exact apply_ite AccEntry.value _ _ _

/-- The tile of a slot once the speculative multiply `w` has read its operands: each entry whose verdict is 0 or 3 is computed. -/
def Slot.multiplied (t : Slot) (w : Nat) (start : List W32) (ta tc : TileRows) : HeldTile :=
  let h := t.heldOr (t.desc (cmdD w).num) start
  h.extended ta tc
    (mulEntries (t.tile (cmdA w)) (t.tile (cmdB w)) ta tc start fun k => computedCode (h.verdicts.verdicts.getD k 0))
    ⟨cmdOp w, t.desc (cmdA w).num, t.desc (cmdB w).num⟩

/-- The verdicts that a speculative multiply goes by: those of the held tile, or those of the thread's prediction. -/
def Slot.heldVerdicts (t : Slot) : List Nat :=
  (t.held.map fun h => h.verdicts.verdicts).getD ((t.prediction.map Prediction.verdicts).getD [])

theorem Slot.heldOr_verdicts (t : Slot) (dest : W256) (start : List W32) :
    (t.heldOr dest start).verdicts.verdicts = t.heldVerdicts := by
  rw [Slot.heldOr, Slot.heldVerdicts]
  cases t.held with
  | some h => rfl
  | none => cases t.prediction <;> rfl

section
variable (t : Slot) (w : Nat) (start : List W32) (ta tc : TileRows)

theorem Slot.multiplied_dest : (t.multiplied w start ta tc).dest = (t.held.map HeldTile.dest).getD (t.desc (cmdD w).num) := by
  show (t.heldOr _ _).dest = _
  rw [Slot.heldOr]
  cases t.held <;> rfl

theorem Slot.multiplied_acc : (t.multiplied w start ta tc).acc =
    (List.range ((t.tile (cmdA w)).rows * (t.tile (cmdB w)).rows)).map fun k =>
      if computedCode (t.heldVerdicts.getD k 0) then
        (entrySum (fmtIsInt (t.tile (cmdA w)).fmt) (mulBlock (t.tile (cmdA w)) (t.tile (cmdB w))) (t.tile (cmdA w)).cols (start.getD k 0)
          (products ta tc (k / (t.tile (cmdB w)).rows) (k % (t.tile (cmdB w)).rows))).value
      else start.getD k 0 := by
  show (mulEntries _ _ _ _ _ _).map AccEntry.value = _
  rw [Slot.heldOr_verdicts, mulEntries_values]

end

section
variable {x : Issue} {s q0 q1 q2 : State} {t : Slot} {a c d : Desc} {accumulate : Bool} {start : List W32} {ta tc : TileRows}

section
variable (ha : Cmd.tile x a 5 (if t.held.isNone then s.grantRoom x.id (d.rows * d.cols * 4) else s) = .ok (ta, q0))
  (hc : Cmd.tile x c 5 q0 = .ok (tc, q1)) (hheld : ∀ h, t.held = some h → start = h.acc ∧ q2 = q1)
  (hacc : t.held = none → accumulate = true → Cmd.entries x d q1 = .ok (start, q2))
  (hzero : t.held = none → accumulate = false → start = List.replicate (d.rows * d.cols) 0 ∧ q2 = q1)
include ha hc hheld hacc hzero

/-- A speculative multiply takes its room if it opens a tile, reads its operands, and its start values if it opens one that accumulates. -/
theorem specMultiply_done (ht : s.slot x.id = t) (hok : t.specOk d accumulate = true)
    (hroom : t.held = none → s.hasRoom x.id (d.rows * d.cols * 4) = true)
    (hta : t.tile (cmdA x.word) = a) (htc : t.tile (cmdB x.word) = c) :
    specMultiply x a c d accumulate s = .ok (.next, q2.holds x.id (cmdOp x.word) (t.multiplied x.word start ta tc)) := by
  unfold specMultiply Slot.multiplied
  rw [Cmd.slot_bind, ht, Cmd.require_bind hok, hta, htc]
  dsimp only
  cases hheldt : t.held with
  | some h =>
    obtain ⟨rfl, rfl⟩ := hheld h hheldt
    rw [hheldt, if_neg (by simp)] at ha
    rw [Slot.heldOr, hheldt]
    exact (congrFun (if_neg (by simp)) s).trans ((Cmd.bind_ok ha).trans (Cmd.bind_ok hc))
  | none =>
    rw [hheldt, if_pos (by simp)] at ha
    rw [Slot.heldOr, hheldt]
    refine (congrFun (if_pos (by simp)) s).trans ((Cmd.bind_ok (Cmd.awaitRoom_granted (hroom hheldt))).trans
      ((Cmd.bind_ok ha).trans ((Cmd.bind_ok hc).trans ?_)))
    cases accumulate with
    | true => exact Cmd.bind_ok (hacc hheldt rfl)
    | false =>
      obtain ⟨rfl, rfl⟩ := hzero hheldt rfl
      rfl

/-- What a speculative multiply reads leaves its loops and the bytes of all pads. -/
theorem specMultiply_reads : (q2.slot x.id).loops = (s.slot x.id).loops ∧ (q2.slot x.id).nest = (s.slot x.id).nest
    ∧ q2.swarm.pads = s.swarm.pads := by
  have hlast : q2.sansMarks = q1.sansMarks := by
    cases hh : t.held with
    | some h => rw [(hheld h hh).2]
    | none =>
      cases accumulate with
      | true => exact Cmd.entries_keeps _ _ _ _ _ (hacc hh rfl)
      | false => rw [(hzero hh rfl).2]
  have hq := hlast.trans ((Cmd.tile_keeps _ _ _ _ _ _ hc).trans (Cmd.tile_keeps _ _ _ _ _ _ ha))
  have hslot : q2.slot x.id = (if t.held.isNone then s.grantRoom x.id (d.rows * d.cols * 4) else s).slot x.id :=
    (congrArg (fun u : State => u.slot x.id) hq :)
  rw [hslot, State.pads_of_sansMarks hq]
  split
  · rw [State.slot_grantRoom]
    exact ⟨rfl, rfl, rfl⟩
  · exact ⟨rfl, rfl, rfl⟩

end

/-- Without room a speculative multiply that opens a tile waits. -/
theorem specMultiply_waits (ht : s.slot x.id = t) (hok : t.specOk d accumulate = true) (hheld : t.held = none)
    (hn : t.room ≠ d.rows * d.cols * 4) (hroom : s.hasRoom x.id (d.rows * d.cols * 4) = false) :
    specMultiply x a c d accumulate s = .error (.leave (s.waitsForRoom x.id)) := by
  unfold specMultiply
  rw [Cmd.slot_bind, ht, Cmd.require_bind hok]
  refine (congrFun (if_pos (by rw [hheld]; rfl)) s).trans ?_
  exact Cmd.bind_stop (Cmd.awaitRoom_waits (by rwa [ht]) hroom)

end

/-- The body of MMA, MMA24 and MMASA with the speculative modifier, once steps 5 to 9 of R492 pass. -/
theorem multiplyBody_spec {x : Issue} {s : State} {t : Slot} {a c d : Desc} (ht : s.slot x.id = t) (hspec : bitOf (cmdMods x.word) 1 = true)
    (ha : t.tile (cmdA x.word) = a) (hc : t.tile (cmdB x.word) = c) (hd : t.tile (cmdD x.word) = d)
    (hr : mulReason (cmdOp x.word) true a c d = none) :
    multiplyBody x s = specMultiply x a c d (bitOf (cmdMods x.word) 0) s := by
  unfold multiplyBody
  rw [Cmd.slot_bind, ht]
  simp only [ha, hc, hd]
  rw [Cmd.check_bind (by rw [hspec]; exact hr), if_pos hspec]

/-! ## The end of a speculative command -/

section
variable (t : Slot) (p : Nat) (a : After)

@[simp] theorem Slot.retire_held : (t.retire p a).held = t.held := by rw [Slot.retire_keeps]
@[simp] theorem Slot.retire_prediction : (t.retire p a).prediction = t.prediction := by rw [Slot.retire_keeps]
@[simp] theorem Slot.retire_kept : (t.retire p a).kept = t.kept := by rw [Slot.retire_keeps]

/-- Slots whose loops are the same go to the same command. -/
theorem Slot.retire_ptr_of_loops {t u : Slot} (hl : t.loops = u.loops) (hn : t.nest = u.nest) (p : Nat) (a : After) :
    (t.retire p a).ptr = (u.retire p a).ptr := by
  have hloop (n : Nat) : t.loop n = u.loop n := by rw [Slot.loop, hl, Slot.loop]
  exact Slot.retire_ptr_congr t u (fun n => by rw [hloop n]; exact ⟨rfl, rfl, rfl, rfl⟩) hn p a

end

/-- A body that leaves its thread waiting leaves the state as it is. -/
theorem State.runBody_leaves {s u : State} {x : Issue} {body : Cmd After} (hb : body s = .error (.leave u)) : s.runBody x body = u := by
  rw [State.runBody, hb]

/-- A body that ends in `u` retires there, where its pointer stays below 2,048. -/
theorem State.runBody_ends {s u : State} {x : Issue} {body : Cmd After} {a : After} (hb : body s = .ok (a, u))
    (hp : ((u.slot x.id).retire x.ptr a).ptr < 2048) : s.runBody x body = u.setSlot x.id ((u.slot x.id).retire x.ptr a) := by
  rw [State.runBody, hb]
  exact State.retire_lt hp

/-- A multiply that ends with a tile held retires: the slot holds the tile and goes on, it is in no place of the queue for room, and
memory and pads are as its reads left them. -/
theorem State.runBody_holds {s1 q2 : State} {u : Slot} {x : Issue} {op : Nat} {h : HeldTile} {body : Cmd After}
    (hb : body s1 = .ok (.next, q2.holds x.id op h)) (hx : x.ptr = u.ptr) (hl : (q2.slot x.id).loops = u.loops)
    (hn : (q2.slot x.id).nest = u.nest) (hp : nextPtr u < 2048) :
    ∃ t, s1.runBody x body = t ∧ (t.slot x.id).held = some h ∧ x.id.thread ∉ t.roomQueue x.id.cell ∧ (t.slot x.id).ptr = nextPtr u
      ∧ t.swarm.pads = q2.swarm.pads ∧ t.mem = q2.mem := by
  have hslot := q2.slot_holds x.id op h
  have hptr : (((q2.holds x.id op h).slot x.id).retire x.ptr .next).ptr = nextPtr u := by
    rw [hslot, hx]
    exact Slot.retire_ptr_of_loops (t := { q2.slot x.id with room := 0, held := some h }) hl hn _ _
  obtain ⟨hpads, hmem⟩ := q2.holds_stored x.id op h
  refine ⟨_, State.runBody_ends hb (by rwa [hptr]), ?_, State.notMem_leaveRoomQueue _ _, ?_, hpads, hmem⟩
  · rw [State.slot_setSlot, Slot.retire_held, hslot]
  · rw [State.slot_setSlot, hptr]

end Sys2Proof.Machine
end

section
/-! SUPPORT. PREDICT, COMMIT and PACK (R127, R136–R139, R142–R145): the verdicts of a prediction, the entries that a commit writes, and the
bodies from the checks they pass to their end. -/

namespace Sys2Proof.Machine

open Sys2Proof Sys2Proof.Safety

/-! ## PREDICT (R136–R139) -/

/-- The verdicts that a slot's PREDICT reaches from what it keeps and the bytes of its factors. -/
def State.verdicts (s : State) (t : Slot) (mods : Nat) (c d : Desc) (kept : KeptProjection) (bs : List Byte) : List Nat :=
  let st := settingsOf t.latch mods
  (List.range d.rows).flatMap fun r => (List.range d.cols).map fun n =>
    verdictOf (neuronOf c.fmt c.rows n d.cols bs) st.1 st.2.2 (wordsRow kept.z r c.rows) (wordsRow kept.zDown r c.rows)
      (wordsRow kept.zUp r c.rows) (f32Val (kept.normUp.getD r 0)) (decide (s.drawFor t d.tensor (r * d.cols + n) / 2 ^ 16 % 2 ^ st.2.1 = 0))

/-- A prediction and what Mantis has kept for it stand in a slot; one without permission is counted (R138). -/
def State.predicts (s : State) (i : SlotId) (p : Prediction) (kept : KeptProjection) (permitted : Bool) : State :=
  let u := s.setSlot i { s.slot i with prediction := some p, kept := some kept }
  if permitted then u else u.bump 0x208005

section
variable (s : State) (i : SlotId) (p : Prediction) (kept : KeptProjection) (permitted : Bool)

theorem State.slot_predicts : (s.predicts i p kept permitted).slot i = { s.slot i with prediction := some p, kept := some kept } := by
  unfold State.predicts
  cases permitted <;> exact State.slot_setSlot _ _ _

theorem State.predicts_stored : (s.predicts i p kept permitted).swarm.pads = s.swarm.pads ∧ (s.predicts i p kept permitted).mem = s.mem := by
  unfold State.predicts
  cases permitted <;> exact ⟨rfl, rfl⟩

theorem State.reg_predicts : (s.predicts i p kept permitted).reg 0x208005
    = if permitted then s.reg 0x208005 else satAdd 64 (s.reg 0x208005) 1 := by
  unfold State.predicts
  cases permitted with
  | true => rfl
  | false => exact State.reg_setReg _ _ _ _

end

/-- What a slot's PREDICT forms from its tile and projection, or has kept from an earlier one (R139). -/
def predictKept (x : Issue) (t : Slot) : Cmd KeptProjection :=
  match t.kept.filter fun k => k.serves (t.desc (cmdA x.word).num) (t.desc (cmdB x.word).num) with
  | some k => pure { k with b := t.desc (cmdB x.word).num }
  | none => do
    let ta ← Cmd.tile x (t.tile (cmdA x.word))
    let tp ← Cmd.tile x (t.tile (cmdB x.word))
    pure (keepProjection (t.desc (cmdA x.word).num) (t.desc (cmdB x.word).num) ta tp)

/-- The bytes of a PREDICT's destination. -/
def predictWrites (d : Desc) (vs : List Nat) : List WRange :=
  (List.range d.rows).map fun r => (d.rowAt 0 r, packElems 4 ((vs.drop (r * d.cols)).take d.cols))

/-- What a slot's PREDICT does with what it keeps. -/
def predictEnd (x : Issue) (t : Slot) (c d : Desc) (kept : KeptProjection) : Cmd Unit := do
  let bs ← Cmd.read x c.global [(c.factors, (factorLayout d.cols c.rows).size)]
  let s ← get
  let vs := s.verdicts t (cmdMods x.word) c d kept bs
  Cmd.writePad x (predictWrites d vs)
  Cmd.mapSlot x.id fun t' =>
    { t' with prediction := some ⟨d.rows, d.cols, vs, (settingsOf t.latch (cmdMods x.word)).1⟩, kept := some kept }
  if !t.latch.permitted then Cmd.update fun s => s.bump 0x208005

theorem predictBody_eq (x : Issue) : predictBody x = (do
    let t ← Cmd.slot x.id
    Cmd.check (predictReason (t.tile (cmdA x.word)) (t.tile (cmdB x.word)) (t.tile (cmdD x.word)))
    Cmd.require t.held.isNone 0x20
    Cmd.into x (t.tile (cmdD x.word)).dest
      (predictKept x t >>= predictEnd x t (t.tile (cmdB x.word)) (t.tile (cmdD x.word)))
    pure .next) := by
  unfold predictBody predictEnd State.verdicts
  simp only [zip_map_self, List.map_map]
  refine congrArg (Cmd.slot x.id >>= ·) (funext fun t => ?_)
  unfold predictKept
  cases t.kept.filter fun k => k.serves (t.desc (cmdA x.word).num) (t.desc (cmdB x.word).num) with
  | some k => rfl
  | none =>
    simp only [bind_assoc]
    rfl

section
variable {x : Issue} {s q q1 s2 : State} {t : Slot} {a c d : Desc} {kept : KeptProjection} {bs : List Byte} {vs : List Nat}

/-- What was kept for these descriptors serves with the new metadata offset; otherwise the projection is formed from both tiles. -/
theorem predictKept_gives
    (hold : ∀ k, (t.kept.filter fun k => k.serves (t.desc (cmdA x.word).num) (t.desc (cmdB x.word).num)) = some k →
      kept = { k with b := t.desc (cmdB x.word).num } ∧ q = s)
    (hnew : (t.kept.filter fun k => k.serves (t.desc (cmdA x.word).num) (t.desc (cmdB x.word).num)) = none →
      ∃ ta tp q0, gives (Cmd.tile x (t.tile (cmdA x.word))) s ta q0 = true ∧ gives (Cmd.tile x (t.tile (cmdB x.word))) q0 tp q = true
        ∧ kept = keepProjection (t.desc (cmdA x.word).num) (t.desc (cmdB x.word).num) ta tp) :
    predictKept x t s = .ok (kept, q) := by
  unfold predictKept
  cases hk : t.kept.filter fun k => k.serves (t.desc (cmdA x.word).num) (t.desc (cmdB x.word).num) with
  | some k =>
    obtain ⟨rfl, rfl⟩ := hold k hk
    rfl
  | none =>
    obtain ⟨ta, tp, q0, hta, htp, rfl⟩ := hnew hk
    exact (Cmd.bind_ok (Cmd.of_gives hta)).trans (Cmd.bind_ok (Cmd.of_gives htp))

theorem predictKept_keeps (x : Issue) (t : Slot) : Cmd.Keeps State.sansMarks (predictKept x t) := by
  unfold predictKept
  split
  · exact Cmd.keeps_pure _
  · exact (Cmd.tile_keeps _ _ _).bind fun _ => (Cmd.tile_keeps _ _ _).bind fun _ => Cmd.keeps_pure _

/-- PREDICT reads its factors, and writes and keeps its verdicts. -/
theorem predictBody_done (ht : s.slot x.id = t) (ha : t.tile (cmdA x.word) = a) (hc : t.tile (cmdB x.word) = c)
    (hd : t.tile (cmdD x.word) = d) (hr : predictReason a c d = none) (hh : t.held = none) (hk : predictKept x t s = .ok (kept, q))
    (hf : Cmd.read x c.global [(c.factors, (factorLayout d.cols c.rows).size)] 5 q = .ok (bs, q1))
    (hvs : q1.verdicts t (cmdMods x.word) c d kept bs = vs) (hw : Cmd.writePad x (predictWrites d vs) q1 = .ok ((), s2)) :
    predictBody x s = .ok (.next, s2.predicts x.id ⟨d.rows, d.cols, vs, (settingsOf t.latch (cmdMods x.word)).1⟩ kept t.latch.permitted) := by
  have hend : predictEnd x t c d kept q = .ok ((), s2.predicts x.id ⟨d.rows, d.cols, vs, (settingsOf t.latch (cmdMods x.word)).1⟩ kept
      t.latch.permitted) := by
    subst hvs
    unfold predictEnd State.predicts
    rw [Cmd.bind_ok hf, Cmd.get_bind]
    refine (Cmd.bind_ok hw).trans ?_
    cases t.latch.permitted <;> rfl
  rw [predictBody_eq, Cmd.slot_bind, ht, ha, hc, hd, Cmd.check_bind hr, Cmd.require_bind (by rw [hh]; rfl)]
  exact (Cmd.bind_ok (Cmd.into_ok ((Cmd.bind_ok hk).trans hend))).trans rfl

/-- What PREDICT reads and writes leaves its slot. -/
theorem predict_slot {ws : List WRange} (hk : predictKept x t s = .ok (kept, q)) {rs : List Range'} {g : Bool}
    (hf : Cmd.read x g rs 5 q = .ok (bs, q1)) (hw : Cmd.writePad x ws q1 = .ok ((), s2)) (i : SlotId) : s2.slot i = s.slot i := by
  have hread := (Cmd.read_keeps _ _ _ _ _ _ _ hf).trans (predictKept_keeps _ _ _ _ _ hk)
  exact (State.slot_of_core (Cmd.write_keeps x false ws 5 0 _ _ _ hw) i).trans (congrArg (fun u : State => u.slot i) hread :)

end

/-! ## Counts -/

section
variable {s t : State} {k j : Nat}

theorem State.reg_bump_same : (s.bump k).reg k = satAdd 64 (s.reg k) 1 := State.reg_setReg _ _ _ _
theorem State.reg_bump_key (h : j ≠ k) : (s.bump k).reg j = s.reg j := State.reg_bump_other _ (by omega)

theorem State.reg_bumpBy_other (n : Nat) (h : j ≠ k) : (s.bumpBy k n).reg j = s.reg j := by
  unfold State.bumpBy
  split
  · rfl
  · exact State.reg_bump_other _ (by omega)

theorem State.reg_bumpBy_congr (n : Nat) (h : s.reg k = t.reg k) : (s.bumpBy k n).reg k = (t.bumpBy k n).reg k := by
  unfold State.bumpBy
  split
  · exact h
  · rw [State.bump, State.reg_setReg, State.bump, State.reg_setReg, h]

theorem State.reg_setWide_other (b : Bool) (h : j ≠ 0x300105) : (s.setWide b).reg j = s.reg j := by
  unfold State.setWide
  split
  · exact State.reg_setReg_other _ (by omega)
  · rfl

theorem State.reg_ite (p : Prop) [Decidable p] : (if p then s else t).reg j = if p then s.reg j else t.reg j :=
  apply_ite (fun v : State => v.reg j) p s t

/-- `t` differs from `s` in the dictionary alone. -/
def State.DictOnly (s t : State) : Prop := t = { s with dict := t.dict }

theorem State.DictOnly.refl (s : State) : s.DictOnly s := rfl

theorem State.DictOnly.bumpBy (h : s.DictOnly t) (k n : Nat) : s.DictOnly (t.bumpBy k n) := dictOnly_trans h (State.bumpBy_fields _ _ _)

theorem State.DictOnly.setWide (h : s.DictOnly t) (b : Bool) : s.DictOnly (t.setWide b) := dictOnly_trans h (State.setWide_fields _ _)

theorem State.DictOnly.bumpIf (h : s.DictOnly t) (p : Prop) [Decidable p] (k n : Nat) : s.DictOnly (if p then t.bumpBy k n else t) := by
  split
  · exact h.bumpBy k n
  · exact h

end

/-! ## COMMIT (R142–R145, R149) -/

namespace HeldTile

/-- The verdict of an entry. -/
def verdict (h : HeldTile) (k : Nat) : Nat := h.verdicts.verdicts.getD k 0

/-- An entry that was computed though it was predicted inactive, and is active. -/
def missed (h : HeldTile) (k : Nat) : Bool := decide (h.verdict k = 3) && activeEntry h.isInt (h.acc.getD k 0)

/-- A commit replays the chain where the policy verifies and an entry was missed (R143). -/
def replays (h : HeldTile) : Bool := decide (h.verdicts.policy = 1) && decide (0 < countIdx h.acc.length h.missed)

/-- What a commit keeps of entry `k`: what stands in the tile where it was computed, what the replay left where it was not and the chain is
replayed, and nothing elsewhere. -/
def committed {α : Type} (h : HeldTile) (nothing : α) (replayed stands : Nat → α) (k : Nat) : α :=
  if h.verdict k = 0 then stands k else if h.replays = true ∧ h.verdict k = 2 then replayed k
  else if h.replays = true ∧ h.verdict k = 3 then stands k else nothing

end HeldTile

namespace HeldTile
variable (h : HeldTile) (r : List W32 × List Nat × List Bool)

/-- What a commit keeps of the entries, their clamps and their wide overflows, after a replay that left `r`. -/
def keptEntries : List W32 := (List.range h.acc.length).map (h.committed 0 (fun k => r.1.getD k 0) fun k => h.acc.getD k 0)
def keptClamps : List Nat := (List.range h.acc.length).map (h.committed 0 (fun k => r.2.1.getD k 0) fun k => h.clamps.getD k 0)
def keptWide : Bool := (List.range h.acc.length).any (h.committed false (fun k => r.2.2.getD k false) fun k => h.wide.getD k false)

theorem committed_stands {α : Type} {h : HeldTile} (hr : h.replays = false) (nothing : α) (f g stands : Nat → α) :
    h.committed nothing f stands = h.committed nothing g stands := by
  funext k
  simp [committed, hr]

/-- Where nothing is replayed, what a replay would have left plays no part. -/
theorem kept_stands {h : HeldTile} (hr : h.replays = false) (r r' : List W32 × List Nat × List Bool) :
    h.keptEntries r = h.keptEntries r' ∧ h.keptClamps r = h.keptClamps r' ∧ h.keptWide r = h.keptWide r' :=
  ⟨congrArg (List.map · _) (committed_stands hr _ _ _ _), congrArg (List.map · _) (committed_stands hr _ _ _ _),
    congrArg (List.any _ ·) (committed_stands hr _ _ _ _)⟩

/-- An entry is computed where its verdict is 0, or where it is 2 or 3 and the chain is replayed. -/
def computed (k : Nat) : Bool := h.verdict k == 0 || (h.replays && decide (h.verdict k = 2 ∨ h.verdict k = 3))

theorem committed_eq {α : Type} (nothing : α) (replayed stands : Nat → α) : h.committed nothing replayed stands = fun k =>
    if !h.computed k then nothing else if h.replays && decide (h.verdict k = 2) then replayed k else stands k := by
  funext k
  unfold committed computed
  by_cases h0 : h.verdict k = 0
  · simp [h0]
  · cases h.replays with
    | false => simp [h0]
    | true => by_cases h2 : h.verdict k = 2 <;> simp [h0, h2]

theorem committed_flag (replayed stands : Nat → Bool) : h.committed false replayed stands = fun k =>
    h.computed k && if h.replays && decide (h.verdict k = 2) then replayed k else stands k := by
  rw [committed_eq]
  funext k
  cases h.computed k <;> rfl

end HeldTile

/-- The counts of a commit of `h` with the clamps and wide overflows of the entries it keeps (R145, R149). -/
def State.countCommit (s : State) (h : HeldTile) (clamps : Nat) (wide : Bool) : State :=
  let n := h.acc.length
  let s := ((s.operandCounts h.conflicts h.dropped).bumpBy 0x300106 clamps).setWide wide
  let s := s.bumpBy 0x208101 (countIdx n fun k => h.verdict k == 1)
  let s := s.bumpBy 0x208102 (countIdx n fun k => h.verdict k == 2 || h.verdict k == 3)
  let s := s.bumpBy 0x208103 (countIdx n fun k => h.verdict k == 3)
  let s := s.bumpBy 0x208104 (countIdx n h.missed)
  let two := countIdx n fun k => h.verdict k == 2
  let s := if decide (h.verdicts.policy = 1) && !h.replays then s.bumpBy 0x208105 two else s
  let s := if h.verdicts.policy = 2 then s.bumpBy 0x208106 two else s
  let s := s.bump 0x208107
  if h.replays then s.bump 0x208108 else s

section
variable (s : State) (h : HeldTile) (clamps : Nat) (wide : Bool)

theorem State.dictOnly_countCommit : s.DictOnly (s.countCommit h clamps wide) := by
  have hkept : s.DictOnly (((s.operandCounts h.conflicts h.dropped).bumpBy 0x300106 clamps).setWide wide) :=
    ((((State.DictOnly.refl s).bumpBy _ _).bumpBy _ _).bumpBy _ _).setWide _
  exact ((((((((hkept.bumpBy _ _).bumpBy _ _).bumpBy _ _).bumpBy _ _).bumpIf _ _ _).bumpIf _ _ _).bumpBy 0x208107 1).bumpIf _ 0x208108 1)

theorem State.reg_countCommit_certain : (s.countCommit h clamps wide).reg 0x208101
    = (s.bumpBy 0x208101 (countIdx h.acc.length fun k => h.verdict k == 1)).reg 0x208101 := by
  unfold State.countCommit State.operandCounts
  simp (disch := decide) only [State.reg_ite, State.reg_bump_key, State.reg_bumpBy_other, ite_self]
  apply State.reg_bumpBy_congr
  simp (disch := decide) only [State.reg_bumpBy_other, State.reg_setWide_other]

theorem State.reg_countCommit_commits : (s.countCommit h clamps wide).reg 0x208107 = satAdd 64 (s.reg 0x208107) 1 := by
  unfold State.countCommit State.operandCounts
  simp (disch := decide) only [State.reg_ite, State.reg_bump_key, State.reg_bump_same, State.reg_bumpBy_other, State.reg_setWide_other,
    ite_self]

theorem State.reg_countCommit_replays : (s.countCommit h clamps wide).reg 0x208108
    = if h.replays then satAdd 64 (s.reg 0x208108) 1 else s.reg 0x208108 := by
  unfold State.countCommit State.operandCounts
  simp (disch := decide) only [State.reg_ite, State.reg_bump_key, State.reg_bump_same, State.reg_bumpBy_other, State.reg_setWide_other,
    ite_self]

end

/-- A commit of `h` whose replay left `r` is counted, and its thread has no held tile and no prediction any more. -/
def State.commits (s : State) (i : SlotId) (h : HeldTile) (r : List W32 × List Nat × List Bool) : State :=
  let u := s.countCommit h (h.keptClamps r).sum (h.keptWide r)
  u.setSlot i { u.slot i with prediction := none, held := none }

section
variable (s : State) (i : SlotId) (h : HeldTile) (r : List W32 × List Nat × List Bool)

theorem State.slot_commits : (s.commits i h r).slot i = { s.slot i with prediction := none, held := none } := by
  have hslot : (s.countCommit h (h.keptClamps r).sum (h.keptWide r)).slot i = s.slot i :=
    (congrArg (fun u : State => u.slot i) (s.dictOnly_countCommit h _ _) :)
  rw [State.commits, State.slot_setSlot, hslot]

theorem State.commits_stored : (s.commits i h r).swarm.pads = s.swarm.pads ∧ (s.commits i h r).mem = s.mem := by
  have hd := s.dictOnly_countCommit h (h.keptClamps r).sum (h.keptWide r)
  exact ⟨(congrArg (fun u : State => u.swarm.pads) hd :), (congrArg State.mem hd :)⟩

end

section
variable {x : Issue} {s q s2 : State} {h : HeldTile} {r : List W32 × List Nat × List Bool}

/-- COMMIT with no held tile drops the prediction. -/
theorem commitBody_empty (hh : (s.slot x.id).held = none) :
    commitBody x s = .ok (.next, s.setSlot x.id { s.slot x.id with prediction := none }) := by
  unfold commitBody
  rw [Cmd.slot_bind]
  conv_lhs => rw [hh]
  rfl

/-- What COMMIT does with the tile `h` once its replay has left `r`. -/
def commitEnd (x : Issue) (h : HeldTile) (r : List W32 × List Nat × List Bool) : Cmd After := do
  Cmd.putEntries x (Desc.of h.dest) (h.keptEntries r)
  Cmd.update fun s => s.countCommit h (h.keptClamps r).sum (h.keptWide r)
  Cmd.mapSlot x.id fun t => { t with prediction := none, held := none }
  pure .next

theorem commitEnd_done (hw : Cmd.putEntries x (Desc.of h.dest) (h.keptEntries r) q = .ok ((), s2)) :
    commitEnd x h r q = .ok (.next, s2.commits x.id h r) := by
  unfold commitEnd
  rw [Cmd.bind_ok hw]
  rfl

/-- COMMIT of a held tile replays its chain if it has to, and then ends. -/
theorem commitBody_some (hh : (s.slot x.id).held = some h) :
    commitBody x s = if h.replays then (Cmd.into x (Desc.of h.dest).dest (Cmd.replay x h.verdicts.verdicts h.chain
        (h.initial, List.replicate h.acc.length 0, List.replicate h.acc.length false)) >>= commitEnd x h) s
      else commitEnd x h (h.acc, h.clamps, h.wide) s := by
  unfold commitBody commitEnd HeldTile.keptEntries HeldTile.keptClamps HeldTile.keptWide
  simp only [HeldTile.committed_flag]
  simp only [HeldTile.committed_eq]
  rw [Cmd.slot_bind]
  conv_lhs => rw [hh]
  dsimp only
  by_cases hr : h.replays = true
  · rw [if_pos hr]
    exact congrFun (if_pos hr) s
  · rw [if_neg hr]
    exact congrFun (if_neg hr) s

theorem commitBody_held (hh : (s.slot x.id).held = some h)
    (hreplay : h.replays = true → Cmd.replay x h.verdicts.verdicts h.chain
      (h.initial, List.replicate h.acc.length 0, List.replicate h.acc.length false) s = .ok (r, q))
    (hstands : h.replays = false → q = s) (hw : Cmd.putEntries x (Desc.of h.dest) (h.keptEntries r) q = .ok ((), s2)) :
    commitBody x s = .ok (.next, s2.commits x.id h r) := by
  rw [commitBody_some hh]
  cases hr : h.replays with
  | true => exact (Cmd.bind_ok (Cmd.into_ok (hreplay hr))).trans (commitEnd_done hw)
  | false =>
    obtain rfl := hstands hr
    obtain ⟨he, hc, hf⟩ := HeldTile.kept_stands hr r (h.acc, h.clamps, h.wide)
    rw [State.commits, hc, hf]
    exact commitEnd_done (he ▸ hw)

end

/-! ## PACK (R127) -/

section
variable {x : Issue} {s q0 q1 s2 : State} {t : Slot} {a d : Desc} {sc : List Byte} {ta : TileRows}

/-- The packed rows of a PACK. -/
def packedRows (a d : Desc) (sc : List Byte) (ta : TileRows) : List (List (Nat × Option (List Nat)) × List Nat × Nat) :=
  (List.range a.rows).map fun r => packRow d (a.scaleCode sc 0 r) (ta.row 0 r)

/-- What a PACK writes: the values of each row's blocks that are not elided, its metadata, and the scales. -/
def packWrites (d : Desc) (sc : List Byte) (rows : List (List (Nat × Option (List Nat)) × List Nat × Nat)) : List WRange :=
  ((List.range d.rows).flatMap fun r =>
    let p := rows.getD r ([], [], 0)
    (p.1.filterMap fun e => e.2.map fun cs => (d.rowAt 0 r + (e.1 / 2 * d.width / 8 : Nat), packElems d.width cs))
      ++ [(d.metaAt r, slice (packElems 4 p.2.1) 0 d.metaRow)])
    ++ (if d.scaled then [(d.scaleAt 0 0, sc)] else [])

/-- PACK reads the scales, if there are any, and the tile, writes the packed rows and counts the values it drops. -/
theorem packBody_done (ht : s.slot x.id = t) (ha : t.tile (cmdA x.word) = a) (hd : t.tile (cmdD x.word) = d)
    (hr : packReason a d = none) (hh : t.touchesHeld [a, d] = false) (hl : Cmd.holdLines x d.dest s = .ok ((), s))
    (hsc : a.scaled = true → Cmd.read x a.global [(a.scaleAt 0 0, a.rows * a.blocks)] 5 s = .ok (sc, q0))
    (hplain : a.scaled = false → sc = [] ∧ q0 = s) (hta : Cmd.tile x a 5 q0 = .ok (ta, q1))
    (hw : Cmd.write x d.global (packWrites d sc (packedRows a d sc ta)) 5 d.tensor q1 = .ok ((), s2)) {n : Nat}
    (hn : ((packedRows a d sc ta).map fun p => p.2.2).sum = n) :
    packBody x s = .ok (.next, (s2.bumpBy 0x207001 n).contribute d.tensor t.latch.epoch { prune := n }) := by
  subst hn
  unfold packBody
  rw [Cmd.slot_bind]
  simp only [ht, ha, hd]
  rw [Cmd.check_bind hr, Cmd.commitOk_bind (by rw [ht]; exact hh), Cmd.bind_ok hl]
  refine (Cmd.bind_ok (v := ()) (Cmd.into_ok ?_)).trans rfl
  cases hs : a.scaled with
  | true => exact (Cmd.bind_ok (hsc hs)).trans ((Cmd.bind_ok hta).trans ((Cmd.bind_ok hw).trans rfl))
  | false =>
    obtain ⟨rfl, rfl⟩ := hplain hs
    exact (congrFun (if_neg Bool.false_ne_true) q0).trans ((Cmd.pure_bind _ _).trans ((Cmd.bind_ok hta).trans (Cmd.bind_ok hw)))

end

end Sys2Proof.Machine
end

section
/-! PROOF. O32: speculation and packing. -/

namespace Sys2Proof.Proofs

open Sys2Proof Sys2Proof.Machine Sys2Proof.Safety

theorem canIssue_running {s : State} {i : SlotId} (h : s.canIssue i = true) : s.running = true := by
  simp only [State.canIssue, Bool.and_eq_true] at h
  obtain ⟨⟨⟨⟨hrun, -⟩, -⟩, -⟩, -⟩ := h
  exact hrun

/-- The row that starts a multiply once it has its room performs the multiply of a thread that waits first in its cell's queue. -/
theorem exec_specMultiplyRoomStart {s : State} {i : SlotId} (hw : (s.slot i).status = .room)
    (hq : (s.roomQueue i.cell).head? = some i.thread) (hr : s.running = true) :
    exec (.specMultiplyRoomStart i) s = .next (runCommand (s.setSlot i { s.slot i with status := .ready }) i
      (fun w => decide (0x30 ≤ cmdOp w ∧ cmdOp w ≤ 0x32)) multiplyBody) :=
  congrArg Host.Outcome.next (if_pos ⟨hw, hq, hr⟩)

/-- A speculative multiply at issue that opens a tile waits where there is no room for it. -/
theorem multiply_waits {s : State} {i : SlotId} {w : Nat} {b : Bool} {row : Nat → Bool} {n : Nat} (h : Issues s i w b) (hr : row w = true)
    (hspec : bitOf (cmdMods w) 1 = true)
    (hm : mulReason (cmdOp w) true ((s.slot i).tile (cmdA w)) ((s.slot i).tile (cmdB w)) ((s.slot i).tile (cmdD w)) = none)
    (hok : (s.slot i).specOk ((s.slot i).tile (cmdD w)) (bitOf (cmdMods w) 0) = true) (hheld : (s.slot i).held = none)
    (hn : ((s.slot i).tile (cmdD w)).rows * ((s.slot i).tile (cmdD w)).cols * 4 = n) (hne : (s.slot i).room ≠ n)
    (hroom : (begun s i w b).hasRoom i n = false) : runCommand s i row multiplyBody = (begun s i w b).waitsForRoom i := by
  subst hn
  rw [runCommand_issues h hr]
  exact State.runBody_leaves ((multiplyBody_spec (x := issueOf s i w b) (State.begun_slot s i w b) hspec rfl rfl rfl hm).trans
    (specMultiply_waits (State.begun_slot s i w b) hok hheld hne hroom))

section
variable (s : State) (i : SlotId)

theorem exec_predict : exec (.predict i) s = .next (runCommand s i (fun w => cmdOp w == 0x33) predictBody) := rfl
theorem exec_commit : exec (.commit i) s = .next (runCommand s i (fun w => cmdOp w == 0x34) commitBody) := rfl
theorem exec_pack : exec (.pack i) s = .next (runCommand s i (fun w => cmdOp w == 0x35) packBody) := rfl

end

section
variable {s q q1 s2 : State} {i : SlotId} {w : Nat} {b : Bool} {a c d : Desc}

/-- A command at issue that retires with its slot's loops as they were goes to the next command. -/
theorem runCommand_next {row : Nat → Bool} {body : Issue → Cmd After} {u : State} (h : Issues s i w b) (hr : row w = true)
    (hb : body (issueOf s i w b) (begun s i w b) = .ok (.next, u)) (hl : (u.slot i).loops = (s.slot i).loops)
    (hn : (u.slot i).nest = (s.slot i).nest) (hp : nextPtr (s.slot i) < 2048) : runCommand s i row body = done u i (s.slot i).ptr :=
  runCommand_done h hr hb (Slot.retire_lt_of_loops hp hl hn)

/-- PREDICT at issue: its verdicts are the thread's prediction, what it formed is kept, and memory and pads are as its write left them. -/
theorem predict_runs {t : Slot} {kept : KeptProjection} {bs : List Byte} {p : Prediction} (h : Issues s i w b) (ho : cmdOp w = 0x33)
    (ht : (begun s i w b).slot i = t) (ha : (s.slot i).tile (cmdA w) = a) (hc : (s.slot i).tile (cmdB w) = c)
    (hd : (s.slot i).tile (cmdD w) = d) (hr : predictReason a c d = none) (hheld : (s.slot i).held = none)
    (hk : predictKept (issueOf s i w b) (s.slot i) (begun s i w b) = .ok (kept, q))
    (hf : Cmd.read (issueOf s i w b) c.global [(c.factors, (factorLayout d.cols c.rows).size)] 5 q = .ok (bs, q1))
    (hpred : ⟨d.rows, d.cols, q1.verdicts t (cmdMods w) c d kept bs, (settingsOf t.latch (cmdMods w)).1⟩ = p)
    (hw : Cmd.writePad (issueOf s i w b) (predictWrites d p.verdicts) q1 = .ok ((), s2)) (hp : nextPtr (s.slot i) < 2048) :
    ∃ t', exec (.predict i) s = .next t' ∧ (t'.slot i).prediction = some p ∧ (t'.slot i).kept = some kept
      ∧ t'.swarm.pads = s2.swarm.pads ∧ t'.mem = s2.mem
      ∧ t'.reg 0x208005 = (if t.latch.permitted then s2.reg 0x208005 else satAdd 64 (s2.reg 0x208005) 1) := by
  have htile (o : Opnd) : t.tile o = (s.slot i).tile o := ht ▸ begun_tile s i w b o
  have hkt : predictKept (issueOf s i w b) t = predictKept (issueOf s i w b) (s.slot i) := by
    rw [← ht, State.begun_slot]
    rfl
  have hb : predictBody (issueOf s i w b) (begun s i w b) = .ok (.next, s2.predicts i p kept t.latch.permitted) := by
    subst hpred
    exact predictBody_done (x := issueOf s i w b) ht ((htile _).trans ha) ((htile _).trans hc) ((htile _).trans hd) hr
      (ht ▸ (begun_held s i w b).trans hheld) (hkt ▸ hk) hf rfl hw
  have hslot : s2.slot i = { s.slot i with cur := some (w, b), latch := (s.issued i).latchFor (s.slot i) w } :=
    (predict_slot hk hf hw i).trans (State.begun_slot s i w b)
  have hu := s2.slot_predicts i p kept t.latch.permitted
  have hrun := runCommand_next (row := fun w => cmdOp w == 0x33) h (beq_iff_eq.mpr ho) hb
    (by rw [hu, hslot]) (by rw [hu, hslot]) hp
  obtain ⟨hpads, hmem⟩ := s2.predicts_stored i p kept t.latch.permitted
  refine ⟨done (s2.predicts i p kept t.latch.permitted) i (s.slot i).ptr, (exec_predict s i).trans (congrArg _ hrun), ?_, ?_, hpads, hmem,
    State.reg_predicts _ _ _ _ _⟩
  · rw [done, State.slot_setSlot, Slot.retire_prediction, hu]
  · rw [done, State.slot_setSlot, Slot.retire_kept, hu]

/-- COMMIT at issue with no held tile changes its slot alone, which has no prediction any more. -/
theorem commit_drops (h : Issues s i w b) (ho : cmdOp w = 0x34) (hheld : (s.slot i).held = none) (hp : nextPtr (s.slot i) < 2048) :
    ∃ t, exec (.commit i) s = .next t ∧ OnlySlot i s t
      ∧ t.slot i = ({ s.slot i with prediction := none } : Slot).retire (s.slot i).ptr .next := by
  have hret : ({ (begun s i w b).slot i with prediction := none } : Slot).retire (s.slot i).ptr .next
      = ({ s.slot i with prediction := none } : Slot).retire (s.slot i).ptr .next := by
    rw [State.begun_slot]
    rfl
  have hlt : (({ s.slot i with prediction := none } : Slot).retire (s.slot i).ptr .next).ptr < 2048 := Slot.retire_lt_of_loops hp rfl rfl
  obtain ⟨t, ht, honly, hslot⟩ := runCommand_setSlot (row := fun w => cmdOp w == 0x34) h (beq_iff_eq.mpr ho)
    (commitBody_empty (x := issueOf s i w b) ((begun_held s i w b).trans hheld)) (hret ▸ hlt)
  exact ⟨t, (exec_commit s i).trans (congrArg _ ht), honly, hslot.trans hret⟩

/-- COMMIT at issue of a held tile: the slot has neither tile nor prediction any more, and memory and pads are as its write left them. -/
theorem commit_runs {t : HeldTile} {r : List W32 × List Nat × List Bool} (h : Issues s i w b) (ho : cmdOp w = 0x34)
    (hheld : (s.slot i).held = some t)
    (hreplay : t.replays = true → Cmd.replay (issueOf s i w b) t.verdicts.verdicts t.chain
      (t.initial, List.replicate t.acc.length 0, List.replicate t.acc.length false) (begun s i w b) = .ok (r, q))
    (hstands : t.replays = false → q = begun s i w b)
    (hw : Cmd.putEntries (issueOf s i w b) (Desc.of t.dest) (t.keptEntries r) q = .ok ((), s2))
    (hp : ((s2.slot i).retire (s.slot i).ptr .next).ptr < 2048) :
    ∃ t', exec (.commit i) s = .next t' ∧ (t'.slot i).held = none ∧ (t'.slot i).prediction = none
      ∧ t'.swarm.pads = s2.swarm.pads ∧ t'.mem = s2.mem
      ∧ t'.reg 0x208101 = (s2.bumpBy 0x208101 (countIdx t.acc.length fun k => t.verdict k == 1)).reg 0x208101
      ∧ t'.reg 0x208107 = satAdd 64 (s2.reg 0x208107) 1
      ∧ t'.reg 0x208108 = (if t.replays then satAdd 64 (s2.reg 0x208108) 1 else s2.reg 0x208108) := by
  have hb : commitBody (issueOf s i w b) (begun s i w b) = .ok (.next, s2.commits i t r) :=
    commitBody_held ((begun_held s i w b).trans hheld) hreplay hstands hw
  have hu := s2.slot_commits i t r
  have hrun := runCommand_done (row := fun w => cmdOp w == 0x34) h (beq_iff_eq.mpr ho) hb
    (Slot.retire_lt_of_loops hp (by rw [hu]) (by rw [hu]))
  obtain ⟨hpads, hmem⟩ := s2.commits_stored i t r
  refine ⟨done (s2.commits i t r) i (s.slot i).ptr, (exec_commit s i).trans (congrArg _ hrun), ?_, ?_, hpads, hmem,
    State.reg_countCommit_certain _ _ _ _, State.reg_countCommit_commits _ _ _ _, State.reg_countCommit_replays _ _ _ _⟩
  · rw [done, State.slot_setSlot, Slot.retire_held, hu]
  · rw [done, State.slot_setSlot, Slot.retire_prediction, hu]

end

/-- Settles O32: a speculative multiply ends with its tile held, at issue and once its room is free (`specMultiply_done`,
`State.runBody_holds`), or waits (`multiply_waits`); PREDICT, COMMIT and PACK end as their bodies do (`predict_runs`, `commit_drops`,
`commit_runs`, `packBody_done`). -/
theorem speculationAndPacking : Obligations.SpeculationAndPacking := by
  unfold Obligations.SpeculationAndPacking
  intro s i opens
  have hopens {s1 : State} {u : Slot} {w : Nat} {b : Bool} {st : SlotStatus} {cur : Option (Nat × Bool)} {l : Latch}
      (hslot : s1.slot i = { u with status := st, cur := cur, latch := l }) (hpads : s1.swarm.pads = s.swarm.pads) :
      opens s1 u ⟨i, w, b, u.ptr⟩ (.next (s1.runBody ⟨i, w, b, u.ptr⟩ (multiplyBody ⟨i, w, b, u.ptr⟩))) := by
    refine fun hspec hr hok hroom hp ta tb start q0 q1 q2 hta htb hheld hacc hzero => ?_
    have hacc' h1 h2 := Cmd.of_gives (hacc h1 h2)
    have hb := (multiplyBody_spec (x := ⟨i, w, b, u.ptr⟩) hslot hspec rfl rfl rfl hr).trans (specMultiply_done
      (t := { u with status := st, cur := cur, latch := l }) (Cmd.of_gives hta) (Cmd.of_gives htb) hheld hacc' hzero hslot hok hroom rfl rfl)
    obtain ⟨hl, hn, hq⟩ := specMultiply_reads (x := ⟨i, w, b, u.ptr⟩) (s := s1) (Cmd.of_gives hta) (Cmd.of_gives htb) hheld hacc' hzero
    rw [show s1.slot (⟨i, w, b, u.ptr⟩ : Issue).id = _ from hslot] at hl hn
    obtain ⟨t, ht, hh, hroomless, hptr, htp, htm⟩ := State.runBody_holds hb rfl hl hn hp
    refine ⟨t, _, congrArg _ ht, hh, Slot.multiplied_dest _ _ _ _ _, (Slot.multiplied_acc _ _ _ _ _).trans ?_, hroomless, hptr,
      htp.trans (hq.trans hpads), htm⟩
    rw [Slot.heldVerdicts]
    cases u.held <;> rfl
  refine ⟨fun w b h => ?issued, fun w b hw hq hcur hi h30 h32 hg hpass hform => ?room⟩
  case room =>
    rw [exec_specMultiplyRoomStart hw hq (canIssue_running (s := s.setSlot i { s.slot i with status := .ready }) hi)]
    have hs0 := s.slot_setSlot i { s.slot i with status := .ready }
    rw [runCommand_resumes hi (by rw [hs0]; exact hcur) hform hg (by rw [hs0]; exact hpass)
      (row := fun w => decide (0x30 ≤ cmdOp w ∧ cmdOp w ≤ 0x32)) (decide_eq_true ⟨h30, h32⟩), issueOf, hs0]
    exact hopens (State.slot_setSlot _ _ _)
      ((State.pads_setSlot _ _ _).trans ((State.pads_issued _ _).trans (State.pads_setSlot _ _ _)))
  case issued =>
    intro u x s1 a c d
    have hmul {row : Nat → Bool} {out : Host.Outcome State Fault Refusal} (hout : out = .next (runCommand s i row multiplyBody))
        (hr : row w = true) : opens s1 u x out := by
      rw [hout, runCommand_issues h hr]
      exact hopens (State.begun_slot s i w b) (begun_pads s i w b)
    refine ⟨?mma, ?mma24, ?mmasa, ?waits, ?predict, ?commit, ?commitHeld, ?pack⟩
    case mma => exact fun ho => hmul (exec_mma s i) (beq_iff_eq.mpr ho)
    case mma24 => exact fun ho => hmul (exec_mma24 s i) (beq_iff_eq.mpr ho)
    case mmasa => exact fun ho => hmul (exec_mmasa s i) (beq_iff_eq.mpr ho)
    case waits =>
      intro ho hspec hr hok hheld hn hroom
      have hrun : runCommand s i (fun w => cmdOp w == 0x30) multiplyBody = s1.waitsForRoom i :=
        multiply_waits h (beq_iff_eq.mpr ho) hspec (ho ▸ hr) hok hheld rfl hn hroom
      have hslot : (s1.waitsForRoom i).slot i = _ := (s1.slot_waitsForRoom i).trans (by rw [State.begun_slot])
      obtain ⟨hp, hm⟩ := s1.waitsForRoom_stored i
      exact ⟨s1.waitsForRoom i, (exec_mma s i).trans (congrArg _ hrun), congrArg Slot.status hslot, s1.mem_waitsForRoom i,
        congrArg Slot.cur hslot, hp.trans (begun_pads s i w b), hm.trans (begun_mem s i w b)⟩
    case predict =>
      intro kept bs q q' s2 ho hr hheld hold hnew hf st vs hw hp
      have hk : predictKept x u s1 = .ok (kept, q) := predictKept_gives hold hnew
      exact predict_runs h ho rfl rfl rfl rfl hr hheld hk (Cmd.of_gives hf) (p := ⟨d.rows, d.cols, vs, st.1⟩) rfl (Cmd.of_writes hw) hp
    case commit => exact fun ho hheld hp => commit_drops h ho hheld hp
    case commitHeld =>
      intro t r q s2 ho hheld v n again hreplay hstands hw hp
      exact commit_runs (t := t) (r := r) h ho hheld (fun hr => Cmd.of_gives (hreplay hr)) hstands (Cmd.of_writes hw) hp
    case pack =>
      intro sc ta q0 q1 s2 ho hr hh hl hsc hplain hta rows hw n s3 hp
      have hb := packBody_done (x := x) (t := s1.slot i) rfl (begun_tile s i w b _) (begun_tile s i w b _) hr
        ((begun_touchesHeld s i w b _).trans hh) (Cmd.of_reads hl) (fun ha => Cmd.of_gives (hsc ha)) hplain (Cmd.of_gives hta)
        (Cmd.of_writes hw) (n := n) rfl
      exact (exec_pack s i).trans (congrArg _ (runCommand_done (row := fun w => cmdOp w == 0x35) h (beq_iff_eq.mpr ho) hb hp))

end Sys2Proof.Proofs
end

section
/-! SUPPORT. TRED and TTOPK (R110, R157): what becomes of one row, and the bodies from the checks they pass to their end. -/

namespace Sys2Proof.Machine

open Sys2Proof Sys2Proof.Safety

/-! ## Results row by row -/

/-- The results of the rows, by row number. -/
theorem map_rows {α β : Type} (f : α → β) {rows : List α} {n : Nat} (e : α) (h : rows.length = n) :
    rows.map f = (List.range n).map fun r => f (rows.getD r e) := by
  subst h
  refine List.ext_getElem (by simp) fun r hr _ => ?_
  have hlt : r < rows.length := by simpa using hr
  rw [List.getElem_map, List.getElem_map, List.getElem_range, List.getD_eq_getElem _ _ hlt]

/-- One write for each row, made of its number and its result. -/
theorem map_zip_rows {α β γ : Type} (f : α → β) (g : Nat → β → γ) {rows : List α} {n : Nat} (e : α) (h : rows.length = n) :
    (((List.range n).zip (rows.map f)).map fun q => g q.1 q.2) = (List.range n).map fun r => g r (f (rows.getD r e)) := by
  rw [map_rows f e h, zip_map_self, List.map_map]
  rfl

/-! ## TRED -/

/-- The reduction of a row by the tree of R157, and whether an addition overflowed. -/
def tredRow (op : Nat) (vs : List FVal) : FVal × Bool :=
  (treeReduce (tredCombine op) vs.length (vs.map fun v => (v, false))).getD (FVal.zero, false)

/-- What a TRED writes. -/
def tredWrites (l : Latch) (d : Desc) (red : Nat → FVal × Bool) : List WRange :=
  (List.range d.rows).map fun r => d.rowWrite r [(roundElem l d.fmt (red r).1).bits]

/-- What a TRED does with the rows it has read. -/
def tredFinish (x : Issue) (l : Latch) (d : Desc) (rs : List (FVal × Bool)) : Cmd Unit := do
  Cmd.write x d.global (((List.range d.rows).zip rs).map fun q => d.rowWrite q.1 [(roundElem l d.fmt q.2.1).bits]) 5 d.tensor
  Cmd.update fun s => s.setWide (rs.any fun r => r.2)

theorem tredBody_eq (x : Issue) : tredBody x = (do
    let t ← Cmd.slot x.id
    Cmd.check (tredReason (cmdMods x.word % 4) (t.tile (cmdA x.word)) (t.tile (cmdD x.word)))
    Cmd.commitOk x [t.tile (cmdA x.word), t.tile (cmdD x.word)]
    Cmd.holdLines x (t.tile (cmdD x.word)).dest
    Cmd.into x (t.tile (cmdD x.word)).dest do
      let rows ← Cmd.values x (t.tile (cmdA x.word))
      tredFinish x t.latch (t.tile (cmdD x.word)) (rows.map (tredRow (cmdMods x.word % 4)))
    pure .next) := rfl

section
variable {x : Issue} {s r1 s2 : State} {a d : Desc} {t : Slot} {rows : List (List FVal)} {op : Nat}

theorem tredFinish_done {l : Latch} (hn : rows.length = d.rows)
    (hw : Cmd.write x d.global (tredWrites l d fun r => tredRow op (rows.getD r [])) 5 d.tensor r1 = .ok ((), s2)) :
    tredFinish x l d (rows.map (tredRow op)) r1
      = .ok ((), s2.setWide ((List.range d.rows).any fun r => (tredRow op (rows.getD r [])).2)) := by
  have hwrites := map_zip_rows (tredRow op) (fun r v => d.rowWrite r [(roundElem l d.fmt v.1).bits]) [] hn
  have hany : ((rows.map (tredRow op)).any fun r => r.2) = (List.range d.rows).any fun r => (tredRow op (rows.getD r [])).2 := by
    rw [map_rows (tredRow op) [] hn, List.any_map]
    rfl
  unfold tredFinish
  rw [hwrites, hany]
  exact (Cmd.bind_ok hw).trans rfl

theorem tredBody_done (ht : s.slot x.id = t) (ha : t.tile (cmdA x.word) = a) (hd : t.tile (cmdD x.word) = d)
    (hop : cmdMods x.word % 4 = op) (hr : tredReason op a d = none) (hh : t.touchesHeld [a, d] = false)
    (hl : Cmd.holdLines x d.dest s = .ok ((), s)) (hv : Cmd.values x a s = .ok (rows, r1)) (hn : rows.length = d.rows)
    (hw : Cmd.write x d.global (tredWrites t.latch d fun r => tredRow op (rows.getD r [])) 5 d.tensor r1 = .ok ((), s2)) :
    tredBody x s = .ok (.next, s2.setWide ((List.range d.rows).any fun r => (tredRow op (rows.getD r [])).2)) := by
  rw [tredBody_eq, Cmd.slot_bind]
  simp only [ht, ha, hd, hop]
  rw [Cmd.check_bind hr, Cmd.commitOk_bind (by rw [ht]; exact hh), Cmd.bind_ok hl]
  exact (Cmd.bind_ok (Cmd.into_ok ((Cmd.bind_ok hv).trans (tredFinish_done hn hw)))).trans rfl

end

/-! ## TTOPK -/

/-- The `k` first elements of a row in the order of R110, each with its column. -/
def ttopkRow (k : Nat) (vs : List FVal) : List (FVal × Nat) := ((vs.zip (List.range vs.length)).mergeSort ranksBefore).take k

/-- The writes of one of a TTOPK's two destinations, whose codes are read off the ranked elements by `code`. -/
def ttopkWrites (d : Desc) (code : FVal × Nat → Nat) (n : Nat) (top : Nat → List (FVal × Nat)) : List WRange :=
  (List.range n).map fun r => d.rowWrite r ((top r).map code)

/-- What a TTOPK does with the rows it has read. -/
def ttopkFinish (x : Issue) (l : Latch) (d ix : Desc) (tops : List (List (FVal × Nat))) : Cmd Unit := do
  Cmd.write x d.global (((List.range d.rows).zip tops).map fun q => d.rowWrite q.1 (q.2.map fun p => scoreCode l d p.1)) 5 d.tensor
  Cmd.write x ix.global (((List.range ix.rows).zip tops).map fun q => ix.rowWrite q.1 (q.2.map fun p => p.2)) 5 ix.tensor

theorem ttopkBody_eq (x : Issue) : ttopkBody x = (do
    let t ← Cmd.slot x.id
    let ix := Desc.of (t.desc (fieldOf 15 11 (cmdMods x.word)))
    Cmd.check (ttopkReason (cmdMods x.word % 128) (t.tile (cmdA x.word)) (t.tile (cmdD x.word)) ix)
    Cmd.commitOk x [t.tile (cmdA x.word), t.tile (cmdD x.word), ix]
    Cmd.holdLines x (t.tile (cmdD x.word)).dest
    Cmd.holdLines x ix.dest
    Cmd.into x (t.tile (cmdD x.word)).dest do
      Cmd.into x ix.dest do
        let rows ← Cmd.values x (t.tile (cmdA x.word))
        ttopkFinish x t.latch (t.tile (cmdD x.word)) ix (rows.map (ttopkRow (cmdMods x.word % 128)))
    pure .next) := rfl

section
variable {x : Issue} {s r1 s2 s3 : State} {a d ix : Desc} {t : Slot} {rows : List (List FVal)} {k : Nat}

theorem ttopkFinish_done {l : Latch} (hn : rows.length = d.rows) (hix : ix.rows = d.rows)
    (hw : Cmd.write x d.global (ttopkWrites d (fun p => scoreCode l d p.1) d.rows fun r => ttopkRow k (rows.getD r [])) 5 d.tensor r1
      = .ok ((), s2))
    (hwi : Cmd.write x ix.global (ttopkWrites ix Prod.snd d.rows fun r => ttopkRow k (rows.getD r [])) 5 ix.tensor s2 = .ok ((), s3)) :
    ttopkFinish x l d ix (rows.map (ttopkRow k)) r1 = .ok ((), s3) := by
  have hvalues := map_zip_rows (ttopkRow k) (fun r top => d.rowWrite r (top.map fun p => scoreCode l d p.1)) [] hn
  have hcolumns := map_zip_rows (ttopkRow k) (fun r top => ix.rowWrite r (top.map fun p => p.2)) [] hn
  unfold ttopkFinish
  rw [hix, hvalues, hcolumns]
  exact (Cmd.bind_ok hw).trans hwi

theorem ttopkBody_done (ht : s.slot x.id = t) (ha : t.tile (cmdA x.word) = a) (hd : t.tile (cmdD x.word) = d)
    (hi : Desc.of (t.desc (fieldOf 15 11 (cmdMods x.word))) = ix) (hk : cmdMods x.word % 128 = k) (hr : ttopkReason k a d ix = none)
    (hh : t.touchesHeld [a, d, ix] = false) (hl : Cmd.holdLines x d.dest s = .ok ((), s)) (hli : Cmd.holdLines x ix.dest s = .ok ((), s))
    (hv : Cmd.values x a s = .ok (rows, r1)) (hn : rows.length = d.rows) (hix : ix.rows = d.rows)
    (hw : Cmd.write x d.global (ttopkWrites d (fun p => scoreCode t.latch d p.1) d.rows fun r => ttopkRow k (rows.getD r [])) 5 d.tensor r1
      = .ok ((), s2))
    (hwi : Cmd.write x ix.global (ttopkWrites ix Prod.snd d.rows fun r => ttopkRow k (rows.getD r [])) 5 ix.tensor s2 = .ok ((), s3)) :
    ttopkBody x s = .ok (.next, s3) := by
  rw [ttopkBody_eq, Cmd.slot_bind]
  simp only [ht, ha, hd, hi, hk]
  rw [Cmd.check_bind hr, Cmd.commitOk_bind (by rw [ht]; exact hh), Cmd.bind_ok hl, Cmd.bind_ok hli]
  exact (Cmd.bind_ok (Cmd.into_ok (Cmd.into_ok ((Cmd.bind_ok hv).trans (ttopkFinish_done hn hix hw hwi))))).trans rfl

end

end Sys2Proof.Machine
end

section
/-! PROOF. O30: TRED and TTOPK. -/

namespace Sys2Proof.Proofs

open Sys2Proof Sys2Proof.Machine Sys2Proof.Safety

section
variable (s : State) (i : SlotId)

theorem exec_tred : exec (.tred i) s = .next (runCommand s i (fun w => cmdOp w == 0x49) tredBody) := rfl
theorem exec_ttopk : exec (.ttopk i) s = .next (runCommand s i (fun w => cmdOp w == 0x4A) ttopkBody) := rfl

end

/-- The modifiers of an accepted TRED are its operation alone. -/
theorem tred_mods_lt {s : State} {i : SlotId} {w : Nat} {b : Bool} (h : Issues s i w b) (ho : cmdOp w = 0x49) : cmdMods w < 4 := by
  have hf : formOf (cmdOp w) (cmdMods w) = some { a := [.d], d := [.d], mask := bitsMask 1 0 } := by rw [ho]; rfl
  exact Nat.lt_succ_of_le (issues_mods_le h hf)

/-- Settles O30: both bodies end with the writes of their rows' results (`tredBody_done`, `ttopkBody_done`). -/
theorem tileReductions : Obligations.TileReductions := by
  unfold Obligations.TileReductions
  intro s i w b h u t1 x s1 a d m rows r1 s2 hv hl
  have ht {o : Opnd} : t1.tile o = u.tile o := begun_tile s i w b o
  have hheld {ds : List Desc} (hh : u.touchesHeld ds = false) : t1.touchesHeld ds = false := (begun_touchesHeld s i w b ds).trans hh
  refine ⟨fun ho hr hh => ?tred, fun ho => ?ttopk⟩
  case tred =>
    intro red hn hw s3 hp
    have hb := tredBody_done (x := x) (t := t1) (a := a) (d := d) (op := m) rfl ht ht (Nat.mod_eq_of_lt (tred_mods_lt h ho)) hr
      (hheld hh) (Cmd.of_reads hl) (Cmd.of_gives hv) hn (Cmd.of_writes hw)
    exact (exec_tred s i).trans (congrArg _ (runCommand_done h (by simp [ho]) hb hp))
  case ttopk =>
    intro k ix hr hh hli top hn hix s3 hw hwi hp
    have hi : Desc.of (t1.desc (fieldOf 15 11 m)) = ix := begun_tile s i w b (.d (fieldOf 15 11 m))
    have hb := ttopkBody_done (x := x) (t := t1) (a := a) (d := d) (k := k) rfl ht ht hi rfl hr (hheld hh) (Cmd.of_reads hl)
      (Cmd.of_reads hli) (Cmd.of_gives hv) hn hix (Cmd.of_writes hw) (Cmd.of_writes hwi)
    exact (exec_ttopk s i).trans (congrArg _ (runCommand_done h (by simp [ho]) hb hp))

end Sys2Proof.Proofs
end

section
/-! SUPPORT. Items that read (R382, R385, R387, R393): how READ, DESCRIBE and DESCRIBE NEXT are answered, and the challenge. -/

namespace Sys2Proof.Machine

open Sys2Proof Sys2Proof.Safety

/-! ## An item of a context that is heard (R382, R385) -/

section
variable {s t : State} {c : Ctx} {op index sub off len : Nat} {data : List Byte} {a : Answer} (hr : s.reachable c = true)
include hr

/-- An item whose answer has status 0x00 leaves its state, and its response kept for the context. -/
theorem State.itemRow_answered (ha : (s.touch c).answerItem c op index sub off len data false = (a, t)) (hs : a.status = 0) :
    s.itemRow c op index sub off len data = { t with dict := { t.dict with response := some (c, a.bytes op off) } } := by
  unfold State.itemRow State.item
  rw [hr, ha]
  dsimp only
  rw [if_pos hs]
  rfl

/-- An item that fails without an effect is refused with its status. -/
theorem State.itemRow_failed (ha : (s.touch c).answerItem c op index sub off len data false = (a, s.touch c)) (hs : a.status ≠ 0)
    (hlt : a.status < 256) : Refused c a.status (s.touch c) (s.itemRow c op index sub off len data) := by
  unfold State.itemRow State.item
  rw [hr, ha]
  dsimp only
  rw [if_neg hs]
  exact ⟨rfl, _, rfl, (numAt_answer_status _ _ _).trans (Nat.mod_eq_of_lt hlt)⟩

end

/-! ## The item by its operation (R382) -/

section
variable {index sub : Nat} {m : Named} (hi : index < 0xF000) (hm : resolve index sub = some m)
include hi hm

theorem State.answerItem_read (s : State) (c : Ctx) (off len : Nat) : s.answerItem c 1 index sub off len [] false =
    (m.answer (s.readItem c m off len).1 (index * 256 + sub) (s.readItem c m off len).2.1, (s.readItem c m off len).2.2) := by
  have hv : ¬ (0xF000 ≤ index ∧ !decide (s.roleOf c = 2)) := fun ⟨hvendor, _⟩ => Nat.not_le.mpr hi hvendor
  simp only [State.answerItem, hm, if_neg hv]
  rfl

theorem State.answerItem_describe (s : State) (c : Ctx) :
    s.answerItem c 3 index sub 0 0 [] false = (m.answer 0 (index * 256 + sub) m.describe, s) := by
  have hv : ¬ (0xF000 ≤ index ∧ !decide (s.roleOf c = 2)) := fun ⟨hvendor, _⟩ => Nat.not_le.mpr hi hvendor
  simp only [State.answerItem, hm, if_neg hv]
  rfl

end

theorem State.answerItem_describeNext {index sub n : Nat} {m : Named} (hn : nextName (index * 256 + sub) = some n)
    (hm : resolve (n / 256) (n % 256) = some m) (s : State) (c : Ctx) :
    s.answerItem c 4 index sub 0 0 [] false = (m.answer 0 n m.describe, s) := by
  simp only [State.answerItem, hn, hm]
  rfl

/-! ## A READ (R387, R397) -/

/-- The state in which a READ finds its value: a tensor record rolls to the present epoch first (R180). -/
def State.readState (s : State) (c : Ctx) (m : Named) : State :=
  if m.shadow = false ∧ m.entry.key = 0x303003 then s.rollRecord (s.unitOf c m) else s

/-- The whole value of an entry that is neither a challenge nor a quote that is not there. -/
theorem State.readWhole_value {s : State} {c : Ctx} {m : Named}
    (h : m.shadow = false → m.entry.key ≠ 0x103001 ∧ (m.entry.key = 0xA04002 → (s.context c).quote.isSome = true)) :
    s.readWhole c m = (.ok (if m.shadow then s.shadowOf m.entry (s.unitOf c m)
      else (s.readState c m).valueOf c m.entry (s.unitOf c m)), s.readState c m) := by
  unfold State.readWhole State.readState
  cases hsh : m.shadow
  case true => rfl
  case false =>
    obtain ⟨hchallenge, hquote⟩ := h hsh
    have hq : ¬ (m.entry.key = 0xA04002 ∧ (s.context c).quote.isNone) := fun ⟨hk, hn⟩ => by
      simpa [Option.isNone_iff_eq_none.mp hn] using hquote hk
    by_cases hrec : m.entry.key = 0x303003
    · simp [hrec]
    · simp only [hchallenge, hrec, hq]
      rfl

/-- The check for entries that are written only passes a shadow and every entry that can be read. -/
theorem Named.not_writeOnly {m : Named} (h : m.shadow = true ∨ m.entry.access ≠ .wo) :
    (!m.shadow && m.entry.access == .wo) = false := by
  simpa [or_iff_not_imp_left] using h

section
variable {s t : State} {c : Ctx} {m : Named} {off len : Nat} {bs : List Byte} (hpath : m.pathOk c.path false = true)
  (haccess : m.shadow = true ∨ m.entry.access ≠ .wo)
include hpath haccess

theorem State.readItem_unfitted (hf : s.fitted m.entry.key (s.unitOf c m) = false) : s.readItem c m off len = (8, [], s) := by
  unfold State.readItem
  simp only [hpath, hf, Named.not_writeOnly haccess]
  rfl

variable (hf : s.fitted m.entry.key (s.unitOf c m) = true)
include hf

theorem State.readItem_unserved (h : s.served c m.entry.key = false ∨ s.unitFailed m.entry.key (s.unitOf c m) = true) :
    s.readItem c m off len = (9, [], s) := by
  have hu : !s.served c m.entry.key ∨ s.unitFailed m.entry.key (s.unitOf c m) := by simpa using h
  unfold State.readItem
  simp only [hpath, hf, Named.not_writeOnly haccess, if_pos hu]
  rfl

/-- A READ within its value answers the bytes asked for. -/
theorem State.readItem_bytes (hserved : s.served c m.entry.key = true) (hu : s.unitFailed m.entry.key (s.unitOf c m) = false)
    (hrange : m.entry.type.ranged = true ∨ (off = 0 ∧ len = m.entry.size)) (hblob : m.entry.type = .blob → off + len ≤ m.entry.size)
    (hw : s.readWhole c m = (.ok bs, t)) (hlen : off + len ≤ bs.length) :
    s.readItem c m off len = (0, (bs.drop off).take len, t) := by
  have hr : ¬ (!m.entry.type.ranged && (off != 0 || len != m.entry.size)) = true := by
    rcases hrange with h | ⟨h0, hl⟩
    · simp [h]
    · simp [h0, hl]
  have hb : ¬ (m.entry.type == .blob && decide (m.entry.size < off + len)) = true := by simpa using hblob
  unfold State.readItem
  simp only [hpath, hf, hserved, hu, Named.not_writeOnly haccess, if_neg hr, if_neg hb, hw, if_neg (Nat.not_lt.mpr hlen)]
  rfl

end

/-! ## Contexts and challenges (R393) -/

theorem State.context_ctx (s : State) (c : Ctx) : (s.context c).ctx = c := by
  unfold State.context
  rcases hf : s.dict.contexts.find? (fun k => k.ctx == c) with _ | k
  · rw [hf]
    rfl
  · have hk := List.find?_some hf
    rw [hf]
    exact eq_of_beq hk

theorem State.context_setContext (s : State) (k : CtxState) : (s.setContext k).context k.ctx = k := by
  have hnone : (s.dict.contexts.filter fun x => x.ctx != k.ctx).find? (fun x => x.ctx == k.ctx) = none := by
    refine List.find?_eq_none.mpr fun x hx => ?_
    simpa using (List.mem_filter.mp hx).2
  have hfind : (s.setContext k).dict.contexts.find? (fun x => x.ctx == k.ctx) = some k := by
    simp [State.setContext, List.find?_append, hnone]
  rw [State.context, hfind, Option.getD_some]

/-- The bytes of the next challenge: 32 free ones, the node identifier and the path code. -/
def State.challengeBytes (s : State) (c : Ctx) : List Byte :=
  (List.range 32).map (Config.nonceByte s.dict.challenges) ++ natLE 3 s.node ++ [BitVec.ofNat 8 c.path] ++ List.replicate 12 0

theorem State.length_challengeBytes (s : State) (c : Ctx) : (s.challengeBytes c).length = 48 := by
  simp [State.challengeBytes, natLE_length]

/-- The state once a context has been given its challenge. -/
def State.challenged (s : State) (c : Ctx) : State :=
  ({ s with dict := { s.dict with challenges := s.dict.challenges + 1 } } : State).setContext
    { s.context c with challenge := some (s.challengeBytes c, s.now) }

theorem State.challenge_given {s : State} {c : Ctx} (h : (s.context c).challengeAfter ≤ s.now) :
    s.challenge c = some (s.challengeBytes c, s.challenged c) := by
  unfold State.challenge
  simp only [if_neg (Nat.not_lt.mpr h)]
  rfl

theorem State.context_challenged (s : State) (c : Ctx) :
    (s.challenged c).context c = { s.context c with challenge := some (s.challengeBytes c, s.now) } := by
  have h := State.context_setContext { s with dict := { s.dict with challenges := s.dict.challenges + 1 } }
    { s.context c with challenge := some (s.challengeBytes c, s.now) }
  rwa [State.context_ctx] at h

theorem State.now_touch (s : State) (c : Ctx) : (s.touch c).now = s.now := by rw [State.touch_fields]

/-- But for the dictionary, hearing a context leaves the state. -/
theorem State.withDict_touch (s : State) (c : Ctx) (d : Dictionary) : ({ s.touch c with dict := d } : State) = { s with dict := d } := by
  rw [State.touch_fields]

/-- Hearing a context leaves the next challenge. -/
theorem State.challengeBytes_touch (s : State) (c : Ctx) : (s.touch c).challengeBytes c = s.challengeBytes c := by
  rw [State.touch_fields]
  rfl

end Sys2Proof.Machine
end

section
/-! PROOF. O37: items that read. -/

namespace Sys2Proof.Proofs

open Sys2Proof Sys2Proof.Machine Sys2Proof.Safety

theorem resolve_challenge : resolve 0x1030 1 = some ⟨⟨0x103001, .blob, .ro, 48, 0, 7, 0, false, false, 0⟩, false, 0⟩ := by
  decide +kernel

/-- Every path may read the challenge. -/
theorem challenge_pathOk (c : Ctx) :
    Named.pathOk ⟨⟨0x103001, .blob, .ro, 48, 0, 7, 0, false, false, 0⟩, false, 0⟩ c.path false = true := by
  have h : c.path = 1 ∨ c.path = 2 ∨ c.path = 3 := by cases c <;> simp [Ctx.path]
  rcases h with h | h | h <;> rw [h] <;> rfl

section
variable {s : State} {c : Ctx} {index sub off len : Nat} {m : Named} (hr : s.reachable c = true)
include hr

/-- A READ that answers a status other than 0x00 and leaves its state is refused. -/
theorem dictRead_refused (hi : index < 0xF000) (hm : resolve index sub = some m) {st : Nat} (hst : st ≠ 0) (hst' : st < 256)
    (h : (s.touch c).readItem c m off len = (st, [], s.touch c)) :
    ∃ t, exec (.dictRead c index sub off len) s = .next t ∧ Refused c st (s.touch c) t := by
  have ha := State.answerItem_read hi hm (s.touch c) c off len
  rw [h] at ha
  exact ⟨_, rfl, State.itemRow_failed hr ha hst hst'⟩

/-- A READ that answers 0x00 leaves the response with its bytes. -/
theorem dictRead_answered (hi : index < 0xF000) (hm : resolve index sub = some m) {bs : List Byte} {t : State}
    (h : (s.touch c).readItem c m off len = (0, bs, t)) :
    exec (.dictRead c index sub off len) s
      = .next { t with dict := { t.dict with response := some (c, (m.answer 0 (index * 256 + sub) bs).bytes 1 off) } } := by
  have ha := State.answerItem_read hi hm (s.touch c) c off len
  rw [h] at ha
  exact congrArg _ (State.itemRow_answered hr ha rfl)

/-- A read of 1030.01 answers the challenge it creates. -/
theorem unlockChallengeRead_answered (hserved : (s.touch c).served c 0x103001 = true)
    (hafter : ((s.touch c).context c).challengeAfter ≤ s.now) :
    exec (.unlockChallengeRead c) s = .next { (s.touch c).challenged c with dict := { ((s.touch c).challenged c).dict with
      response := some (c, (Named.answer ⟨⟨0x103001, .blob, .ro, 48, 0, 7, 0, false, false, 0⟩, false, 0⟩ 0 0x103001
        (s.challengeBytes c)).bytes 1 0) } } := by
  have hnow : ((s.touch c).context c).challengeAfter ≤ (s.touch c).now := by rwa [State.now_touch]
  have hwhole : (s.touch c).readWhole c ⟨⟨0x103001, .blob, .ro, 48, 0, 7, 0, false, false, 0⟩, false, 0⟩
      = (.ok (s.challengeBytes c), (s.touch c).challenged c) := by
    rw [← State.challengeBytes_touch s c]
    unfold State.readWhole
    rw [State.challenge_given hnow]
    rfl
  have hread := State.readItem_bytes (off := 0) (len := 48) (challenge_pathOk c) (.inr nofun) rfl hserved rfl (.inl rfl)
    (fun _ => Nat.le_refl 48) hwhole (s.length_challengeBytes c).ge
  rw [List.drop_zero, List.take_of_length_le (s.length_challengeBytes c).le] at hread
  exact dictRead_answered hr (by decide) resolve_challenge hread

end

/-- Settles O37: the checks of a READ in their order (`State.readItem_unfitted`, `State.readItem_unserved`, `State.readItem_bytes`),
and the challenge that a read of 1030.01 creates. -/
theorem dictionaryReads : Obligations.DictionaryReads := by
  unfold Obligations.DictionaryReads
  intro s c hr u answered
  refine ⟨fun index sub off len m hi hm hpath haccess => ⟨fun hf => ?unfitted, fun hf => ⟨fun hu => ?unserved, ?bytes⟩⟩,
    fun index sub m hi hm => ?describe, fun index sub n m hn hm => ?next, ?challenge⟩
  case unfitted => exact dictRead_refused hr hi hm (by decide) (by decide) (State.readItem_unfitted hpath haccess hf)
  case unserved => exact dictRead_refused hr hi hm (by decide) (by decide) (State.readItem_unserved hpath haccess hf hu)
  case bytes =>
    intro hserved hu hrange hblob hvalue r bs hlen
    exact dictRead_answered hr hi hm
      (State.readItem_bytes hpath haccess hf hserved hu hrange hblob (State.readWhole_value hvalue) hlen)
  case describe => exact congrArg _ (State.itemRow_answered hr (State.answerItem_describe hi hm u c) rfl)
  case next => exact congrArg _ (State.itemRow_answered hr (State.answerItem_describeNext hn hm u c) rfl)
  case challenge =>
    intro hserved hafter bs
    refine ⟨_, unlockChallengeRead_answered hr hserved hafter, ?held, ?count, fun m hm => ?response, ?frame⟩
    case held =>
      refine (congrArg CtxState.challenge (State.context_challenged u c)).trans ?_
      rw [State.challengeBytes_touch, State.now_touch]
      rfl
    case count => exact (congrArg (fun w : State => w.dict.challenges + 1) (State.touch_fields s c) :)
    case response =>
      cases resolve_challenge.symm.trans hm
      rfl
    case frame => exact State.withDict_touch s c _

end Sys2Proof.Proofs
end

section
/-! SUPPORT. Writes of tensor records and of pools (R187, R193, R207): what each makes of an accepted value. -/

namespace Sys2Proof.Machine

open Sys2Proof

/-! ## Bindings (R193) -/

section
variable {s : State} {v : Nat}

theorem State.recordControl_clears (h37 : bitOf v 37 = true) : s.recordControl v =
    some (s.setRecord (fieldOf 11 0 v) { s.record (fieldOf 11 0 v) with zeroAlarm := false, stallAlarm := false }) := by
  unfold State.recordControl
  simp only [h37, if_true]

theorem State.recordControl_unbinds (h37 : bitOf v 37 = false) (h36 : bitOf v 36 = false) :
    s.recordControl v = some ((s.rollRecord (fieldOf 11 0 v)).setRecord (fieldOf 11 0 v) {}) := by
  unfold State.recordControl
  simp only [h37, h36, Bool.false_eq_true, if_false]

end

theorem fieldOf_congr {hi lo v w : Nat} (hlo : lo ≤ hi) (h : ∀ i ≤ hi, v.testBit i = w.testBit i) :
    fieldOf hi lo v = fieldOf hi lo w := by
  apply Nat.eq_of_testBit_eq
  intro i
  simp only [fieldOf, Nat.testBit_mod_two_pow, Nat.testBit_div_two_pow]
  by_cases hi' : i < hi + 1 - lo
  · rw [h _ (by omega)]
  · simp [hi']

/-- `v` is a binding write, with the number, ID, format and mode bits of `w`. -/
structure BindingWrite (v w : Nat) : Prop where
  clears : bitOf v 37 = false
  binds : bitOf v 36 = true
  low : ∀ i, i < 36 → v.testBit i = w.testBit i

theorem BindingWrite.field {v w hi lo : Nat} (h : BindingWrite v w) (hlo : lo ≤ hi) (hhi : hi < 36) : fieldOf hi lo v = fieldOf hi lo w :=
  fieldOf_congr hlo fun i _ => h.low i (by omega)

theorem BindingWrite.bit {v w i : Nat} (h : BindingWrite v w) (hi : i < 36) : bitOf v i = bitOf w i := by
  rw [bitOf_eq_testBit, h.low i hi, bitOf_eq_testBit]

/-- What a binding write that gives no ID to a second record makes of its record, once that has rolled. -/
theorem State.recordControl_binds {s : State} {v w n tensor f : Nat} {scaled : Bool} (h : BindingWrite v w) (hn : fieldOf 11 0 w = n)
    (ht : fieldOf 27 12 w = tensor) (hf : fieldOf 31 28 w = f) (hs : bitOf w 32 = scaled) (hformat : recordFormat f = true)
    (hint : (scaled && fmtIsInt f) = false) (hother : ∀ r, (s.rollRecord n).recordOf tensor = some r → r.1 = n) :
    s.recordControl v =
      if ((s.rollRecord n).record n).bound then
        if ((s.rollRecord n).record n).tensor ≠ tensor ∨ ((s.rollRecord n).record n).format ≠ f then none
        else some ((s.rollRecord n).setRecord n { (s.rollRecord n).record n with
          scaled := scaled, watchZero := bitOf w 33, watchStall := bitOf w 34, shadow := bitOf w 35 })
      else some ((s.rollRecord n).setRecord n { (s.rollRecord n).record n with
          tensor := tensor, format := f, bound := true, scaled := scaled, watchZero := bitOf w 33, watchStall := bitOf w 34
          shadow := bitOf w 35, epoch := (s.rollRecord n).epoch, headroom := (s.rollRecord n).reg 0x302001 }) := by
  have hsame : (match (s.rollRecord n).recordOf tensor with
      | some r => r.1 != n
      | none => false) = false := by
    split
    · next r hr => simpa using hother r hr
    · rfl
  rw [← h.field (by decide) (by decide)] at hn ht hf
  rw [← h.bit (by decide)] at hs
  rw [← h.bit (i := 33) (by decide), ← h.bit (i := 34) (by decide), ← h.bit (i := 35) (by decide)]
  unfold State.recordControl
  simp only [h.clears, h.binds, hn, ht, hf, hs, hformat, hint, Bool.false_eq_true, if_false, if_true, Bool.not_true, Bool.or_false]
  exact if_neg (by rw [Bool.not_eq_true]; exact hsame)

/-! ## Transfers (R187) -/

/-- The state once a transfer has been started: what the copy left, with 3033.03 at 1. -/
def transferStarted (isExport : Bool) (a : Nat) (r : Nat × State) : State :=
  ({ r.2 with num := { r.2.num with transfer := some ⟨isExport, a, r.1⟩ } } : State).setReg 0x303303 1

theorem State.requestTransfer_starts {s : State} {v : Nat} (hnone : s.num.transfer = none) (hv : v = 1 ∨ v = 2)
    (hnode : nodeOf (s.reg 0x303301) = s.node) (hline : s.reg 0x303301 % 64 = 0)
    (hplain : plainRegion (localOf (s.reg 0x303301)) imageBytes = true) : s.requestTransfer v =
    (0, transferStarted (decide (v = 1)) (s.reg 0x303301)
      (if v = 1 then s.exportRecords (s.reg 0x303301) else s.importRecords (s.reg 0x303301))) := by
  have hop : ¬ (v ≠ 1 ∧ v ≠ 2) := by omega
  have hgo : ¬ (nodeOf (s.reg 0x303301) ≠ s.node ∨ s.reg 0x303301 % 64 ≠ 0
      ∨ !plainRegion (localOf (s.reg 0x303301)) imageBytes) := by simp [hnode, hline, hplain]
  unfold State.requestTransfer
  dsimp only
  rw [hnone, if_neg hop, if_neg hgo]
  rfl

theorem State.transferDone_reports {s : State} {x : ScaleTransfer} (hx : s.num.transfer = some x) (hr : s.running = true) :
    s.transferDone = ({ s with num := { s.num with transfer := none } } : State).setReg 0x303303 x.result := by
  unfold State.transferDone
  rw [hx]
  exact if_pos hr

/-! ## Pool records (R207) -/

section
variable {s : State} {p : Nat} {v : W256} (hfb : s.fallbackOk { s.pool p with record := v } = true)
include hfb

section
variable (hold : (s.pool p).enabled = false)
include hold

theorem State.writePool_enables (hnew : ({ s.pool p with record := v } : Pool).enabled = true)
    (hok : s.poolOk p { s.pool p with record := v } = true) : s.writePool p v =
      some (s.setPool p { record := v, state := 3, free := 0, low := decide (0 < ({ s.pool p with record := v } : Pool).lowWater) }) := by
  unfold State.writePool
  simp only [hold, hnew, hok, hfb, Bool.false_eq_true, Bool.not_true, if_false, if_true]
  rfl

theorem State.writePool_stays_disabled (hnew : ({ s.pool p with record := v } : Pool).enabled = false) :
    s.writePool p v = some (s.setPool p { record := v }) := by
  unfold State.writePool
  simp only [hold, hnew, hfb, Bool.false_eq_true, Bool.not_true, if_false]

end

variable (hold : (s.pool p).enabled = true)
include hold

theorem State.writePool_changes (hnew : ({ s.pool p with record := v } : Pool).enabled = true)
    (hok : s.poolOk p { s.pool p with record := v } = true)
    (hfixed : ({ s.pool p with record := v } : Pool).fixedPart = (s.pool p).fixedPart) :
    s.writePool p v = some ((s.setPool p { s.pool p with record := v }).lowWater p) := by
  unfold State.writePool
  simp only [hold, hnew, hok, hfb, hfixed, if_true, decide_true, Bool.and_self]

theorem State.writePool_disables (hnew : ({ s.pool p with record := v } : Pool).enabled = false)
    (hidle : (s.pool p).state = 2 ∨ (s.pool p).state = 3 ∨ (s.pool p).free = (s.pool p).count)
    (hfixed : ({ s.pool p with record := v } : Pool).fixedPart % 2 ^ 255 = (s.pool p).fixedPart % 2 ^ 255)
    (hnamed : ((List.range 16).any fun k =>
      k != p && (s.pool k).enabled && (s.pool k).fallbackValid && (s.pool k).fallback == p) = false) :
    s.writePool p v = some ((s.setPool p { record := v }).scribble [((s.pool p).meta, (s.pool p).ringBytes)]) := by
  have hbusy : ¬ ((s.pool p).state ≠ 2 ∧ (s.pool p).state ≠ 3 ∧ (s.pool p).free ≠ (s.pool p).count) := by tauto
  unfold State.writePool
  simp only [hold, hnew, hfb, hfixed, hnamed, hbusy, Bool.false_eq_true, Bool.not_true, if_false, if_true, ne_eq,
    not_true_eq_false, or_self]

end

end Sys2Proof.Machine
end

section
/-! SUPPORT. A pool that finishes its initialisation (R208, R209): what is stored in its ring and bitmap, and the refill of its cache. -/

namespace Sys2Proof.Machine

open Sys2Proof

/-! ## Bytes stored outside the program store -/

theorem place_hbm {a : Nat} (hlo : hbmBase ≤ a) (hhi : a < hbmEnd) : place a = .hbm := by
  unfold hbmBase at hlo
  unfold hbmEnd at hhi
  unfold place
  rw [if_neg (by omega), if_neg (by omega), if_neg (by omega), if_neg (by omega), if_neg (by omega), if_pos ⟨hlo, hhi⟩]

theorem State.storeSeg_eq {a : Nat} (h : progOf a = none) (s : State) (bs : List Byte) : (s.storeSeg (a, bs)).2 =
    ((List.range bs.length).foldl (fun (s : State) i => s.freshWord (wordOf (a + i))) s).setBytes a bs := by
  unfold State.storeSeg
  simp only [h]

/-- A store outside the program store leaves its bytes, and nothing but memory differs. -/
theorem State.storeSeg_stored {a : Nat} (h : progOf a = none) (s : State) (bs : List Byte) : s.Stored (s.storeSeg (a, bs)).2 a bs := by
  rw [State.storeSeg_eq h]
  have hfresh {γ : Type} (g : State → γ) (h : ∀ (v : State) w, g (v.freshWord w) = g v) :
      g ((List.range bs.length).foldl (fun (s : State) i => s.freshWord (wordOf (a + i))) s) = g s :=
    foldl_keeps g (fun _ _ => h _ _) _ _
  refine ⟨fun k hk => ?_, fun c hc => ?_, (State.setBytes_sansStored _ _ _).trans (hfresh State.sansStored fun _ _ => rfl)⟩
  · rw [State.rawByte_setBytes _ _ _ _ hk, List.getD_eq_getElem _ _ hk]
  · exact (State.rawByte_setBytes_other _ _ _ _ hc).trans (hfresh (fun v => v.rawByte c) fun _ _ => rfl)

/-- A word holds no error. -/
def State.Clean (s : State) (w : Nat) : Prop := SMap.get false s.mem.poison w = false ∧ SMap.get false s.mem.soft w = false

theorem State.clean_freshWord_same (s : State) (w : Nat) : (s.freshWord w).Clean w :=
  ⟨SMap.get_put_same false false s.mem.poison w, SMap.get_put_same false false s.mem.soft w⟩

theorem State.Clean.freshWord {s : State} {w : Nat} (h : s.Clean w) (x : Nat) : (s.freshWord x).Clean w := by
  by_cases hx : w = x
  · exact hx ▸ s.clean_freshWord_same w
  · obtain ⟨hpoison, hsoft⟩ := h
    exact ⟨(SMap.get_put_other false false s.mem.poison hx).trans hpoison, (SMap.get_put_other false false s.mem.soft hx).trans hsoft⟩

theorem State.clean_setBytes {s : State} {w : Nat} (h : s.Clean w) (a : Nat) (bs : List Byte) : (s.setBytes a bs).Clean w := by
  induction bs generalizing s a with
  | nil => exact h
  | cons b bs ih => exact ih (s := s.setByte a b) h _

theorem State.clean_foldl_freshWord {f : Nat → Nat} {l : List Nat} {i : Nat} (hi : i ∈ l) (s : State) :
    (l.foldl (fun (s : State) i => s.freshWord (f i)) s).Clean (f i) := by
  induction l generalizing s with
  | nil => cases hi
  | cons j l ih =>
    rcases List.mem_cons.mp hi with rfl | hl
    · exact List.foldlRecOn (motive := fun t : State => t.Clean (f i)) l _ (s.clean_freshWord_same _) fun t ht _ _ => ht.freshWord _
    · exact ih hl _

/-- A store gives the words it meets fresh check bits. -/
theorem State.clean_storeSeg {a k : Nat} (h : progOf a = none) (s : State) {bs : List Byte} (hk : k < bs.length) :
    (s.storeSeg (a, bs)).2.Clean (wordOf (a + k)) := by
  rw [State.storeSeg_eq h]
  exact State.clean_setBytes (State.clean_foldl_freshWord (f := fun i => wordOf (a + i)) (List.mem_range.mpr hk) s) _ _

/-- A read that meets no error corrects none. -/
theorem State.correctRead_clean {s : State} {a n : Nat} (h : ∀ k, k < n → place (a + k) = .hbm ∧ s.Clean (wordOf (a + k))) :
    s.correctRead [(a, n)] = s := by
  unfold State.correctRead
  split
  · rfl
  · rw [List.flatMap_cons, List.flatMap_nil, List.append_nil]
    refine List.foldlRecOn (motive := fun t : State => t = s) _ _ rfl fun t ht c hc => ?_
    obtain ⟨k, hk, rfl⟩ := List.mem_map.mp hc
    obtain ⟨hplace, -, hsoft⟩ := h k (List.mem_range.mp hk)
    subst ht
    simp [State.correctAt, hplace, hsoft]

/-- Bytes stored read back piece by piece. -/
theorem State.Stored.rawBytes_piece {s t : State} {a : Nat} {bs : List Byte} (h : s.Stored t a bs) {off len : Nat}
    (hl : off + len ≤ bs.length) : t.rawBytes (a + off) len = (bs.drop off).take len := by
  obtain ⟨hin, -, -⟩ := h
  refine List.ext_getElem (by simp [State.rawBytes]; omega) fun k hk _ => ?_
  have hk' : k < len := by simpa [State.rawBytes] using hk
  simp only [State.rawBytes, List.getElem_map, List.getElem_range, List.getElem_take, List.getElem_drop]
  rw [Nat.add_assoc, hin _ (by omega), List.getD_eq_getElem]

/-! ## The ring and the bitmap of a fresh pool (R208) -/

/-- A piece of a list made of pieces of one length. -/
theorem take_drop_flatMap {α β : Type} {f : α → List β} {w : Nat} (hf : ∀ x, (f x).length = w) (l : List α) {i : Nat}
    (hi : i < l.length) : ((l.flatMap f).drop (w * i)).take w = f l[i] := by
  induction l generalizing i with
  | nil => cases hi
  | cons x l ih =>
    rw [List.flatMap_cons]
    cases i with
    | zero => rw [Nat.mul_zero, List.drop_zero, List.take_left' (hf x), List.getElem_cons_zero]
    | succ i =>
      rw [Nat.mul_succ, Nat.add_comm, ← List.drop_drop, List.drop_left' (hf x), ih (Nat.lt_of_succ_lt_succ hi), List.getElem_cons_succ]

/-- What initialisation writes: the entries of the ring up to its last codeword, and a clear bitmap. -/
def Pool.freshMeta (q : Pool) : List Byte :=
  padTo 64 ((List.range q.count).flatMap fun i => natLE 4 i) ++ List.replicate (q.metaBytes - q.ringBytes) 0

section
variable (q : Pool)

theorem Pool.count_pos : 0 < q.count := Nat.succ_pos _

theorem Pool.count_le : q.count ≤ 2 ^ 24 := Nat.mod_lt _ (Nat.two_pow_pos 24)

theorem Pool.ringSlots_eq : q.ringSlots = (q.count + 15) / 16 * 16 := by
  rw [Pool.ringSlots, Pool.ringBytes, ceilDiv]
  omega

theorem Pool.count_le_ringSlots : q.count ≤ q.ringSlots := by
  rw [Pool.ringSlots_eq]
  omega

theorem Pool.ringBytes_le : q.ringBytes ≤ q.metaBytes := Nat.le_add_right _ _

theorem Pool.count_le_ringBytes : 4 * q.count ≤ q.ringBytes := by
  rw [Pool.ringBytes, ceilDiv]
  omega

theorem length_ringEntries (n : Nat) : ((List.range n).flatMap fun i => natLE 4 i).length = 4 * n := by
  simp [List.length_flatMap, natLE_length, Nat.mul_comm]

/-- The entries of the ring, and zeros behind them. -/
theorem Pool.freshMeta_eq : q.freshMeta =
    ((List.range q.count).flatMap fun i => natLE 4 i) ++ List.replicate (q.metaBytes - 4 * q.count) 0 := by
  have hring : (64 - 4 * q.count % 64) % 64 + (q.metaBytes - q.ringBytes) = q.metaBytes - 4 * q.count := by
    have hle := q.ringBytes_le
    have h : q.ringBytes = (4 * q.count + 63) / 64 * 64 := by rw [Pool.ringBytes, ceilDiv]; omega
    omega
  rw [Pool.freshMeta, padTo, length_ringEntries, List.append_assoc, List.replicate_append_replicate, hring]

theorem Pool.length_freshMeta : q.freshMeta.length = q.metaBytes := by
  have h1 := q.count_le_ringBytes
  have h2 := q.ringBytes_le
  rw [Pool.freshMeta_eq, List.length_append, length_ringEntries, List.length_replicate]
  omega

theorem Pool.freshMeta_entry {i : Nat} (hi : i < q.count) : (q.freshMeta.drop (4 * i)).take 4 = natLE 4 i := by
  rw [Pool.freshMeta_eq, List.drop_append_of_le_length (by rw [length_ringEntries]; omega),
    List.take_append_of_le_length (by rw [List.length_drop, length_ringEntries]; omega),
    take_drop_flatMap (natLE_length 4) _ (by rwa [List.length_range]), List.getElem_range]

theorem Pool.freshMeta_rest {k : Nat} (hk : 4 * q.count ≤ k) : q.freshMeta.getD k 0 = 0 := by
  rw [Pool.freshMeta_eq, List.getD_append_right _ _ _ _ (by rwa [length_ringEntries])]
  simp only [List.getD_eq_getElem?_getD, List.getElem?_replicate]
  split <;> rfl

end

/-! ## The refill of the cache (R209) -/

/-- The ring of a pool holds every index in order, in codewords without an error. -/
structure State.RingFresh (s : State) (q : Pool) : Prop where
  entry : ∀ i, i < q.count → s.rawBytes (q.meta + 4 * i) 4 = natLE 4 i
  sound : ∀ k, k < q.ringBytes → place (q.meta + k) = .hbm ∧ s.Clean (wordOf (q.meta + k))

/-- A fresh pool, enabled, of whose ring the first `j` entries are in the cache. -/
def Pool.refilled (q : Pool) (j : Nat) : Pool :=
  { q with state := 1, cache := List.range j, ringHead := j % q.ringSlots, ringHeld := q.count - j }

theorem State.setPool_setPool (s : State) (p : Nat) {x y : Pool} (hx : x.state = 1) (hy : y.state = 1) :
    (s.setPool p x).setPool p y = s.setPool p y := by
  have hne {z : Pool} (hz : z.state = 1) : z ≠ {} := fun h => absurd (hz.symm.trans (congrArg Pool.state h)) (by decide)
  simp only [State.setPool, SMap.put, if_neg (hne hx), if_neg (hne hy), SMap.ins_ins]

theorem State.ringFresh_setPool {s : State} {q : Pool} (h : s.RingFresh q) (p : Nat) (x : Pool) : (s.setPool p x).RingFresh q :=
  ⟨h.entry, h.sound⟩

/-- The refill stops where the ring is empty or the cache holds 256. -/
theorem State.refillMoves_full (s : State) (q : Pool) (p n : Nat) :
    (s.setPool p (q.refilled (min q.count 256))).refillMoves p n = s.setPool p (q.refilled (min q.count 256)) := by
  cases n with
  | zero => rfl
  | succ n =>
    unfold State.refillMoves
    simp only [State.pool_setPool]
    refine if_pos (.inr ?_)
    have hlen : (q.refilled (min q.count 256)).cache.length = min q.count 256 := List.length_range
    have hheld : (q.refilled (min q.count 256)).ringHeld = q.count - min q.count 256 := rfl
    omega

section
variable {s : State} {q : Pool} (h : s.RingFresh q) (p : Nat)
include h

/-- The indices that the ring holds from entry `j` on. -/
theorem State.RingFresh.entries {j k : Nat} (hjk : j + k ≤ q.count) :
    ((List.range k).map fun i => leNat (s.rawBytes (q.entryAt (j + i)) 4)) = (List.range k).map (j + ·) := by
  refine List.map_congr_left fun i hi => ?_
  have hi := List.mem_range.mp hi
  have hc := q.count_le_ringSlots
  have hn := q.count_le
  rw [Pool.entryAt, Nat.mod_eq_of_lt (by omega), h.entry _ (by omega), leNat_natLE, Nat.mod_eq_of_lt (by omega)]

/-- One access of the refill moves what is left of a codeword of the ring. -/
theorem State.RingFresh.refillMoves_succ {j : Nat} (hj : j < min q.count 256) (h16 : j % 16 = 0) (n : Nat) :
    (s.setPool p (q.refilled j)).refillMoves p (n + 1)
      = (s.setPool p (q.refilled (j + min 16 (q.count - j)))).refillMoves p n := by
  have hslots := q.count_le_ringSlots
  have hbytes := q.count_le_ringBytes
  have hhead : (q.refilled j).ringHead = j := Nat.mod_eq_of_lt (by omega)
  have hk : min (16 - j % 16) (q.refilled j).ringHeld = min 16 (q.count - j) := by
    rw [h16]
    rfl
  have hat (i : Nat) : (q.refilled j).entryAt i = q.entryAt i := rfl
  have hentry : q.entryAt j = q.meta + 4 * j := by rw [Pool.entryAt, Nat.mod_eq_of_lt (by omega)]
  have hgo : ¬ ((q.refilled j).state ≠ 1 ∨ min 16 (q.count - j) = 0 ∨ 256 < (q.refilled j).cache.length + min 16 (q.count - j)) := by
    have hlen : (q.refilled j).cache.length = j := List.length_range
    have hstate : (q.refilled j).state = 1 := rfl
    omega
  have hpoison : (s.setPool p (q.refilled j)).poisoned (q.meta + 4 * j) = false := (h.sound (4 * j) (by omega)).2.1
  have hcorrect : (s.setPool p (q.refilled j)).correctRead [(q.meta + 4 * j, 4 * min 16 (q.count - j))]
      = s.setPool p (q.refilled j) :=
    State.correctRead_clean fun k hk => by
      rw [Nat.add_assoc]
      exact (State.ringFresh_setPool h p _).sound _ (by omega)
  have hmoved : ({ q.refilled j with
      cache := (q.refilled j).cache ++ (List.range (min 16 (q.count - j))).map (j + ·)
      ringHead := (j + min 16 (q.count - j)) % q.ringSlots
      ringHeld := (q.refilled j).ringHeld - min 16 (q.count - j) } : Pool) = q.refilled (j + min 16 (q.count - j)) := by
    simp only [Pool.refilled, List.range_add, Nat.sub_sub]
  conv => lhs; unfold State.refillMoves
  simp only [State.pool_setPool, hk, if_neg hgo, hhead, hat, hentry, hpoison, hcorrect, Bool.false_eq_true, if_false]
  rw [(State.ringFresh_setPool h p _).entries (by omega)]
  rw [State.setPool_setPool _ _ rfl rfl]
  exact congrArg (fun x => (s.setPool p x).refillMoves p n) hmoved

/-- A refill with enough accesses brings the first 256 indices at most into the cache. -/
theorem State.RingFresh.refillMoves_all {n : Nat} {j : Nat} (hj : j ≤ min q.count 256) (h16 : j % 16 = 0 ∨ j = min q.count 256)
    (hn : min q.count 256 ≤ j + 16 * n) :
    (s.setPool p (q.refilled j)).refillMoves p n = s.setPool p (q.refilled (min q.count 256)) := by
  rcases Nat.eq_or_lt_of_le hj with rfl | hlt
  · exact State.refillMoves_full s q p n
  · induction n generalizing j with
    | zero => omega
    | succ n ih =>
      rw [h.refillMoves_succ p hlt (by omega)]
      rcases Nat.eq_or_lt_of_le (show j + min 16 (q.count - j) ≤ min q.count 256 by omega) with he | hl
      · rw [he]
        exact State.refillMoves_full s q p n
      · exact ih (by omega) (by omega) (by omega) hl

theorem State.RingFresh.refillCache : (s.setPool p (q.refilled 0)).refillCache p = s.setPool p (q.refilled (min q.count 256)) := by
  unfold State.refillCache
  rw [State.pool_setPool, if_pos ⟨q.count_pos, Nat.zero_le _⟩]
  exact h.refillMoves_all p (Nat.zero_le _) (.inl rfl) (by omega)

end

end Sys2Proof.Machine
end

section
/-! SUPPORT. A pool that finishes its initialisation: the state it leaves (R208). -/

namespace Sys2Proof.Machine

open Sys2Proof

/-- A pool as initialisation ends, before its cache is filled: every buffer free (R208). -/
def Pool.allFree (q : Pool) : Pool := { q with free := q.count, low := decide (q.count < q.lowWater) }

section
variable {s : State} {p : Nat}

theorem State.poolInitComplete_eq (hpow : s.pow.powered = true) (hp : p < 16) (h3 : (s.pool p).state = 3) : s.poolInitComplete p =
    ((s.storeSeg ((s.pool p).meta, (s.pool p).freshMeta)).2.setPool p ((s.pool p).allFree.refilled 0)).refillCache p := by
  unfold State.poolInitComplete
  exact if_pos ⟨hpow, hp, h3⟩

theorem inHbmRange_iff (a n : Nat) : plainRegion.inHbmRange a n = true ↔ hbmBase ≤ a ∧ a + n ≤ hbmEnd := by
  rw [plainRegion.inHbmRange, Bool.and_eq_true, decide_eq_true_eq, decide_eq_true_eq]

variable (hm : plainRegion.inHbmRange (s.pool p).meta (s.pool p).metaBytes = true)
include hm

theorem State.place_meta {k : Nat} (hk : k < (s.pool p).metaBytes) : place ((s.pool p).meta + k) = .hbm := by
  obtain ⟨hlo, hhi⟩ := (inHbmRange_iff _ _).mp hm
  exact place_hbm (by omega) (by omega)

theorem State.progOf_meta : progOf (s.pool p).meta = none := by
  have h0 : place (s.pool p).meta = .hbm :=
    State.place_meta hm (k := 0) (Nat.lt_of_lt_of_le (by have := (s.pool p).count_pos; omega)
      ((s.pool p).count_le_ringBytes.trans (s.pool p).ringBytes_le))
  simp only [progOf, h0]

theorem State.freshMeta_stored : s.Stored (s.storeSeg ((s.pool p).meta, (s.pool p).freshMeta)).2 (s.pool p).meta (s.pool p).freshMeta :=
  State.storeSeg_stored (State.progOf_meta hm) s _

theorem State.ringFresh_stored : (s.storeSeg ((s.pool p).meta, (s.pool p).freshMeta)).2.RingFresh (s.pool p).allFree := by
  have hlen := (s.pool p).length_freshMeta
  have hring := (s.pool p).ringBytes_le
  have hcount := (s.pool p).count_le_ringBytes
  refine ⟨fun i (hi : i < (s.pool p).count) => ?_, fun k (hk : k < (s.pool p).ringBytes) => ⟨State.place_meta hm (by omega), ?_⟩⟩
  · exact ((State.freshMeta_stored hm).rawBytes_piece (by omega)).trans ((s.pool p).freshMeta_entry hi)
  · exact State.clean_storeSeg (State.progOf_meta hm) s (by omega)

/-- Initialisation stores ring and bitmap, and leaves the pool enabled with its cache filled from the ring. -/
theorem State.poolInitComplete_leaves (hpow : s.pow.powered = true) (hp : p < 16) (h3 : (s.pool p).state = 3) : s.poolInitComplete p =
    (s.storeSeg ((s.pool p).meta, (s.pool p).freshMeta)).2.setPool p
      ((s.pool p).allFree.refilled (min (s.pool p).count 256)) :=
  (State.poolInitComplete_eq hpow hp h3).trans ((State.ringFresh_stored hm).refillCache p)

end

end Sys2Proof.Machine
end

section
/-! PROOF. O42: tensor records, transfers and pools. -/

namespace Sys2Proof.Proofs

open Sys2Proof Sys2Proof.Machine Sys2Proof.Safety

theorem resolve_recordControl : resolve 0x3030 1 = some ⟨⟨0x303001, .u64, .wo, 8, 0, 3, 0, false, false, 0⟩, false, 0⟩ := by
  decide +kernel
theorem resolve_transfer : resolve 0x3033 2 = some ⟨⟨0x303302, .u8, .wo, 1, 0, 3, 0, false, false, 0⟩, false, 0⟩ := by
  decide +kernel
theorem entryOf_poolRecord : entryOf 0x710001 = some ⟨0x710001, .blob, .rw, 32, 0, 3, 0, false, false, 0⟩ := by
  decide +kernel

/-- Every pool has its record at its own index (R377). -/
theorem resolve_poolRecord {p : Nat} (hp : p < 16) :
    resolve (0x7100 + p) 1 = some ⟨⟨0x710001, .blob, .rw, 32, 0, 3, 0, false, false, 0⟩, false, p⟩ := by
  have hpool : (if 0x7100 ≤ 0x7100 + p ∧ 0x7100 + p ≤ 0x710F then 0x7100 + p - 0x7100 else 0) = p := by
    rw [if_pos (by omega), Nat.add_sub_cancel_left]
  unfold resolve
  simp only [hpool, Nat.add_sub_cancel, show 0x7100 * 256 + 1 = 0x710001 from rfl, entryOf_poolRecord]

theorem act_recordControl (s : State) (c : Ctx) (role u v : Nat) (bs : List Byte) :
    s.act c role 0x303001 u v bs = orRefused s (s.recordControl v) := rfl
theorem act_transfer (s : State) (c : Ctx) (role u v : Nat) (bs : List Byte) :
    s.act c role 0x303302 u v bs = s.requestTransfer v := rfl
theorem act_poolRecord (s : State) (c : Ctx) (role p v : Nat) (bs : List Byte) :
    s.act c role 0x710001 p v bs = orRefused s (s.writePool p (BitVec.ofNat 256 v)) := rfl

/-! ## Tensor records -/

/-- The bits of a write of 3030.01 as its entry receives it: [63:38] are reserved (R193). -/
theorem testBit_recordWrite (v lo n x : Nat) {i : Nat} (hi : i < 38) : (cleanValue 0x303001 (setField v lo n x)).testBit i =
    if lo ≤ i ∧ i < lo + n then x.testBit (i - lo) else v.testBit i := by
  rw [cleanValue_field (by decide) rfl, testBit_setField_zero, testBit_setField]
  simp [show ¬ 38 ≤ i by omega]

theorem bitOf_recordWrite (v n x : Nat) {lo i : Nat} (hlo : lo ≤ i) (hn : i < lo + n) (hi : i < 38) :
    bitOf (cleanValue 0x303001 (setField v lo n x)) i = x.testBit (i - lo) := by
  rw [bitOf_eq_testBit, testBit_recordWrite _ _ _ _ hi, if_pos ⟨hlo, hn⟩]

/-- A write names its record by its lowest bits, whatever command it gives. -/
theorem fieldOf_recordWrite (v n x : Nat) {lo : Nat} (hlo : 12 ≤ lo) :
    fieldOf 11 0 (cleanValue 0x303001 (setField v lo n x)) = fieldOf 11 0 v :=
  fieldOf_congr (by decide) fun i hi => by rw [testBit_recordWrite _ _ _ _ (by omega), if_neg (by omega)]

theorem bindingWrite_recordBind (v : Nat) : BindingWrite (cleanValue 0x303001 (setField v 36 2 1)) v where
  clears := bitOf_recordWrite _ _ _ (by decide) (by decide) (by decide)
  binds := bitOf_recordWrite _ _ _ (by decide) (by decide) (by decide)
  low i hi := by rw [testBit_recordWrite _ _ _ _ (by omega), if_neg (by omega)]

/-- A write of 3030.01 has the effect that `recordControl` gives it where that takes it. -/
theorem recordControl_performs {row : State → Host.Outcome State Fault Refusal} {c : Ctx} {w : Nat} {ok : State → Prop}
    {f : State → State} (hrow : ∀ s, row s = .next (s.writeRow c 0x3030 1 8 w)) (hw : w < 2 ^ 64)
    (h : ∀ u, ok u → u.recordControl (cleanValue 0x303001 w) = some (f u)) : Performs row c 0x3030 1 8 ok f := by
  refine performs_of_act hrow resolve_recordControl (by decide) hw fun u hok => ?_
  rw [act_recordControl, h u hok]
  rfl

theorem recordClearAlarms_performs (c : Ctx) (v : W64) :
    Performs (exec (.recordClearAlarms c v)) c 0x3030 1 8 (fun _ => True) fun u =>
      u.setRecord (fieldOf 11 0 v.toNat) { u.record (fieldOf 11 0 v.toNat) with zeroAlarm := false, stallAlarm := false } := by
  refine recordControl_performs (fun _ => rfl) (setField_lt v.isLt (by decide)) fun u _ => ?_
  rw [State.recordControl_clears (bitOf_recordWrite _ _ _ (by decide) (by decide) (by decide)), fieldOf_recordWrite _ _ _ (by decide)]

theorem recordUnbind_performs (c : Ctx) (v : W64) :
    Performs (exec (.recordUnbind c v)) c 0x3030 1 8 (fun _ => True) fun u =>
      (u.rollRecord (fieldOf 11 0 v.toNat)).setRecord (fieldOf 11 0 v.toNat) {} := by
  refine recordControl_performs (fun _ => rfl) (setField_lt v.isLt (by decide)) fun u _ => ?_
  rw [State.recordControl_unbinds (bitOf_recordWrite _ _ _ (by decide) (by decide) (by decide))
    (bitOf_recordWrite _ _ _ (by decide) (by decide) (by decide)), fieldOf_recordWrite _ _ _ (by decide)]

/-! ## Transfers -/

/-- A request for a transfer has the effect that `requestTransfer` gives it where that takes it. -/
theorem transfer_performs {row : State → Host.Outcome State Fault Refusal} {c : Ctx} {v : Nat} {f : State → State}
    (hrow : ∀ s, row s = .next (s.writeRow c 0x3033 2 1 v)) (hv : v = 1 ∨ v = 2)
    (hf : ∀ u : State, f u = transferStarted (decide (v = 1)) (u.reg 0x303301)
      (if v = 1 then u.exportRecords (u.reg 0x303301) else u.importRecords (u.reg 0x303301))) :
    Performs row c 0x3033 2 1 (fun u => u.num.transfer = none ∧ nodeOf (u.reg 0x303301) = u.node ∧ u.reg 0x303301 % 64 = 0
      ∧ plainRegion (localOf (u.reg 0x303301)) imageBytes = true) f := by
  refine performs_of_act hrow resolve_transfer (by decide) (by omega) ?_
  rintro u ⟨hnone, hnode, hline, hplain⟩
  have hclean : cleanValue 0x303302 v = v := rfl
  rw [act_transfer, hclean, State.requestTransfer_starts hnone hv hnode hline hplain, ← hf]

/-! ## Pools -/

/-- A write of a pool record has the effect that `writePool` gives it where that takes it. -/
theorem poolRecord_performs {c : Ctx} {p : Nat} {v : W256} {ok : State → Prop} {f : State → State} (hp : p < 16)
    (h : ∀ u, ok u → u.writePool p (BitVec.ofNat 256 (cleanValue 0x710001 v.toNat)) = some (f u)) :
    Performs (exec (.poolRecordWrite c p v)) c (0x7100 + p) 1 32 ok f := by
  refine performs_of_act (fun _ => rfl) (resolve_poolRecord hp) (show 0x710001 ≠ 0x105001 by decide)
    (toNat_lt_bytes (n := 32) v) fun u hok => ?_
  have hunit : u.unitOf c ⟨⟨0x710001, .blob, .rw, 32, 0, 3, 0, false, false, 0⟩, false, p⟩ = p := rfl
  rw [act_poolRecord, hunit, h u hok]
  rfl

section
variable {s : State} {p : Nat} (hpow : s.pow.powered = true) (hp : p < 16) (h3 : (s.pool p).state = 3)
  (hm : plainRegion.inHbmRange (s.pool p).meta (s.pool p).metaBytes = true)
include hpow hp h3 hm

/-- Initialisation leaves every buffer free and the first in the cache; no other pool, nor anything but memory, differs. -/
theorem poolInitComplete_done : ∃ t, exec (.poolInitComplete p) s = .next t
    ∧ t.pool p = (s.pool p).allFree.refilled (min (s.pool p).count 256)
    ∧ (∀ k, k ≠ p → t.pool k = s.pool k)
    ∧ (∀ i, i < (s.pool p).count → t.rawBytes ((s.pool p).meta + 4 * i) 4 = natLE 4 i)
    ∧ (∀ k, 4 * (s.pool p).count ≤ k → k < (s.pool p).metaBytes → t.rawByte ((s.pool p).meta + k) = 0)
    ∧ (∀ a, a < (s.pool p).meta ∨ (s.pool p).meta + (s.pool p).metaBytes ≤ a → t.rawByte a = s.rawByte a)
    ∧ t.swarm = s.swarm ∧ t.net = s.net := by
  have hlen := (s.pool p).length_freshMeta
  obtain ⟨hin, hout, hrest⟩ := State.freshMeta_stored hm
  refine ⟨_, congrArg Host.Outcome.next (State.poolInitComplete_leaves hm hpow hp h3), State.pool_setPool _ _ _, fun k hk => ?_,
    (State.ringFresh_stored hm).entry, fun k hk hkm => ?_, fun a ha => hout a (by rwa [hlen]),
    (congrArg State.swarm hrest :), (congrArg State.net hrest :)⟩
  · exact (State.pool_setPool_other _ _ hk).trans (congrArg (fun u : State => u.pool k) hrest :)
  · exact (hin k (by omega)).trans ((s.pool p).freshMeta_rest hk)

end

/-- Settles O42: each entry's own write lemma, brought to its row by `performs_of_act`, and what initialisation stores
(`State.poolInitComplete_leaves`). -/
theorem recordsAndPools : Obligations.RecordsAndPools := by
  unfold Obligations.RecordsAndPools
  refine ⟨fun c v => ?records, fun c => ?transfers, fun s x hx hr => congrArg _ (State.transferDone_reports hx hr),
    fun c p v hp => ?pools, fun s p hpow hp h3 hm => ?initialised⟩
  case records =>
    intro n tensor f scaled rolled good
    refine ⟨?bind, ?modes, recordUnbind_performs c v, recordClearAlarms_performs c v⟩
    case bind =>
      refine recordControl_performs (fun _ => rfl) (setField_lt v.isLt (by decide)) ?_
      rintro u ⟨⟨hformat, hint, hother⟩, hfree⟩
      exact (State.recordControl_binds (bindingWrite_recordBind _) rfl rfl rfl rfl hformat hint hother).trans
        (if_neg (by rw [Bool.not_eq_true]; exact hfree))
    case modes =>
      refine recordControl_performs (fun _ => rfl) (setField_lt v.isLt (by decide)) ?_
      rintro u ⟨⟨hformat, hint, hother⟩, hbound, htensor, hf⟩
      exact ((State.recordControl_binds (bindingWrite_recordBind _) rfl rfl rfl rfl hformat hint hother).trans (if_pos hbound)).trans
        (if_neg (by rw [not_or, not_not, not_not]; exact ⟨htensor, hf⟩))
  case transfers =>
    intro ready started
    exact ⟨transfer_performs (v := 1) (fun _ => rfl) (.inl rfl) fun _ => congrArg (transferStarted true _) (if_pos rfl).symm,
      transfer_performs (v := 2) (fun _ => rfl) (.inr rfl) fun _ => congrArg (transferStarted false _) (if_neg (by decide)).symm⟩
  case pools =>
    refine ⟨poolRecord_performs hp ?enabled, poolRecord_performs hp ?stays, poolRecord_performs hp ?changed,
      poolRecord_performs hp ?disabled⟩
    case enabled => exact fun u ⟨hold, hnew, hok, hfb⟩ => State.writePool_enables hfb hold hnew hok
    case stays => exact fun u ⟨hold, hnew, hfb⟩ => State.writePool_stays_disabled hfb hold hnew
    case changed => exact fun u ⟨hold, hnew, hok, hfb, hfixed⟩ => State.writePool_changes hfb hold hnew hok hfixed
    case disabled =>
      exact fun u ⟨hold, hnew, hfb, hidle, hfixed, hnamed⟩ => State.writePool_disables hfb hold hnew hidle hfixed hnamed
  case initialised =>
    obtain ⟨t, ht, hpool, hothers, hring, hmap, hmem, hswarm, hnet⟩ := poolInitComplete_done hpow hp h3 hm
    refine ⟨t, ht, ?_, ?_, ?_, hothers, hpool, hring, hmap, hmem, hswarm, hnet⟩
    all_goals rw [hpool]; rfl

end Sys2Proof.Proofs
end

section
/-! SUPPORT. Scrubs and fabric time: the words that Scarab meets (R201, R460), what a consumed frame leaves, and what posting an event leaves
of the health record and of the repairs of HBM rows (R467–R470). -/

namespace Sys2Proof.Machine

open Sys2Proof

/-! ## The word that a scrub meets (R460) -/

theorem State.scrubCorrects_iff (s : State) (w : Nat) (f : ScrubFinding) :
    s.scrubCorrects w f = true ↔ f = .corrected ∨ SMap.get false s.mem.soft w = true := by
  rw [State.scrubCorrects, Bool.or_eq_true, beq_iff_eq]

theorem place_near {a : Nat} (h : a < 0x800000000) : place a = .near (a / 0x80000000) := if_pos h

theorem wordOf_hbm {a : Nat} (hlo : hbmBase ≤ a) (hhi : a < hbmEnd) : wordOf a = a / 64 * 64 := if_pos ⟨hlo, hhi⟩

theorem wordOf_low {a : Nat} (h : a < hbmBase) : wordOf a = a / 8 * 8 := if_neg fun hc => absurd hc.1 (Nat.not_le.mpr h)

/-- A byte of HBM lies in a codeword of HBM. -/
theorem place_wordOf_hbm {a : Nat} (h : inHbm a 1 = true) : place (wordOf a) = .hbm := by
  simp only [inHbm, Bool.and_eq_true, decide_eq_true_eq] at h
  obtain ⟨hlo, hhi⟩ := h
  rw [wordOf_hbm hlo hhi]
  have hb : hbmBase = 64 * 0x100000000 := rfl
  exact place_hbm (by omega) (by omega)

theorem place_wordOf_near {a : Nat} (h : a < 0x800000000) : place (wordOf a) = .near (a / 0x80000000) := by
  have hb : hbmBase = 0x4000000000 := rfl
  rw [wordOf_low (by omega), place_near (by omega)]
  congr 1
  omega

/-- A byte of the program store lies in a word of the control space of its hive. -/
theorem progOf_some {a n : Nat} {b : Bool} (h : progOf a = some (n, b)) : 0x1800000000 ≤ a ∧ a < 0x2000000000 := by
  unfold progOf at h
  split at h
  · next hp =>
    unfold place at hp
    split at hp
    · cases hp
    split at hp
    · cases hp
    split at hp
    · cases hp
    split at hp
    · assumption
    split at hp
    · cases hp
    split at hp <;> cases hp
  · cases h

theorem place_wordOf_program {a n : Nat} {b : Bool} (h : progOf a = some (n, b)) :
    wordOf (wordOf a) = wordOf a ∧ ∃ h off, place (wordOf a) = .hive h off := by
  obtain ⟨hlo, hhi⟩ := progOf_some h
  have hb : hbmBase = 0x4000000000 := rfl
  rw [wordOf_low (a := a) (by omega), wordOf_low (a := a / 8 * 8) (by omega)]
  have hplace : place (a / 8 * 8) = .hive ((a / 8 * 8 - 0x1800000000) / 0x80000000) ((a / 8 * 8 - 0x1800000000) % 0x80000000) := by
    unfold place
    rw [if_neg (by omega), if_neg (by omega), if_neg (by omega), if_pos (by omega)]
  exact ⟨by omega, _, _, hplace⟩

/-! ## A frame that is consumed -/

theorem State.consume_fields (s : State) (d : Delivered) : s.consume d = { s with net := (s.consume d).net } := by
  unfold State.consume State.unref
  dsimp only
  repeat' split
  all_goals rfl

theorem State.consume_coords (s : State) (d : Delivered) : (s.consume d).net.coords = s.net.coords := by
  unfold State.consume State.unref
  dsimp only
  repeat' split
  all_goals rfl

/-! ## What posting an event leaves (R467–R470) -/

/-- The health record without the log of events and what the event vector is waiting for. -/
def Health.core (h : Health) : Health := { h with events := [], eventSeq := 0, vectorWaiting := false, vectorAt := none }

theorem State.eventMessage_healthCore (s : State) : s.eventMessage.health.core = s.health.core := by
  unfold State.eventMessage State.sendMsix
  dsimp only
  repeat' split
  all_goals rfl

/-- Memory without what a record of the telemetry ring replaces. -/
def MemSys.sansWords (m : MemSys) : MemSys := { m with bytes := [], poison := [], soft := [] }

theorem State.setBytes_sansWords (s : State) (a : Nat) (bs : List Byte) : (s.setBytes a bs).mem.sansWords = s.mem.sansWords := by
  induction bs generalizing s a with
  | nil => rfl
  | cons b bs ih => exact ih _ _

theorem State.setBytes_health (s : State) (a : Nat) (bs : List Byte) : (s.setBytes a bs).health = s.health := by
  induction bs generalizing s a with
  | nil => rfl
  | cons b bs ih => exact ih _ _

/-- What neither a record of the telemetry ring nor the event vector's message changes. -/
def State.sansPosting (s : State) : MemSys × Health := (s.mem.sansWords, s.health.core)

theorem State.eventMessage_sansPosting (s : State) : s.eventMessage.sansPosting = s.sansPosting := by
  rw [State.sansPosting, State.eventMessage_mem, State.eventMessage_healthCore, State.sansPosting]

theorem State.ringWrite_sansPosting (s : State) (rec_ : List Byte) : (s.ringWrite rec_).2.sansPosting = s.sansPosting := by
  unfold State.ringWrite
  dsimp only
  split
  · rfl
  · rw [State.sansPosting, State.setReg_mem, State.setReg_health, State.setBytes_sansWords, State.setBytes_health]
    rfl

theorem State.postEvent_sansPosting (s : State) (code cls detail : Nat) : (s.postEvent code cls detail).sansPosting = s.sansPosting := by
  unfold State.postEvent
  by_cases hc : code = 1 <;> simp only [hc, if_true, if_false]
  all_goals
    split
    · split
      · exact State.eventMessage_sansPosting _
      · rfl
    · split
      · exact (State.eventMessage_sansPosting _).trans (State.ringWrite_sansPosting _ _)
      · exact State.ringWrite_sansPosting _ _

theorem State.postEvent_healthCore (s : State) (code cls detail : Nat) : (s.postEvent code cls detail).health.core = s.health.core :=
  congrArg Prod.snd (s.postEvent_sansPosting code cls detail)

theorem State.postEvent_sansWords (s : State) (code cls detail : Nat) :
    (s.postEvent code cls detail).mem.sansWords = s.mem.sansWords := congrArg Prod.fst (s.postEvent_sansPosting code cls detail)

theorem State.updateService_sansWords (s : State) : s.updateService.mem.sansWords = s.mem.sansWords := by
  unfold State.updateService
  dsimp only
  split
  · rfl
  · exact State.postEvent_sansWords _ _ _ _

end Sys2Proof.Machine
end

section
/-! SUPPORT. Scarab's scrubs and repairs, snapshots, and the messages of the time tree, each where it takes place (R201, R460, R472–R476). -/

namespace Sys2Proof.Machine

open Sys2Proof

/-! ## Scrubs and repairs (R201, R460) -/

/-- What a scrub that reads the word at `w` leaves: `bad` where the word is uncorrectable, `fine` where an error in it is corrected. -/
def State.scrubbed (s : State) (w : Nat) (f : ScrubFinding) (bad fine : State) : State :=
  if s.poisoned w || f == .uncorrectable then bad else if f = .corrected ∨ SMap.get false s.mem.soft w = true then fine else s

/-- The word at `w` holds no error that its code corrects. -/
def State.corrected (s : State) (w : Nat) : State := { s with mem := { s.mem with soft := SMap.put false s.mem.soft w false } }

section
variable {s : State} {a : Nat} (f : ScrubFinding)

theorem State.scrubCorrected_hbm (h : inHbm a 1 = true) : s.scrubCorrected (wordOf a)
    = ((s.corrected (wordOf a)).correctedError 0x701001).rowCorrected (Config.rowOf (wordOf a)) := by
  unfold State.scrubCorrected State.countCorrection
  rw [place_wordOf_hbm h]
  rfl

theorem State.scrubCorrected_near (h : a < 0x800000000) :
    s.scrubCorrected (wordOf a) = (s.corrected (wordOf a)).correctedError 0x701004 := by
  unfold State.scrubCorrected State.countCorrection
  rw [place_wordOf_near h]
  rfl

theorem State.scrubCorrected_program {n : Nat} {b : Bool} (h : progOf a = some (n, b)) :
    s.scrubCorrected (wordOf a) = (s.corrected (wordOf a)).bump 0xB02002 := by
  obtain ⟨-, h, off, hplace⟩ := place_wordOf_program h
  unfold State.scrubCorrected State.countCorrection
  rw [hplace]
  rfl

/-- The model's choice of what a scrub leaves, for a word whose correction is `fine`. -/
theorem State.scrubbed_eq {w : Nat} {bad fine : State} (hf : s.scrubCorrected w = fine) :
    (if (s.poisoned w || f == .uncorrectable) = true then bad else if s.scrubCorrects w f = true then s.scrubCorrected w else s)
      = s.scrubbed w f bad fine := by
  simp only [State.scrubbed, State.scrubCorrects_iff, hf]

variable (hr : s.running = true)
include hr

theorem State.scrubHbm_runs (ha : inHbm a 1 = true) : s.scrubHbm a f =
    let w := wordOf a
    let u := s.scrubbed w f ((s.scrubBad w).faultHolders w) (((s.corrected w).correctedError 0x701001).rowCorrected (Config.rowOf w))
    let p := scrubStep ((w - hbmBase) / 64) hbmCodewords
    { u with health := { u.health with hbmPos := p.1, hbmPasses := satAdd 64 u.health.hbmPasses p.2 } } := by
  unfold State.scrubHbm
  rw [hr, ha, if_neg (by decide)]
  simp only [State.scrubbed_eq f (State.scrubCorrected_hbm ha)]

theorem State.scrubNear_runs (ha : a < 0x800000000) (hw : s.hiveWorks (a / 0x80000000) = true) : s.scrubNear a f =
    let w := wordOf a
    let u := s.scrubbed w f (s.scrubBad w) ((s.corrected w).correctedError 0x701004)
    let p := scrubStep (w / 8) nearWords
    { u with health := { u.health with nearPos := p.1, nearPasses := satAdd 64 u.health.nearPasses p.2 } } := by
  unfold State.scrubNear
  rw [hr, hw, decide_eq_true ha, if_neg (by decide)]
  simp only [State.scrubbed_eq f (State.scrubCorrected_near ha)]

theorem State.scrubProgram_runs {n : Nat} {b : Bool} (hp : progOf a = some (n, b)) (hw : s.hiveWorks (n / 1024) = true) :
    s.scrubProgram a f = s.scrubbed (wordOf a) f (s.scrubBad a) ((s.corrected (wordOf a)).bump 0xB02002) := by
  have hpoison : s.poisoned a = s.poisoned (wordOf a) := by
    obtain ⟨hword, -⟩ := place_wordOf_program hp
    rw [State.poisoned, State.poisoned, hword]
  simp only [State.scrubProgram, hp, hr, hw, Bool.and_self, Bool.not_true, Bool.false_eq_true, if_false, hpoison,
    State.scrubbed_eq f (State.scrubCorrected_program hp)]

end

/-- The repair of a row, before its events (R201). -/
def State.rowRepaired (s : State) (row : Nat) : State :=
  ({ s with mem := { s.mem with
      candidates := SMap.put false s.mem.candidates row false
      rowCorrections := SMap.put 0 s.mem.rowCorrections row 0
      rowsRepaired := s.mem.rowsRepaired + 1
      remapped := SMap.put false s.mem.remapped row true } } : State).bump 0x702002

/-- The repair of a row, told by its event and in Service Requested (R201, R465). -/
def State.rowTold (s : State) (row detail : Nat) : State := ((s.rowRepaired row).postEvent 0x11 1 detail).updateService

section
variable {s : State} {row : Nat} (hr : s.running = true) (hc : SMap.get false s.mem.candidates row = true)
  (hb : (s.mem.poison.any fun e => inHbm e.1 1 && e.2 && decide (Config.rowOf e.1 = row)) = false)
include hr hc hb

theorem State.repairRow_spare (hs : s.mem.rowsRepaired < Config.spareRowsAtManufacture) :
    ∃ detail, s.repairRow row = s.rowTold row detail := by
  unfold State.repairRow
  rw [hr, hc, hb, decide_eq_true hs]
  exact ⟨_, if_pos rfl⟩

theorem State.repairRow_no_spare (hs : ¬ s.mem.rowsRepaired < Config.spareRowsAtManufacture) : s.repairRow row = s := by
  unfold State.repairRow
  rw [hr, hc, hb, decide_eq_false hs]
  exact if_neg (by decide)

end

section
variable (s : State) (row detail : Nat)

theorem State.rowTold_swarm : (s.rowTold row detail).swarm = s.swarm := by
  rw [State.rowTold, State.updateService_swarm, State.postEvent_swarm]
  rfl

theorem State.rowTold_repairs : (s.rowTold row detail).mem.candidates = SMap.put false s.mem.candidates row false
    ∧ (s.rowTold row detail).mem.remapped = SMap.put false s.mem.remapped row true
    ∧ (s.rowTold row detail).mem.rowCorrections = SMap.put 0 s.mem.rowCorrections row 0
    ∧ (s.rowTold row detail).mem.rowsRepaired = s.mem.rowsRepaired + 1 := by
  have h : (s.rowTold row detail).mem.sansWords = (s.rowRepaired row).mem.sansWords :=
    (State.updateService_sansWords _).trans (State.postEvent_sansWords _ _ _ _)
  exact ⟨congrArg MemSys.candidates h, congrArg MemSys.remapped h, congrArg MemSys.rowCorrections h, congrArg MemSys.rowsRepaired h⟩

theorem State.rowTold_mem (h : s.ringSize = 0) : (s.rowTold row detail).mem = (s.rowRepaired row).mem := by
  have hr : (s.rowRepaired row).ringSize = 0 := by
    rw [State.rowRepaired, State.ringSize, State.reg_bump_other _ (by decide)]
    exact h
  exact (State.updateService_mem ((State.postEvent_ringSize _ _ _ _).trans hr)).trans (State.postEvent_mem hr _ _ _)

theorem State.rowTold_reg : (s.rowTold row detail).reg 0x702002 = satAdd 64 (s.reg 0x702002) 1 :=
  ((State.updateService_reg _ (by decide) (by decide) (by decide)).trans (State.postEvent_reg _ _ _ _ (by decide) (by decide)
    (by decide))).trans (State.reg_setReg _ _ _ _)

end

/-! ## Snapshots (R472–R474) -/

/-- The copies are made and the entries of the snapshot follow. -/
def State.snapshotTaken (s : State) (t : Nat) : State :=
  let id := (s.reg 0xB05002 + 1) % 2 ^ 32
  (((({ s with dict := { s.dict with shadows := s.copyCounters } } : State).setReg 0xB05002 id).setReg 0xB05003 0).setReg 0xB05004
    t).postEvent 0x72 0 (id + t * 2 ^ 64)

/-- Fabric time has reached a snapshot's: it is pending no longer. -/
def State.snapshotReached (s : State) (at_ : Nat) : State :=
  { s.at_ at_ with health := { (s.at_ at_).health with snapshot := none } }

section
variable {s : State} {t at_ : Nat} (hp : s.pow.powered = true) (hs : s.health.snapshot = some t) (hd : t ≤ max s.now at_)
include hp hs hd

theorem State.takeSnapshot_due : s.takeSnapshot at_ = if s.pow.state = 1 ∨ s.pow.state = 2 then (s.snapshotReached at_).snapshotTaken t
    else (s.snapshotReached at_).setReg 0xB05003 2 := by
  unfold State.takeSnapshot State.snapshotTaken State.snapshotReached
  simp only [hs, hp, Bool.not_true, Bool.false_eq_true, false_or, if_neg (Nat.not_lt.mpr hd), State.at_pow]

end

section
variable (s : State) (t : Nat)

theorem State.snapshotTaken_shadows : (s.snapshotTaken t).dict.shadows = s.copyCounters := State.postEvent_shadows _ _ _ _

theorem State.snapshotTaken_reg (k : Nat) (h0 : k ≠ 0xB03003) (h3 : k ≠ 0xB04003) (h6 : k ≠ 0xB04006) : (s.snapshotTaken t).reg k =
    if k = 0xB05004 then t else if k = 0xB05003 then 0 else if k = 0xB05002 then (s.reg 0xB05002 + 1) % 2 ^ 32 else s.reg k := by
  refine (State.postEvent_reg _ _ _ _ h0 h3 h6).trans ?_
  split
  · next h => rw [h, State.reg_setReg]
  · next h4 =>
    rw [State.reg_setReg_other _ (by omega)]
    split
    · next h => rw [h, State.reg_setReg]
    · next h3 =>
      rw [State.reg_setReg_other _ (by omega)]
      split
      · next h => rw [h, State.reg_setReg]
      · next h2 =>
        rw [State.reg_setReg_other _ (by omega)]
        rfl

theorem State.snapshotTaken_snapshot : (s.snapshotTaken t).health.snapshot = s.health.snapshot :=
  (congrArg Health.snapshot (State.postEvent_healthCore _ _ _ _) :)

theorem State.snapshotTaken_swarm : (s.snapshotTaken t).swarm = s.swarm := State.postEvent_swarm _ _ _ _

theorem State.snapshotTaken_num : (s.snapshotTaken t).num = s.num := (congrArg State.num (State.postEvent_sansEvent _ _ _ _) :)

end

/-! ## The time tree (R476) -/

theorem State.timeFrame_take {s : State} {type : Nat} {d : Delivered} (hp : s.pow.powered = true)
    (hd : s.rxFind 0x85 0 (fun h x => h.kind == 0x41 && numAt x.payload 0 1 == type) = some d) (f : State → Delivered → State) :
    s.timeFrame type f = f (s.consume d) d := by
  simp only [State.timeFrame, hp, if_true, hd]

/-- A snapshot that is refused is counted. -/
theorem State.snapshotHeard_refused {s : State} {d : Delivered}
    (h : s.health.snapshot.isSome = true ∨ numAt d.frame.payload 32 8 < s.now + 10000) : s.snapshotHeard d = s.bump 0xB05006 := by
  have hr : (s.scheduleSnapshot (numAt d.frame.payload 32 8)).1 ≠ 0 := by
    unfold State.scheduleSnapshot
    split
    · exact Nat.succ_ne_zero 5
    · next ht =>
      rw [if_pos (h.resolve_right ht)]
      exact Nat.succ_ne_zero 6
  exact if_neg hr

theorem State.snapshotHeard_scheduled {s : State} {d : Delivered} (hn : s.health.snapshot = none)
    (ht : s.now + 10000 ≤ numAt d.frame.payload 32 8) : s.snapshotHeard d = s.snapshotDue (numAt d.frame.payload 32 8) := by
  rw [State.snapshotHeard]
  simp only [State.scheduleSnapshot_ready hn ht, if_true]

/-- The state in which a module that asks its parent for the time has chosen it. -/
def State.asking (s : State) (at_ : Nat) : State :=
  ({ s.at_ at_ with health := { (s.at_ at_).health with requestedAt := (s.at_ at_).now } } : State).reparent

section
variable {s : State} {at_ : Nat} (hr : s.running = true) (hd : s.health.requestedAt + 1000000 ≤ max s.now at_)
include hr hd

theorem State.delayRequest_orphan (hn : (s.asking at_).health.parent = none) : s.delayRequest at_ = s.asking at_ := by
  unfold State.asking at hn ⊢
  unfold State.delayRequest
  rw [hr, if_neg (by rw [not_or]; exact ⟨by decide, Nat.not_lt.mpr hd⟩)]
  simp only [hn]

theorem State.delayRequest_asks {l : Nat} {p : PartnerId} (hl : (s.asking at_).health.parent = some l)
    (hp : ((s.asking at_).link l).partner = some p) :
    s.delayRequest at_ = (s.asking at_).sendTime l p.node ((s.asking at_).timePayload 1 [(s.asking at_).quarters]) := by
  unfold State.asking at hl hp ⊢
  unfold State.delayRequest
  rw [hr, if_neg (by rw [not_or]; exact ⟨by decide, Nat.not_lt.mpr hd⟩)]
  simp only [hl, hp]

end

theorem State.heardDepth_link {s : State} {d : Delivered} (hl : d.ingress < 0x40) : s.heardDepth d = { s with
    health := { s.health with depths := SMap.put 0xFF s.health.depths d.ingress (numAt d.frame.payload 1 1) } } := if_pos hl

theorem State.delayAsked_link {s : State} {d : Delivered} (t2 t3 : Nat) (hl : d.ingress < 0x40) : s.delayAsked t2 t3 d =
    (s.heardDepth d).sendTime d.ingress (Hdr.of d.frame.header).srcNode
      ((s.heardDepth d).timePayload 2 [numAt d.frame.payload 8 8, t2, t3]) := if_pos hl

/-- The change of state and depth, and the event it posts, leave the rest of the clocks as it is (R476). -/
theorem State.syncTo_keeps_clocks (s : State) (state depth : Nat) :
    (s.syncTo state depth).health.core = { s.health with syncState := state, depth := depth }.core ∧ (s.syncTo state depth).now = s.now
      ∧ (s.syncTo state depth).isl = s.isl ∧ (s.syncTo state depth).swarm = s.swarm := by
  unfold State.syncTo
  dsimp only
  split
  · exact ⟨rfl, rfl, rfl, rfl⟩
  · have h := State.postEvent_sansEvent { s with health := { s.health with syncState := state, depth := depth } } 0x71 0
      (state + depth * 2 ^ 8)
    exact ⟨State.postEvent_healthCore _ _ _ _, (congrArg State.now h :), (congrArg State.isl h :), (congrArg State.swarm h :)⟩

/-- Offset and delay of an answer, kept (R476). -/
def State.measured (s : State) (off dly : Int) : State := { s with health := { s.health with offset := off, delay := dly.toNat } }

/-- Fabric time steps forward, or is held for the parent's, or neither (R476). -/
def State.steered (s : State) (off : Int) : State :=
  if 4000 < off then s.stepTime (s.now + off.toNat / 4)
  else if off < -40000 then { s with health := { s.health with hold := (-off).toNat / 4 } }
  else s

/-- Offset and delay by the four times of an exchange. -/
def timeOffset (p : List Byte) (t4 : Nat) : Int := (((numAt p 16 8 : Int) - numAt p 8 8) - ((t4 : Int) - numAt p 24 8)) / 2
def timeDelay (p : List Byte) (t4 : Nat) : Int := (((numAt p 16 8 : Int) - numAt p 8 8) + ((t4 : Int) - numAt p 24 8)) / 2

/-- State and depth after an answer from a parent of a depth (R476). -/
def State.showSync (s : State) (depth : Nat) (off : Int) : State :=
  if depth = 0xFF then s.syncTo 1 0xFF
  else if 4000 < off ∨ off < -40000 then s.syncTo 1 (depth + 1)
  else s.syncTo 2 (depth + 1)

theorem State.showSync_eq (s : State) (depth : Nat) (off : Int) : s.showSync depth off =
    s.syncTo (if depth = 0xFF ∨ 4000 < off ∨ off < -40000 then 1 else 2) (if depth = 0xFF then 0xFF else depth + 1) := by
  unfold State.showSync
  by_cases hd : depth = 0xFF
  · rw [if_pos hd, if_pos (.inl hd), if_pos hd]
  · by_cases ho : 4000 < off ∨ off < -40000
    · rw [if_neg hd, if_pos ho, if_pos (.inr ho), if_neg hd]
    · rw [if_neg hd, if_neg ho, if_neg (not_or.mpr ⟨hd, ho⟩), if_neg hd]

/-- The parent's answer: kept, steered by, and shown. -/
theorem State.delayAnswered_parent {s : State} {d : Delivered} {t4 depth : Nat} {off dly : Int} (hl : d.ingress < 0x40)
    (hp : s.health.parent = some d.ingress) (hr : s.isRoot = false) (ho : timeOffset d.frame.payload t4 = off)
    (hd : timeDelay d.frame.payload t4 = dly) (hdepth : numAt d.frame.payload 1 1 = depth) : s.delayAnswered t4 d =
      (((s.heardDepth d).measured off dly).steered off).syncTo
        (if depth = 0xFF ∨ 4000 < off ∨ off < -40000 then 1 else 2) (if depth = 0xFF then 0xFF else depth + 1) := by
  have hpar : (s.heardDepth d).health.parent = some d.ingress := by
    rw [State.heardDepth_link hl]
    exact hp
  have hroot : (s.heardDepth d).isRoot = false := by
    rw [State.heardDepth_link hl]
    exact hr
  have hdepth : ((s.heardDepth d).measured off dly).depthOn d.ingress = depth := by
    rw [State.heardDepth_link hl, ← hdepth]
    exact SMap.get_put_same _ _ _ _
  subst ho hd
  unfold State.delayAnswered
  rw [if_neg (by rw [hpar, hroot]; simp)]
  rw [← State.showSync_eq, ← hdepth]
  rfl

/-- A step of fabric time leaves the age of the island's last time-sync message (R476, R477). -/
theorem State.stepTime_syncAge (s : State) (t : Nat) : (s.stepTime t).syncAge = s.syncAge := by
  simp only [State.syncAge, State.stepTime, Island.moveClock, Nat.sub_self, Nat.add_zero]

/-- What steering by an offset sets and leaves. -/
theorem State.steered_clocks (s : State) (off : Int) : (s.steered off).now = (if 4000 < off then s.now + off.toNat / 4 else s.now)
    ∧ (s.steered off).health = { s.health with
        hold := if 4000 < off then 0 else if off < -40000 then (-off).toNat / 4 else s.health.hold }
    ∧ (s.steered off).syncAge = s.syncAge ∧ (s.steered off).swarm = s.swarm := by
  unfold State.steered
  split
  · exact ⟨rfl, rfl, State.stepTime_syncAge _ _, rfl⟩
  · split <;> exact ⟨rfl, rfl, rfl, rfl⟩

/-- A module without a parent for 10 ms runs free. -/
theorem State.parentLost_due {s : State} {at_ a : Nat} (hp : s.pow.powered = true) (hr : s.isRoot = false)
    (hs : s.health.lostSince = some a) (hd : a + 10000000 ≤ max s.now at_) : s.parentLost at_ = (s.at_ at_).syncTo 0 0xFF := by
  unfold State.parentLost
  simp only [hs]
  exact if_pos ⟨hp, by rw [hr]; rfl, hd⟩

/-- The event vector's message is sent at the end of its hold-off (R470). -/
theorem State.deferredVector_due {s : State} {at_ a : Nat} (hp : s.pow.powered = true) (hs : s.health.vectorAt = some a)
    (hw : s.health.vectorWaiting = true) (hd : a + 10000 ≤ max s.now at_) : s.deferredVector at_ = (s.at_ at_).eventMessage := by
  unfold State.deferredVector
  simp only [hs]
  exact if_pos ⟨hp, hw, hd⟩

end Sys2Proof.Machine
end

section
/-! PROOF. O60: scrubs, row repair, samples, snapshots and fabric time. -/

namespace Sys2Proof.Proofs

open Sys2Proof Sys2Proof.Machine

/-- A candidate row is repaired while a spare row is left (R201). -/
theorem hbmRowRepair_done {s : State} {row : Nat} (hr : s.running = true) (hc : SMap.get false s.mem.candidates row = true)
    (hb : (s.mem.poison.any fun e => inHbm e.1 1 && e.2 && decide (Config.rowOf e.1 = row)) = false) :
    ∃ t, exec (.hbmRowRepair row) s = .next t ∧ t.swarm = s.swarm
      ∧ if s.mem.rowsRepaired < Config.spareRowsAtManufacture then
          SMap.get false t.mem.candidates row = false ∧ SMap.get false t.mem.remapped row = true ∧ SMap.get 0 t.mem.rowCorrections row = 0
            ∧ t.mem.rowsRepaired = s.mem.rowsRepaired + 1 ∧ t.reg 0x702002 = satAdd 64 (s.reg 0x702002) 1
            ∧ (∀ r, r ≠ row → SMap.get false t.mem.candidates r = SMap.get false s.mem.candidates r)
            ∧ (s.ringSize = 0 → t.mem.bytes = s.mem.bytes ∧ t.mem.poison = s.mem.poison)
        else t = s := by
  by_cases hs : s.mem.rowsRepaired < Config.spareRowsAtManufacture
  · obtain ⟨detail, he⟩ := State.repairRow_spare hr hc hb hs
    obtain ⟨hcandidates, hremapped, hcorrections, hcount⟩ := s.rowTold_repairs row detail
    refine ⟨_, congrArg Host.Outcome.next he, s.rowTold_swarm row detail, ?_⟩
    rw [if_pos hs, hcandidates, hremapped, hcorrections]
    refine ⟨SMap.get_put_same _ _ _ _, SMap.get_put_same _ _ _ _, SMap.get_put_same _ _ _ _, hcount, s.rowTold_reg row detail,
      fun r hne => SMap.get_put_other _ _ _ hne, fun h => ?_⟩
    rw [s.rowTold_mem row detail h]
    exact ⟨rfl, rfl⟩
  · exact ⟨_, congrArg Host.Outcome.next (State.repairRow_no_spare hr hc hb hs), rfl, by rw [if_neg hs]⟩

/-- The parent's answer moves fabric time and leaves the age of the island's last time-sync message (R476, R477). -/
theorem delayResponseFrame_done {s : State} {t4 : Nat} {d : Delivered} {off dly : Int} {depth : Nat} (hp : s.pow.powered = true)
    (hd : s.rxFind 0x85 0 (fun h x => h.kind == 0x41 && numAt x.payload 0 1 == 2) = some d) (hl : d.ingress < 0x40)
    (hpar : s.health.parent = some d.ingress) (hroot : s.isRoot = false) (ho : timeOffset d.frame.payload t4 = off)
    (hdly : timeDelay d.frame.payload t4 = dly) (hdepth : numAt d.frame.payload 1 1 = depth) :
    ∃ r, exec (.delayResponseFrame t4) s = .next r ∧ r.health.offset = off ∧ r.health.delay = dly.toNat
      ∧ r.now = (if 4000 < off then s.now + off.toNat / 4 else s.now)
      ∧ r.health.hold = (if 4000 < off then 0 else if off < -40000 then (-off).toNat / 4 else s.health.hold)
      ∧ r.syncAge = s.syncAge
      ∧ r.health.syncState = (if depth = 0xFF ∨ 4000 < off ∨ off < -40000 then 1 else 2)
      ∧ r.health.depth = (if depth = 0xFF then 0xFF else depth + 1) ∧ r.swarm = s.swarm := by
  have hroot' : (s.consume d).isRoot = false := by
    rw [State.isRoot, State.node, State.consume_coords, State.consume_fields]
    exact hroot
  have he := (State.timeFrame_take hp hd (State.delayAnswered t4)).trans
    (State.delayAnswered_parent hl (by rw [State.consume_fields]; exact hpar) hroot' ho hdly hdepth)
  have hheard : ((s.consume d).heardDepth d).measured off dly = { s with net := (s.consume d).net, health := { s.health with
      depths := SMap.put 0xFF s.health.depths d.ingress (numAt d.frame.payload 1 1), offset := off, delay := dly.toNat } } := by
    rw [State.heardDepth_link hl, State.consume_fields]
    rfl
  rw [hheard] at he
  obtain ⟨hnow, hhealth, hage, hswarm⟩ := State.steered_clocks { s with net := (s.consume d).net, health := { s.health with
    depths := SMap.put 0xFF s.health.depths d.ingress (numAt d.frame.payload 1 1), offset := off, delay := dly.toNat } } off
  refine ⟨_, congrArg Host.Outcome.next he, ?_⟩
  obtain ⟨hhealth', hnow', hisl', hswarm'⟩ := State.syncTo_keeps_clocks (State.steered _ off)
    (if depth = 0xFF ∨ 4000 < off ∨ off < -40000 then 1 else 2) (if depth = 0xFF then 0xFF else depth + 1)
  rw [hhealth] at hhealth'
  refine ⟨congrArg Health.offset hhealth', congrArg Health.delay hhealth', hnow'.trans hnow, congrArg Health.hold hhealth', ?_,
    congrArg Health.syncState hhealth', congrArg Health.depth hhealth', hswarm'.trans hswarm⟩
  rw [State.syncAge, hnow', hisl']
  exact hage

/-- Settles O60: each row is the model's own choice by the clause's premises; what a posted event leaves gives the frames. -/
theorem healthAndTime : Obligations.HealthAndTime := by
  unfold Obligations.HealthAndTime
  refine ⟨fun s a f hr => ?scrubs, fun s row hr hc hb => hbmRowRepair_done hr hc hb, fun s m at_ hr hp hd => ?sample,
    fun s d hp hd => ?heard, fun s t at_ hp hs hd => ?taken, fun s at_ hr hd => ?asks, fun s t2 t3 d hp hd hl => ?asked,
    fun s t4 d hp hd hl hpar hroot => delayResponseFrame_done hp hd hl hpar hroot rfl rfl rfl,
    fun s at_ a hp hroot hs hd => congrArg _ (State.parentLost_due hp hroot hs hd),
    fun s at_ a hp hs hw hd => congrArg _ (State.deferredVector_due hp hs hw hd)⟩
  case scrubs =>
    exact ⟨fun ha => congrArg _ (State.scrubHbm_runs f hr ha), fun ha hw => congrArg _ (State.scrubNear_runs f hr ha hw),
      fun n b hp hw => congrArg _ (State.scrubProgram_runs f hr hp hw)⟩
  case sample =>
    refine congrArg Host.Outcome.next (if_pos ?_)
    rw [hr, decide_eq_true hp, decide_eq_true hd]
    rfl
  case heard =>
    have he := State.timeFrame_take hp hd State.snapshotHeard
    exact ⟨fun h => congrArg _ (he.trans (State.snapshotHeard_refused h)),
      fun hn ht => congrArg _ (he.trans (State.snapshotHeard_scheduled hn ht))⟩
  case taken =>
    have he := State.takeSnapshot_due hp hs hd
    refine ⟨fun hstate => ?_, fun h1 h2 => congrArg _ (he.trans (if_neg (not_or.mpr ⟨h1, h2⟩)))⟩
    have hreg (k : Nat) : (s.snapshotReached at_).reg k = s.reg k := State.at_reg s at_ k 0
    refine ⟨_, congrArg Host.Outcome.next (he.trans (if_pos hstate)), State.snapshotTaken_shadows _ _, ?_, ?_, ?_, ?_, ?_, ?_⟩
    · rw [State.snapshotTaken_reg _ _ _ (by decide) (by decide) (by decide), hreg]
      rfl
    · rw [State.snapshotTaken_reg _ _ _ (by decide) (by decide) (by decide)]
      rfl
    · rw [State.snapshotTaken_reg _ _ _ (by decide) (by decide) (by decide)]
      rfl
    · exact State.snapshotTaken_snapshot _ _
    · exact (State.snapshotTaken_swarm _ _).trans (State.at_swarm s at_)
    · exact (State.snapshotTaken_num _ _).trans (State.at_num s at_)
  case asks =>
    exact ⟨fun hn => congrArg _ (State.delayRequest_orphan hr hd hn), fun l p hl hp => congrArg _ (State.delayRequest_asks hr hd hl hp)⟩
  case asked =>
    have he := (State.timeFrame_take hp hd (State.delayAsked t2 t3)).trans (State.delayAsked_link t2 t3 hl)
    rw [State.heardDepth_link hl] at he
    exact congrArg _ he

end Sys2Proof.Proofs
end

section
/-! SUPPORT. What the reads and the errors that the Buffer Pool Manager meets leave of the state (R200–R204, R209, R212): values of the
dictionary but counts of errors, the bytes stored, every pool but its own, and of that its record and its free count. -/

namespace Sys2Proof.Machine

open Sys2Proof

/-! ## Counts of errors and events -/

/-- The entries that count errors in memory and pads, and events (R114, R200, R203, R461, R467). -/
def errorCounts : List Nat := [0x206002, 0x701001, 0x701002, 0x701004, 0x701005, 0xB02002, 0xB03003]

/-- From `s` to `t` no value of the dictionary has changed but counts of errors and events. -/
def State.SameCounts (s t : State) : Prop := ∀ k u, k ∉ errorCounts → u < 65536 → t.reg k u = s.reg k u

section
variable {s t u : State}

theorem State.SameCounts.trans (h : s.SameCounts t) (h' : t.SameCounts u) : s.SameCounts u :=
  fun k n hk hn => (h' k n hk hn).trans (h k n hk hn)

theorem State.sameCounts_of_regs (h : t.dict.regs = s.dict.regs) : s.SameCounts t := fun k n _ _ => State.reg_congr h k n

theorem State.SameCounts.bump (h : s.SameCounts t) {k : Nat} (hk : k ∈ errorCounts) (n : Nat) : s.SameCounts (t.bump k n) :=
  fun j v hj hv => (State.reg_bump_other t (by have hne : j ≠ k := fun e => hj (e ▸ hk); omega)).trans (h j v hj hv)

/-- A count that both have raised. -/
theorem State.SameCounts.bump_both (h : s.SameCounts t) {k v : Nat} (hk : k ∉ errorCounts) (hv : v < 65536) (n : Nat) :
    (s.bump k n v).SameCounts (t.bump k n v) := by
  intro j m hj hm
  by_cases he : j * 65536 + m = k * 65536 + v
  · obtain ⟨rfl, rfl⟩ : j = k ∧ m = v := by omega
    rw [State.bump, State.bump, State.reg_setReg, State.reg_setReg, h j m hk hv]
  · rw [State.reg_bump_other _ he, State.reg_bump_other _ he, h j m hj hm]

theorem State.SameCounts.ringSize (h : s.SameCounts t) : t.ringSize = s.ringSize := by
  rw [State.ringSize, h _ _ (by decide) (by decide), State.ringSize]

end

/-- Without a telemetry ring an event raises the count of events alone (R467–R470). -/
theorem State.postEvent_sameCounts {s : State} (h : s.ringSize = 0) (code cls detail : Nat) :
    s.SameCounts (s.postEvent code cls detail) := by
  have hb {t : State} (ht : t.dict.regs = s.dict.regs) : s.SameCounts (t.bump 0xB03003) :=
    (State.sameCounts_of_regs ht).bump (by decide) 1
  have hm {t : State} (ht : s.SameCounts t) : s.SameCounts t.eventMessage :=
    ht.trans fun k n _ _ => State.eventMessage_reg t k n
  have hr {t : State} (ht : s.SameCounts t) : t.ringSize = 0 := ht.ringSize.trans h
  unfold State.postEvent
  by_cases hc : code = 1 <;> simp only [hc, if_true, if_false]
  all_goals
    split
    · split
      · exact hm (hb rfl)
      · exact hb rfl
    · next hn => exact absurd (hr (hb rfl)) hn

theorem State.correctAt_sameCounts (s : State) (a : Nat) : s.SameCounts (s.correctAt a) := by
  have hc (t : State) (ht : t.dict.regs = s.dict.regs) {k : Nat} (hk : k ∈ errorCounts) : s.SameCounts (t.correctedError k) :=
    ((State.sameCounts_of_regs ht).bump hk 1).bump (by decide) 1
  unfold State.correctAt State.correctPadWord State.countCorrection State.rowCorrected
  dsimp only
  split
  · split
    · exact hc _ rfl (by decide)
    · exact State.sameCounts_of_regs rfl
  · split
    · split
      · split <;> exact hc _ rfl (by decide)
      · exact hc _ rfl (by decide)
      · exact (State.sameCounts_of_regs rfl).bump (by decide) 1
    · exact State.sameCounts_of_regs rfl

theorem State.correctRead_sameCounts (s : State) (segs : List Seg) : s.SameCounts (s.correctRead segs) := by
  unfold State.correctRead
  split
  · exact State.sameCounts_of_regs rfl
  · exact List.foldlRecOn (motive := fun t => s.SameCounts t) _ _ (State.sameCounts_of_regs rfl)
      fun t ht a _ => ht.trans (t.correctAt_sameCounts a)

/-! ## What the upkeep of a pool leaves -/

/-- What a refill reads and keeps of memory: the bytes stored, and which words are uncorrectable. -/
def State.stored (s : State) : SMap Byte × SMap Bool := (s.mem.bytes, s.mem.poison)

/-- From `s` to `t` pool `p` has been seen to: its record and its free count are as they were, and so are the other pools, the pads and
the module's place in the fabric. -/
structure State.Upkeep (p : Nat) (s t : State) : Prop where
  record : (t.pool p).record = (s.pool p).record
  free : (t.pool p).free = (s.pool p).free
  others : ∀ m, m ≠ p → t.pool m = s.pool m
  pads : t.swarm.pads = s.swarm.pads
  net : t.net = s.net

/-- Pool `p` has been seen to without a store to memory. -/
structure State.Tended (p : Nat) (s t : State) : Prop where
  upkeep : s.Upkeep p t
  counts : s.SameCounts t
  stored : t.stored = s.stored

section
variable {p : Nat} {s t u : State}

theorem State.Upkeep.trans (h : s.Upkeep p t) (h' : t.Upkeep p u) : s.Upkeep p u where
  record := h'.record.trans h.record
  free := h'.free.trans h.free
  others m hm := (h'.others m hm).trans (h.others m hm)
  pads := h'.pads.trans h.pads
  net := h'.net.trans h.net

theorem State.Tended.trans (h : s.Tended p t) (h' : t.Tended p u) : s.Tended p u :=
  ⟨h.upkeep.trans h'.upkeep, h.counts.trans h'.counts, h'.stored.trans h.stored⟩

theorem State.upkeep_of_pools (hp : t.mem.pools = s.mem.pools) (hw : t.swarm.pads = s.swarm.pads) (hn : t.net = s.net) :
    s.Upkeep p t := by
  have h (m : Nat) : t.pool m = s.pool m := by rw [State.pool, hp, State.pool]
  exact ⟨by rw [h], by rw [h], fun m _ => h m, hw, hn⟩

theorem State.upkeep_setPool {q : Pool} (hr : q.record = (s.pool p).record) (hf : q.free = (s.pool p).free) :
    s.Upkeep p (s.setPool p q) where
  record := by rw [State.pool_setPool, hr]
  free := by rw [State.pool_setPool, hf]
  others m hm := State.pool_setPool_other _ _ hm
  pads := rfl
  net := rfl

theorem State.Tended.refl : s.Tended p s := ⟨State.upkeep_of_pools rfl rfl rfl, State.sameCounts_of_regs rfl, rfl⟩

theorem State.tended_setPool {q : Pool} (hr : q.record = (s.pool p).record) (hf : q.free = (s.pool p).free) :
    s.Tended p (s.setPool p q) := ⟨State.upkeep_setPool hr hf, State.sameCounts_of_regs rfl, rfl⟩

theorem State.tended_correctRead (segs : List Seg) : s.Tended p (s.correctRead segs) := by
  have h := s.correctRead_sansMarks segs
  exact ⟨State.upkeep_of_pools (congrArg (fun t : State => t.mem.pools) h :) (congrArg (fun t : State => t.swarm.pads) h :)
    (congrArg State.net h :), s.correctRead_sameCounts segs, (congrArg State.stored h :)⟩

theorem State.tended_faultPool : s.Tended p (s.faultPool p) := by
  unfold State.faultPool
  dsimp only
  split
  · exact State.tended_setPool rfl rfl
  · exact .refl

/-- The state in which the event of an uncorrectable word is posted: the word is counted, noted with its row and logged (R200, R201,
R203). -/
def State.memoryLogged (s : State) (a : Nat) (r : W256) : State :=
  let u := s.bump (if hbmBase ≤ a ∧ a < hbmEnd then 0x701002 else 0x701005)
  { u with mem := { u.mem with
      candidates := if hbmBase ≤ a ∧ a < hbmEnd then SMap.put false u.mem.candidates (Config.rowOf (wordOf a)) true else u.mem.candidates
      log := logAppend 64 u.mem.log r } }

theorem State.logMemory_posts (s : State) (who : Requester) (a access : Nat) :
    ∃ r, s.logMemory who a access = (s.memoryLogged a (BitVec.ofNat 256 r)).postEvent 0x10 2 r := by
  unfold State.logMemory State.memoryRecord State.memoryLogged
  by_cases hb : hbmBase ≤ a ∧ a < hbmEnd
  · simp only [hb, and_self, decide_true, if_true]
    exact ⟨_, rfl⟩
  · simp only [hb, decide_false, Bool.false_eq_true, if_false]
    exact ⟨_, rfl⟩

theorem State.memoryLogged_sameCounts (s : State) (a : Nat) (r : W256) : s.SameCounts (s.memoryLogged a r) := by
  refine ((State.sameCounts_of_regs rfl).bump (t := s) (k := if hbmBase ≤ a ∧ a < hbmEnd then 0x701002 else 0x701005) ?_ 1).trans
    (State.sameCounts_of_regs rfl)
  split <;> decide

theorem State.tended_memoryLogged (a : Nat) (r : W256) : s.Tended p (s.memoryLogged a r) :=
  ⟨State.upkeep_of_pools rfl rfl rfl, s.memoryLogged_sameCounts a r, rfl⟩

theorem State.Tended.ringSize (h : s.Tended p t) (hr : s.ringSize = 0) : t.ringSize = 0 := h.counts.ringSize.trans hr

/-! ## Events, errors and refills without a telemetry ring -/

theorem State.tended_postEvent (hr : s.ringSize = 0) (code cls detail : Nat) : s.Tended p (s.postEvent code cls detail) where
  upkeep := State.upkeep_of_pools (congrArg MemSys.pools (State.postEvent_mem hr _ _ _))
    (congrArg Swarm.pads (State.postEvent_swarm _ _ _ _)) (State.postEvent_net _ _ _ _)
  counts := State.postEvent_sameCounts hr _ _ _
  stored := by rw [State.stored, State.postEvent_mem hr, State.stored]

theorem State.tended_poolError (hr : s.ringSize = 0) (a access : Nat) : s.Tended p (s.poolError p a access) := by
  obtain ⟨r, he⟩ := s.logMemory_posts poolRequester (wordOf a) access
  have hlog : s.Tended p (s.memoryLogged (wordOf a) (BitVec.ofNat 256 r)) := State.tended_memoryLogged _ _
  rw [State.poolError, he]
  exact (hlog.trans (State.tended_postEvent (hlog.ringSize hr) _ _ _)).trans State.tended_faultPool

theorem State.tended_lowWater (hr : s.ringSize = 0) :
    s.Tended p (s.lowWater p) ∧ ((s.lowWater p).pool p).cache = (s.pool p).cache := by
  unfold State.lowWater
  dsimp only
  generalize hv : s.setPool p { s.pool p with low := (s.pool p).isLow } = v
  have hlow : s.Tended p v := hv ▸ State.tended_setPool rfl rfl
  have hcache : (v.pool p).cache = (s.pool p).cache := by rw [← hv, State.pool_setPool]
  split
  · refine ⟨hlow.trans (State.tended_postEvent (hlow.ringSize hr) _ _ _), ?_⟩
    rw [State.pool, State.postEvent_mem (hlow.ringSize hr)]
    exact hcache
  · exact ⟨hlow, hcache⟩

/-- A refill moves entries of the ring to the cache, or faults the pool; it stores nothing (R209, R212). -/
theorem State.tended_refillMoves (hr : s.ringSize = 0) (n : Nat) : s.Tended p (s.refillMoves p n) := by
  induction n generalizing s with
  | zero => exact .refl
  | succ n ih =>
    unfold State.refillMoves
    dsimp only
    split
    · exact .refl
    · split
      · exact State.tended_poolError hr _ _
      · have hread (segs : List Seg) (q : Pool) (hrec : q.record = (s.pool p).record) (hfree : q.free = (s.pool p).free) :
            s.Tended p ((s.correctRead segs).setPool p q) := by
          have hc : s.Tended p (s.correctRead segs) := State.tended_correctRead segs
          exact hc.trans (State.tended_setPool (hrec.trans hc.upkeep.record.symm) (hfree.trans hc.upkeep.free.symm))
        refine State.Tended.trans ?_ (ih ?_)
        · exact hread _ _ rfl rfl
        · exact (hread _ _ rfl rfl).ringSize hr

theorem State.tended_refillCache (hr : s.ringSize = 0) : s.Tended p (s.refillCache p) := by
  unfold State.refillCache
  split
  · exact State.tended_refillMoves hr _
  · exact .refl

theorem State.tended_cacheReady (hr : s.ringSize = 0) : s.Tended p (s.cacheReady p) := by
  unfold State.cacheReady
  split
  · exact State.tended_refillCache hr
  · exact .refl

/-! ## What a refill looks at -/

/-- States that agree in memory but for the marks of corrected errors, and in the pools: a refill finds the same in them. -/
def State.SamePools (s t : State) : Prop := t.stored = s.stored ∧ t.mem.pools = s.mem.pools

theorem State.SamePools.pool (h : s.SamePools t) (m : Nat) : t.pool m = s.pool m := by
  obtain ⟨-, hp⟩ := h
  rw [State.pool, hp, State.pool]

theorem State.SamePools.poisoned (h : s.SamePools t) (a : Nat) : t.poisoned a = s.poisoned a := by
  obtain ⟨hs, -⟩ := h
  exact congrArg (fun x : SMap Byte × SMap Bool => SMap.get false x.2 (wordOf a)) hs

theorem State.SamePools.rawByte (h : s.SamePools t) (a : Nat) : t.rawByte a = s.rawByte a := by
  obtain ⟨hs, -⟩ := h
  exact congrArg (fun x : SMap Byte × SMap Bool => SMap.get 0 x.1 a) hs

theorem State.SamePools.setPool (h : s.SamePools t) (q : Pool) : (s.setPool p q).SamePools (t.setPool p q) := by
  obtain ⟨hs, hp⟩ := h
  exact ⟨hs, congrArg (fun x : SMap Pool => SMap.put ({} : Pool) x p q) hp⟩

theorem State.SamePools.correctRead (h : s.SamePools t) (segs : List Seg) : (s.correctRead segs).SamePools (t.correctRead segs) := by
  have hpools (u : State) : (u.correctRead segs).mem.pools = u.mem.pools :=
    (congrArg (fun t : State => t.mem.pools) (u.correctRead_sansMarks segs) :)
  have hstored (u : State) : (u.correctRead segs).stored = u.stored := (congrArg State.stored (u.correctRead_sansMarks segs) :)
  obtain ⟨hs, hp⟩ := h
  exact ⟨by rw [hstored, hs, hstored], by rw [hpools, hp, hpools]⟩

theorem State.SamePools.faultPool (h : s.SamePools t) : (s.faultPool p).SamePools (t.faultPool p) := by
  unfold State.faultPool
  rw [h.pool]
  dsimp only
  split
  · exact h.setPool _
  · exact h

theorem State.SamePools.poolError (h : s.SamePools t) (hr : s.ringSize = 0) (hr' : t.ringSize = 0) (a access : Nat) :
    (s.poolError p a access).SamePools (t.poolError p a access) := by
  have hlog {u : State} (hu : u.ringSize = 0) : u.SamePools (u.logMemory poolRequester (wordOf a) access) := by
    obtain ⟨r, he⟩ := u.logMemory_posts poolRequester (wordOf a) access
    have hm := State.postEvent_mem ((State.tended_memoryLogged (p := p) (wordOf a) (BitVec.ofNat 256 r)).ringSize hu) 0x10 2 r
    rw [he]
    exact ⟨by rw [State.stored, hm]; rfl, by rw [hm]; rfl⟩
  obtain ⟨hs, hp⟩ := h
  obtain ⟨hs1, hp1⟩ := hlog hr
  obtain ⟨hs2, hp2⟩ := hlog hr'
  exact State.SamePools.faultPool ⟨by rw [hs2, hs, hs1], by rw [hp2, hp, hp1]⟩

/-- A refill depends on the stored bytes, the uncorrectable words and the pools alone. -/
theorem State.SamePools.refillMoves (h : s.SamePools t) (hr : s.ringSize = 0) (hr' : t.ringSize = 0) (n : Nat) :
    (s.refillMoves p n).SamePools (t.refillMoves p n) := by
  induction n generalizing s t with
  | zero => exact h
  | succ n ih =>
    have hbytes : t.rawBytes = s.rawBytes := funext fun a => funext fun n => List.map_congr_left fun i _ => h.rawByte (a + i)
    unfold State.refillMoves
    simp only [h.pool, h.poisoned, hbytes]
    split
    · exact h
    · split
      · exact h.poolError hr hr' _ _
      · have hring {u : State} (hu : u.ringSize = 0) (segs : List Seg) (q : Pool) : ((u.correctRead segs).setPool p q).ringSize = 0 :=
          (State.tended_correctRead (p := p) segs).ringSize hu
        exact ih ((h.correctRead _).setPool _) (hring hr _ _) (hring hr' _ _)

theorem State.SamePools.cacheReady (h : s.SamePools t) (hr : s.ringSize = 0) (hr' : t.ringSize = 0) :
    (s.cacheReady p).SamePools (t.cacheReady p) := by
  unfold State.cacheReady State.refillCache
  rw [h.pool]
  split
  · split
    · exact h.refillMoves hr hr' _
    · exact h
  · exact h

end

end Sys2Proof.Machine
end

section
/-! SUPPORT. ALLOC by the Buffer Pool Manager (R205, R209, R210): the bit of a buffer, a pool's new record of its buffers, the buffer that
is taken, and the pool that serves. -/

namespace Sys2Proof.Machine

open Sys2Proof

/-! ## The bitmap (R205) -/

section
variable (s : State) (q : Pool) (k : Nat) (b : Bool)

/-- Replacing one bit of a byte sets it and leaves the others. -/
theorem bitOf_setBit (v : Byte) {lo : Nat} (hlo : lo < 8) (i : Nat) :
    bitOf (BitVec.ofNat 8 (setField v.toNat lo 1 (b2n b))).toNat i = if i = lo then b else bitOf v.toNat i := by
  rw [BitVec.toNat_ofNat, Nat.mod_eq_of_lt (setField_lt v.isLt (by omega)), bitOf_eq_testBit, testBit_setField, bitOf_eq_testBit]
  by_cases h : i = lo
  · rw [if_pos (by omega), if_pos h, h, Nat.sub_self]
    cases b <;> rfl
  · rw [if_neg (by omega), if_neg h]

theorem State.poolBit_setPoolBit (m : Nat) : (s.setPoolBit q k b).poolBit q m = if m = k then b else s.poolBit q m := by
  have hmod (n : Nat) : n % 8 < 8 := Nat.mod_lt n (by decide)
  unfold State.poolBit State.setPoolBit
  by_cases h : q.bitAt m = q.bitAt k
  · have hdiv : m / 8 = k / 8 := by
      unfold Pool.bitAt at h
      omega
    rw [h, State.rawByte_setByte, bitOf_setBit _ _ (hmod k)]
    exact if_congr (by omega) rfl rfl
  · have hne : m ≠ k := fun e => h (congrArg q.bitAt e)
    rw [State.rawByte_setByte_other _ _ h, if_neg hne]

theorem State.rawByte_setPoolBit_other {c : Nat} (h : c ≠ q.bitAt k) : (s.setPoolBit q k b).rawByte c = s.rawByte c :=
  State.rawByte_setByte_other _ _ h

end

/-- A byte depends on the bytes stored alone. -/
theorem State.rawByte_congr {s t : State} (h : t.mem.bytes = s.mem.bytes) (c : Nat) : t.rawByte c = s.rawByte c :=
  congrArg (fun m : SMap Byte => SMap.get 0 m c) h

/-- The bytes of a state in which bit `k` has been made `b`: that bit alone is changed, and no other byte. -/
theorem State.marked_of_bytes {s t : State} {q : Pool} {k : Nat} {b : Bool} (h : t.mem.bytes = (s.setPoolBit q k b).mem.bytes) :
    t.poolBit q k = b ∧ (∀ m, m ≠ k → t.poolBit q m = s.poolBit q m) ∧ ∀ c, c ≠ q.bitAt k → t.rawByte c = s.rawByte c := by
  have hbit (m : Nat) : t.poolBit q m = if m = k then b else s.poolBit q m := by
    rw [State.poolBit, State.rawByte_congr h]
    exact s.poolBit_setPoolBit q k b m
  exact ⟨(hbit k).trans (if_pos rfl), fun m hm => (hbit m).trans (if_neg hm),
    fun c hc => (State.rawByte_congr h c).trans (s.rawByte_setPoolBit_other q k b hc)⟩

/-! ## What a pool's record and the stored bytes decide -/

theorem State.poisoned_congr {s t : State} (h : t.mem.poison = s.mem.poison) (c : Nat) : t.poisoned c = s.poisoned c :=
  congrArg (fun m : SMap Bool => SMap.get false m (wordOf c)) h

theorem Pool.meta_congr {q v : Pool} (h : v.record = q.record) : v.meta = q.meta := by rw [Pool.meta, h, Pool.meta]
theorem Pool.count_congr {q v : Pool} (h : v.record = q.record) : v.count = q.count := by rw [Pool.count, h, Pool.count]
theorem Pool.ringBytes_congr {q v : Pool} (h : v.record = q.record) : v.ringBytes = q.ringBytes := by
  rw [Pool.ringBytes, Pool.count_congr h, Pool.ringBytes]
theorem Pool.metaBytes_congr {q v : Pool} (h : v.record = q.record) : v.metaBytes = q.metaBytes := by
  rw [Pool.metaBytes, Pool.ringBytes_congr h, Pool.count_congr h, Pool.metaBytes]

theorem Pool.bitAt_congr {q v : Pool} (h : v.record = q.record) (k : Nat) : v.bitAt k = q.bitAt k := by
  rw [Pool.bitAt, Pool.meta_congr h, Pool.ringBytes_congr h, Pool.bitAt]

/-- A bit of the bitmap that is set or cleared depends on the bytes stored and on the pool's record. -/
theorem State.setPoolBit_bytes {s t : State} {q v : Pool} (h : t.mem.bytes = s.mem.bytes) (hr : v.record = q.record) (k : Nat) (b : Bool) :
    (t.setPoolBit v k b).mem.bytes = (s.setPoolBit q k b).mem.bytes := by
  unfold State.setPoolBit State.setByte
  rw [Pool.bitAt_congr hr, State.rawByte_congr h]
  exact congrArg (fun m : SMap Byte => SMap.put 0 m _ _) h

theorem State.upkeep_setPoolBit {s : State} {p : Nat} (q : Pool) (k : Nat) (b : Bool) : s.Upkeep p (s.setPoolBit q k b) :=
  State.upkeep_of_pools rfl rfl rfl

theorem Pool.size_pos (q : Pool) : 0 < q.size := Nat.mul_pos (by decide) (Nat.pow_pos (by decide))

/-- A buffer of a pool that fits the module's address range begins within it. -/
theorem Pool.buffer_lt {q : Pool} {k : Nat} (hk : k < q.count) (hf : q.base + q.count * q.size ≤ 2 ^ 40) :
    q.base + k * q.size < 2 ^ 40 := by
  have hmul : k * q.size < q.count * q.size := Nat.mul_lt_mul_of_pos_right hk q.size_pos
  omega

section
variable (s : State) {a : Nat} (h : a < 2 ^ 40)
include h

theorem State.globalOf_lt : s.globalOf a < 2 ^ 64 := by
  have hn : s.node < 2 ^ 24 := Nat.mod_lt _ (by decide)
  rw [State.globalOf]
  omega

theorem State.nodeOf_globalOf : nodeOf (s.globalOf a) = s.node := by
  have hn : s.node < 2 ^ 24 := Nat.mod_lt _ (by decide)
  rw [nodeOf, State.globalOf]
  omega

theorem State.localOf_globalOf : localOf (s.globalOf a) = a := by
  rw [localOf, State.globalOf]
  omega

end

theorem State.node_congr {s t : State} (h : t.net = s.net) : t.node = s.node := by rw [State.node, h, State.node]

/-! ## A pool's new record of its buffers -/

/-- In `w` the fields of pool `p` are those of `q`, and of `s` nothing else has changed but bytes stored, which are those of `m`, counts of
errors and low-water events. -/
structure State.Leaves (p : Nat) (q : Pool) (s m w : State) : Prop where
  record : (w.pool p).record = q.record
  free : (w.pool p).free = q.free
  cache : (w.pool p).cache = q.cache
  others : ∀ n, n ≠ p → w.pool n = s.pool n
  bytes : w.mem.bytes = m.mem.bytes
  counts : s.SameCounts w
  pads : w.swarm.pads = s.swarm.pads
  net : w.net = s.net

/-- A pool that is put back, and its low-water condition. -/
theorem State.leaves_lowWater {s m : State} {p : Nat} {q : Pool} (hr : s.ringSize = 0) (hup : s.Upkeep p m) (hc : s.SameCounts m) :
    s.Leaves p q m ((m.setPool p q).lowWater p) := by
  have hring : (m.setPool p q).ringSize = 0 := hc.ringSize.trans hr
  obtain ⟨hlow, hcache⟩ := State.tended_lowWater (p := p) hring
  have hpool : (m.setPool p q).pool p = q := State.pool_setPool _ _ _
  exact ⟨hlow.upkeep.record.trans (congrArg Pool.record hpool), hlow.upkeep.free.trans (congrArg Pool.free hpool),
    hcache.trans (congrArg Pool.cache hpool),
    fun n hn => (hlow.upkeep.others n hn).trans ((State.pool_setPool_other _ _ hn).trans (hup.others n hn)),
    (congrArg Prod.fst hlow.stored :), hc.trans hlow.counts, hlow.upkeep.pads.trans hup.pads, hlow.upkeep.net.trans hup.net⟩

/-! ## A buffer that is taken (R209, R210) -/

/-- From `s` to `t` pool `p` has handed out the buffer at place `j` of its cache. -/
structure State.Took (p j : Nat) (s t : State) : Prop where
  place : j < ((s.cacheReady p).pool p).cache.length
  bytes : t.mem.bytes = (s.setPoolBit (s.pool p) (((s.cacheReady p).pool p).cache.getD j 0) true).mem.bytes
  free : (t.pool p).free = (s.pool p).free - 1
  record : (t.pool p).record = (s.pool p).record
  cache : 129 < ((s.cacheReady p).pool p).cache.length → (t.pool p).cache = ((s.cacheReady p).pool p).cache.eraseIdx j
  others : ∀ m, m ≠ p → t.pool m = s.pool m
  pads : t.swarm.pads = s.swarm.pads

section
variable {s : State} {p : Nat} (hr : s.ringSize = 0)
include hr

/-- The end of a taking, from the state in which the buffer's bit is set. -/
theorem State.took_of_marked {j : Nat} {m : State} {v : Pool} (hv : (s.cacheReady p).pool p = v) (hj : j < v.cache.length)
    (hb : m.mem.bytes = (s.setPoolBit (s.pool p) (v.cache.getD j 0) true).mem.bytes) (hup : s.Upkeep p m) (hc : s.SameCounts m)
    (hp : p < 65536) :
    ∃ t, (((m.setPool p { v with free := v.free - 1, cache := v.cache.eraseIdx j }).lowWater p).bump 0x710004 1 p).refillCache p = t
      ∧ s.Took p j t ∧ (s.bump 0x710004 1 p).SameCounts t := by
  have hready : s.Tended p (s.cacheReady p) := State.tended_cacheReady hr
  obtain ⟨hrecord, hfree, hcache, hothers, hbytes, hcounts, hpads, -⟩ :=
    State.leaves_lowWater (q := { v with free := v.free - 1, cache := v.cache.eraseIdx j }) hr hup hc
  generalize (m.setPool p { v with free := v.free - 1, cache := v.cache.eraseIdx j }).lowWater p = w at *
  have hcounted : (s.bump 0x710004 1 p).SameCounts (w.bump 0x710004 1 p) := hcounts.bump_both (by decide) hp 1
  have hring : (w.bump 0x710004 1 p).ringSize = 0 := by
    rw [State.ringSize, State.reg_bump_other _ (by omega)]
    exact hcounts.ringSize.trans hr
  have hrefill : (w.bump 0x710004 1 p).Tended p ((w.bump 0x710004 1 p).refillCache p) := State.tended_refillCache hring
  refine ⟨_, rfl, ⟨hv ▸ hj, ?_, ?_, ?_, fun hlen => ?_, fun n hn => (hrefill.upkeep.others n hn).trans (hothers n hn),
    hrefill.upkeep.pads.trans hpads⟩, hcounted.trans hrefill.counts⟩
  · rw [hv, ← hb, ← hbytes]
    exact (congrArg Prod.fst hrefill.stored :)
  · rw [← hready.upkeep.free, hv]
    exact hrefill.upkeep.free.trans hfree
  · rw [← hready.upkeep.record, hv]
    exact hrefill.upkeep.record.trans hrecord
  · rw [hv] at hlen ⊢
    have hkept : ((w.bump 0x710004 1 p).pool p).cache = v.cache.eraseIdx j := hcache
    rw [State.refillCache, hkept, List.length_eraseIdx_of_lt hj, if_neg (by omega), hkept]

/-- A pool whose cache, once refilled, holds free buffers with a correctable bitmap hands out one of them. -/
theorem State.takeBuffer_takes {v : Pool} (hv : (s.cacheReady p).pool p = v) (hstate : v.state = 1) (hne : v.cache ≠ [])
    (hgood : ∀ k ∈ v.cache, s.poisoned ((s.pool p).bitAt k) = false) (hp : p < 65536) :
    ∃ j t, s.takeBuffer p = (some (s.globalOf ((s.pool p).base + v.cache.getD j 0 * (s.pool p).size)), t) ∧ s.Took p j t
      ∧ (s.bump 0x710004 1 p).SameCounts t := by
  have hready : s.Tended p (s.cacheReady p) := State.tended_cacheReady hr
  have hrecord : v.record = (s.pool p).record := hv ▸ hready.upkeep.record
  have hlen : 0 < v.cache.length := List.length_pos_iff.mpr hne
  generalize hj : (s.cacheReady p).draw.1 % v.cache.length = j
  have hjlt : j < v.cache.length := hj ▸ Nat.mod_lt _ hlen
  have hmem : v.cache.getD j 0 ∈ v.cache := by
    rw [List.getD_eq_getElem _ _ hjlt]
    exact List.getElem_mem hjlt
  have hgood' := hgood _ hmem
  generalize hk : v.cache.getD j 0 = k at hgood'
  generalize hc : s.cacheReady p = c at hready hv hj
  have hdraw : s.Tended p c.draw.2 := hready.trans ⟨State.upkeep_of_pools rfl rfl rfl, State.sameCounts_of_regs rfl, rfl⟩
  generalize hm : c.draw.2.correctRead [(v.bitAt k, 1)] = m
  have hread : s.Tended p m := hm ▸ hdraw.trans (State.tended_correctRead _)
  have hup := hread.upkeep.trans (State.upkeep_setPoolBit (p := p) v k true)
  have hcounts : s.SameCounts (m.setPoolBit v k true) := hread.counts.trans (State.sameCounts_of_regs rfl)
  obtain ⟨t, ht, htook⟩ := State.took_of_marked hr (m := m.setPoolBit v k true) (hc ▸ hv) hjlt
    (hk ▸ State.setPoolBit_bytes (congrArg Prod.fst hread.stored) hrecord k true)
    hup hcounts hp
  have hgood'' : c.draw.2.poisoned (v.bitAt k) = false := by
    rw [State.poisoned_congr (congrArg Prod.snd hdraw.stored), Pool.bitAt_congr hrecord]
    exact hgood'
  have hnode := State.node_congr
    (State.leaves_lowWater (q := { v with free := v.free - 1, cache := v.cache.eraseIdx j }) hr hup hcounts).net
  have hempty : ¬ (v.state ≠ 1 ∨ v.cache.isEmpty = true) := by
    rw [List.isEmpty_iff]
    exact fun h => h.elim (fun e => e hstate) hne
  refine ⟨j, t, ?_, htook⟩
  unfold State.takeBuffer
  simp only [hc, hv, if_neg hempty, hj, hk, hgood'', Bool.false_eq_true, if_false, hm, State.globalOf, hnode, ht]
  rw [Pool.base, Pool.size, Pool.cls, hrecord]; rfl

end

/-! ## The loop of ALLOC (R210) -/

section
variable {s u t : State} {p r j : Nat}

/-- What is taken depends on memory alone: not on the counts and not on the threads. -/
theorem State.Took.of_samePools (h : u.Took p j t) (hp : s.SamePools u) (hr : s.ringSize = 0) (hr' : u.ringSize = 0)
    (hw : u.swarm.pads = s.swarm.pads) : s.Took p j t := by
  have hready : (u.cacheReady p).pool p = (s.cacheReady p).pool p := (hp.cacheReady hr hr').pool p
  have hb (k : Nat) : (u.setPoolBit (s.pool p) k true).mem.bytes = (s.setPoolBit (s.pool p) k true).mem.bytes :=
    State.setPoolBit_bytes (congrArg Prod.fst hp.1) rfl k true
  obtain ⟨hplace, hbytes, hfree, hrecord, hcache, hothers, hpads⟩ := h
  rw [hready] at hplace hbytes hcache
  rw [hp.pool] at hbytes hfree hrecord
  exact ⟨hplace, hbytes.trans (hb _), hfree, hrecord, hcache, fun m hm => (hothers m hm).trans (hp.pool m), hpads.trans hw⟩

/-- ALLOC of a pool that has a free buffer, or whose fallback has one, hands out a buffer of the pool `p` that serves it. -/
theorem State.alloc_takes (hr : s.ringSize = 0) (hs : p = r ∨ ((s.pool r).state = 1 ∧ (s.pool r).free = 0 ∧ (s.pool r).fallbackValid = true
      ∧ (s.pool r).fallback = p)) (hon : (s.pool p).state = 1) (hfree : 0 < (s.pool p).free) {v : Pool} (hv : (s.cacheReady p).pool p = v)
    (hstate : v.state = 1) (hne : v.cache ≠ []) (hgood : ∀ k ∈ v.cache, s.poisoned ((s.pool p).bitAt k) = false) (hp : p < 65536)
    (hrlt : r < 65536) :
    ∃ j t, s.alloc r = (s.globalOf ((s.pool p).base + v.cache.getD j 0 * (s.pool p).size), t) ∧ s.Took p j t
      ∧ t.reg 0x710004 p = satAdd 64 (s.reg 0x710004 p) 1 ∧ (p ≠ r → t.reg 0x710005 r = satAdd 64 (s.reg 0x710005 r) 1) := by
  by_cases hpr : p = r
  · subst hpr
    obtain ⟨j, t, htake, htook, hcounts⟩ := State.takeBuffer_takes hr hv hstate hne hgood hp
    refine ⟨j, t, ?_, htook, ?_, fun h => absurd rfl h⟩
    · rw [State.alloc, State.allocFrom]
      simp only [hon, hfree, htake, ne_eq, not_true_eq_false, if_false, if_true]
    · rw [hcounts _ _ (by decide) hp, State.bump, State.reg_setReg]
  · obtain ⟨hron, hrfree, hrvalid, hrfall⟩ := hs.resolve_left hpr
    generalize hu : s.bump 0x710005 1 r = u
    have hsame : s.SamePools u := hu ▸ ⟨rfl, rfl⟩
    have hr' : u.ringSize = 0 := by
      rw [State.ringSize, ← hu, State.reg_bump_other _ (by omega)]
      exact hr
    obtain ⟨j, t, htake, htook, hcounts⟩ := State.takeBuffer_takes (p := p) hr' (((hsame.cacheReady hr hr').pool p).trans hv) hstate hne
      (by simpa only [hsame.pool, hsame.poisoned] using hgood) hp
    have hnode : u.node = s.node := hu ▸ rfl
    refine ⟨j, t, ?_, htook.of_samePools hsame hr hr' (hu ▸ rfl), ?_, fun _ => ?_⟩
    · rw [State.alloc, State.allocFrom]
      simp only [hron, hrfree, hrvalid, hrfall, hu, State.allocFrom, hsame.pool, hon, hfree, htake, State.globalOf, hnode, ne_eq,
        not_true_eq_false, if_false, gt_iff_lt, if_true, Nat.lt_irrefl, Bool.not_true, Bool.false_eq_true]
    · rw [hcounts _ _ (by decide) hp, State.bump, State.reg_setReg, ← hu, State.reg_bump_other _ (by omega)]
    · rw [hcounts _ _ (by decide) hrlt, State.reg_bump_other _ (by omega), ← hu, State.bump, State.reg_setReg]

/-- ALLOC of a pool that is not enabled, or that has nothing free and no fallback, gives 0 and counts a failure. -/
theorem State.alloc_fails (h : (s.pool p).state ≠ 1 ∨ ((s.pool p).free = 0 ∧ (s.pool p).fallbackValid = false)) :
    s.alloc p = (0, s.bump 0x710006 1 p) := by
  rw [State.alloc, State.allocFrom]
  by_cases hstate : (s.pool p).state = 1
  · obtain ⟨hfree, hvalid⟩ := h.resolve_left (fun hn => hn hstate)
    simp only [hstate, hfree, hvalid, ne_eq, not_true_eq_false, if_false, gt_iff_lt, Nat.lt_irrefl, Bool.not_false, if_true]
  · simp only [ne_eq, hstate, not_false_eq_true, if_true]

end

end Sys2Proof.Machine
end

section
/-! SUPPORT. FREE by the Buffer Pool Manager (R209, R211): the spill of a full cache, the buffer that is given back, and the frees that are
rejected. -/

namespace Sys2Proof.Machine

open Sys2Proof

/-! ## The spill of a cache (R209) -/

/-- From `s` to `t` pool `p` has been seen to, with stores to its ring alone. -/
structure State.Spilled (p : Nat) (s t : State) : Prop where
  upkeep : s.Upkeep p t
  counts : s.SameCounts t
  outside : ∀ c, c < (s.pool p).meta ∨ (s.pool p).meta + (s.pool p).ringBytes ≤ c → t.rawByte c = s.rawByte c

section
variable {p : Nat} {s t u : State}

theorem State.Spilled.trans (h : s.Spilled p t) (h' : t.Spilled p u) : s.Spilled p u where
  upkeep := h.upkeep.trans h'.upkeep
  counts := h.counts.trans h'.counts
  outside c hc := by
    have hrec := h.upkeep.record
    exact (h'.outside c (by rwa [Pool.meta_congr hrec, Pool.ringBytes_congr hrec])).trans (h.outside c hc)

theorem State.Tended.spilled (h : s.Tended p t) : s.Spilled p t :=
  ⟨h.upkeep, h.counts, fun c _ => State.rawByte_congr (congrArg Prod.fst h.stored) c⟩

theorem State.storeSeg_sameCounts {a : Nat} (h : progOf a = none) (s : State) (bs : List Byte) : s.SameCounts (s.storeSeg (a, bs)).2 := by
  intro k n _ _
  rw [State.storeSeg_eq h, State.reg_setBytes]
  exact foldl_keeps (f := fun (v : State) i => v.freshWord (wordOf (a + i))) (fun v : State => v.reg k n) (fun _ _ => rfl) _ _

theorem Pool.entryAt_mod (q : Pool) (i : Nat) : q.entryAt (i % q.ringSlots) = q.entryAt i := by
  rw [Pool.entryAt, Nat.mod_mod, Pool.entryAt]

/-- The entries from one place of the ring to the end of its codeword lie in the ring. -/
theorem Pool.ring_end_le (q : Pool) (i : Nat) : 4 * (i % q.ringSlots) + 4 * (16 - i % q.ringSlots % 16) ≤ q.ringBytes := by
  have hslots := q.ringSlots_eq
  have hcount := q.count_pos
  have hlt : i % q.ringSlots < q.ringSlots := Nat.mod_lt _ (by omega)
  have hbytes : 4 * q.ringSlots ≤ q.ringBytes := Nat.mul_div_le _ 4
  omega

/-- A store of entries into the rest of one codeword of the ring. -/
theorem State.spilled_storeSeg {q : Pool} (hq : s.pool p = q)
    (hm : plainRegion.inHbmRange q.meta q.metaBytes = true) (i : Nat) (es : List Nat)
    (hes : es.length ≤ 16 - i % q.ringSlots % 16) :
    s.Spilled p (s.storeSeg (q.entryAt i, es.flatMap (natLE 4))).2 := by
  subst hq
  have hend := (s.pool p).ring_end_le i
  have hring := (s.pool p).ringBytes_le
  have hprog : progOf ((s.pool p).entryAt i) = none := by
    have h0 := State.place_meta hm (k := 4 * (i % (s.pool p).ringSlots)) (by omega)
    simp only [progOf, Pool.entryAt, h0]
  have hlen : (es.flatMap (natLE 4)).length = 4 * es.length := by simp [List.length_flatMap, natLE_length, Nat.mul_comm]
  obtain ⟨-, hout, hrest⟩ := State.storeSeg_stored hprog s (es.flatMap (natLE 4))
  refine ⟨State.upkeep_of_pools (congrArg (fun t : State => t.mem.pools) hrest :) (congrArg (fun t : State => t.swarm.pads) hrest :)
    (congrArg State.net hrest :), State.storeSeg_sameCounts hprog s _, fun c hc => hout c ?_⟩
  rw [hlen, Pool.entryAt]
  omega

/-- A spill keeps the record and the free count of its pool and stores to its ring alone. -/
theorem State.spilled_spillMoves (hr : s.ringSize = 0) (hm : plainRegion.inHbmRange (s.pool p).meta (s.pool p).metaBytes = true) (n : Nat) :
    s.Spilled p (s.spillMoves p n) := by
  induction n generalizing s with
  | zero => exact State.Tended.refl.spilled
  | succ n ih =>
    unfold State.spillMoves
    simp only [Pool.entryAt_mod]
    split
    · exact State.Tended.refl.spilled
    · split
      · exact (State.tended_poolError hr _ _).spilled
      · next hpart _ =>
        generalize hk : 16 - ((s.pool p).ringHead + (s.pool p).ringHeld) % (s.pool p).ringSlots % 16 = k
        generalize hu : (if k < 16 then s.correctRead _ else s) = u
        have hread : s.Tended p u ∧ u.pool p = s.pool p := by
          rw [← hu]
          split
          · exact ⟨State.tended_correctRead _, (congrArg (fun t : State => t.pool p) (s.correctRead_sansMarks _) :)⟩
          · exact ⟨.refl, rfl⟩
        obtain ⟨hread, hpool⟩ := hread
        have hstore := State.spilled_storeSeg hpool hm ((s.pool p).ringHead + (s.pool p).ringHeld) ((s.pool p).cache.take k) (by
          rw [List.length_take]
          omega)
        have hkept := hread.spilled.trans hstore
        have hmoved := hkept.trans (State.tended_setPool (q := { s.pool p with
          cache := (s.pool p).cache.drop k, ringHeld := (s.pool p).ringHeld + k }) hkept.upkeep.record.symm hkept.upkeep.free.symm).spilled
        refine hmoved.trans (ih (hmoved.counts.ringSize.trans hr) ?_)
        rwa [Pool.meta_congr hmoved.upkeep.record, Pool.metaBytes_congr hmoved.upkeep.record]

end

/-! ## The pool that holds an address (R211) -/

/-- Local address `l` lies in a buffer of pool `p`, enabled or faulted. -/
def State.Within (s : State) (l p : Nat) : Prop :=
  ((s.pool p).state = 1 ∨ (s.pool p).state = 2) ∧ (s.pool p).base ≤ l ∧ l < (s.pool p).base + (s.pool p).count * (s.pool p).size

theorem State.within_iff (s : State) (l p : Nat) : (((s.pool p).state == 1 || (s.pool p).state == 2) && decide ((s.pool p).base ≤ l)
    && decide (l < (s.pool p).base + (s.pool p).count * (s.pool p).size)) = true ↔ s.Within l p := by
  simp only [State.Within, Bool.and_eq_true, Bool.or_eq_true, beq_iff_eq, decide_eq_true_eq, and_assoc]

/-- The FREE of an address that lies in a buffer of pool `p`. -/
def State.freeIn (s : State) (who : Freer) (a p : Nat) : Nat × State :=
  let q := s.pool p
  let k := (localOf a - q.base) / q.size
  if q.state = 2 then s.rejectFree who a 4 p
  else if (localOf a - q.base) % q.size ≠ 0 then s.rejectFree who a 2 p
  else if s.poisoned (q.bitAt k) then (s.poolError p (q.bitAt k)).rejectFree who a 4 p
  else if !s.poolBit q k then (s.correctRead [(q.bitAt k, 1)]).rejectFree who a 3 p
  else (0, ((((s.correctRead [(q.bitAt k, 1)]).setPoolBit q k false).setPool p { q with
    free := q.free + 1, cache := q.cache ++ [k] }).lowWater p).spillCache p)

section
variable {s : State} {who : Freer} {a p : Nat} (ha : a ≠ 0)
include ha

theorem State.freeHere_within (hv : s.nodeValid (nodeOf a) = true) (hp : p < 16) (hin : s.Within (localOf a) p)
    (hno : ∀ r, r < 16 → r ≠ p → ¬ s.Within (localOf a) r) : s.freeHere who a = s.freeIn who a p := by
  have hfind := List.find?_range_eq_some.mpr ⟨(s.within_iff (localOf a) p).mpr hin, List.mem_range.mpr hp, fun r hr => by
    rw [Bool.not_eq_true', ← Bool.not_eq_true, State.within_iff]
    exact hno r (by omega) (by omega)⟩
  unfold State.freeHere
  simp only [if_neg ha, hv, Bool.not_true, Bool.false_eq_true, if_false, hfind]
  rfl

/-- An address of no working node, or in no pool that is enabled or faulted, is no buffer's. -/
theorem State.freeHere_nowhere (h : s.nodeValid (nodeOf a) = false ∨ ∀ r, r < 16 → ¬ s.Within (localOf a) r) :
    s.freeHere who a = s.rejectFree who a 1 0 := by
  unfold State.freeHere
  simp only [if_neg ha]
  split
  · rfl
  · next hv =>
    rw [Bool.not_eq_true', Bool.not_eq_false] at hv
    have hnone := h.resolve_left (by rw [hv]; decide)
    have hfind := List.find?_eq_none.mpr fun r hr => (s.within_iff (localOf a) r).not.mpr (hnone r (List.mem_range.mp hr))
    rw [hfind]

end

/-! ## A buffer that is given back -/

/-- From `s` to `t` pool `p` has taken buffer `k` back. -/
structure State.Gave (p k : Nat) (s t : State) : Prop where
  bit : t.poolBit (s.pool p) k = false
  bits : ∀ m, m ≠ k → t.poolBit (s.pool p) m = s.poolBit (s.pool p) m
  outside : ∀ c, c ≠ (s.pool p).bitAt k → c < (s.pool p).meta ∨ (s.pool p).meta + (s.pool p).ringBytes ≤ c → t.rawByte c = s.rawByte c
  kept : (s.pool p).cache.length < 383 →
    (t.pool p).cache = (s.pool p).cache ++ [k] ∧ ∀ c, c ≠ (s.pool p).bitAt k → t.rawByte c = s.rawByte c
  free : (t.pool p).free = (s.pool p).free + 1
  record : (t.pool p).record = (s.pool p).record
  others : ∀ r, r ≠ p → t.pool r = s.pool r

section
variable {s : State} {p : Nat} (hr : s.ringSize = 0) (hm : plainRegion.inHbmRange (s.pool p).meta (s.pool p).metaBytes = true)
include hr hm

theorem State.spilled_spillCache : s.Spilled p (s.spillCache p) := by
  unfold State.spillCache
  split
  · exact State.spilled_spillMoves hr hm _
  · exact State.Tended.refl.spilled

/-- The end of a giving back, from the state `m` in which the buffer's bit is clear. -/
theorem State.gave_of_marked {k : Nat} {m : State} (hb : m.mem.bytes = (s.setPoolBit (s.pool p) k false).mem.bytes) (hup : s.Upkeep p m)
    (hc : s.SameCounts m) : s.Gave p k
      (((m.setPool p { s.pool p with free := (s.pool p).free + 1, cache := (s.pool p).cache ++ [k] }).lowWater p).spillCache p) := by
  obtain ⟨hrecord, hfree, hcache, hothers, hwbytes, hcounts, -, -⟩ :=
    State.leaves_lowWater (q := { s.pool p with free := (s.pool p).free + 1, cache := (s.pool p).cache ++ [k] }) hr hup hc
  generalize (m.setPool p { s.pool p with free := (s.pool p).free + 1, cache := (s.pool p).cache ++ [k] }).lowWater p = w at *
  obtain ⟨hbit, hbits, hbytes⟩ := State.marked_of_bytes (hwbytes.trans hb)
  have hspill : w.Spilled p (w.spillCache p) := State.spilled_spillCache (hcounts.ringSize.trans hr) (by
    rw [Pool.meta_congr hrecord, Pool.metaBytes_congr hrecord]
    exact hm)
  have hout (c : Nat) (h : c < (s.pool p).meta ∨ (s.pool p).meta + (s.pool p).ringBytes ≤ c) : (w.spillCache p).rawByte c = w.rawByte c :=
    hspill.outside c (by
      rw [Pool.meta_congr hrecord, Pool.ringBytes_congr hrecord]
      exact h)
  have hmap (n : Nat) : (w.spillCache p).poolBit (s.pool p) n = w.poolBit (s.pool p) n := by
    rw [State.poolBit, hout ((s.pool p).bitAt n) (.inr (Nat.le_add_right _ _)), State.poolBit]
  refine ⟨(hmap k).trans hbit, fun n hn => (hmap n).trans (hbits n hn), fun c hc h => (hout c h).trans (hbytes c hc), fun hlen => ?_,
    hspill.upkeep.free.trans hfree, hspill.upkeep.record.trans hrecord, fun n hn => (hspill.upkeep.others n hn).trans (hothers n hn)⟩
  have hstay : w.spillCache p = w := by
    rw [State.spillCache, hcache, List.length_append, List.length_singleton, if_neg (by omega)]
  rw [hstay]
  exact ⟨hcache, hbytes⟩

/-- The FREE of an allocated buffer of an enabled pool is accepted. -/
theorem State.freeIn_gives {who : Freer} {a k : Nat} (hon : (s.pool p).state = 1) (hk : localOf a = (s.pool p).base + k * (s.pool p).size)
    (hgood : s.poisoned ((s.pool p).bitAt k) = false) (hset : s.poolBit (s.pool p) k = true) :
    ∃ t, s.freeIn who a p = (0, t) ∧ s.Gave p k t := by
  have hoff : localOf a - (s.pool p).base = k * (s.pool p).size := by omega
  have hmod : k * (s.pool p).size % (s.pool p).size = 0 := Nat.mul_mod_left _ _
  have hdiv : k * (s.pool p).size / (s.pool p).size = k := Nat.mul_div_cancel _ (s.pool p).size_pos
  generalize hu : s.correctRead [((s.pool p).bitAt k, 1)] = u
  have hread : s.Tended p u := hu ▸ State.tended_correctRead _
  have hgave := State.gave_of_marked hr hm (k := k) (m := u.setPoolBit (s.pool p) k false)
    (State.setPoolBit_bytes (congrArg Prod.fst hread.stored) rfl k false)
    (hread.upkeep.trans (State.upkeep_setPoolBit _ k false)) (hread.counts.trans (State.sameCounts_of_regs rfl))
  refine ⟨_, ?_, hgave⟩
  unfold State.freeIn
  simp only [hon, hoff, hmod, hdiv, hgood, hset, hu, Nat.reduceEqDiff, ne_eq, not_true_eq_false, Bool.not_true,
    Bool.false_eq_true, if_false]

end

section
variable {s u t : State} {p k : Nat}

/-- What is given back depends on memory alone. -/
theorem State.Gave.of_samePools (h : u.Gave p k t) (hs : s.SamePools u) : s.Gave p k t := by
  have hbit (q : Pool) (n : Nat) : u.poolBit q n = s.poolBit q n := by rw [State.poolBit, hs.rawByte, State.poolBit]
  obtain ⟨hclear, hbits, hout, hkept, hfree, hrecord, hothers⟩ := h
  simp only [hs.pool, hs.rawByte, hbit] at hclear hbits hout hkept hfree hrecord hothers
  exact ⟨hclear, hbits, hout, hkept, hfree, hrecord, hothers⟩

section
variable (hk : k < (s.pool p).count) (hapart : ∀ r, r < 16 → r ≠ p → (s.pool r).state ≠ 0 →
  overlap (s.pool p).base ((s.pool p).count * (s.pool p).size) (s.pool r).base ((s.pool r).count * (s.pool r).size) = false)
include hk

/-- The start of a buffer lies in its pool. -/
theorem State.within_buffer (hon : (s.pool p).state = 1) : s.Within ((s.pool p).base + k * (s.pool p).size) p :=
  ⟨.inl hon, Nat.le_add_right _ _, Nat.add_lt_add_left (Nat.mul_lt_mul_of_pos_right hk (s.pool p).size_pos) _⟩

include hapart in
/-- The start of a buffer lies in no pool that its own does not overlap. -/
theorem State.not_within_apart {r : Nat} (hr : r < 16) (hne : r ≠ p) : ¬ s.Within ((s.pool p).base + k * (s.pool p).size) r := by
  rintro ⟨hstate, hlo, hhi⟩
  have hmul : k * (s.pool p).size < (s.pool p).count * (s.pool p).size := Nat.mul_lt_mul_of_pos_right hk (s.pool p).size_pos
  have hno := hapart r hr hne (by omega)
  rw [overlap, Bool.and_eq_false_iff, decide_eq_false_iff_not, decide_eq_false_iff_not] at hno
  omega

include hapart in
theorem State.freeHere_gives {who : Freer} {a : Nat} (hr : s.ringSize = 0)
    (hm : plainRegion.inHbmRange (s.pool p).meta (s.pool p).metaBytes = true) (ha : a ≠ 0) (hv : s.nodeValid (nodeOf a) = true)
    (hp : p < 16) (hon : (s.pool p).state = 1) (hl : localOf a = (s.pool p).base + k * (s.pool p).size)
    (hgood : s.poisoned ((s.pool p).bitAt k) = false) (hset : s.poolBit (s.pool p) k = true) :
    ∃ t, s.freeHere who a = (0, t) ∧ s.Gave p k t := by
  rw [State.freeHere_within ha hv hp (hl ▸ State.within_buffer hk hon)
    fun r hr' hne => by rw [hl]; exact State.not_within_apart hk hapart hr' hne]
  exact State.freeIn_gives hr hm hon hl hgood hset

end

end

/-! ## Frees that are rejected -/

/-- From `s` to `t` a FREE of `a` has been rejected, counted and logged, and nothing of memory has changed but marks of corrected errors. -/
structure State.Rejected (who : Freer) (a reason p : Nat) (s t : State) : Prop where
  bytes : t.mem.bytes = s.mem.bytes
  pools : t.mem.pools = s.mem.pools
  pads : t.swarm.pads = s.swarm.pads
  counted : t.reg 0x720002 = satAdd 64 (s.reg 0x720002) 1
  charged : t.reg 0x710007 p = if reason = 1 then s.reg 0x710007 p else satAdd 64 (s.reg 0x710007 p) 1
  logged : t.mem.rejections = logAppend 64 s.mem.rejections (BitVec.ofNat 256 (reason * 2 ^ 248 + p * 2 ^ 244 + who.kind * 2 ^ 240
    + who.ident * 2 ^ 192 + s.now % 2 ^ 64 * 2 ^ 128 + a % 2 ^ 64 * 2 ^ 64))

section
variable {s u : State} {who : Freer} {a p : Nat}

theorem State.rejectFree_rejected (hp : p < 16) (reason : Nat) (hc : s.SameCounts u) (hu : u.sansMarks = s.sansMarks) :
    ∃ t, u.rejectFree who a reason p = (reason, t) ∧ s.Rejected who a reason p t := by
  have hcount : u.reg 0x720002 = s.reg 0x720002 := hc _ _ (by decide) (by decide)
  have hpool : u.reg 0x710007 p = s.reg 0x710007 p := hc _ _ (by decide) (by omega)
  have hbytes : u.mem.bytes = s.mem.bytes := (congrArg (fun t : State => t.mem.bytes) hu :)
  have hpools : u.mem.pools = s.mem.pools := (congrArg (fun t : State => t.mem.pools) hu :)
  have hpads : u.swarm.pads = s.swarm.pads := (congrArg (fun t : State => t.swarm.pads) hu :)
  have hlog : u.mem.rejections = s.mem.rejections := (congrArg (fun t : State => t.mem.rejections) hu :)
  have hnow : u.now = s.now := (congrArg State.now hu :)
  unfold State.rejectFree
  generalize hv : (if reason = 1 then u else u.bump 0x710007 1 p) = v
  have hvmem : v.mem = u.mem := by rw [← hv]; split <;> rfl
  have hvswarm : v.swarm = u.swarm := by rw [← hv]; split <;> rfl
  have hvnow : v.now = u.now := by rw [← hv]; split <;> rfl
  have hvcount : v.reg 0x720002 = u.reg 0x720002 := by
    rw [← hv]
    split
    · rfl
    · exact State.reg_bump_other _ (by omega)
  have hvpool : v.reg 0x710007 p = if reason = 1 then s.reg 0x710007 p else satAdd 64 (s.reg 0x710007 p) 1 := by
    rw [← hv, ← hpool]
    split
    · rfl
    · exact State.reg_setReg _ _ _ _
  have hregs (k n : Nat) {t : State} (ht : t.dict.regs = (v.bump 0x720002).dict.regs) : t.reg k n = (v.bump 0x720002).reg k n :=
    State.reg_congr ht k n
  refine ⟨_, rfl, ?_, ?_, ?_, ?_, ?_, ?_⟩
  · exact (congrArg MemSys.bytes hvmem).trans hbytes
  · exact (congrArg MemSys.pools hvmem).trans hpools
  · exact (congrArg Swarm.pads hvswarm).trans hpads
  · exact (hregs _ _ rfl).trans ((State.reg_setReg _ _ _ _).trans (by rw [hvcount, hcount]))
  · exact (hregs _ _ rfl).trans ((State.reg_bump_other _ (by omega)).trans hvpool)
  · rw [← hlog, ← hnow, ← hvmem, ← hvnow]
    rfl

/-- Why a FREE of `a` is rejected, and at which pool (R211): no working node or no pool (1), a faulted pool (4), no buffer's start (2), a
buffer that is free already (3). -/
def State.Refuses (s : State) (a reason p : Nat) : Prop :=
  (reason = 1 ∧ p = 0 ∧ (s.nodeValid (nodeOf a) = false ∨ ∀ r, r < 16 → ¬ s.Within (localOf a) r))
    ∨ (s.nodeValid (nodeOf a) = true ∧ s.Within (localOf a) p ∧ (∀ r, r < 16 → r ≠ p → ¬ s.Within (localOf a) r)
      ∧ ((reason = 4 ∧ (s.pool p).state = 2)
        ∨ (reason = 2 ∧ (s.pool p).state = 1 ∧ (localOf a - (s.pool p).base) % (s.pool p).size ≠ 0)
        ∨ (reason = 3 ∧ (s.pool p).state = 1 ∧ (localOf a - (s.pool p).base) % (s.pool p).size = 0
          ∧ s.poisoned ((s.pool p).bitAt ((localOf a - (s.pool p).base) / (s.pool p).size)) = false
          ∧ s.poolBit (s.pool p) ((localOf a - (s.pool p).base) / (s.pool p).size) = false)))

theorem State.freeHere_rejects {reason : Nat} (ha : a ≠ 0) (hp : p < 16) (h : s.Refuses a reason p) :
    ∃ t, s.freeHere who a = (reason, t) ∧ s.Rejected who a reason p t := by
  have hsame (n : Nat) := s.rejectFree_rejected (who := who) (a := a) hp n (State.sameCounts_of_regs rfl) rfl
  rcases h with ⟨rfl, rfl, hnone⟩ | ⟨hv, hin, hno, hwhy⟩
  case inl =>
    rw [State.freeHere_nowhere ha hnone]
    exact hsame 1
  case inr =>
    rw [State.freeHere_within ha hv hp hin hno, State.freeIn]
    rcases hwhy with ⟨rfl, hstate⟩ | ⟨rfl, hstate, hmod⟩ | ⟨rfl, hstate, hmod, hgood, hclear⟩
    · simp only [hstate, if_true]
      exact hsame 4
    · simp only [hstate, hmod, Nat.reduceEqDiff, ne_eq, not_false_eq_true, if_false, if_true]
      exact hsame 2
    · simp only [hstate, hmod, hgood, hclear, Nat.reduceEqDiff, ne_eq, not_true_eq_false, Bool.not_false, Bool.false_eq_true,
        if_false, if_true]
      exact s.rejectFree_rejected hp 3 (State.correctRead_sameCounts _ _) (State.correctRead_sansMarks _ _)

end

end Sys2Proof.Machine
end

section
/-! PROOF. O26: ALLOC and FREE. -/

namespace Sys2Proof.Proofs

open Sys2Proof Sys2Proof.Machine Sys2Proof.Safety

section
variable {s : State} (i : SlotId)

theorem exec_alloc : exec (.alloc i) s = .next (runCommand s i (fun w => cmdOp w == 0x27) allocBody) := rfl
theorem exec_free : exec (.free i) s = .next (runCommand s i (fun w => cmdOp w == 0x28) freeBody) := rfl

end

/-! ## A command that ends in the manager's answer -/

/-- In `t` slot `i` has written its registers by `g` and retired; the rest of the state is what the manager left in `v`. -/
structure Answered (i : SlotId) (g : Slot → Slot) (s v t : State) : Prop where
  rest : t = { v with swarm := { v.swarm with slots := t.swarm.slots } }
  slot : t.slot i = (g (s.slot i)).retire (s.slot i).ptr .next
  others : ∀ j : SlotId, j.thread < 4 → j ≠ i → t.slot j = seenIssue i j (s.slot j)

section
variable {s v t : State} {i : SlotId} {g : Slot → Slot}

theorem Answered.mem (h : Answered i g s v t) : t.mem = v.mem := (congrArg State.mem h.rest :)
theorem Answered.pads (h : Answered i g s v t) : t.swarm.pads = v.swarm.pads := (congrArg (fun u : State => u.swarm.pads) h.rest :)
theorem Answered.reg (h : Answered i g s v t) (k n : Nat) : t.reg k n = v.reg k n :=
  State.reg_congr (congrArg (fun u : State => u.dict.regs) h.rest :) k n
theorem Answered.pool (h : Answered i g s v t) (p : Nat) : t.pool p = v.pool p := by rw [State.pool, h.mem, State.pool]
theorem Answered.rawByte (h : Answered i g s v t) (a : Nat) : t.rawByte a = v.rawByte a :=
  State.rawByte_congr (congrArg MemSys.bytes h.mem) a
theorem Answered.poolBit (h : Answered i g s v t) (q : Pool) (k : Nat) : t.poolBit q k = v.poolBit q k := by
  rw [State.poolBit, h.rawByte, State.poolBit]

theorem Answered.took (h : Answered i g s v t) {p j : Nat} (hv : s.Took p j v) : s.Took p j t where
  place := hv.place
  bytes := (congrArg MemSys.bytes h.mem).trans hv.bytes
  free := (congrArg Pool.free (h.pool p)).trans hv.free
  record := (congrArg Pool.record (h.pool p)).trans hv.record
  cache hl := (congrArg Pool.cache (h.pool p)).trans (hv.cache hl)
  others m hm := (h.pool m).trans (hv.others m hm)
  pads := h.pads.trans hv.pads

theorem Answered.gave (h : Answered i g s v t) {p k : Nat} (hv : s.Gave p k v) : s.Gave p k t where
  bit := (h.poolBit _ _).trans hv.bit
  bits m hm := (h.poolBit _ _).trans (hv.bits m hm)
  outside c hc ho := (h.rawByte c).trans (hv.outside c hc ho)
  kept hl := by
    obtain ⟨hcache, hbytes⟩ := hv.kept hl
    exact ⟨(congrArg Pool.cache (h.pool p)).trans hcache, fun c hc => (h.rawByte c).trans (hbytes c hc)⟩
  free := (congrArg Pool.free (h.pool p)).trans hv.free
  record := (congrArg Pool.record (h.pool p)).trans hv.record
  others r hr := (h.pool r).trans (hv.others r hr)

/-- What the manager did in the state that the command began in, it did to the state before. -/
theorem Answered.rejected {w : Nat} {b : Bool} (h : Answered i g s v t) {who : Freer} {a reason p : Nat}
    (hv : (begun s i w b).Rejected who a reason p v) : s.Rejected who a reason p t := by
  have hnow : (begun s i w b).now = s.now := begun_now s i w b
  obtain ⟨hbytes, hpools, hpads, hcounted, hcharged, hlogged⟩ := hv
  rw [begun_mem] at hbytes hpools
  rw [begun_pads] at hpads
  rw [begun_reg] at hcounted hcharged
  rw [begun_mem, hnow] at hlogged
  exact ⟨(congrArg MemSys.bytes h.mem).trans hbytes, (congrArg MemSys.pools h.mem).trans hpools, h.pads.trans hpads,
    (h.reg _ _).trans hcounted, (h.reg _ _).trans hcharged, (congrArg MemSys.rejections h.mem).trans hlogged⟩

/-- A command whose work leaves the threads to the manager's state `v` and then writes registers of its own slot. -/
theorem runCommand_answered {w : Nat} {b : Bool} {row : Nat → Bool} {body : Issue → Cmd After} (h : Issues s i w b) (hr : row w = true)
    (hb : body (issueOf s i w b) (begun s i w b) = .ok (.next, v.setSlot i (g (v.slot i))))
    (hcore : v.swarm.core = (begun s i w b).swarm.core)
    (hcur : ∀ c l, (g { s.slot i with cur := c, latch := l }).retire (s.slot i).ptr .next = (g (s.slot i)).retire (s.slot i).ptr .next)
    (hloops : (g (s.slot i)).loops = (s.slot i).loops) (hnest : (g (s.slot i)).nest = (s.slot i).nest) (hp : nextPtr (s.slot i) < 2048) :
    ∃ t, runCommand s i row body = t ∧ Answered i g s v t := by
  have hi := issues_thread_lt h
  have hslot : ((v.setSlot i (g (v.slot i))).slot i).retire (s.slot i).ptr .next = (g (s.slot i)).retire (s.slot i).ptr .next := by
    rw [State.slot_setSlot, State.slot_of_core hcore, State.begun_slot]
    exact hcur _ _
  refine ⟨_, runCommand_ends h hr hb (hslot ▸ Slot.retire_lt_of_loops hp hloops hnest), rfl, (State.slot_setSlot _ _ _).trans hslot,
    fun j hj hne => ?_⟩
  rw [State.slot_setSlot_other _ _ (SlotId.key_ne hi hj hne), State.slot_setSlot_other _ _ (SlotId.key_ne hi hj hne),
    State.slot_of_core hcore, begun_other hi hj hne]

end

/-! ## ALLOC -/

/-- The registers that ALLOC writes: its pair, and its predicate (R98, R210). -/
def allocAnswer (n m a : Nat) (t : Slot) : Slot := (t.setPair n a).setP m (decide (a ≠ 0))

theorem allocBody_done (x : Issue) (s : State) : allocBody x s = .ok (.next,
    let r := s.alloc ((s.slot x.id).value (cmdA x.word))
    r.2.setSlot x.id (allocAnswer (cmdD x.word).num (cmdMods x.word % 8) r.1 (r.2.slot x.id))) := rfl

theorem Slot.pair_setP (u : Slot) (m : Nat) (c : Bool) (n : Nat) : (u.setP m c).pair n = u.pair n := by
  unfold Slot.setP
  split <;> rfl

/-- What `allocAnswer` leaves in its pair and its predicate. -/
theorem allocAnswer_retired {u : Slot} {n m a p : Nat} (hn : n + 1 < 16) (ha : a < 2 ^ 64) (hm : m < 8) :
    ((allocAnswer n m a u).retire p .next).pair n = a ∧ (m ≠ 0 → ((allocAnswer n m a u).retire p .next).pred m = decide (a ≠ 0)) := by
  refine ⟨?_, fun h0 => ?_⟩
  · rw [Slot.retire_pair, allocAnswer, Slot.pair_setP, Slot.pair_setPair _ hn, Nat.mod_eq_of_lt ha]
  · rw [Slot.retire_pred, allocAnswer, Slot.pred_setP _ hm h0]

section
variable {s v t : State} {i : SlotId} {w : Nat} {b : Bool} (h : Issues s i w b) (ho : cmdOp w = 0x27)
include h ho

theorem issues_alloc_pool_le : (s.slot i).value (cmdA w) ≤ 15 := by
  obtain ⟨-, -, -, -, -, hshape⟩ := h
  have hf : formOf (cmdOp w) (cmdMods w) = some { a := [.s, .imm], d := [.pair], mask := bitsMask 2 0 } := by rw [ho]; rfl
  by_contra hgt
  rw [shapeReason, hf] at hshape
  simp only [if_pos (And.intro ho (Nat.lt_of_not_le hgt))] at hshape
  cases hr : opndReason [Kind.s, .imm] (cmdA w) false <;> simp [hr] at hshape

theorem issues_alloc_pair {n : Nat} (hd : cmdD w = .s n) : n + 1 < 16 := by
  have hf : formOf (cmdOp w) (cmdMods w) = some { a := [.s, .imm], d := [.pair], mask := bitsMask 2 0 } := by rw [ho]; rfl
  have heven := issues_takesD h hf
  have hlt := opndOf_s hd
  simp only [hd, Kind.takes, List.any_cons, List.any_nil, Bool.or_false, beq_iff_eq] at heven
  omega

theorem alloc_answered (hp : nextPtr (s.slot i) < 2048) {r n a : Nat} (hr : (s.slot i).value (cmdA w) = r) (hd : cmdD w = .s n)
    (ha : (begun s i w b).alloc r = (a, v)) : ∃ t, exec (.alloc i) s = .next t ∧ Answered i (allocAnswer n (cmdMods w % 8) a) s v t := by
  have hb := allocBody_done (issueOf s i w b) (begun s i w b)
  rw [issueOf_id, issueOf_word, begun_value, hr, hd, ha] at hb
  have hcore : v.swarm.core = (begun s i w b).swarm.core := by
    have hc := State.alloc_core (begun s i w b) r
    rwa [ha] at hc
  obtain ⟨t, ht, hans⟩ := runCommand_answered (row := fun w => cmdOp w == 0x27) h (by simp [ho]) hb hcore
    (fun c l => Slot.setP_retire_cur ((s.slot i).setPair n a) c l _ _ _ _) (Slot.setP_loops _ _ _) (Slot.setP_nest _ _ _) hp
  exact ⟨t, (exec_alloc i).trans (congrArg Host.Outcome.next ht), hans⟩

/-- ALLOC that fails (R210). -/
theorem alloc_none (hp : nextPtr (s.slot i) < 2048) {p n : Nat} (hr : (s.slot i).value (cmdA w) = p) (hd : cmdD w = .s n)
    (hfail : (s.pool p).state ≠ 1 ∨ ((s.pool p).free = 0 ∧ (s.pool p).fallbackValid = false)) :
    ∃ t, exec (.alloc i) s = .next t
      ∧ Answered i (allocAnswer n (cmdMods w % 8) 0) s ((begun s i w b).bump 0x710006 1 p) t := by
  have hpool : (begun s i w b).pool p = s.pool p := by rw [State.pool, begun_mem, State.pool]
  exact alloc_answered h ho hp hr hd (State.alloc_fails (by rwa [hpool]))

end

/-- Memory is to the command as it was before it began. -/
theorem samePools_begun (s : State) (i : SlotId) (w : Nat) (b : Bool) : s.SamePools (begun s i w b) := by
  have hmem : (begun s i w b).mem = s.mem := begun_mem s i w b
  exact ⟨by rw [State.stored, hmem, State.stored], by rw [hmem]⟩

section
variable {s : State} {r p : Nat} (hring : s.ringSize = 0)
  (hserve : p = r ∨ ((s.pool r).state = 1 ∧ (s.pool r).free = 0 ∧ (s.pool r).fallbackValid = true ∧ (s.pool r).fallback = p))
  (hon : (s.pool p).state = 1) (hfree : 0 < (s.pool p).free) {c : Pool} (hc : (s.cacheReady p).pool p = c) (hstate : c.state = 1)
  (hne : c.cache ≠ [])
include hring hserve hon hfree hc hstate hne

/-- The manager's part of an ALLOC that takes a buffer, told from the state before the command. -/
theorem begun_alloc_takes (hgood : ∀ k ∈ c.cache, s.poisoned ((s.pool p).bitAt k) = false) (hr : r < 16) (i : SlotId) (w : Nat) (b : Bool) :
    ∃ j v, (begun s i w b).alloc r = (s.globalOf ((s.pool p).base + c.cache.getD j 0 * (s.pool p).size), v) ∧ s.Took p j v
      ∧ v.reg 0x710004 p = satAdd 64 (s.reg 0x710004 p) 1 ∧ (p ≠ r → v.reg 0x710005 r = satAdd 64 (s.reg 0x710005 r) 1) := by
  have hp : p < 65536 := by
    rcases hserve with rfl | ⟨-, -, -, rfl⟩
    · omega
    · have hlt := fieldOf_lt 250 247 (s.pool r).record.toNat
      rw [Pool.fallback]
      omega
  have hsame := samePools_begun s i w b
  have hring' : (begun s i w b).ringSize = 0 := by rwa [State.ringSize, begun_reg]
  obtain ⟨j, v, halloc, htook, hcount, hfall⟩ := State.alloc_takes (p := p) hring' (by simpa only [hsame.pool] using hserve)
    ((congrArg Pool.state (hsame.pool p)).trans hon) (by rwa [hsame.pool]) (((hsame.cacheReady hring hring').pool p).trans hc) hstate hne
    (by simpa only [hsame.pool, hsame.poisoned] using hgood) hp (by omega)
  rw [State.globalOf, begun_node, hsame.pool, ← State.globalOf] at halloc
  rw [begun_reg] at hcount hfall
  exact ⟨j, v, halloc, htook.of_samePools hsame hring hring' (begun_pads s i w b), hcount, hfall⟩

variable {i : SlotId} {w : Nat} {b : Bool} (h : Issues s i w b) (ho : cmdOp w = 0x27)
include h ho

theorem alloc_takes_buffer (hp : nextPtr (s.slot i) < 2048) {n : Nat} (hr : (s.slot i).value (cmdA w) = r) (hd : cmdD w = .s n)
    (hfits : (s.pool p).base + (s.pool p).count * (s.pool p).size ≤ 2 ^ 40)
    (hgood : ∀ k, k ∈ c.cache → k < (s.pool p).count ∧ s.poolBit (s.pool p) k = false ∧ s.poisoned ((s.pool p).bitAt k) = false) :
    ∃ t j, exec (.alloc i) s = .next t ∧ s.Took p j t
      ∧ (t.slot i).pair n = s.globalOf ((s.pool p).base + c.cache.getD j 0 * (s.pool p).size)
      ∧ (cmdMods w % 8 ≠ 0 → (t.slot i).pred (cmdMods w % 8) = decide ((t.slot i).pair n ≠ 0))
      ∧ t.reg 0x710004 p = satAdd 64 (s.reg 0x710004 p) 1 ∧ (p ≠ r → t.reg 0x710005 r = satAdd 64 (s.reg 0x710005 r) 1) := by
  have hrle : r ≤ 15 := hr ▸ issues_alloc_pool_le h ho
  obtain ⟨j, v, halloc, htook, hcount, hfall⟩ := begun_alloc_takes hring hserve hon hfree hc hstate hne
    (fun k hk => by
      obtain ⟨-, -, hword⟩ := hgood k hk
      exact hword) (by omega) i w b
  obtain ⟨t, ht, hans⟩ := alloc_answered h ho hp hr hd halloc
  have hplace : j < c.cache.length := hc ▸ htook.place
  have haddr : s.globalOf ((s.pool p).base + c.cache.getD j 0 * (s.pool p).size) < 2 ^ 64 := by
    obtain ⟨hk, -, -⟩ := hgood (c.cache.getD j 0) (by
      rw [List.getD_eq_getElem _ _ hplace]
      exact List.getElem_mem hplace)
    exact s.globalOf_lt (Pool.buffer_lt hk hfits)
  obtain ⟨hpair, hpred⟩ := allocAnswer_retired (u := s.slot i) (p := (s.slot i).ptr) (issues_alloc_pair h ho hd) haddr
    (Nat.mod_lt (cmdMods w) (by decide : 0 < 8))
  rw [← hans.slot] at hpair hpred
  exact ⟨t, j, ht, hans.took htook, hpair, fun h0 => by rw [hpair, hpred h0], (hans.reg _ _).trans hcount,
    fun hne => (hans.reg _ _).trans (hfall hne)⟩

end

/-! ## FREE -/

/-- A FREE is rejected in the state that the command began in as in the state before. -/
theorem refuses_begun {s : State} {a reason p : Nat} (h : s.Refuses a reason p) (i : SlotId) (w : Nat) (b : Bool) :
    (begun s i w b).Refuses a reason p := by
  have hsame := samePools_begun s i w b
  simp only [State.Refuses, State.Within, State.poolBit, hsame.pool, hsame.poisoned, hsame.rawByte, begun_nodeValid] at h ⊢
  exact h

theorem freeBody_here {x : Issue} {s : State} {a : Nat} (hx : (s.slot x.id).pair (cmdA x.word).num = a)
    (h : a = 0 ∨ nodeOf a = s.node ∨ (!s.nodeValid (nodeOf a)) = true) : freeBody x s = .ok (.next,
      let r := s.freeHere ⟨1, x.id.key⟩ a
      r.2.setSlot x.id ((r.2.slot x.id).setP (cmdMods x.word % 8) (decide (r.1 = 0)))) := by
  subst hx
  unfold freeBody
  rw [Cmd.slot_bind, Cmd.get_bind, if_pos h]
  rfl

section
variable {s v : State} {i : SlotId} {w : Nat} {b : Bool} (h : Issues s i w b) (ho : cmdOp w = 0x28) (hp : nextPtr (s.slot i) < 2048)
include h ho hp

/-- A FREE that this module answers sets its predicate by the manager's answer. -/
theorem free_answered {a c : Nat} (ha : (s.slot i).pair (cmdA w).num = a)
    (hhere : a = 0 ∨ nodeOf a = s.node ∨ s.nodeValid (nodeOf a) = false) (hc : (begun s i w b).freeHere ⟨1, i.key⟩ a = (c, v)) :
    ∃ t, exec (.free i) s = .next t ∧ Answered i (fun u => u.setP (cmdMods w % 8) (decide (c = 0))) s v t := by
  have hb := freeBody_here (x := issueOf s i w b) (s := begun s i w b) (a := a)
    (by rw [issueOf_id, issueOf_word, begun_pair, ha]) (by rwa [begun_node, begun_nodeValid, Bool.not_eq_true'])
  rw [issueOf_id, issueOf_word, hc] at hb
  have hcore : v.swarm.core = (begun s i w b).swarm.core := by
    have hk := State.freeHere_core (begun s i w b) ⟨1, i.key⟩ a
    rwa [hc] at hk
  obtain ⟨t, ht, hans⟩ := runCommand_answered (row := fun w => cmdOp w == 0x28) (g := fun u => u.setP (cmdMods w % 8) (decide (c = 0)))
    h (by simp [ho]) hb hcore (fun c l => Slot.setP_retire_cur (s.slot i) c l _ _ _ _) (Slot.setP_loops _ _ _) (Slot.setP_nest _ _ _) hp
  exact ⟨t, (exec_free i).trans (congrArg Host.Outcome.next ht), hans⟩

/-- A FREE of 0 (R211). -/
theorem free_zero (ha : (s.slot i).pair (cmdA w).num = 0) : ∃ t, exec (.free i) s = .next t ∧ OnlySlot i s t
    ∧ t.slot i = ((s.slot i).setP (cmdMods w % 8) true).retire (s.slot i).ptr .next := by
  obtain ⟨t, ht, hans⟩ := free_answered h ho hp ha (.inl rfl) (by rw [State.freeHere, if_pos rfl])
  refine ⟨t, ht, ⟨?_, hans.others⟩, hans.slot⟩
  rw [hans.rest, begun_fields]

theorem free_gives {p k : Nat} (hring : s.ringSize = 0)
    (ha : (s.slot i).pair (cmdA w).num = s.globalOf ((s.pool p).base + k * (s.pool p).size)) (hlt : p < 16) (hon : (s.pool p).state = 1)
    (hk : k < (s.pool p).count) (hset : s.poolBit (s.pool p) k = true) (hgood : s.poisoned ((s.pool p).bitAt k) = false)
    (hm : plainRegion.inHbmRange (s.pool p).meta (s.pool p).metaBytes = true)
    (hfits : (s.pool p).base + (s.pool p).count * (s.pool p).size ≤ 2 ^ 40) (hv : s.nodeValid s.node = true)
    (hne : (s.slot i).pair (cmdA w).num ≠ 0)
    (hapart : ∀ r, r < 16 → r ≠ p → (s.pool r).state ≠ 0 →
      overlap (s.pool p).base ((s.pool p).count * (s.pool p).size) (s.pool r).base ((s.pool r).count * (s.pool r).size) = false) :
    ∃ t, exec (.free i) s = .next t ∧ s.Gave p k t ∧ (cmdMods w % 8 ≠ 0 → (t.slot i).pred (cmdMods w % 8) = true) := by
  have hlocal := s.localOf_globalOf (Pool.buffer_lt hk hfits)
  have hnode := s.nodeOf_globalOf (Pool.buffer_lt hk hfits)
  generalize s.globalOf ((s.pool p).base + k * (s.pool p).size) = a at ha hlocal hnode
  rw [ha] at hne
  have hsame := samePools_begun s i w b
  have hbit : (begun s i w b).poolBit (s.pool p) k = s.poolBit (s.pool p) k := by rw [State.poolBit, hsame.rawByte, State.poolBit]
  have hmeta := (congrArg (fun q : Pool => plainRegion.inHbmRange q.meta q.metaBytes) (hsame.pool p)).trans hm
  have hring' : (begun s i w b).ringSize = 0 := (State.SameCounts.ringSize fun k n _ _ => begun_reg s i w b k n).trans hring
  obtain ⟨v, hfree, hgave⟩ := State.freeHere_gives (s := begun s i w b) (who := ⟨1, i.key⟩) (p := p) (k := k)
    (by rw [hsame.pool]; exact hk) (by simp only [hsame.pool]; exact hapart) hring' hmeta hne
    (by rw [begun_nodeValid, hnode]; exact hv) hlt (by rw [hsame.pool]; exact hon) (by rw [hsame.pool]; exact hlocal)
    (by rw [hsame.pool, hsame.poisoned]; exact hgood) (by rw [hsame.pool, hbit]; exact hset)
  obtain ⟨t, ht, hans⟩ := free_answered h ho hp ha (.inr (.inl hnode)) hfree
  refine ⟨t, ht, hans.gave (hgave.of_samePools hsame), fun h0 => ?_⟩
  rw [hans.slot, Slot.retire_pred, Slot.pred_setP _ (Nat.mod_lt _ (by decide)) h0]
  rfl

/-- A FREE that the manager of this module rejects (R211). -/
theorem free_rejects {a reason p : Nat} (ha : (s.slot i).pair (cmdA w).num = a) (hne : a ≠ 0) (hlt : p < 16) (hreason : reason ≠ 0)
    (hhere : nodeOf a = s.node ∨ s.nodeValid (nodeOf a) = false) (hwhy : s.Refuses a reason p) :
    ∃ t, exec (.free i) s = .next t ∧ s.Rejected ⟨1, i.key⟩ a reason p t
      ∧ t.slot i = ((s.slot i).setP (cmdMods w % 8) false).retire (s.slot i).ptr .next := by
  obtain ⟨v, hfree, hrej⟩ := State.freeHere_rejects (who := ⟨1, i.key⟩) hne hlt (refuses_begun hwhy i w b)
  obtain ⟨t, ht, hans⟩ := free_answered h ho hp ha (.inr hhere) hfree
  rw [decide_eq_false hreason] at hans
  exact ⟨t, ht, hans.rejected hrej, hans.slot⟩

end

/-- Settles O26: ALLOC by the buffer the manager takes (`State.alloc_takes`) or its failure, FREE by the buffer it takes back
(`State.freeHere_gives`) or its rejection (`State.freeHere_rejects`), each told through what the command leaves of the manager's state. -/
theorem poolCommands : Obligations.PoolCommands := by
  unfold Obligations.PoolCommands
  intro s i w b h hp hring u pr
  refine ⟨fun ho r p n hr hd hserve hon hfree hfits hstate hne hgood => ?takes, fun ho p n hr hd hfail => ?fails,
    fun ho p k ha hlt hon hk hset hgood hm hfits hv hne hapart => ?gives, fun ho ha => free_zero h ho hp ha,
    fun ho reason p hlt hne ha hwhy => ?rejects⟩
  case takes =>
    obtain ⟨t, j, ht, htook, hpair, hpred, hcount, hfall⟩ :=
      alloc_takes_buffer hring hserve hon hfree rfl hstate hne h ho hp hr hd hfits hgood
    obtain ⟨hbit, hbits, hbytes⟩ := State.marked_of_bytes htook.bytes
    exact ⟨t, j, ht, htook.place, hpair, hpred, hbit, hbits, hbytes, htook.free, htook.record, htook.cache, hcount, hfall, htook.others,
      htook.pads⟩
  case fails =>
    obtain ⟨t, ht, hans⟩ := alloc_none h ho hp hr hd hfail
    refine ⟨t, ht, hans.slot, ?_, fun k m hkm => ?_, hans.others, ?_⟩
    · rw [hans.reg, State.bump, State.reg_setReg, begun_reg]
    · rw [hans.reg, State.reg_bump_other _ hkm, begun_reg]
    · rw [hans.rest, begun_fields]
      rfl
  case gives =>
    obtain ⟨t, ht, hgave, hpred⟩ := free_gives h ho hp hring ha hlt hon hk hset hgood hm hfits hv hne hapart
    exact ⟨t, ht, hpred, hgave.bit, hgave.bits, hgave.outside, hgave.kept, hgave.free, hgave.record, hgave.others⟩
  case rejects =>
    generalize hpair : u.pair (cmdA w).num = a at hne ha hwhy ⊢
    have hrefuses : s.Refuses a reason p ∧ reason ≠ 0 ∧ (nodeOf a = s.node ∨ s.nodeValid (nodeOf a) = false) := by
      rcases hwhy with ⟨hreason, hzero, hnone⟩ | ⟨hnode, hv, hin, hno, hreason⟩
      · exact ⟨.inl ⟨hreason, hzero, hnone.imp_right And.right⟩, by omega, hnone.symm.imp_left And.left⟩
      · exact ⟨.inr ⟨by rw [hnode]; exact hv, hin, hno, hreason⟩, by omega, .inl hnode⟩
    obtain ⟨hrefuses, hreason, hhere⟩ := hrefuses
    obtain ⟨t, ht, hrej, hslot⟩ := free_rejects h ho hp hpair hne hlt hreason hhere hrefuses
    refine ⟨t, ht, hslot, hrej.bytes, hrej.pools, hrej.pads, hrej.counted, hrej.charged, ?_⟩
    rw [hrej.logged, Nat.mod_eq_of_lt ha, Nat.one_mul]
    rfl

end Sys2Proof.Proofs
end
